-- ==== Sys2Proof/Word.lean ====
section
/-! DEFINITION. The word types of the GP8's identifiers (00_scope.md, Shared identifiers) and the sparse-table type in which
every table and memory of the model is held. -/
namespace Sys2Proof

/-- One byte. -/
abbrev Byte := BitVec 8
/-- A 64-bit register word of the control region. -/
abbrev Word := BitVec 64
/-- Fabric endpoint ID, 12 bits. -/
abbrev Eid := BitVec 12
/-- Context identifier: partition[5:0] and context[9:0]. -/
abbrev Cid := BitVec 16
/-- Extent handle (R41): index in bits 17:0, generation in bits 23:18. -/
abbrev Xh := BitVec 24
/-- A 128 B line; byte i is bits 8i+7 to 8i. -/
abbrev Line := BitVec 1024

/-- A sparse table: (index, record) pairs, indices strictly rising, no record equal to the table's default. -/
abbrev Tbl (α : Type) := List (Nat × α)

end Sys2Proof
end

