-- ==== Sys2Proof/Syntax.lean ====
section
/-! DEFINITION. The commands of the GP8 (one constructor of Instr per row of the command table) and the plain-data types of
their operands: packets (R110, R324), flits and FEC blocks (R290, R292), timestamp exchanges (R314), and the outcomes that the
physical world supplies (decoder outcomes, test results, answers of units). -/
namespace Sys2Proof

/-- A packet: the header fields of R324 and the body fields of R110 (R358 for the host-memory messages). Reserved fields,
which R9 writes as zero and ignores, are not carried. `snp` is the SNP class bit of Qoreus (R353), false on Svaop. `dev` is no field: it marks
a packet that this device sends for itself and not for a partition, so that no session protects it (R468). (DESIGN CHOICE: log entry 17) -/
structure Packet where
  dst : Eid := 0
  src : Eid := 0
  cid : Cid := 0
  vc : Bool := false
  snp : Bool := false
  tc : Fin 8 := 0
  epoch : Bool := false
  last : Bool := false
  nocmp : Bool := false
  resync : Bool := false
  typ : BitVec 2 := 0
  syn : Bool := false
  fill : Bool := false
  brk : Bool := false
  pinc : Bool := false
  pseq : BitVec 16 := 0
  len : BitVec 12 := 32
  stat : BitVec 5 := 0
  load : BitVec 4 := 0
  lim : BitVec 2 := 0
  hops : Byte := 0
  rtag : BitVec 32 := 0
  prot : BitVec 96 := 0
  opc : Byte := 0
  wbPending : Bool := false
  reserved : Bool := false
  atomicGrant : Bool := false
  nodata : Bool := false
  aop : BitVec 4 := 0
  wide : Bool := false
  ctl : BitVec 4 := 0
  xh : Xh := 0
  offset : BitVec 40 := 0
  blen : BitVec 7 := 0
  tag : BitVec 16 := 0
  opnd : BitVec 128 := 0
  hpa : BitVec 64 := 0
  data : Line := 0
  rest : List Byte := []
  dev : Bool := false
  deriving DecidableEq, Repr

/-- A unit map of the module (R3, R532): one bit per stack, link die, tile, quadrant, hub die and management core. (DESIGN CHOICE: log entry 5) -/
structure UnitMap where
  stks : BitVec 8 := 0xFF
  linkdies : BitVec 4 := 0xF
  tiles : BitVec 32 := 0xFFFFFFFF
  quads : BitVec 4 := 0xF
  hubs : BitVec 2 := 3
  cores : BitVec 2 := 3
  deriving DecidableEq, Repr

/-- What the DRAM pins add to one stored codeword on one read: nothing, one symbol in error (its position 0 to 35), or errors
that the code cannot correct (with the symbol position the decoder names, when it names one). -/
inductive RawEcc where
  | clean
  | corrected (sym : Fin 36)
  | ue (sym : Option (Fin 36))
  deriving DecidableEq, Repr, Inhabited

/-- The body of a TSX (R314). -/
structure TsxBody where
  kstate : Byte := 0
  eid : Eid := 0
  tseq : BitVec 16 := 0
  tTx : BitVec 80 := 0
  tEchoTx : BitVec 80 := 0
  tEchoRx : BitVec 80 := 0
  echoTseq : BitVec 16 := 0xFFFF
  imageId : Word := 0
  deriving DecidableEq, Repr

/-- The body of a PARAM (R295, R353). -/
structure ParamBody where
  version : Byte := 1
  eid : Eid := 0
  credReq : BitVec 16 := 0
  credRsp : BitVec 16 := 0
  port : Byte := 0
  caps : Byte := 0
  credSnp : BitVec 16 := 0
  deriving DecidableEq, Repr

/-- A flit (R292): the header fields and the 240 B body; `cls` is byte 1 bit 0, the Qoreus class bit (R353), and `crn` header
bytes 10 and 11 (R353). -/
structure Flit where
  typ : BitVec 2 := 0
  vc : Bool := false
  cls : Bool := false
  sop : Bool := false
  eop : Bool := false
  rtx : Bool := false
  nak : Bool := false
  seq : BitVec 16 := 0
  ack : BitVec 16 := 0
  crr : BitVec 16 := 0
  crs : BitVec 16 := 0
  crn : BitVec 16 := 0
  crc : BitVec 32 := 0
  body : BitVec 1920 := 0
  deriving DecidableEq, Repr

/-- A received FEC block after the decoder (R290, R291): the block counter, the five flits, which codeword is uncorrectable,
and the corrected symbols (number in the block, bits corrected in it). -/
structure FecBlock where
  counter : BitVec 24 := 0
  f0 : Flit := {}
  f1 : Flit := {}
  f2 : Flit := {}
  f3 : Flit := {}
  f4 : Flit := {}
  bad0 : Bool := false
  bad1 : Bool := false
  corrected : List (Nat × Nat) := []
  deriving DecidableEq, Repr

/-- How a training or retraining step ended (R297, R308): passed, with the 16 bits that it yields (the peer's marker of R529 at step 1, the
round trip in ns at step 5) and the lanes that passed qualification, or failed. -/
inductive StepResult where
  | ok (value : BitVec 16) (laneOk : Byte)
  | failed (laneOk : Byte)
  deriving DecidableEq, Repr

/-- The retrain triggers of R307 that the port itself sees. -/
inductive RetrainCause where
  | lock | uncorr | ber | nak | protocol | peer
  deriving DecidableEq, Repr

/-- The result of a known-answer test (R499): passed, or the failing element and what differed. -/
inductive KatResult where
  | pass
  | fail (test : Byte) (elem : BitVec 32) (expected actual : BitVec 64)
  deriving DecidableEq, Repr

/-- The three output stages that accept writes only from the core with the highest claim (R421). -/
inductive OutStage where
  | warden | reply | link
  deriving DecidableEq, Repr

/-- The answers of a unit to the power handshake (R527). -/
inductive UnitAnswer where
  | accept
  | delay (us : Nat)
  | refuse (reason : Byte)
  deriving DecidableEq, Repr

/-- A row that the memory self-test found failing (R392): its place, and how many of the spare rows tried in its place failed their own test. -/
structure RowFail where
  stack : Fin 8 := 0
  ch : Fin 16 := 0
  bank : Fin 64 := 0
  row : Fin 32768 := 0
  bad : Nat := 0
  deriving DecidableEq, Repr

/-- A mailbox: mailbox m of the device window (`part` none) or of a partition window (R407). -/
structure MbId where
  part : Option (Fin 64) := none
  m : Fin 4 := 0
  deriving DecidableEq, Repr

/-- A protected extent as a member of the group describes it to another (R59): ARGS of GROUP_EXTENT_CREATE, and the slots that are lost when
it is described to the target of a rebuild. -/
structure GroupExt where
  part : BitVec 6 := 0
  parity : Bool := false
  wide : Bool := false
  rights : BitVec 12 := 0
  stripe : BitVec 2 := 0
  homeq : BitVec 2 := 0
  size : BitVec 18 := 0
  slots : BitVec 24 := 0
  lost : Byte := 0
  deriving DecidableEq, Repr

/-- Where GROUP_EXTENT_CREATE comes from (R59, R439): a mailbox, the Steward of another member that carries it here, or, for one that this
device carries, a member's answer or its silence for 4 × PT. -/
inductive CreateCall where
  | mailbox (mb : MbId)
  | carried (src : Fin 8) (xh : Xh) (e : GroupExt)
  | answered (src : Fin 8) (xh : Xh) (status : BitVec 16)
  | unanswered (src : Fin 8) (xh : Xh)
  deriving DecidableEq, Repr

/-- Where GROUP_EXTENT_REVOKE comes from (R59, R439), in the same way. -/
inductive RevokeCall where
  | mailbox (mb : MbId)
  | carried (src : Fin 8) (xh : Xh)
  | answered (src : Fin 8) (xh : Xh) (status : BitVec 16)
  | unanswered (src : Fin 8) (xh : Xh)
  deriving DecidableEq, Repr

/-- A step of a rebuild (R66): on the member that serves the extent, or on the target, a granule's lines that arrived from that member. -/
inductive RebuildIn where
  | due (ext : Fin 262144)
  | received (src : Fin 8) (xh : Xh) (granule : Nat) (lines : List (Nat × Line))
  deriving DecidableEq, Repr

/-- A delta of another member as it arrives (R63): from which member, the class, CID and RTAG of its packet, and the line. -/
structure DeltaIn where
  src : Fin 8
  tc : Fin 8
  cid : Cid
  rtag : BitVec 32
  data : Line
  deriving DecidableEq, Repr

/-- What starts the training of a DOWN port (R296): a signal on all its lanes, or its retry timer. -/
inductive TrainTrigger where
  | signal (port : Fin 17)
  | retry (port : Fin 17)
  deriving DecidableEq, Repr

/-- How the boot of a standby core ends (R421, R423): it fails, or it presents its claim, and the old core, before it is held in reset, may write
late to an output stage. -/
inductive StandbyBoot where
  | failed
  | booted (late : Option OutStage)
  deriving DecidableEq, Repr

/-- The commands: one constructor per row of spec/opcode_table.json, in the table's order. -/
inductive Instr where
  /-- POWER_ON (R532): VIN rising through 40 V starts soft-start and the start-up sequence from step 1. -/
  | powerOn
  /-- RAIL_POWER_GOOD (R518): A rail's power-good signal lets the converter raise the next rail in the fixed order. -/
  | railPowerGood
  /-- RAIL_POWER_GOOD_TIMEOUT (R518): A rail not reporting power-good within 2 ms stops every rail; the converter retries once or stays off after a second failure. -/
  | railPowerGoodTimeout
  /-- RAIL_RETRY_TIMER (R518): 100 ms after a rail failure the converter retries the rail sequence once. -/
  | railRetryTimer
  /-- OSCILLATOR_STABLE (R532): The 100 MHz oscillator becomes stable and the management island leaves reset and reads the fuses. -/
  | oscillatorStable
  /-- LOGIC_SELFTEST_DONE (R532): Scan and SRAM built-in self-test of the fused-good logic units completes. -/
  | logicSelftestDone (passed : UnitMap)
  /-- MEM_PHY_TRAINING_DONE (R391): Power-up and PHY training of every channel of every enabled stack completes. -/
  | memPhyTrainingDone
  /-- MEM_SELFTEST_DONE (R392): Known-pattern self-test with post-package repair of every channel completes, failing a stack with an unrepaired failure. -/
  | memSelftestDone (rows : List RowFail)
  /-- MEM_FILL_DONE (R393): Every line is filled with encrypted zeros under a throwaway key, which is then destroyed. -/
  | memFillDone (mc0 mc1 : Bool)
  /-- STEWARD_BOOT_DONE (R532): Steward has booted and verified its image, runs start-up known-answer tests, stages UNIT_MISMATCH and RESET_DONE, and begins mailbox service. -/
  | stewardBootDone (kat : BitVec 32) (staged : Bool)
  /-- RESET_PIN (R535): RESET_N held low for at least 10 µs causes a whole-chip reset with cause PIN. -/
  | resetPin (us : Nat)
  /-- INPUT_FAULT (R517): VIN above 64 V for 1 ms or below 38 V for 100 µs stops the converter and loses all state. -/
  | inputFault (mv us : Nat)
  /-- THERMAL_TRIP (R522): A die, stack or converter sensor over its trip limit on three consecutive samples stops ports and drops all rails but VMGT. -/
  | thermalTrip
  /-- I3C_WAKE (R528): An I3C WAKE write is a wake event that starts the wake sequence from the current power state. -/
  | i3cWake
  /-- I3C_RESET (R537): Writing 0x5A then 0xA5 within 1 ms to the I3C RESET index causes a whole-chip reset with cause COMMAND. -/
  | i3cReset (b0 b1 : Byte) (gapUs : Nat)
  /-- FT_CORRECTION_BROADCAST (R13): Every 256 ns the FT keeper broadcasts a correction to every island replica. -/
  | ftCorrectionBroadcast
  /-- FT_NOW_NS_READ (R233): A read of FT_NOW_NS returns the keeper's integer nanoseconds and latches the matching fraction into FT_NOW_FRAC. -/
  | ftNowNsRead (p : Packet)
  /-- CTL_WR (R403): A control-region write to a register with no row of its own is checked under R404 and applied or refused with ACCESS_DENIED. -/
  | ctlWr (p : Packet)
  /-- MAILBOX_POST (R409): A CTL_WR setting request OWN posts the mailbox request and increments MSEQ. -/
  | mailboxPost (p : Packet)
  /-- MAILBOX_REPLY_CLEAR (R409): A CTL_WR clearing reply OWN returns the mailbox from REPLIED to IDLE. -/
  | mailboxReplyClear (p : Packet)
  /-- PART_ABORT_WRITE (R416): Writing GO = 1 to PART_ABORT of an OPEN or ARMED partition starts the hardware abort; otherwise it completes OK with no effect. -/
  | partAbortWrite (p : Packet)
  /-- ABORT_COMPLETE (R417): Queued and outstanding requests of the aborted partition have completed ABORTED, DONE sets and keys of a confidential partition are destroyed. -/
  | abortComplete (part : Fin 64)
  /-- FQ_ACK_READ (R492): A partition-requester read of FQ_ACK[k] frees the head fault record when k matches HEAD_SEQ and returns FQ_STATUS. -/
  | fqAckRead (p : Packet)
  /-- ELOG_ACK_READ (R497): An administrative read of ELOG_ACK[k] frees the head error record when k matches HEAD_SEQ. -/
  | elogAckRead (p : Packet)
  /-- FAULT_RECORD_POST (R490): When a fault-queue place is free, the next overflow, pending-slot or Steward-held record is posted with the next SEQ and a FAULT notification is staged if none is pending. -/
  | faultRecordPost (part : Fin 64)
  /-- PENDING_RECORD_TIMEOUT (R167): A fault record pending 1 ms in a tile slot is moved by Steward to the overflow list, PEND clears and the engine unparks. -/
  | pendingRecordTimeout (tile : Fin 32)
  /-- ROUTE_PACKET (R334): A link die routes an arriving or originated DATA packet: ejection, TC7 queueing or demotion, epoch selection, port choice, deflection, hold or discard. -/
  | routePacket (die : Fin 4) (inp : Option (Fin 4)) (p : Packet)
  /-- TRANSIT_REEVALUATE (R334): At each flit time a packet held in the transit buffer is offered again to ejection and the ports. -/
  | transitReevaluate (die : Fin 4)
  /-- LIMITER_RELEASE (R282): A request held by the EID token bucket is released once tokens are non-negative, with later requests of the pair. -/
  | limiterRelease (eid : Eid)
  /-- ADMIT_ENTRY_RESUME (R279): A request held for lack of an admission-arbiter entry proceeds when an entry frees. -/
  | admitEntryResume (stack : Fin 8)
  /-- PAIR_GAP_TIMEOUT (R344): A pair's gap timer reaching PAIR_TIMEOUT breaks the pair, sending TIMEOUTs and a break notice or releasing held completions. -/
  | pairGapTimeout (src : Eid) (rsp : Bool)
  /-- BREAK_NOTICE (R344): A received break notice completes the open requests of the pair from that PSEQ with TIMEOUT and starts a new incarnation. -/
  | breakNotice (p : Packet)
  /-- ORIGINATED_COMPLETION (R313): A completion, FILL or synthetic completion arrives for a request this GP8 originated and the first one is accepted. -/
  | originatedCompletion (p : Packet)
  /-- REQUEST_TIMEOUT (R345): A request the GP8 sent with no completion after 4 × PAIR_TIMEOUT completes with TIMEOUT at its originating unit. -/
  | requestTimeout (rtag : BitVec 32)
  /-- RD_ONCE (R116): A non-caching read of a line or part of a line is checked and served, snooping an E or M owner when coherent. -/
  | rdOnce (p : Packet)
  /-- RD_SHARED (R116): A caching shared read allocates or updates a directory entry and grants E or S, or snoops the owner. -/
  | rdShared (p : Packet)
  /-- RD_OWN (R116): A caching read for ownership invalidates other holders and grants M. -/
  | rdOwn (p : Packet)
  /-- UPGRADE (R116): A sharer's request for ownership invalidates other holders and grants M, without data when exactly listed. -/
  | upgrade (p : Packet)
  /-- WR_LINE (R116): A full-line write invalidates holders and commits, or merges contributions in a COMBINE extent. -/
  | wrLine (p : Packet)
  /-- WR_PARTIAL (R116): A byte-masked write invalidates holders and read-modify-writes the line, or merges contributions in a COMBINE extent. -/
  | wrPartial (p : Packet)
  /-- ATOMIC (R126): An atomic is executed at the home or granted to the requester as GRANT_M with ATOMIC_GRANT, by predictor and PRED. -/
  | atomic (p : Packet)
  /-- WB_DIRTY (R116): An owner's writeback writes the line and frees the entry, or is discarded with ACCESS_DENIED from a non-owner. -/
  | wbDirty (p : Packet)
  /-- EVICT_CLEAN (R116): A holder's clean eviction notice removes it from the entry and completes OK. -/
  | evictClean (p : Packet)
  /-- LINE_RECLAIM (R136): A reclaim rewrites check bits of an orphan-marked line to return it to I, or completes OK with no effect. -/
  | lineReclaim (p : Packet)
  /-- SNP_ACK (R116): An agent's snoop answer without data counts toward the open transaction, which completes on the last answer. -/
  | snpAck (p : Packet)
  /-- SNP_ACK_DATA (R116): An agent's snoop answer with modified data is written to DRAM and counts toward the open transaction. -/
  | snpAckData (p : Packet)
  /-- GRANT_ACK (R116): The grantee's acknowledgement closes a GRANT_WAIT transaction and serves any reservation. -/
  | grantAck (p : Packet)
  /-- TRANSACTION_PAIR_TIMEOUT (R116): A transaction waiting past the pair timeout treats a silent target as answered or turns a missing GRANT_ACK into SNP_INV, logging COH_AGENT_SILENT. -/
  | transactionPairTimeout (q : Fin 4) (txn : Fin 1024)
  /-- RESERVATION_EXPIRE (R123): A reservation at the head of its line expires after 50 µs without a reissue and is counted. -/
  | reservationExpire (q : Fin 4) (line : Nat)
  /-- ORPHAN_SCAN_DONE (R133): The per-slice host-loss scan ends, ORPHAN_SCAN clears and COH_HOST_LOST records are formed per extent. -/
  | orphanScanDone (q : Fin 4)
  /-- ELDER_REQUEST (R98): A request from a filtered EID is checked against the Elder window and region table and served or ended with LEGACY_ABORT. -/
  | elderRequest (p : Packet)
  /-- CTL_RD (R403): A control-region read request is checked under R404 and answered by the control decoder. -/
  | ctlRd (p : Packet)
  /-- PARITY_DELTA (R63): A parity member XORs a data member's delta into the parity line. -/
  | parityDelta (xh : Xh) (offset : BitVec 40) (delta : DeltaIn)
  /-- ADMISSION_SELECT (R276): A stack's admission arbiter admits the next request by strict flows, background pace and weighted fair queuing. -/
  | admissionSelect (stack : Fin 8)
  /-- DRAM_SCHEDULE (R372): A channel controller issues the next request by age, open-row hit and order, draining writes by watermark. -/
  | dramSchedule (stack : Fin 8) (ch : Fin 16) (permit : BitVec 64)
  /-- DRAM_ACCESS_DONE (R554): A DRAM access completes, the line is ECC-classed and the completion is formed with the in-flight counter decremented. -/
  | dramAccessDone (stack : Fin 8) (ch : Fin 16) (c0 c1 : RawEcc)
  /-- REFRESH_DUE (R374): A bank refresh falls due and is issued, or postponed during a blackout or rate change. -/
  | refreshDue (stack : Fin 8) (ch : Fin 16) (bank : Fin 64)
  /-- CALIBRATION_DUE (R376): A channel's calibration falls due and starts a blackout of at most 1 µs, in a quiet stretch while a schedule runs. -/
  | calibrationDue (stack : Fin 8) (ch : Fin 16)
  /-- CALIBRATION_FORCED (R377): A channel reaching 200 ms without a quiet stretch calibrates at the next time no scheduled operation runs. -/
  | calibrationForced (stack : Fin 8) (ch : Fin 16)
  /-- CALIBRATION_DONE (R376): A blackout ends and the channel serves its waiting requests. -/
  | calibrationDone (stack : Fin 8) (ch : Fin 16) (phyOk : Bool)
  /-- PATROL_STEP (R389): The patrol scrub reads the next line and corrects or poisons it. -/
  | patrolStep (stack : Fin 8) (c0 c1 : RawEcc)
  /-- SCRUB_STEP (R57): The extent scrub overwrites the next granule with zeros under a throwaway key at SCRUB_SHARE pace. -/
  | scrubStep (ext : Fin 262144)
  /-- SCRUB_DONE (R57): The scrub completes, its key is destroyed, the extent becomes FREE and its granules return to the pool. -/
  | scrubDone (ext : Fin 262144)
  /-- RATE_CHANGE_STACK_DONE (R379): One stack finishes relock and retrain at the new rate and admission resumes; the next named stack starts. -/
  | rateChangeStackDone
  /-- SENSOR_SAMPLE (R505): Every 100 µs each sensor is sampled, updating VALUE, PEAK and WARN. -/
  | sensorSample (values : List Int)
  /-- CAPPER_SAMPLE (R519): Every 1 µs the capper compares mean input power with CAP and engages or steps levels 1 and 2. -/
  | capperSample (power : BitVec 16)
  /-- CAPPER_RATE_LOWER (R519): After 10 ms at the deepest level-2 step Steward lowers every stack's rate by one code. -/
  | capperRateLower
  /-- CAPPER_RELEASE (R519): After 1 ms below 95 % of CAP the capper steps back one step or level. -/
  | capperRelease
  /-- LOAD_INTERVAL (R284): Every 1 µs each stack computes its mean admission delay for the load field. -/
  | loadInterval
  /-- HISTOGRAM_SAMPLE (R286): At each multiple of 1,000 ns every queue's depth and delay are binned into histograms. -/
  | histogramSample
  /-- WALKER_TAKE_JOB (R153): The walker takes the next QUEUED job in submission order, checks its context and starts the walk. -/
  | walkerTakeJob (tile : Fin 32)
  /-- WALKER_TABLE_READ_DONE (R76): A page-table read completes and the walker checks the entry, continues the walk, writes an RPL entry or faults. -/
  | walkerTableReadDone (q : Fin 4)
  /-- DISPATCH (R156): A free, unparked engine with no scheduled operation due picks the next job by resumption and partition round robin. -/
  | dispatch (tile : Fin 32)
  /-- BLOCK_END (R159): An operation block ends after 16 KiB or 256 cycles, making a safe point where pending stops take effect. -/
  | blockEnd (tile : Fin 32) (elems prefetch : Nat)
  /-- ENGINE_ACCESS_COMPLETE (R165): An engine access completes; RETRY is recorded, other failures end the job, and the last completion ends or suspends a job or scheduled operation. -/
  | engineAccessComplete (tile : Fin 32)
  /-- ENGINE_RETRY_REISSUE (R161): After the backoff wait the engine reissues a RETRY-completed access. -/
  | engineRetryReissue (tile : Fin 32)
  /-- BUDGET_EXHAUSTED (R164): A job's engine time reaching BUDGET ends it at the next safe point with cause BUDGET. -/
  | budgetExhausted (tile : Fin 32)
  /-- QUANTUM_EXPIRY (R157): A job running 1 ms while another partition waits is stopped at its next safe point as quantum-stopped. -/
  | quantumExpiry (tile : Fin 32)
  /-- ENGINE_FAULT (R164): The engine's checking logic detects an error; the job ends ENGINE_FAULT and the tile becomes suspect. -/
  | engineFault (tile : Fin 32) (checker : Byte)
  /-- LANDING_ABSORB (R225): A tile absorbs queued contributions into its landing window when its absorb port is free and reports them absorbed. -/
  | landingAbsorb (tile : Fin 32)
  /-- ZERO_FILL_DONE (R226): A COMBINE zero-fill ends, VALID sets and CLEARING clears. -/
  | zeroFillDone (ext : Fin 262144)
  /-- CHUNK_RELEASE_DONE (R228): All lines of a draining chunk are merged into DRAM, the window becomes FREE and RESIDENT decreases. -/
  | chunkReleaseDone (tile : Fin 32) (win : Fin 16)
  /-- PHASE_DRAIN_DONE (R47): The old-phase in-flight counter reaches zero after a phase flip and the waiting unshare, withdraw or Elder remap replies. -/
  | phaseDrainDone (ext : Fin 262144)
  /-- REVOKE_DRAIN_DONE (R54): All back-invalidations are acknowledged and both counters reach zero; the key is destroyed, STATE becomes SCRUBBING and the reply is posted. -/
  | revokeDrainDone (ext : Fin 262144)
  /-- CONTEXT_RETIRE_DONE (R39): A RETIRING context whose jobs and pre-destroy requests have ended becomes FREE. -/
  | contextRetireDone (cid : Cid)
  /-- PARTITION_FREE (R31): A CLOSING partition with its last extent replied and last context FREE becomes FREE, emptying its queue and mailboxes. -/
  | partitionFree (part : Fin 64)
  /-- GROUP_HEARTBEAT_SEND (R64): Every 1 ms each pool-group member sends a heartbeat to every other member. -/
  | groupHeartbeatSend
  /-- GROUP_HEARTBEAT (R64): A heartbeat from a group member is received and its silence timer restarts. -/
  | groupHeartbeat (slot : Fin 8)
  /-- GROUP_MEMBER_LOST (R65): A member silent for 4 ms is declared lost and, with a majority, failover or degraded service starts. -/
  | groupMemberLost (slot : Fin 8)
  /-- REBUILD_STEP (R66): REBUILD restores the next granule to its target and advances CURSOR, clearing DEGRADED at SIZE. -/
  | rebuildStep (r : RebuildIn)
  /-- TSX_SEND (R314): Every 4 µs each UP port sends a timestamp exchange LCTL flit. -/
  | tsxSend (port : Fin 17)
  /-- TSX (R316): A received timestamp exchange yields offset and delay for the keeper and the peer's keeper and schedule state. -/
  | tsx (port : Fin 17) (x : TsxBody) (arrival : BitVec 80)
  /-- KEEPER_LOCK (R239): 64 consecutive good exchanges take an ACQUIRING or HOLDOVER keeper to LOCKED. -/
  | keeperLock
  /-- KEEPER_OFFSET_LOSS (R239): Offset above 20 ns for 16 consecutive exchanges takes a LOCKED keeper to LOST. -/
  | keeperOffsetLoss
  /-- HOLDOVER_EXPIRE (R239): HOLD_ACC exceeding HOLD_MAX takes a HOLDOVER keeper to LOST. -/
  | holdoverExpire
  /-- SCHED_IDLE_AFTER_LOSS (R240): When the last running scheduled operation ends after sync loss, windows are FREE, STATE becomes IDLE and the image is re-staged. -/
  | schedIdleAfterLoss
  /-- LIST_SWITCH (R243): At each cycle start every gate unit fixes its list and column for the cycle, moving lost ports to alternate columns. -/
  | listSwitch
  /-- SCHED_TAKEOVER (R253): At T_x the staged lists, tables and routes become armed, landing windows are placed and SCHED_EVENT TAKEOVER is sent. -/
  | schedTakeover
  /-- ARM_LATE_DEADLINE (R253): Arming not complete by T_x − 100 µs fails with ARM_LATE and SCHED_EVENT ARM_FAILED. -/
  | armLateDeadline
  /-- ARM_STEPS_DONE (R253): Loading and window freeing finish and the SCHED_ARM reply is posted with STATE PENDING. -/
  | armStepsDone
  /-- SCHED_OP_DUE (R260): A valid entry falls due in its cycle, stops any dynamic job and starts, or waits for a running scheduled operation. -/
  | schedOpDue (tile : Fin 32) (entry : Fin 512)
  /-- SCHED_OP_DEADLINE (R261): An operation still running at START + DEADLINE is counted as overrun. -/
  | schedOpDeadline (tile : Fin 32)
  /-- PORT_FRAME_START (R274): A port starts the next frame: replay and control, admitted TC7, then weighted fair queuing among TC0–TC6. -/
  | portFrameStart (port : Fin 17)
  /-- FTS_PULSE (R546): Each time FT reaches a multiple of 1 ms a 100 ns pulse is driven on FTS. -/
  | ftsPulse
  /-- FEC_BLOCK_RECEIVE (R291): A received FEC block is decoded; an uncorrectable codeword discards its five flits and triggers a NAK. -/
  | fecBlockReceive (port : Fin 17) (b : FecBlock)
  /-- FLIT_RECEIVE (R299): A DATA or IDLE flit is CRC-checked, accepted, discarded as duplicate or missing, and its ACK, NAK and credits are applied. -/
  | flitReceive (port : Fin 17) (f : Flit)
  /-- NAK_REPEAT_TIMER (R299): With no flit of the expected SEQ within 2 µs plus round trip, the receiver repeats the NAK. -/
  | nakRepeatTimer (port : Fin 17)
  /-- REPLAY_TIMEOUT (R299): The oldest unacknowledged flit older than 8 µs plus round trip triggers a replay. -/
  | replayTimeout (port : Fin 17)
  /-- SPILL_WRITE (R302): The oldest replay flits move to the DRAM spill region in groups of 8. -/
  | spillWrite (port : Fin 17)
  /-- PARAM (R298): A received PARAM LCTL is validated, sets peer EID and credits, and brings the port UP or DOWN with PARAM_BAD. -/
  | param (port : Fin 17) (x : ParamBody)
  /-- RETRAIN_REQ (R307): A received RETRAIN_REQ makes the port join a retrain. -/
  | retrainReq (port : Fin 17) (cause : Byte)
  /-- RESUME (R296): A RESUME exchanged after retrain returns the port to UP and starts replay from the peer's ACK + 1. -/
  | resume (port : Fin 17) (ack : BitVec 16)
  /-- DOWN (R310): A received DOWN LCTL takes the port down with cause PEER_DOWN. -/
  | down (port : Fin 17) (reason : Byte)
  /-- TRAINING_START (R296): Signal on all lanes, or the 100 ms retry timer with AUTO, starts training of a DOWN port. -/
  | trainingStart (trigger : TrainTrigger)
  /-- TRAINING_STEP_DONE (R297): A training step (pattern, equalisation, lock and deskew, qualification) completes and the next starts or training fails. -/
  | trainingStepDone (port : Fin 17) (r : StepResult)
  /-- TRAINING_STEP_TIMEOUT (R296): A training step exceeding its bound takes the port DOWN with TRAIN_FAILED. -/
  | trainingStepTimeout (port : Fin 17)
  /-- RETRAIN_TRIGGER (R307): Lock loss, an error or NAK count threshold, or a protocol error starts a retrain, or link-down if flapping. -/
  | retrainTrigger (port : Fin 17) (cause : RetrainCause)
  /-- RETRAIN_STEP_DONE (R308): A retrain step completes and the next starts. -/
  | retrainStepDone (port : Fin 17) (r : StepResult)
  /-- RETRAIN_TIMEOUT (R296): A retrain not complete in 50 µs takes the port down with RETRAIN_FAILED. -/
  | retrainTimeout (port : Fin 17)
  /-- SIGNAL_LOST (R310): No valid FEC block on any lane for 2 µs takes the port down. -/
  | signalLost (port : Fin 17)
  /-- PORT_LISTEN_IDLE (R524): In D1 a port with no DATA flit for 100 µs becomes listening. -/
  | portListenIdle (port : Fin 17)
  /-- ROUTE_FLIP_AT_TF (R331): At T_f each link die makes its LOADED slot ACTIVE and the old slot DRAINING. -/
  | routeFlipAtTf
  /-- RESTAMP (R332): At T_f + RESTAMP_DELAY queued packets are re-stamped to CUR and each UP port sends DRAIN. -/
  | restamp (die : Fin 4)
  /-- DRAIN (R332): A received DRAIN packet sets DRAINED for its port and, when all are drained, frees the old slot with ROUTE_EVENT. -/
  | drain (die : Fin 4) (port : Fin 4)
  /-- DRAIN_TIMEOUT (R332): A drain not complete 10 ms after T_f forces the missing DRAINED bits and frees the slot. -/
  | drainTimeout (die : Fin 4)
  /-- MCMP (R358): The host completes an MWR or MWRP. -/
  | mcmp (p : Packet)
  /-- MCMP_DATA (R358): The host completes an MRD with 128 B of data. -/
  | mcmpData (p : Packet)
  /-- HOST_MEMORY_TIMEOUT (R359): A host-memory request without an answer in 4 × PAIR_TIMEOUT completes with TIMEOUT. -/
  | hostMemoryTimeout (tag : BitVec 16)
  /-- QOREUS_LINK_UP (R366): After Qoreus reaches UP and the orphan scan ends, Steward sends LINK_UP on vector 0 and may set the host AGENT bit. -/
  | qoreusLinkUp
  /-- NOTIFY_SEND (R413): The notification engine sends the next staged record of a target as NOTIFY or VEC and frees its ring place. -/
  | notifySend (target : Fin 65)
  /-- STAGING_PLACE_FREE (R415): A waiting JOB_DONE, CMD_DONE or held event record is staged when its target's ring frees a place. -/
  | stagingPlaceFree (target : Fin 65)
  /-- HEARTBEAT_WATCHDOG (R419): The active core not writing its heartbeat for 20 ms starts a takeover with cause WATCHDOG. -/
  | heartbeatWatchdog
  /-- CORE_FAULT (R419): The active core reporting an unrecoverable fault starts a takeover. -/
  | coreFault
  /-- STANDBY_BOOT_DONE (R423): The standby has booted and verified the image, presents claim + 1 and the old core is held in reset. -/
  | standbyBootDone (boot : StandbyBoot)
  /-- JOURNAL_REPLAY_DONE (R423): The new core completes or reruns incomplete commands, resumes mailbox service and sends TAKEOVER. -/
  | journalReplayDone
  /-- OLD_CORE_CHECK_DONE (R423): The old core's boot check ends and it becomes READY standby or FAILED. -/
  | oldCoreCheckDone (ok : Bool)
  /-- SWITCHOVER_START (R453): Once running commands have replied, the switchover commit starts, aborting armed confidential partitions. -/
  | switchoverStart
  /-- SWITCHOVER_BOOT_DONE (R479): The standby boots the staged image and takes over, or on failure the old core stays and COMMIT_FAILED is sent. -/
  | switchoverBootDone (ok : Bool)
  /-- SWITCHOVER_COMPLETE (R479): The new core finishes carried commands, switches the boot slot, clears COMMITTING and posts the reply and FW_EVENT. -/
  | switchoverComplete
  /-- KAT_DUE (R500): A known-answer test falls due after 256 jobs or 10 minutes since the last test. -/
  | katDue (tile : Fin 32)
  /-- SUSPECT_TEST_DUE (R502): On a suspect tile a test falls due 1 s after the last test. -/
  | suspectTestDue (tile : Fin 32)
  /-- KAT_START (R500): A due test starts when the engine has no running dynamic job or scheduled operation. -/
  | katStart (tile : Fin 32)
  /-- KAT_SEGMENT_END (R499): A test segment of at most 1 µs ends, letting a due scheduled operation run. -/
  | katSegmentEnd (tile : Fin 32)
  /-- KAT_END (R502): A test ends; pass or fail updates the tile's health, held completions and possibly disables the tile. -/
  | katEnd (tile : Fin 32) (r : KatResult)
  /-- SNAPSHOT_LATCH (R512): Each unit latches its counters into the snapshot view when its replica reads T. -/
  | snapshotLatch
  /-- POWER_UNIT_ANSWER (R527): A unit answers the power handshake with ACCEPT, DELAY or REFUSE. -/
  | powerUnitAnswer (unit : BitVec 16) (a : UnitAnswer)
  /-- POWER_DELAY_REASK (R527): After a unit's DELAY interval Steward asks it again. -/
  | powerDelayReask (unit : BitVec 16)
  /-- POWER_DELAY_EXPIRED (R527): A unit not accepting within 1 ms counts as refused with DELAY_EXPIRED. -/
  | powerDelayExpired (unit : BitVec 16)
  /-- POWER_ENTRY_STEP_DONE (R527): An entry step completes, the abort point is checked, and entry continues, is abandoned or reaches the target state. -/
  | powerEntryStepDone
  /-- WAKE_STEP_DONE (R528): A wake step completes on its ready signal and the next begins, ending in D0. -/
  | wakeStepDone
  /-- PARTITION_CREATE (R437): Creates a FREE partition, writing PART_CFG, PART_ADMIT, PART_SHAPE and PART_NTF and making it OPEN. -/
  | partitionCreate (mb : MbId)
  /-- PARTITION_ARM (R437): Takes an OPEN partition to ARMED and locks PART_CFG. -/
  | partitionArm (mb : MbId)
  /-- PARTITION_RECOVER (R437): Returns a non-confidential ABORTED partition to OPEN with contexts IDLE. -/
  | partitionRecover (mb : MbId)
  /-- PARTITION_CLOSE (R437): Takes a partition to CLOSING, discards unposted records, destroys contexts, revokes extents and replies at FREE. -/
  | partitionClose (mb : MbId)
  /-- CONTEXT_CREATE (R437): Creates a context entry under the quotas and returns its CID. -/
  | contextCreate (mb : MbId)
  /-- CONTEXT_SET (R437): Rewrites an IDLE or ACTIVE context's fields and state. -/
  | contextSet (mb : MbId)
  /-- CONTEXT_DESTROY (R39): Sets the context RETIRING, cancels its jobs and replies when it is FREE. -/
  | contextDestroy (mb : MbId)
  /-- EXTENT_CREATE (R438): Allocates granules, writes map and entry, generates the key and returns the XH. -/
  | extentCreate (mb : MbId)
  /-- EXTENT_REVOKE (R54): Sets the extent REVOKING, increments GEN, discards landing chunks and back-invalidates lines, then drains. -/
  | extentRevoke (mb : MbId)
  /-- EXTENT_SHARE_OFFER (R438): The owner offers an extent to a member partition, creating a slot without consent. -/
  | extentShareOffer (mb : MbId)
  /-- EXTENT_SHARE_ACCEPT (R438): The member consents and Warden sets CONSENT. -/
  | extentShareAccept (mb : MbId)
  /-- EXTENT_SHARE_WITHDRAW (R50): The member withdraws consent, clearing its slot and draining its requests. -/
  | extentShareWithdraw (mb : MbId)
  /-- EXTENT_UNSHARE (R50): The owner or administrator clears a member's slot and drains its requests. -/
  | extentUnshare (mb : MbId)
  /-- EXTENT_QUERY (R438): Returns the extent entry and its protection or combine record. -/
  | extentQuery (mb : MbId)
  /-- DEVICE_SET_SCRUB (R438): Sets SCRUB_SHARE for scrub, rebuild and zero-fill pacing. -/
  | deviceSetScrub (mb : MbId)
  /-- GROUP_CONFIG (R439): Forms a pool group or replaces the EIDs of lost slots. -/
  | groupConfig (mb : MbId)
  /-- GROUP_EXTENT_CREATE (R439): Creates a protected extent on every member of the group. -/
  | groupExtentCreate (c : CreateCall)
  /-- GROUP_EXTENT_REVOKE (R439): Revokes a protected extent on every reachable member. -/
  | groupExtentRevoke (c : RevokeCall)
  /-- GROUP_PROMOTE (R439): Makes the survivor of a two-member group serve alone. -/
  | groupPromote (mb : MbId)
  /-- GROUP_REBUILD (R439): Starts, pauses or resumes rebuild of a lost slot. -/
  | groupRebuild (mb : MbId)
  /-- INVALIDATE_RANGE (R89): Flushes walker caches, stops affected jobs, re-resolves affected RPL entries and resumes the jobs. -/
  | invalidateRange (mb : MbId)
  /-- ELDER_BIND (R440): Binds, rebinds or unbinds the Elder window and its EID filter. -/
  | elderBind (mb : MbId)
  /-- ELDER_MAP (R440): Writes Elder region entries all-or-nothing and drains replaced mappings. -/
  | elderMap (mb : MbId)
  /-- COH_AGENT_SET (R441): Sets or clears AGENT_MAP bits, back-invalidating before a clear. -/
  | cohAgentSet (mb : MbId)
  /-- COH_CONFIG (R441): Writes the atomic placement policy COH_CFG.PRED. -/
  | cohConfig (mb : MbId)
  /-- JOB_SUBMIT (R151): Validates a job descriptor, reads its range list and parameter block, places it on a tile and returns the JOB_ID. -/
  | jobSubmit (mb : MbId)
  /-- JOB_CANCEL (R169): Cancels a job and replies when it is FREE. -/
  | jobCancel (mb : MbId)
  /-- COMBINE_SETUP (R226): Sets a combine record's format and anchor and zero-fills the extent. -/
  | combineSetup (mb : MbId)
  /-- COMBINE_CLEAR (R226): Zero-fills a combining extent keeping format and anchor. -/
  | combineClear (mb : MbId)
  /-- COMBINE_RESIDE (R226): Places a chunk range in landing windows of their home quadrants, all or nothing. -/
  | combineReside (mb : MbId)
  /-- COMBINE_RELEASE (R228): Starts draining each resident chunk of a range back to DRAM. -/
  | combineRelease (mb : MbId)
  /-- FT_CONFIG (R444): Writes FT_CFG and restarts acquisition or root locking. -/
  | ftConfig (mb : MbId)
  /-- SCHED_STAGE (R444): Copies a schedule image into the staged slot and sets STAGED. -/
  | schedStage (mb : MbId)
  /-- SCHED_ARM (R251): Validates the staged image, computes T_x and loads it for takeover. -/
  | schedArm (mb : MbId)
  /-- SCHED_DISARM (R444): Schedules a takeover by the no-image state. -/
  | schedDisarm (mb : MbId)
  /-- SCHED_CANCEL (R444): Abandons a pending takeover before T_x − 100 µs. -/
  | schedCancel (mb : MbId)
  /-- SHAPE_PORT_SET (R275): Writes a port's traffic-class weights. -/
  | shapePortSet (mb : MbId)
  /-- SHAPE_PART_SET (R278): Writes a partition's memory weight. -/
  | shapePartSet (mb : MbId)
  /-- LIMIT_SET (R281): Writes per-EID token-bucket rate and depth for a range of EIDs. -/
  | limitSet (mb : MbId)
  /-- LINK_ENABLE (R446): Sets EN and AUTO of a port or Qoreus. -/
  | linkEnable (mb : MbId)
  /-- LINK_DISABLE (R446): Clears EN, sends DOWN and takes the link down. -/
  | linkDisable (mb : MbId)
  /-- LINK_RETRAIN (R446): Starts a retrain of an UP port and replies with the resulting state. -/
  | linkRetrain (mb : MbId)
  /-- LINK_TUNE (R541): Sets launch amplitude and equalisation preset for the next training. -/
  | linkTune (mb : MbId)
  /-- FABRIC_CONFIG (R330): Writes RT_NODE: EID, hop limit, pair timeout and re-stamp delay. -/
  | fabricConfig (mb : MbId)
  /-- ROUTE_LOAD (R331): Loads a whole route table and XMASK into a FREE or LOADED slot. -/
  | routeLoad (mb : MbId)
  /-- ROUTE_FLIP (R331): Schedules every link die's slot flip at T_f. -/
  | routeFlip (mb : MbId)
  /-- NODE_WITHDRAW (R347): Waits for originated requests and queues to drain, then sends DOWN on every port. -/
  | nodeWithdraw (mb : MbId)
  /-- MEM_SET_RATE (R379): Changes the rate of the named stacks one at a time. -/
  | memSetRate (mb : MbId)
  /-- MEM_CONFIG (R397): Writes the patrol period in MEM_CFG. -/
  | memConfig (mb : MbId)
  /-- MEM_DIAG_OPEN (R394): Puts C15 of a stack into diagnostic use. -/
  | memDiagOpen (mb : MbId)
  /-- MEM_DIAG_WRITE (R395): Writes a raw C15 line with given data and check symbols. -/
  | memDiagWrite (mb : MbId)
  /-- MEM_DIAG_READ (R395): Returns raw data, check symbols and codeword classes of a C15 line. -/
  | memDiagRead (mb : MbId)
  /-- MEM_DIAG_CLOSE (R395): Fills group 3 of the stack and returns it to the free pool. -/
  | memDiagClose (mb : MbId)
  /-- ADMIN_SET (R405): Writes the administrative EID filter DEV_ADMIN. -/
  | adminSet (mb : MbId)
  /-- NOTIFY_SET (R412): Writes a partition or device notification target. -/
  | notifySet (mb : MbId)
  /-- MC_TAKEOVER (R423): Starts a management-core takeover with cause COMMAND. -/
  | mcTakeover (mb : MbId)
  /-- COUNTER_SNAPSHOT (R512): Schedules a counter latch at a named FT and replies after it. -/
  | counterSnapshot (mb : MbId)
  /-- TEST_RUN (R500): Runs a known-answer test on a tile, forcing pre-emption with FORCE. -/
  | testRun (mb : MbId)
  /-- CERT_READ (R457): Writes a device certificate or issuer chain to a referenced buffer. -/
  | certRead (mb : MbId)
  /-- ATTEST_REPORT (R459): Forms and writes a dual-signed device or partition report. -/
  | attestReport (mb : MbId)
  /-- SESSION_OPEN (R463): Runs the hybrid key exchange for a confidential partition and stores the link secret. -/
  | sessionOpen (mb : MbId)
  /-- FW_STAGE (R477): Verifies a firmware image and writes it to the staged flash slot. -/
  | fwStage (mb : MbId)
  /-- FW_COMMIT (R453): Stops taking requests and starts the switchover commit of the staged image. -/
  | fwCommit (mb : MbId)
  /-- POWER_CAP_SET (R520): Writes the capper limit CAP within floor and ceiling. -/
  | powerCapSet (mb : MbId)
  /-- POWER_STATE_SET (R527): Starts entry into a lower power state, or wakes from D1. -/
  | powerStateSet (mb : MbId)
  /-- DEVICE_RESET (R451): Posts OK and starts a whole-chip reset 1 ms after the reply. -/
  | deviceReset (mb : MbId)
  /-- DBG_READ (R452): Reads unit debug registers when debug is permitted. -/
  | dbgRead (mb : MbId)
  /-- DBG_WRITE (R452): Writes unit debug registers when debug is permitted. -/
  | dbgWrite (mb : MbId)
  /-- GATE_ENTRY_BOUNDARY (R255): Within a cycle, a gate unit moves from one Crocus list entry to the next, opening or closing traffic-class windows, counting TC7 frames that waited past their window in SCHED_MISSED and re-eligible queues under R277. -/
  | gateEntryBoundary (port : Fin 17)
  /-- FEC_BLOCK_TRANSMIT (R290): Every 6.4 ns a port transmits its next FEC block, filling each flit slot with a frame flit, a replay flit, an LCTL or an IDLE flit that carries ACK, NAK and credit returns. -/
  | fecBlockTransmit (port : Fin 17)
  /-- HEARTBEAT_WRITE (R419): The active management core writes its heartbeat register, restarting the 20 ms watchdog. -/
  | heartbeatWrite
  /-- DEVICE_RESET_START (R451): 1 ms after the DEVICE_RESET reply is posted, the whole-chip reset starts with cause COMMAND. -/
  | deviceResetStart
  /-- UNDEFINED_OPCODE_COMMAND (R432): Steward takes a posted request whose OPCODE is not defined and replies BAD_OPCODE, or BUSY during a commit. -/
  | undefinedOpcodeCommand (mb : MbId)
  /-- STACK_CONTROLLER_FAILURE (R390): A stack's DRAM-controller island fails during operation and the stack becomes FAILED, with R65 and spill relocation applying. -/
  | stackControllerFailure (stack : Fin 8)
  /-- DEBUG_DISABLE_FUSE_BLOW (R482): A sequence on the module test port blows the debug-disable fuse and ends in a whole-chip reset, after which DBGDIS reads 1 permanently. -/
  | debugDisableFuseBlow
  /-- I3C_DYNAMIC_ADDRESS_ASSIGN (R545): An ENTDAA or SETDASA command on the I3C bus assigns the management port a dynamic address. -/
  | i3cDynamicAddressAssign (setdasa : Bool) (addr : BitVec 7)
  deriving DecidableEq, Repr

end Sys2Proof
end

