-- ==== Sys2Proof/Decode.lean ====
section
/-! DEFINITION. The command that a word spells: the command table gives no row any bits, so no word spells a command. -/
namespace Sys2Proof

/-- The command a word of nbits bits spells: none. (DESIGN CHOICE: log entry 2) -/
def decodeTableWord (_nbits _w : Nat) : Option Instr := none

end Sys2Proof
end

