-- ==== Sys2Proof/Config.lean ====
section
/-! DEFINITION. What the spec leaves open: free values and the cryptographic primitives that other standards define. Each is an
opaque constant with no body, so nothing can be proved of its values. -/
namespace Sys2Proof

/-- A free value, by its index (State.fresh): key material, entropy, START of an extent (R52), the first PSEQ of an incarnation
(R338), unit debug registers (R452), results that the spec does not state. (DESIGN CHOICE: log entry 11) -/
opaque Config.free : Nat → Nat
/-- What a line reads as under a key and tweak that it was not written under (R393): by key number, tweak and line number.
(DESIGN CHOICE: log entry 9) -/
opaque Config.stale : Nat → Nat → Nat → Line
/-- The contents of the module's certificates (R457), by index. (DESIGN CHOICE: log entry 10) -/
opaque Config.cert : Nat → List Byte
/-- SHA-384 over bytes. (DESIGN CHOICE: log entry 10) -/
opaque Config.sha384 : List Byte → BitVec 384
/-- HMAC-SHA-384, by key and message (R463). (DESIGN CHOICE: log entry 10) -/
opaque Config.hmac : BitVec 384 → List Byte → BitVec 384
/-- HKDF-Extract of RFC 5869 with SHA-384, by salt and input keying material (R456, R463). (DESIGN CHOICE: log entry 10) -/
opaque Config.hkdfExtract : List Byte → List Byte → BitVec 384
/-- HKDF-Expand of RFC 5869 with SHA-384: the given number of bits, by pseudorandom key and info (R456, R463, R464). (DESIGN CHOICE: log entry 10) -/
opaque Config.hkdfExpand : (bits : Nat) → BitVec 384 → List Byte → BitVec bits
/-- The Ed25519 public key of a private key (R456). (DESIGN CHOICE: log entry 10) -/
opaque Config.ed25519Pub : BitVec 256 → BitVec 256
/-- ML-DSA-65.KeyGen_internal (R456): the public key of 1,952 B and the private key. (DESIGN CHOICE: log entry 10) -/
opaque Config.mlDsaKeyGen : BitVec 256 → BitVec 15616 × List Byte
/-- The Ed25519 signature of a digest with a private key (R460), 64 B. (DESIGN CHOICE: log entry 10) -/
opaque Config.signE : BitVec 256 → BitVec 384 → BitVec 512
/-- The ML-DSA-65 signature of a digest with a private key (R460), 3,309 B. (DESIGN CHOICE: log entry 10) -/
opaque Config.signM : List Byte → BitVec 384 → BitVec 26472
/-- Whether an Ed25519 signature of a digest verifies against the hash of a public key (R477). (DESIGN CHOICE: log entry 10) -/
opaque Config.verifyE : BitVec 384 → BitVec 384 → List Byte → Bool
/-- Whether an ML-DSA-65 signature of a digest verifies against the hash of a public key (R477). (DESIGN CHOICE: log entry 10) -/
opaque Config.verifyM : BitVec 384 → BitVec 384 → List Byte → Bool
/-- Whether an ML-KEM-768 encapsulation key passes the FIPS 203 check (R463). (DESIGN CHOICE: log entry 10) -/
opaque Config.kemKeyOk : List Byte → Bool
/-- X25519, by scalar and u-coordinate (R463). (DESIGN CHOICE: log entry 10) -/
opaque Config.x25519 : BitVec 256 → BitVec 256 → BitVec 256
/-- The X25519 public key of a private key (R462). (DESIGN CHOICE: log entry 10) -/
opaque Config.x25519Pub : BitVec 256 → BitVec 256
/-- ML-KEM-768.Encaps, by encapsulation key and randomness: the shared secret and the ciphertext of 1,088 B (R463). (DESIGN CHOICE: log entry 10) -/
opaque Config.kemEncaps : List Byte → BitVec 256 → BitVec 256 × BitVec 8704
/-- The AES-256-GCM tag (R468), by key, nonce, additional data and plaintext. (DESIGN CHOICE: log entry 10) -/
opaque Config.gcmTag : BitVec 256 → List Byte → List Byte → List Byte → BitVec 128
/-- What the DRAM pins add to the two codewords of a line that is read by a command with no operand for it (R384), by the time in ns and the
line. (DESIGN CHOICE: log entry 9) -/
opaque Config.pins : Nat → Nat → RawEcc × RawEcc
/-- Whether the draw that the activation of a row makes for a neighbour refresh is zero (R375), by free index. (DESIGN CHOICE: log entry 12) -/
opaque Config.rowDraw : Nat → Bool
/-- The 30 parity symbols of a codeword of a FEC block (R290), of 10 bits each, by its 514 message symbols: the spec does not give the
polynomials of RS(544,514). (DESIGN CHOICE: log entry 85) -/
opaque Config.fecParity : List Nat → Vector (BitVec 10) 30
/-- The contents of the reserved and diagnostic memories that no rule states, by place. (DESIGN CHOICE: log entry 13) -/
opaque Config.debugWord : Nat → Nat → Nat → Word

/-- Whether COMPARE with VARIANT ULP counts a pair of finite MX elements of different scales, whose distance R210 does not state: by
the scale and the code of each. (DESIGN CHOICE: log entry 57) -/
opaque Config.mxUlp : Nat → Nat → Nat → Nat → Bool
/-- The bytes that SCATTER_ADD with VARIANT DIRECT writes for an MX block of more than one row, which R213 does not state: by the place
and the byte of the block. (DESIGN CHOICE: log entry 57) -/
opaque Config.mxDirect : Nat → Nat → Nat

end Sys2Proof
end

