-- ==== Sys2Proof/Machine/Bits.lean ====
section
/-! DEFINITION. Bit fields, little-endian bytes, CRC-32C, and the byte layouts of packets and flits (R110, R211, R292, R324). -/
namespace Sys2Proof

/-- Bits [lo+w-1:lo] of a number. -/
def bitsOf (n lo w : Nat) : Nat := (n >>> lo) % 2 ^ w

/-- A number from fields: each value is taken at its bit offset with its width. -/
def packBits : List (Nat × Nat × Nat) → Nat
  | [] => 0
  | (lo, w, v) :: r => ((v % 2 ^ w) <<< lo) ||| packBits r

/-- A number from byte-offset fields: (offset in bytes, size in bytes, value). -/
def packBytes : List (Nat × Nat × Nat) → Nat
  | [] => 0
  | (o, n, v) :: r => ((v % 2 ^ (8 * n)) <<< (8 * o)) ||| packBytes r

/-- A bit as a number. -/
def b2n (b : Bool) : Nat := if b then 1 else 0

/-- The n little-endian bytes of a number. -/
def leBytes : Nat → Nat → List Byte
  | 0, _ => []
  | n + 1, v => BitVec.ofNat 8 v :: leBytes n (v / 256)

/-- The number that little-endian bytes spell. -/
def ofLe : List Byte → Nat
  | [] => 0
  | b :: r => b.toNat + 256 * ofLe r

/-- A little-endian field of a byte list. -/
def fieldLe (bs : List Byte) (o n : Nat) : Nat := ofLe ((bs.drop o).take n)

/-- One step of the reflected CRC-32C register (R211). -/
def crcBit (c : BitVec 32) : BitVec 32 :=
  if c.getLsbD 0 then (c >>> 1) ^^^ 0x82F63B78 else c >>> 1

/-- CRC-32C register after one more byte. -/
def crcByte (c : BitVec 32) (b : Byte) : BitVec 32 :=
  crcBit (crcBit (crcBit (crcBit (crcBit (crcBit (crcBit (crcBit (c ^^^ b.setWidth 32))))))))

/-- CRC-32C register after more bytes. -/
def crcBytes (c : BitVec 32) : List Byte → BitVec 32
  | [] => c
  | b :: r => crcBytes (crcByte c b) r

/-- CRC-32C of bytes (R211). -/
def crc32c (bs : List Byte) : BitVec 32 := crcBytes 0xFFFFFFFF bs ^^^ 0xFFFFFFFF

/-- Byte i of a line. -/
def lineByte (d : Line) (i : Nat) : Byte := d.extractLsb' (8 * i) 8

/-- The 128 bytes of a line. -/
def lineBytes (d : Line) : List Byte := leBytes 128 d.toNat

/-- A line from at most 128 bytes; missing bytes are zero. -/
def lineOf (bs : List Byte) : Line := BitVec.ofNat 1024 (ofLe (bs.take 128))

/-- The bit mask of a line that selects the bytes of a byte mask. -/
def wideMask (m : BitVec 128) : Line :=
  BitVec.ofNat 1024 (ofLe ((List.range 128).map (fun i => if m.getLsbD i then (0xFF : Byte) else 0)))

/-- The line d1 with the bytes selected by the mask taken from d2 (R110). -/
def mergeBytes (m : BitVec 128) (d1 d2 : Line) : Line :=
  (d1 &&& ~~~ (wideMask m)) ||| (d2 &&& wideMask m)

/-- The byte mask of bytes [lo, lo+n). -/
def byteMask (lo n : Nat) : BitVec 128 := BitVec.ofNat 128 (((2 ^ n - 1) <<< lo) % 2 ^ 128)

/-! ### Packets -/

/-- SCTR and SFLAGS.ENC of PROT (R468). -/
def Packet.sctr (p : Packet) : Nat := bitsOf p.prot.toNat 0 64
/-- (DESIGN CHOICE: log entry 17) -/
def Packet.enc (p : Packet) : Bool := p.prot.getLsbD 64

/-- Whether the body carries HPA (or VECTOR) at byte 4 in place of XH and OFFSET (R358). -/
def Packet.isHostMem (p : Packet) : Bool := 0x50 ≤ p.opc.toNat && p.opc.toNat ≤ 0x53

/-- The 32 B header (R324). -/
def Packet.header (p : Packet) : Nat :=
  packBits [(0, 12, p.dst.toNat), (16, 12, p.src.toNat), (32, 16, p.cid.toNat), (48, 1, b2n p.vc), (49, 3, p.tc.val),
    (52, 1, b2n p.epoch), (53, 1, b2n p.last), (54, 1, b2n p.nocmp), (55, 1, b2n p.resync), (56, 2, p.typ.toNat),
    (58, 1, b2n p.syn), (59, 1, b2n p.fill), (60, 1, b2n p.brk), (61, 1, b2n p.pinc), (64, 16, p.pseq.toNat),
    (80, 12, p.len.toNat), (96, 5, p.stat.toNat), (104, 4, p.load.toNat), (108, 2, p.lim.toNat), (112, 8, p.hops.toNat),
    (128, 32, p.rtag.toNat), (160, 96, p.prot.toNat)]

/-- The 160 B body (R110, R358). -/
def Packet.bodyNat (p : Packet) : Nat :=
  packBytes ([(0, 1, p.opc.toNat),
    (1, 1, b2n p.wbPending + 2 * b2n p.reserved + 4 * b2n p.atomicGrant + 8 * b2n p.nodata),
    (2, 1, p.aop.toNat + 16 * b2n p.wide), (3, 1, p.ctl.toNat), (14, 2, p.tag.toNat), (16, 16, p.opnd.toNat),
    (32, 128, p.data.toNat)] ++
    if p.isHostMem then [(4, 8, p.hpa.toNat)]
    else [(4, 3, p.xh.toNat), (8, 5, p.offset.toNat), (13, 1, p.blen.toNat)])

/-- How many payload bytes are body: the rest is the tag of a protected packet (R468), or the part beyond 160 B. -/
def Packet.bodyLen (p : Packet) : Nat := min 160 (if p.enc then p.len.toNat - 16 else p.len.toNat)

/-- The bytes of a packet as it crosses a port (R294). -/
def Packet.bytes (p : Packet) : List Byte :=
  leBytes 32 p.header ++ (leBytes 160 p.bodyNat).take p.bodyLen ++ p.rest

/-- A packet from its bytes. -/
def Packet.ofBytes (bs : List Byte) : Packet :=
  let h := ofLe (bs.take 32)
  let len := bitsOf h 80 12
  let enc := bitsOf h 224 1 == 1
  let k := min 160 (if enc then len - 16 else len)
  let body := ofLe ((bs.drop 32).take k)
  let fl := bitsOf body 8 8
  let p : Packet :=
    { dst := BitVec.ofNat 12 h, src := BitVec.ofNat 12 (h >>> 16), cid := BitVec.ofNat 16 (h >>> 32)
      vc := bitsOf h 48 1 == 1, tc := Fin.ofNat 8 (bitsOf h 49 3), epoch := bitsOf h 52 1 == 1
      last := bitsOf h 53 1 == 1, nocmp := bitsOf h 54 1 == 1, resync := bitsOf h 55 1 == 1
      typ := BitVec.ofNat 2 (h >>> 56), syn := bitsOf h 58 1 == 1, fill := bitsOf h 59 1 == 1
      brk := bitsOf h 60 1 == 1, pinc := bitsOf h 61 1 == 1, pseq := BitVec.ofNat 16 (h >>> 64)
      len := BitVec.ofNat 12 len, stat := BitVec.ofNat 5 (h >>> 96), load := BitVec.ofNat 4 (h >>> 104)
      lim := BitVec.ofNat 2 (h >>> 108), hops := BitVec.ofNat 8 (h >>> 112), rtag := BitVec.ofNat 32 (h >>> 128)
      prot := BitVec.ofNat 96 (h >>> 160), opc := BitVec.ofNat 8 body
      wbPending := bitsOf fl 0 1 == 1, reserved := bitsOf fl 1 1 == 1, atomicGrant := bitsOf fl 2 1 == 1
      nodata := bitsOf fl 3 1 == 1, aop := BitVec.ofNat 4 (body >>> 16), wide := bitsOf body 20 1 == 1
      ctl := BitVec.ofNat 4 (body >>> 24), tag := BitVec.ofNat 16 (body >>> 112)
      opnd := BitVec.ofNat 128 (body >>> 128), data := BitVec.ofNat 1024 (body >>> 256)
      rest := (bs.drop (32 + k)).take (len - k) }
  if p.isHostMem then { p with hpa := BitVec.ofNat 64 (body >>> 32) }
  else { p with xh := BitVec.ofNat 24 (body >>> 32), offset := BitVec.ofNat 40 (body >>> 64),
                blen := BitVec.ofNat 7 (body >>> 104) }

/-- The flits a packet of a payload length takes (R294). -/
def flitsOf (len : Nat) : Nat := (32 + len + 239) / 240

/-- A packet's traffic-class index among queues. -/
def Packet.tcn (p : Packet) : Nat := p.tc.val

/-! ### Flits -/

/-- FCTL (R292). -/
def Flit.fctl (f : Flit) : Nat :=
  f.typ.toNat + 4 * b2n f.vc + 8 * b2n f.sop + 16 * b2n f.eop + 32 * b2n f.rtx + 64 * b2n f.nak

/-- The bytes that the flit's CRC covers (R292). -/
def Flit.covered (f : Flit) : List Byte :=
  leBytes 12 (packBytes [(0, 1, f.fctl), (1, 1, b2n f.cls), (2, 2, f.seq.toNat), (4, 2, f.ack.toNat), (6, 2, f.crr.toNat),
    (8, 2, f.crs.toNat), (10, 2, f.crn.toNat)]) ++ leBytes 240 f.body.toNat

/-- Whether the flit's CRC is right (R293). -/
def Flit.crcOk (f : Flit) : Bool := f.crc == crc32c f.covered

/-- The flit with its CRC computed. -/
def Flit.seal (f : Flit) : Flit := { f with crc := crc32c f.covered }

/-- Byte i of the flit's body. -/
def Flit.byte (f : Flit) (i : Nat) : Byte := f.body.extractLsb' (8 * i) 8

/-- The DATA flits of a packet, before SEQ, ACK, credits and CRC are set (R294); `snp` sets the class bit (R353). -/
def Packet.flits (p : Packet) : List Flit :=
  let bs := p.bytes
  let n := flitsOf p.len.toNat
  (List.range n).map fun k =>
    { typ := 1, vc := p.vc, cls := p.snp, sop := k == 0, eop := k + 1 == n,
      body := BitVec.ofNat 1920 (ofLe ((bs.drop (240 * k)).take 240)) }

/-- The 256 bytes of a flit (R292). -/
def Flit.bytes (f : Flit) : List Byte := f.covered.take 12 ++ leBytes 4 f.crc.toNat ++ leBytes 240 f.body.toNat

/-- The message of a FEC block (R290): the sync pattern, the block counter, and the five flits. -/
def fecMessage (counter : BitVec 24) (fs : List Flit) : BitVec 10280 :=
  BitVec.ofNat 10280 (0x5A3C + counter.toNat * 2 ^ 16 + ofLe (fs.flatMap Flit.bytes) * 2 ^ 40)

/-- The message symbols of codeword c of a block: message symbol m is symbol m div 2 of codeword m mod 2 (R290). -/
def fecWord (msg : BitVec 10280) (c : Nat) : List Nat := (List.range 514).map fun i => bitsOf msg.toNat (10 * (2 * i + c)) 10

/-- The 1,088 symbols of a block: the message symbols in order, then the parity symbols of the two codewords interleaved in the same way
(R290). (DESIGN CHOICE: log entry 85) -/
def fecSymbols (msg : BitVec 10280) : List Nat :=
  ((List.range 1028).map fun m => bitsOf msg.toNat (10 * m) 10) ++
    ((Config.fecParity (fecWord msg 0)).toList.zip (Config.fecParity (fecWord msg 1)).toList).flatMap fun e => [e.1.toNat, e.2.toNat]

/-- The symbols that a block puts on a lane: symbol j travels on lane j mod 8 (R290). (DESIGN CHOICE: log entry 85) -/
def fecLane (msg : BitVec 10280) (lane : Nat) : List Nat :=
  (((List.range 1088).zip (fecSymbols msg)).filter fun e => e.1 % 8 = lane).map (·.2)

/-- The bits corrected on each lane of a block: symbol j travels on lane j mod 8 (R290, R291). -/
def FecBlock.laneBits (b : FecBlock) : List Nat :=
  (List.range 8).map fun i => ((b.corrected.filter fun e => e.1 % 8 = i).map (·.2)).sum

/-- The body of a TSX (R314). -/
def TsxBody.flitBody (x : TsxBody) : BitVec 1920 :=
  BitVec.ofNat 1920 (packBytes [(0, 1, 2), (1, 1, x.kstate.toNat), (2, 2, x.eid.toNat), (4, 2, x.tseq.toNat),
    (8, 10, x.tTx.toNat), (20, 10, x.tEchoTx.toNat), (32, 10, x.tEchoRx.toNat), (42, 2, x.echoTseq.toNat),
    (44, 8, x.imageId.toNat)])

/-- The TSX that a flit body holds. -/
def TsxBody.ofBody (b : BitVec 1920) : TsxBody :=
  { kstate := b.extractLsb' 8 8, eid := b.extractLsb' 16 12, tseq := b.extractLsb' 32 16, tTx := b.extractLsb' 64 80
    tEchoTx := b.extractLsb' 160 80, tEchoRx := b.extractLsb' 256 80, echoTseq := b.extractLsb' 336 16
    imageId := b.extractLsb' 352 64 }

/-- The body of a PARAM (R295, R353). -/
def ParamBody.flitBody (x : ParamBody) : BitVec 1920 :=
  BitVec.ofNat 1920 (packBytes [(0, 1, 1), (1, 1, x.version.toNat), (2, 2, x.eid.toNat), (4, 2, x.credReq.toNat),
    (6, 2, x.credRsp.toNat), (8, 1, x.port.toNat), (9, 1, x.caps.toNat), (10, 2, x.credSnp.toNat)])

/-- The PARAM that a flit body holds. -/
def ParamBody.ofBody (b : BitVec 1920) : ParamBody :=
  { version := b.extractLsb' 8 8, eid := b.extractLsb' 16 12, credReq := b.extractLsb' 32 16
    credRsp := b.extractLsb' 48 16, port := b.extractLsb' 64 8, caps := b.extractLsb' 72 8
    credSnp := b.extractLsb' 80 16 }

/-- The bytes of an ASCII string. -/
def ascii (x : String) : List Byte := x.toList.map fun c => BitVec.ofNat 8 c.toNat

end Sys2Proof
end

