-- ==== Sys2Proof/Machine/Num.lean ====
section
/-! DEFINITION. Element formats, exact values, rounding and conversion (R175 to R191), and FP32 arithmetic (R185, R214, R219). -/
namespace Sys2Proof

/-- An exact element value: NaN, an infinity, or a signed dyadic number m × 2^e (m = 0 is a signed zero). -/
inductive Val where
  | nan
  | inf (neg : Bool)
  | fin (neg : Bool) (m : Nat) (e : Int)
  deriving DecidableEq, Repr

/-- How a floating-point format uses its top exponent (R177). -/
inductive Top where
  | ieee | e4m3 | none
  deriving DecidableEq, Repr

/-- A floating-point format: exponent bits, fraction bits, bias and its special encodings (R177). -/
structure Fp where
  ebits : Nat
  fbits : Nat
  bias : Nat
  top : Top
  deriving DecidableEq, Repr

def fp64 : Fp := ⟨11, 52, 1023, .ieee⟩
def fp32 : Fp := ⟨8, 23, 127, .ieee⟩
def bf16 : Fp := ⟨8, 7, 127, .ieee⟩
def fp16 : Fp := ⟨5, 10, 15, .ieee⟩
def fp8e4m3 : Fp := ⟨4, 3, 7, .e4m3⟩
def fp8e5m2 : Fp := ⟨5, 2, 15, .ieee⟩
def e3m2 : Fp := ⟨3, 2, 3, .none⟩
def e2m3 : Fp := ⟨2, 3, 1, .none⟩
def e2m1 : Fp := ⟨2, 1, 1, .none⟩

/-- The element encoding a format code names (R175): floating point, an MX format with its element and shift e_max, an integer, or an
OFA word. -/
inductive Elem where
  | fp (f : Fp)
  | mx (f : Fp) (emax : Int)
  | mxint
  | int (signed : Bool) (bits : Nat)
  | ofa
  deriving DecidableEq, Repr

/-- The format code table (R175); reserved codes name nothing. -/
def elemOf (code : Nat) : Option Elem :=
  match code with
  | 0x00 => some (.fp fp64) | 0x01 => some (.fp fp32) | 0x02 => some (.fp bf16) | 0x03 => some (.fp fp16)
  | 0x04 => some (.fp fp8e4m3) | 0x05 => some (.fp fp8e5m2)
  | 0x08 => some (.mx fp8e4m3 8) | 0x09 => some (.mx fp8e5m2 15) | 0x0A => some (.mx e3m2 4) | 0x0B => some (.mx e2m3 2)
  | 0x0C => some (.mx e2m1 2) | 0x0D => some .mxint
  | 0x10 => some (.int true 8) | 0x11 => some (.int false 8) | 0x12 => some (.int true 16) | 0x13 => some (.int false 16)
  | 0x14 => some (.int true 32) | 0x15 => some (.int false 32) | 0x16 => some (.int true 64)
  | 0x1F => some .ofa
  | _ => none

/-- Bits of one element as stored. -/
def Elem.bits : Elem → Nat
  | .fp f => 1 + f.ebits + f.fbits
  | .mx f _ => 1 + f.ebits + f.fbits
  | .mxint => 8
  | .int _ n => n
  | .ofa => 128

def Elem.isMx : Elem → Bool
  | .mx _ _ => true | .mxint => true | _ => false
def Elem.isInt : Elem → Bool
  | .int _ _ => true | _ => false
/-- "float" of R206: FP and MX formats. -/
def Elem.isFloat : Elem → Bool
  | .fp _ => true | .mx _ _ => true | .mxint => true | _ => false

/-! ### Exact values -/

/-- A signed integer times a power of two. -/
def Val.ofInt (n : Int) (e : Int) : Val := .fin (decide (n < 0)) n.natAbs e

/-- The value of m × 2^e brought to exponent e' ≤ e. -/
def scaleTo (m : Nat) (e e' : Int) : Nat := m * 2 ^ (e - e').toNat

/-- floor(log2) of a non-zero magnitude. -/
def flog2 (m : Nat) (e : Int) : Int := (Nat.log2 m : Int) + e

/-- The value of a floating-point encoding (R177). -/
def Fp.dec (f : Fp) (n : Nat) : Val :=
  let neg := bitsOf n (f.ebits + f.fbits) 1 == 1
  let x := bitsOf n f.fbits f.ebits
  let fr := bitsOf n 0 f.fbits
  let allOnes := x == 2 ^ f.ebits - 1
  if f.top == .ieee && allOnes then (if fr = 0 then .inf neg else .nan)
  else if f.top == .e4m3 && allOnes && fr == 2 ^ f.fbits - 1 then .nan
  else if x = 0 then .fin neg fr (1 - (f.bias : Int) - f.fbits)
  else .fin neg (2 ^ f.fbits + fr) ((x : Int) - f.bias - f.fbits)

/-- The largest finite magnitude of a format, as an encoding without sign. -/
def Fp.maxCode (f : Fp) : Nat :=
  match f.top with
  | .ieee => (2 ^ f.ebits - 1) * 2 ^ f.fbits - 1
  | .e4m3 => 2 ^ (f.ebits + f.fbits) - 2
  | .none => 2 ^ (f.ebits + f.fbits) - 1

/-- The canonical NaN (R178); formats without NaN have none and never need it. -/
def Fp.nanCode (f : Fp) : Nat :=
  match f.top with
  | .ieee => (2 ^ f.ebits - 1) * 2 ^ f.fbits + 2 ^ (f.fbits - 1)
  | .e4m3 => 2 ^ (f.ebits + f.fbits) - 1
  | .none => 0

/-! ### Rounding (R184 to R187) -/

/-- How a value is rounded: the mode of R184, SAT, and the 24-bit draw of SR. -/
structure Rnd where
  mode : Nat := 0
  sat : Bool := false
  draw : Nat := 0
  deriving DecidableEq, Repr

/-- The stochastic-rounding function of R186. -/
def srmix (seed stage idx : Nat) : Nat :=
  let m := 2 ^ 64
  let z := (seed + idx * 0x9E3779B97F4A7C15 + stage * 0xD1B54A32D192ED03) % m
  let z := (Nat.xor z (z >>> 30) * 0xBF58476D1CE4E5B9) % m
  let z := (Nat.xor z (z >>> 27) * 0x94D049BB133111EB) % m
  Nat.xor z (z >>> 31)

/-- The draw of an element (R187). -/
def srDraw (seed stage idx : Nat) : Nat := srmix seed stage idx >>> 40

/-- Whether a magnitude with quotient q, remainder r of 2^s is rounded up. -/
def Rnd.up (d : Rnd) (neg : Bool) (q r s : Nat) : Bool :=
  let half := 2 ^ s / 2
  match d.mode with
  | 0 => decide (r > half) || (r == half && q % 2 == 1)
  | 1 => decide (r ≥ half)
  | 2 => false
  | 3 => !neg && decide (r > 0)
  | 4 => neg && decide (r > 0)
  | _ => decide (d.draw < r * 2 ^ 24 / 2 ^ s)

/-- m × 2^e rounded to a multiple of 2^l: the multiple. -/
def Rnd.toGrid (d : Rnd) (neg : Bool) (m : Nat) (e l : Int) : Nat :=
  if l ≤ e then scaleTo m e l
  else
    let s := (l - e).toNat
    let q := m / 2 ^ s
    let r := m % 2 ^ s
    if r = 0 then q else if d.up neg q r s then q + 1 else q

/-- A code and its sign. -/
def Fp.sign (f : Fp) (neg : Bool) (code : Nat) : Nat := (if neg then 2 ^ (f.ebits + f.fbits) else 0) + code

/-- What an overflow of R189 writes. -/
def Fp.overflow (f : Fp) (d : Rnd) (neg : Bool) : Nat :=
  let toMax := f.sign neg f.maxCode
  let big := match f.top with
    | .ieee => f.sign neg ((2 ^ f.ebits - 1) * 2 ^ f.fbits)
    | .e4m3 => f.nanCode
    | .none => toMax
  let grows := match d.mode with
    | 2 => false | 3 => !neg | 4 => neg | _ => true
  if d.sat || !grows then toMax else big

/-- A finite value encoded in a format: rounded once, then R189. -/
def Fp.encFin (f : Fp) (d : Rnd) (neg : Bool) (m : Nat) (e : Int) : Nat :=
  if m = 0 then f.sign neg 0
  else
    let lmin : Int := 1 - (f.bias : Int) - f.fbits
    let l := max lmin (flog2 m e - f.fbits)
    let k := d.toGrid neg m e l
    -- k × 2^l; k may have reached 2^(fbits+1)
    let (k, l) := if k ≥ 2 ^ (f.fbits + 1) then (k / 2, l + 1) else (k, l)
    let code := if k < 2 ^ f.fbits then k else (l + f.bias + f.fbits).toNat * 2 ^ f.fbits + (k - 2 ^ f.fbits)
    if code > f.maxCode then f.overflow d neg else f.sign neg code

/-- A value encoded in a floating-point format (R189 to R191). -/
def Fp.enc (f : Fp) (d : Rnd) : Val → Nat
  | .nan => f.nanCode
  | .inf neg => match f.top with
    | .ieee => f.sign neg ((2 ^ f.ebits - 1) * 2 ^ f.fbits)
    | .e4m3 => if d.sat then f.sign neg f.maxCode else f.nanCode
    | .none => f.sign neg f.maxCode
  | .fin neg m e => f.encFin d neg m e

/-- An integer range. -/
def intMin (signed : Bool) (bits : Nat) : Int := if signed then -(2 ^ (bits - 1) : Int) else 0
def intMax (signed : Bool) (bits : Nat) : Int := if signed then (2 ^ (bits - 1) : Int) - 1 else (2 ^ bits : Int) - 1

/-- A value as an integer of a format: rounded under the mode, then saturated (R191). -/
def toIntVal (signed : Bool) (bits : Nat) (d : Rnd) (v : Val) : Int :=
  match v with
  | .nan => 0
  | .inf neg => if neg then intMin signed bits else intMax signed bits
  | .fin neg m e =>
    let k : Int := d.toGrid neg m e 0
    let k := if neg then -k else k
    max (intMin signed bits) (min (intMax signed bits) k)

/-- The encoding of an integer. -/
def intCode (bits : Nat) (k : Int) : Nat := (k % (2 ^ bits : Int)).toNat

/-- The integer that an encoding holds. -/
def intDec (signed : Bool) (bits n : Nat) : Int :=
  let n := n % 2 ^ bits
  if signed && decide (n ≥ 2 ^ (bits - 1)) then (n : Int) - (2 ^ bits : Int) else n

/-! ### Elements (R181, R182) -/

/-- The value of an element, with the block scale of an MX format (R181). -/
def Elem.dec (x : Elem) (scale n : Nat) : Val :=
  let shift := fun (v : Val) => if scale = 0xFF then .nan else match v with
    | .fin neg m e => .fin neg m (e + (scale : Int) - 127)
    | v => v
  match x with
  | .fp f => f.dec n
  | .mx f _ => shift (f.dec n)
  | .mxint => let k := intDec true 8 n; shift (.fin (decide (k < 0)) k.natAbs (-6))
  | .int sg b => .ofInt (intDec sg b n) 0
  | .ofa => .nan

/-- The encoding of a value in a format without a block scale. -/
def Elem.enc (x : Elem) (d : Rnd) (v : Val) : Nat :=
  match x with
  | .fp f => f.enc d v
  | .int sg b => intCode b (toIntVal sg b d v)
  | _ => 0

/-- The larger magnitude of finite values. -/
def magLt (m1 : Nat) (e1 : Int) (m2 : Nat) (e2 : Int) : Bool :=
  let e := min e1 e2
  decide (scaleTo m1 e1 e < scaleTo m2 e2 e)

/-- The shared exponent of a block of values (R182); none when a value is NaN or infinite. (DEDUCED: log entry 52) -/
def mxShared (emax : Int) (l : List Val) : Option (Option Int) :=
  l.foldl (fun acc v => match acc, v with
    | none, _ => none
    | some a, .fin _ m e =>
      if m = 0 then some a
      else
        let x := flog2 m e
        some (match a with | none => some x | some y => some (max x y))
    | some _, _ => none) (some none) |>.map fun a => a.map fun x => max (-127) (min 127 (x - emax))

/-- A block of 32 values encoded in an MX format (R182): the scale byte and the element codes; `d i` is the rounding of element i.
(DEDUCED: log entry 52) -/
def mxEnc (x : Elem) (d : Nat → Rnd) (l : List Val) : Nat × List Nat :=
  let emax : Int := match x with | .mx _ k => k | _ => 0
  match mxShared emax l with
  | none => (0xFF, l.map fun _ => 0)
  | some none => (0, l.map fun _ => 0)
  | some (some s) =>
    ((s + 127).toNat, l.mapIdx fun i v => match v with
      | .fin neg m e => match x with
        | .mx f _ => f.encFin { d i with sat := true } neg m (e - s)
        | _ =>
          let k := min 127 ((d i).toGrid neg m (e - s) (-6))
          intCode 8 (if neg then -(k : Int) else k)
      | _ => 0)

/-! ### Order (R209, R219) -/

/-- A number's sign and magnitude as an order: whether a < b, with −0 below +0; neither is NaN. -/
def Val.lt (a b : Val) : Bool :=
  match a, b with
  | .inf n1, .inf n2 => n1 && !n2
  | .inf n1, .fin _ _ _ => n1
  | .fin _ _ _, .inf n2 => !n2
  | .fin n1 m1 e1, .fin n2 m2 e2 =>
    if n1 != n2 then n1
    else if n1 then magLt m2 e2 m1 e1 else magLt m1 e1 m2 e2
  | _, _ => false

/-- The comparison of IEEE 754: zeros are equal, NaN compares false. -/
def Val.ltIeee (a b : Val) : Bool :=
  match a, b with
  | .fin _ 0 _, .fin _ 0 _ => false
  | a, b => a.lt b

/-! ### FP32 arithmetic (R214, R219) -/

def rne : Rnd := {}

/-- The sign of an exact zero sum: negative only when both addends are negative. -/
def addVal (a b : Val) : Val :=
  match a, b with
  | .nan, _ => .nan
  | _, .nan => .nan
  | .inf s, .inf t => if s = t then .inf s else .nan
  | .inf s, _ => .inf s
  | _, .inf t => .inf t
  | .fin s m e, .fin t n f =>
    let g := min e f
    let x : Int := scaleTo m e g
    let y : Int := scaleTo n f g
    let z := (if s then -x else x) + (if t then -y else y)
    if z = 0 then .fin (s && t) 0 g else .ofInt z g

/-- The exact product. -/
def mulVal (a b : Val) : Val :=
  match a, b with
  | .nan, _ => .nan
  | _, .nan => .nan
  | .inf s, .inf t => .inf (s != t)
  | .inf s, .fin t n _ => if n = 0 then .nan else .inf (s != t)
  | .fin s m _, .inf t => if m = 0 then .nan else .inf (s != t)
  | .fin s m e, .fin t n f => .fin (s != t) (m * n) (e + f)

def Val.neg : Val → Val
  | .nan => .nan
  | .inf s => .inf !s
  | .fin s m e => .fin (!s) m e

/-- The magnitude of a value. -/
def Val.mag : Val → Val
  | .nan => .nan
  | .inf _ => .inf false
  | .fin _ m e => .fin false m e

/-- Whether a value is neither zero nor NaN. -/
def Val.truthy : Val → Bool
  | .nan => false
  | .inf _ => true
  | .fin _ m _ => m ≠ 0

/-- A quotient, kept with enough bits and a sticky bit that every rounding to FP32 is that of the exact quotient. -/
def divVal (a b : Val) : Val :=
  match a, b with
  | .nan, _ => .nan
  | _, .nan => .nan
  | .inf _, .inf _ => .nan
  | .inf s, .fin t _ _ => .inf (s != t)
  | .fin s _ _, .inf t => .fin (s != t) 0 0
  | .fin s m e, .fin t n f =>
    if n = 0 then (if m = 0 then .nan else .inf (s != t))
    else
      let k := 64 + Nat.log2 n
      let q := (m <<< k) / n
      let sticky := if (m <<< k) % n = 0 then 0 else 1
      .fin (s != t) (if m = 0 then 0 else 2 * q + sticky) (e - f - k - 1)

/-- The integer square root, bit by bit from bit k down. -/
def isqrt : Nat → Nat → Nat → Nat
  | 0, _, r => r
  | k + 1, n, r => let r' := r + 2 ^ k; isqrt k n (if r' * r' ≤ n then r' else r)

/-- A square root, kept with a sticky bit as a quotient is. -/
def sqrtVal (a : Val) : Val :=
  match a with
  | .nan => .nan
  | .inf s => if s then .nan else .inf false
  | .fin s m e =>
    if m = 0 then .fin s 0 0
    else if s then .nan
    else
      let sh : Nat := 64 + (if (e - 64) % 2 = 0 then 0 else 1)
      let n := m <<< sh
      let r := isqrt (Nat.log2 n / 2 + 1) n 0
      .fin false (2 * r + (if r * r = n then 0 else 1)) ((e - sh) / 2 - 1)

/-- The square root of an FP32 value with a sticky bit below 2^-150, so that its sum with an FP32 value rounds once as the exact sum would. -/
def sqrtFine (a : Val) : Val :=
  match a with
  | .fin false m e =>
    if m = 0 then sqrtVal a
    else
      let n := m <<< (e + 300).toNat
      let r := isqrt (Nat.log2 n / 2 + 1) n 0
      .fin false (2 * r + (if r * r = n then 0 else 1)) (-151)
  | _ => sqrtVal a

/-- A result rounded once to FP32 under RNE, as a value. -/
def r32 (v : Val) : Val := fp32.dec (fp32.enc rne v)

/-- min and max of R209: NaN when either is NaN. -/
def minVal (a b : Val) : Val :=
  if a = .nan || b = .nan then .nan else if b.lt a then b else a
def maxVal (a b : Val) : Val :=
  if a = .nan || b = .nan then .nan else if a.lt b then b else a

/-- A sum of floating-point encodings rounded to nearest even (FADD of R126). -/
def fpAdd (f : Fp) (a b : Nat) : Nat := f.enc rne (addVal (f.dec a) (f.dec b))

end Sys2Proof
end

