-- ==== Sys2Proof/Machine/State.lean ====
section
/-! DEFINITION. The state of the GP8 as plain data: everything the spec gives the block, the queue of waiting commands, and
State.reset. Every table is sparse: an index that is not listed holds the record's default, which is its reset value. -/
namespace Sys2Proof.Machine

/-- The one fault of the model. -/
inductive Fault where
  /-- INPUT_FAULT with an input beyond the absolute maximum ratings (R517, R539): the module may be damaged and the spec gives
  no effect. Safe: the model stops where the hardware's behaviour is not given. -/
  | overstress
  deriving DecidableEq, Repr

/-- The one refusal of the model. -/
inductive Refusal where
  /-- A command that has no meaning yet, raised by the arms of exec only. Safe. -/
  | notModelled (mnemonic : String)
  deriving DecidableEq, Repr

/-! ### Requests on their way through the memory stage, the directory and the DRAM controllers -/

/-- Who is told of the completion of a request. -/
inductive Org where
  | fab                                 -- the requester named by SRC, over Svaop or Qoreus
  | elder                               -- an Elder requester (R95)
  | engine (tile slot inc : Nat)        -- a dynamic job's engine access (R82)
  | sched (tile : Nat)                  -- a scheduled operation's access (R249)
  | walker (tile : Nat)                 -- a page-table read (R76)
  | crit                                -- device-critical traffic (R276 flow 1)
  | spill (port : Nat) (seq : BitVec 16) (half write : Bool)   -- a half of a replay flit on its way to or from a spill region (R302)
  deriving DecidableEq, Repr

/-- What a request does to its line at the DRAM controller. -/
inductive Act where
  | read
  | write (d : Line)
  | part (mask : BitVec 128) (d : Line)
  | atom
  | reclaim
  | contrib (mask : BitVec 128) (d : Line) (lo n : Nat)   -- n elements of a contribution, absorbed into the line's words (R224)
  | combRead                                             -- folded words, merged with the window of a resident chunk (R223)
  | merge (tile win : Nat)                               -- one release step of a landing window (R228)
  | pass                                                 -- no DRAM effect: used to drain an order
  deriving DecidableEq, Repr

/-- A request, from the memory stage to its completion: `atReq` is set on an ATOMIC that is placed at its requester (R127), and `steward` on a reference of a command (R433). -/
structure Req where
  pkt : Packet := {}
  org : Org := .fab
  id : Nat := 0
  lim : BitVec 2 := 0
  die : Nat := 0
  ext : Nat := 0
  phase : Bool := false
  counted : Bool := false
  line : Nat := 0
  act : Act := .read
  txn : Option (Nat × Nat) := none
  flow : Nat := 0
  cost : Nat := 128
  arrived : Nat := 0
  admitted : Nat := 0
  home : Option Nat := none
  atReq : Bool := false
  split : Option Nat := none
  steward : Bool := false
  deriving DecidableEq, Repr

/-- A line, a delta or a whole request on its way to another member (R61, R63, R65, R66): `again` says that it is to be sent once more, from
`readyAt` on (R120), as attempt `attempt` (R121). -/
structure Fwd where
  member : Nat := 0
  rtag : BitVec 32 := 0
  delta : Bool := false
  whole : Bool := false
  data : Line := 0
  again : Bool := false
  readyAt : Nat := 0
  attempt : Nat := 0
  deriving DecidableEq, Repr

/-- A write or atomic of a protected extent that this member has committed and whose completion waits for other members (R61, R63), or a request
that another member serves because its line lies on a failed stack or channel of this one (`whole`, R65): the request, its result, and what is
still on its way. -/
structure FwdWait where
  req : Req := {}
  whole : Bool := false
  st : BitVec 5 := 0
  data : Line := 0
  old : Nat := 0
  fwds : List Fwd := []
  deriving DecidableEq, Repr

/-- A contribution on the DRAM path whose line steps run one by one (R224): the steps not yet done, the first status other than OK,
and the request that completes with the last of them. -/
structure Split where
  id : Nat := 0
  left : Nat := 0
  st : BitVec 5 := 0
  req : Req := {}
  deriving DecidableEq, Repr

/-! ### Partitions, contexts and extents (chapter 02) -/

/-- A fault record (R486); SEQ is given at posting. -/
structure FaultRec where
  cause : Byte := 0
  cid : Cid := 0
  ft : Word := 0
  body : BitVec 384 := 0
  deriving DecidableEq, Repr

/-- An error record (R494). -/
structure ErrRec where
  cause : BitVec 16 := 0
  sev : Byte := 0
  part : Option (BitVec 6) := none
  redacted : Bool := false
  seq : BitVec 32 := 0
  ft : Word := 0
  unit : BitVec 16 := 0
  temp : Byte := 0
  volt : BitVec 16 := 0
  detail : BitVec 320 := 0
  deriving DecidableEq, Repr

/-- A notification record (R413). -/
structure NtfRec where
  obj : BitVec 32 := 0
  tag : BitVec 32 := 0
  cid : Cid := 0
  status : Byte := 0
  cause : Byte := 0
  spec : BitVec 160 := 0
  ft : Word := 0
  dropped : BitVec 16 := 0
  kind : Byte := 0
  deriving DecidableEq, Repr

/-- One partition: PART_STATUS, PART_CFG, PART_SHAPE, PART_ADMIT, PART_NTF, PART_ABORT (R33, R34, R278, R406, R412, R416), the
fault queue and the records not yet posted (R490), the session (R465), and when each context number became FREE (R40). -/
structure Part where
  state : BitVec 3 := 0
  cause : BitVec 2 := 0
  cfg : Word := 0
  shape : Word := 16
  admCfg : Word := 0
  ntf : Word := 0
  done : Bool := false
  abortAt : Option Nat := none
  fq : List (BitVec 32 × FaultRec) := []
  fqNext : BitVec 32 := 0
  overflow : List FaultRec := []
  held : List FaultRec := []
  sess : BitVec 2 := 0
  sid : BitVec 32 := 0
  th : BitVec 384 := 0
  ls : Option (BitVec 384) := none
  freedAt : Tbl Nat := []
  deriving DecidableEq, Repr

/-- A context table entry (R37), with the requests in flight that passed the context check (R39). -/
structure Ctx where
  state : BitVec 2 := 0
  eidMatch : Eid := 0
  eidMask : Eid := 0
  cls : BitVec 2 := 0
  hostPt : Bool := false
  ptRoot : BitVec 48 := 0
  inflight : Nat := 0
  deriving DecidableEq, Repr

/-- An extent table entry (R43), with its key (R44), its in-flight counters and phase (R47), when its index became FREE (R56),
the position of a scrub of it (R57), whether a zero-fill has run, so that a line not written since reads as zeros
(R226), and whether its owner has been FREE since, so that its granules no longer count (R33). -/
structure Ext where
  state : BitVec 2 := 0
  gen : BitVec 6 := 0
  owner : BitVec 6 := 0
  conf : Bool := false
  coherent : Bool := false
  combine : Bool := false
  shared : Bool := false
  mirror : Bool := false
  parity : Bool := false
  pwidth : Bool := false
  rights : BitVec 12 := 0
  stripe : BitVec 2 := 0
  homeq : BitVec 2 := 0
  start : BitVec 3 := 0
  mapBase : BitVec 18 := 0
  size : BitVec 18 := 0
  shareRef : BitVec 12 := 0
  protRef : BitVec 14 := 0
  keyslot : BitVec 18 := 0
  key : Option Nat := none
  ctrA : Nat := 0
  ctrB : Nat := 0
  phase : Bool := false
  freedAt : Nat := 0
  scrub : Nat := 0
  zero : Bool := false
  left : Bool := false
  deriving DecidableEq, Repr

/-- A member slot of a share record (R48). -/
structure ShareSlot where
  part : BitVec 6 := 0
  consent : Bool := false
  valid : Bool := false
  rights : BitVec 12 := 0
  deriving DecidableEq, Repr

/-- A share record (R48): seven member slots, and whether an extent uses the record. -/
structure Share where
  used : Bool := false
  slots : Tbl ShareSlot := []
  deriving DecidableEq, Repr

/-- A reverse-map entry (R51): the extent that holds a PPA granule and the granule's position in it. -/
structure RMap where
  ext : BitVec 18 := 0
  pos : BitVec 18 := 0
  held : Bool := false
  deriving DecidableEq, Repr

/-- A protection record (R60), in use or not; the target and slot of a rebuild (R66), whether this member's own slot is lost by a failed stack of
this member alone, so that it still serves (R65), and whether the loss of data has been reported (R65). (DESIGN CHOICE: log entry 28) -/
structure Prot where
  used : Bool := false
  parity : Bool := false
  degraded : Bool := false
  slots : BitVec 24 := 0
  lost : Byte := 0
  cursor : BitVec 18 := 0
  rstate : BitVec 2 := 0
  target : Bool := false
  rslot : Fin 8 := 0
  stackOut : Bool := false
  reported : Bool := false
  deriving DecidableEq, Repr

/-- A combine record (R221), in use or not, and when the pace of background work lets its zero-fill end (R226). -/
structure Comb where
  used : Bool := false
  fmt : BitVec 5 := 0
  anchor : BitVec 7 := 0
  valid : Bool := false
  clearing : Bool := false
  resident : Nat := 0
  fillEnd : Nat := 0
  deriving DecidableEq, Repr

/-- What a pool-group member sends to another member in a packet whose form the spec does not give (R59, R63, R64, R66); a forwarded line is a
WR_LINE. (DESIGN CHOICE: log entry 27) -/
inductive GroupMsg where
  | heartbeat
  | delta (cid : Cid) (rtag : BitVec 32) (attempt : BitVec 4) (xh : Xh) (offset : BitVec 40) (d : Line)
  | create (xh : Xh) (e : GroupExt)
  | revoke (xh : Xh)
  | answer (xh : Xh) (status : BitVec 16)
  | rebuild (xh : Xh) (granule : Nat) (lines : List (Nat × Line))
  deriving DecidableEq, Repr

/-- A message sent: the member, its traffic class where R272 gives it one, and what it says. -/
structure GroupOut where
  member : Nat
  tc : Option (Fin 8)
  msg : GroupMsg
  deriving DecidableEq, Repr

/-- A create or revoke carried to a member (R59, R439): when, and its answer. -/
structure Carried where
  member : Nat
  xh : Xh
  at_ : Nat
  create : Bool
  ans : Option (BitVec 16) := none
  deriving DecidableEq, Repr

/-- The pool group this device belongs to (R59, R64): members, own slot, index range, silence of each slot, the slots declared lost and those
whose loss has been acted on, what has been sent to the members, the commands carried to them, and the revokes that they wait for. -/
structure Group where
  on : Bool := false
  nmemb : Nat := 0
  self : Fin 8 := 0
  xbase : BitVec 18 := 0
  xcount : Nat := 0
  eids : Tbl Eid := []
  lastHb : Tbl Nat := []
  lost : Byte := 0
  acted : Byte := 0
  promoted : Bool := false
  lastSent : Nat := 0
  out : List GroupOut := []
  calls : List Carried := []
  owed : List (Nat × Xh) := []
  deriving DecidableEq, Repr

/-- ELDER_CFG (R94). -/
structure ElderCfg where
  filter : Bool := false
  en : Bool := false
  part : BitVec 6 := 0
  eidMatch : Eid := 0
  eidMask : Eid := 0
  deriving DecidableEq, Repr

/-- A region table entry of the Elder window (R96). -/
structure ElderReg where
  v : Bool := false
  r : Bool := false
  w : Bool := false
  a : Bool := false
  key : BitVec 4 := 0
  index : BitVec 18 := 0
  granule : BitVec 18 := 0
  gen : BitVec 6 := 0
  deriving DecidableEq, Repr

/-! ### Coherence (chapter 04) -/

/-- A directory entry (R104). -/
structure DirEntry where
  state : BitVec 3 := 0
  opn : Bool := false
  fmt : Bool := false
  tag : BitVec 17 := 0
  txn : BitVec 10 := 0
  sharers : Word := 0
  deriving DecidableEq, Repr

/-- The kinds of an open transaction (R115); `fetch` is GRANT_WAIT before the line's data has arrived and the grant is sent. -/
inductive TxnKind where
  | free | fetch | grantWait | shareWait | invWait | evictWait
  deriving DecidableEq, Repr

/-- A transaction (R106): its kind, line, requester, request, the targets whose answers are awaited, those of them that answered
WB_PENDING and those whose WB_DIRTY has come, and the parked request; `next` is STATE after the GRANT_ACK. `after` says that a silent grantee is being invalidated and the line is then
freed (R116). `discard` marks the back-invalidation of a revocation (R138). -/
structure Txn where
  kind : TxnKind := .free
  line : Nat := 0
  way : Nat := 0
  eid : Eid := 0
  cid : Cid := 0
  req : Req := {}
  await : List Eid := []
  wbWait : List Eid := []
  wbDone : List Eid := []
  parked : Option Req := none
  opc : Byte := 0
  after : Bool := false
  discard : Bool := false
  aborted : Bool := false
  next : BitVec 3 := 0
  since : Nat := 0
  deriving DecidableEq, Repr

/-- A reservation (R122, R123): its line, as PPA and as the request names it. -/
structure Resv where
  line : Nat := 0
  xh : Xh := 0
  offset : BitVec 40 := 0
  eid : Eid := 0
  cid : Cid := 0
  opc : Byte := 0
  since : Nat := 0
  deriving DecidableEq, Repr

/-- A directory slice: the ways of its sets (index set × 16 + way), the pseudo-LRU trees (R124), the transaction table, the
reservations in the order made, the predictor (R127), and the host-loss scan with its count and lowest offset per extent. -/
structure Slice where
  ways : Tbl DirEntry := []
  lru : Tbl (BitVec 15) := []
  txns : Tbl Txn := []
  resv : List Resv := []
  pred : Tbl (BitVec 2) := []
  scanning : Bool := false
  orphans : Tbl (Nat × Nat) := []
  deriving DecidableEq, Repr

/-! ### Memory (chapters 09 and 13) -/

/-- The mark a line carries (R382). -/
inductive Mark where
  | none | poison | orphan
  deriving DecidableEq, Repr

/-- What is known of a stored line beside its bytes: the key and tweak it was last written under (a key number and the line's
place, R472), its mark, and, for a line written raw in diagnostic use, its check symbols (R395). -/
structure LineMeta where
  key : Option Nat := none
  tweak : Nat := 0
  mark : Mark := .none
  raw : Option (BitVec 128) := none
  deriving DecidableEq, Repr

/-- The tags of one queue of weighted fair queuing (R277). -/
structure Wfq where
  start : Word := 0
  fin : Option Word := none
  deriving DecidableEq, Repr

/-- A DRAM channel controller (R372 to R377, R390): admitted requests, requests issued to the banks, whether it drains writes,
the open row of each bank, the calibration state, postponed refreshes, the distinct lines that decoded UE with their times, and the bank and rows of the
last neighbour refresh (R375). -/
structure Chan where
  entries : List Req := []
  issued : List Req := []
  draining : Bool := false
  openRow : Tbl (Option Nat) := []
  blackout : Bool := false
  calDue : Bool := false
  lastCal : Nat := 0
  phyFails : Nat := 0
  postponed : Tbl Nat := []
  refreshed : Tbl Nat := []
  ue : List (Nat × Nat) := []
  nref : Option (Nat × List Nat) := none
  deriving DecidableEq, Repr

/-- A stack: MEM_STACK_STATUS (R396), its two shadow timing sets (R378), the time in ps before which the throttle of R374 admits nothing, and that before
which level 2 of the capper (R519) holds back background and partition flows, the admission arbiter (R276), what a
unit of this device still holds for want of an entry (R279), its
virtual time and tags (R277), when the pace of background traffic allows the next granule, the delay measurement (R284), the channels, and the patrol position (R389). -/
structure Stack where
  state : BitVec 3 := 0
  rate : BitVec 2 := 0
  tset : Bool := false
  timA : Word := 0
  timB : Word := 0
  diag : Bool := false
  failed : BitVec 16 := 0
  temp : Byte := 0
  hot : Bool := false
  throttle : Bool := false
  thrNext : Nat := 0
  capNext : Nat := 0
  queue : List Req := []
  wait : List Req := []
  paused : Bool := false
  vtime : Word := 0
  tags : Tbl Wfq := []
  served0 : Tbl Nat := []
  bgNext : Nat := 0
  delaySum : Nat := 0
  delayCnt : Nat := 0
  lastMean : Nat := 0
  chans : Tbl Chan := []
  patrol : Nat := 0
  patrolAt : Nat := 0
  deriving DecidableEq, Repr

/-- Memory-wide registers and progress: SCRUB_SHARE (R57), PATROL_H (R397), the rate change in progress (R379), which `rcLower` says lowers each stack
by one code for the capper (R519), and the 4 KiB diagnostic bank of management-island SRAM (R394), which no command reaches. -/
structure MemCfg where
  scrubShare : Nat := 25
  patrolH : BitVec 5 := 8
  rcMask : Byte := 0
  rcCode : BitVec 2 := 0
  rcOn : Bool := false
  rcCapper : Bool := false
  rcLower : Bool := false
  diagBank : BitVec 32768 := 0
  deriving DecidableEq, Repr

/-! ### Quince tiles (chapters 05 and 07) -/

/-- The states of a job (R153). -/
inductive JState where
  | free | queued | resolving | ready | running | stopping | suspended | ending
  deriving DecidableEq, Repr

/-- The states of a staging window (R146). -/
inductive WState where
  | free | sched | landing | job (slot : Nat)
  deriving DecidableEq, Repr

/-- Why a running job was stopped (R153). -/
inductive StopCause where
  | none | sched | inval | quantum | kat | power
  deriving DecidableEq, Repr

/-- A range entry (R150). -/
structure Rng where
  pva : BitVec 48 := 0
  len : BitVec 40 := 0
  acc : BitVec 2 := 0
  slot : BitVec 4 := 0
  deriving DecidableEq, Repr

/-- A resolved page list entry (R81), with the union of the declared access types of its page (R80). -/
structure Rpl where
  v : Bool := false
  size : BitVec 2 := 0
  tgt : Bool := false
  rights : BitVec 3 := 0
  dead : Bool := false
  pva : BitVec 36 := 0
  xh : Xh := 0
  offset : BitVec 27 := 0
  hpa : BitVec 40 := 0
  need : BitVec 3 := 0
  deriving DecidableEq, Repr

/-- An access that an engine has issued and that has not completed, or that waits to be reissued (R161): the operand slot and
stream position it serves, the first output element it holds, its place, and for a write its bytes. -/
structure EAcc where
  id : Nat := 0
  write : Bool := false
  slot : Nat := 0
  pos : Nat := 0
  len : Nat := 0
  elem : Nat := 0
  host : Bool := false
  eid : Option Eid := none
  cid : Cid := 0
  xh : Xh := 0
  addr : Nat := 0
  pva : BitVec 48 := 0
  data : Line := 0
  mask : BitVec 128 := 0
  stage : Nat := 0
  attempt : Nat := 0
  readyAt : Nat := 0
  deriving DecidableEq, Repr

/-- A completion that the completion catcher holds (R159). -/
structure EDone where
  id : Nat := 0
  status : BitVec 5 := 0
  backoff : BitVec 4 := 0
  data : Line := 0
  at_ : Nat := 0
  deriving DecidableEq, Repr

/-- The state of one fused stage (R162): elements of the open segment and segments written, the word or value held in registers, the
results that wait for the rest of their MX block, the running CRC, and the COMPARE record. -/
structure StageSt where
  count : Nat := 0
  outs : Nat := 0
  word : BitVec 128 := 0
  best : Option Val := none
  hold : List Val := []
  crc : BitVec 32 := 0xFFFFFFFF
  crcBytes : Nat := 0
  crcOut : Nat := 0
  mism : Nat := 0
  first : Option Nat := none
  deriving DecidableEq, Repr

/-- The engine state of an operation (R145, R162): the element index of the next block, the state of the last stage, the bytes of each operand stream
that have been read and not consumed (index slot × 2^41 + position), how far each slot has been requested, and where the operation stands: `phase` 0
absorbs D_in, 1 the main stream, 2 writes D (R213); `acc` holds integer destinations; when the block in progress began, by time and by FT, and whether
issue is stalled for want of an entry (R279) or of a host request (R360). -/
structure Eng where
  elem : Nat := 0
  row : Nat := 0
  phase : Nat := 0
  last : StageSt := {}
  buf : Tbl (Option Byte) := []
  asked : Tbl Nat := []
  out : List EAcc := []
  done : List EDone := []
  retry : List EAcc := []
  nextId : Nat := 0
  finished : Bool := false
  failed : Bool := false
  acc : Tbl Nat := []
  blockAt : Nat := 0
  blockFt : Nat := 0
  held : Bool := false
  heldHost : Bool := false
  deriving DecidableEq, Repr

/-- A descriptor slot and its job (R149, R152, R153, R166): `todo` is what the walker has still to resolve of its ranges, `frec` its
fault record and `recPosted` that it has left the tile, `heldKat` that a test holds its completion (R503), `handed` that it ended, `quantum` that its quantum expired while
another cause stopped it (R171). -/
structure Job where
  st : JState := .free
  inc : BitVec 21 := 0
  cid : Cid := 0
  flags : Byte := 0
  tag : BitVec 32 := 0
  seed : Word := 0
  nstage : Nat := 0
  budget : Nat := 0
  rlist : Bool := false
  opblk : BitVec 256 := 0
  ranges : List Rng := []
  param : BitVec 2048 := 0
  todo : List (BitVec 48 × Nat × BitVec 2) := []
  rpl : List Rpl := []
  eng : Eng := {}
  engNs : Nat := 0
  quantNs : Nat := 0
  runAt : Nat := 0
  firstRun : Option Nat := none
  order : Nat := 0
  stop : StopCause := .none
  lastStop : StopCause := .none
  quantum : Bool := false
  reres : Bool := false
  mark : Option Byte := none
  cause : Byte := 0
  status : BitVec 5 := 0
  stage : Nat := 0
  failPva : BitVec 48 := 0
  ftEnd : Word := 0
  frec : Option FaultRec := none
  recPosted : Bool := false
  heldKat : Bool := false
  handed : Bool := false
  deriving DecidableEq, Repr

/-- The walk a quadrant's walker runs for a tile (R76, R80): the job, whether it re-resolves, the level of the entry in hand and the table it lies in
(host, or a place in an extent), the rights gathered, and the read outstanding or, after a RETRY, when it may be sent again; `held` says that it waits
for an entry of an arbiter. `kept` is a line that has come and whose entries wait for room in the RPL store (R77); `restart` says that the page is
walked again from the root. -/
structure Walk where
  held : Bool := false
  slot : Nat := 0
  rid : Nat := 0
  reres : Bool := false
  host : Bool := false
  level : Nat := 3
  base : Nat := 0
  xh : Xh := 0
  rights : BitVec 3 := 7
  attempt : Nat := 0
  retryAt : Nat := 0
  waiting : Bool := false
  ready : Option EDone := none
  restart : Bool := false
  kept : Option EDone := none
  deriving DecidableEq, Repr

/-- An operand descriptor of a scheduled operation (R248). -/
structure Desc where
  kind : BitVec 2 := 0
  slotIn : BitVec 4 := 15
  slotOut : BitVec 4 := 15
  eid : Eid := 0
  win : BitVec 4 := 0
  xh : Xh := 0
  offset : BitVec 40 := 0
  cid : Cid := 0
  deriving DecidableEq, Repr

/-- A scheduled-operation entry (R247). -/
structure SEntry where
  start : Nat := 0
  deadline : Nat := 1
  every : Nat := 1
  phase : Nat := 0
  valid : Bool := false
  clearIn : Bool := false
  ndesc : Nat := 0
  paramIdx : Nat := 0xFFFF
  seed : Word := 0
  opblk : BitVec 256 := 0
  desc : List Desc := []
  deriving DecidableEq, Repr

/-- A tile's section of an image (R242, R246, R247): entries, parameter blocks and reserved windows. -/
structure Section where
  entries : List SEntry := []
  params : List (BitVec 2048) := []
  resv : BitVec 16 := 0
  deriving DecidableEq, Repr

/-- The running scheduled operation of a tile (R260, R261): its entry and parameter block, which stay when a takeover replaces the table,
the FT at which it is to have ended, and its results for windows that it empties first (R247). -/
structure SRun where
  entry : Nat := 0
  ent : SEntry := {}
  pm : BitVec 2048 := 0
  cycle : Nat := 0
  deadline : Nat := 0
  firedAt : Nat := 0
  eng : Eng := {}
  overrun : Bool := false
  after : List (Nat × Nat × List Byte) := []
  deriving DecidableEq, Repr

/-- The known-answer test state of a tile: TEST_STATUS (R501), the trigger, when the test and its segment began, whether it is paused between segments
and whether a stop was forced, the ended jobs whose completions it decides (R503), the jobs that ended before it and that it covers, the chunks to be
placed again after it, and the CRCs of its outputs (R499). -/
structure Kat where
  health : BitVec 2 := 0
  due : Bool := false
  running : Bool := false
  lastPass : Bool := false
  fails : Nat := 0
  passes : Nat := 0
  jobs : Nat := 0
  lastMs : BitVec 32 := 0
  lastNs : Nat := 0
  lastFail : Nat := 0
  trigger : Byte := 0
  force : Bool := false
  paused : Bool := false
  began : Nat := 0
  segAt : Nat := 0
  covers : List (Nat × BitVec 21) := []
  replace : List (Nat × Nat) := []
  outs : Tbl (BitVec 32) := []
  deriving DecidableEq, Repr

/-- A contribution queued for a landing window (R225). -/
structure Landed where
  win : Nat := 0
  req : Req := {}
  deriving DecidableEq, Repr

/-- A Quince tile (R145 to R172); `swait` holds due scheduled entries with their cycles, `fired` the cycle after the one in which each
entry last fell due. -/
structure Tile where
  wins : Tbl WState := []
  words : Tbl (BitVec 128) := []
  consumed : Tbl Nat := []
  jobs : Tbl Job := []
  running : Option Nat := none
  walk : Option Walk := none
  srun : Option SRun := none
  swait : List (Nat × Nat) := []
  fired : Tbl Nat := []
  armed : Section := {}
  staged : Section := {}
  pend : Option (Nat × FaultRec) := none
  pendAt : Nat := 0
  pendNo : Nat := 0
  parked : Bool := false
  lastPart : BitVec 6 := 63
  nextOrder : Nat := 0
  nextId : Nat := 0
  lands : List Landed := []
  kat : Kat := {}
  gated : Bool := false
  deriving DecidableEq, Repr

/-- A landing directory entry (R227), indexed by tile × 16 + window; `sched` marks a landing window of the armed image and
`anchor` the window's anchor (R246); `due` is the map entry that the window takes when what it holds is drained: whether it lands a
chunk, the extent and chunk, and the anchor. -/
structure Land where
  v : Bool := false
  draining : Bool := false
  ext : Nat := 0
  chunk : Nat := 0
  anchor : BitVec 7 := 0
  sched : Bool := false
  late : Bool := false
  due : Option (Bool × Nat × Nat × BitVec 7) := none
  deriving DecidableEq, Repr

/-- A cached non-leaf entry of a walker (R78): CID, level and PVA prefix (the bits the entry maps), and the raw entry. -/
structure PtCache where
  cid : Cid := 0
  level : Nat := 0
  pfx : Nat := 0
  entry : Word := 0
  deriving DecidableEq, Repr

/-- A page walker: its table-entry cache, most recently used first. -/
structure Walker where
  cache : List PtCache := []
  deriving DecidableEq, Repr

/-! ### Fabric time and schedules (chapter 08) -/

/-- The FT keeper: FT, the latched fraction, FT_CFG and FT_STATUS (R233, R235, R236), consecutive exchanges (R239), and the part
of the correction not yet slewed (R234). (DEDUCED: log entry 34) -/
structure Keeper where
  ft : BitVec 80 := 0
  frac : BitVec 16 := 0
  parent : BitVec 5 := 31
  alt : BitVec 5 := 31
  root : Bool := false
  esync : Byte := 0
  holdMax : Byte := 4
  state : BitVec 3 := 0
  offset : BitVec 24 := 0
  freqAdj : BitVec 16 := 0
  holdSince : Nat := 0
  followAlt : Bool := false
  good : Nat := 0
  bad : Nat := 0
  slew : Int := 0
  stopped : Bool := false
  stepped : Bool := false
  deriving DecidableEq, Repr

/-- The FT replicas of the islands (R13): tiles, hub (directory, memory stage), DRAM controllers, and the link dies. (DEDUCED: log entry 34) -/
structure Replicas where
  tiles : BitVec 80 := 0
  hub : BitVec 80 := 0
  dram : BitVec 80 := 0
  die : Tbl (BitVec 80) := []
  deriving DecidableEq, Repr

/-- A Crocus list entry (R244). -/
structure GateEntry where
  dur : Nat := 1
  gate : Byte := 0
  alt : BitVec 5 := 31
  deriving DecidableEq, Repr

/-- An image as loaded (R242 to R247). -/
structure Image where
  mode : Bool := false
  id : Word := 0
  cycle : Nat := 64
  lists : Tbl (List GateEntry) := []
  routes : Tbl (Option Nat) := []
  wins : List (BitVec 64) := []
  deriving DecidableEq, Repr

/-- Schedule state: SCHED_STATUS, SCHED_TAKEOVER, SCHED_IMAGE_ID (R254), the image copies of reserved DRAM (R250), the running
image and the one being armed, the pending takeover, the list switch last made, and the lost ports with the FT of each loss (R258). -/
structure Sched where
  running : Option Image := none
  runStart : Nat := 0
  pending : Bool := false
  disarm : Bool := false
  stagedImg : List Byte := []
  staged : Bool := false
  armedImg : List Byte := []
  next : Option Image := none
  armToken : Option Nat := none
  loaded : Bool := false
  tx : Nat := 0
  lastTx : Nat := 0
  alt : BitVec 16 := 0
  lost : BitVec 16 := 0
  lostAt : Tbl Nat := []
  withdrawn : BitVec 16 := 0
  lastSwitch : Nat := 0
  syncLost : Bool := false
  events : List (Byte × Nat) := []
  deriving DecidableEq, Repr

/-! ### Ports (chapters 09, 10, 12) -/

/-- A packet in an output queue, with the time it came, whether it is a demoted TC7 packet (R245), and whether it became ready in a
TC7 window that has not ended (R255). -/
structure QPkt where
  pkt : Packet := {}
  at_ : Nat := 0
  demoted : Bool := false
  inWin : Bool := false
  inp : Option (Fin 4) := none
  deriving DecidableEq, Repr

/-- A DATA flit in the replay store (R302): its SEQ, VC (0 REQ, 1 RSP, 2 SNP), when it was last sent, whether it has been sent,
where it stands (on die, waiting to be written to spill, spilled, when its body is held in DRAM alone), which of its two lines the access
in progress has done, whether a spilled flit has been asked for (1) or has come back (2) for a replay, and the packet of its frame.
(DESIGN CHOICE: log entry 44) -/
structure TxFlit where
  seq : BitVec 16 := 0
  cls : Nat := 0
  flit : Flit := {}
  sentAt : Option Nat := none
  spill : Bool := false
  written : Bool := false
  halves : BitVec 2 := 0
  back : Nat := 0
  pkt : Packet := {}
  deriving DecidableEq, Repr

/-- The steps of training (R297) and of a retrain (R308), with the marker that the port sends (R529). -/
structure TrainSt where
  step : Nat := 0
  at_ : Nat := 0
  short : Bool := false
  marker : BitVec 16 := 0
  gotParam : Bool := false
  gotRtt : Bool := false
  deriving DecidableEq, Repr

/-- A Svaop port, or Qoreus (index 16): PORT_STATUS, PORT_LINK, PORT_CFG (R318 to R320), transmit and receive sides, training
and retraining, timestamp exchange, output queues and gates. `fecMsg` is the message of the FEC block sent last (R290). (DESIGN CHOICE: log entry 6) -/
structure Port where
  state : BitVec 3 := 0
  lastDown : BitVec 4 := 0
  retrainCause : BitVec 4 := 0
  peerEid : Eid := 0xFFF
  rtt : BitVec 16 := 0
  credReq : BitVec 15 := 0
  credRsp : BitVec 15 := 0
  credSnp : BitVec 15 := 0
  laneOk : Byte := 0
  en : Bool := false
  auto : Bool := false
  peerCaps : Byte := 0
  -- transmit side
  nextSeq : BitVec 16 := 0
  lastAck : BitVec 16 := 0xFFFF
  store : List TxFlit := []
  replay : Option Nat := none
  replayAck : Option (BitVec 16 × Nat) := none
  cred : Tbl Nat := []
  acked : Tbl Nat := []
  returned : Tbl Nat := []
  lastCr : Tbl (BitVec 16) := []
  lctl : List Flit := []
  fecCtr : BitVec 24 := 0
  wire : List Flit := []
  wireAt : Nat := 0
  fecMsg : BitVec 10280 := 0
  -- receive side
  exp : BitVec 16 := 0
  nakHold : Bool := false
  nakSend : Bool := false
  nakAt : Nat := 0
  nakSame : Nat := 0
  lastNak : Option (BitVec 16) := none
  protoErr : Bool := false
  crr : BitVec 16 := 0
  crs : BitVec 16 := 0
  crn : BitVec 16 := 0
  rxPart : List Byte := []
  rxOpen : Bool := false
  rxFlits : Nat := 0
  rxVc : Bool := false
  rxCls : Bool := false
  uncorr : List Nat := []
  corrBits : Tbl Nat := []
  corrBase : Nat := 0
  lastBlock : Nat := 0
  lastData : Nat := 0
  -- training and retraining
  train : TrainSt := {}
  retrains : List Nat := []
  coeffs : Bool := false
  coeffEid : Eid := 0xFFF
  shortOk : Bool := false
  ampl : Byte := 0
  preset : Byte := 0
  lanes : Byte := 0xFF
  downAt : Nat := 0
  gotResume : Option (BitVec 16 × List (Nat × BitVec 16)) := none
  listening : Bool := false
  -- timestamp exchange
  tseq : BitVec 16 := 0
  tsxAt : Nat := 0
  rxTTx : BitVec 80 := 0
  rxArr : BitVec 80 := 0
  rxTseq : BitVec 16 := 0xFFFF
  delays : List Nat := []
  peerKstate : Byte := 0
  peerImage : Word := 0
  -- output queues and gates
  tcw : Word := 0x0040101010101010
  queues : Tbl (List QPkt) := []
  vtime : Word := 0
  tags : Tbl Wfq := []
  served0 : Tbl Nat := []
  frames : Nat := 0
  gateIdx : Nat := 0
  gateStart : Nat := 0
  gateOpen : Byte := 0xFF
  starved : Bool := false
  deriving DecidableEq, Repr

/-! ### Routing (chapter 11) -/

/-- A route entry (R328). -/
structure Route where
  v : Bool := false
  local_ : Bool := false
  order : Byte := 0
  nprod : BitVec 3 := 0
  dist : Byte := 0
  deriving DecidableEq, Repr

/-- A packet held in the transit buffer (R335): its input port (none for an originated packet), when it came, and whether it is a demoted
TC7 packet (R245). -/
structure Transit where
  pkt : Packet := {}
  inp : Option (Fin 4) := none
  at_ : Nat := 0
  demoted : Bool := false
  deriving DecidableEq, Repr

/-- A link die (R328, R329, R332, R335): the two slots with their states and XMASKs, CUR, DRAINED, the drain in progress, the
transit buffer, packets that arrived on its ports and packets this GP8 originates on it. -/
structure Die where
  slot0 : Tbl Route := []
  slot1 : Tbl Route := []
  cur : Bool := false
  s0 : BitVec 2 := 0
  s1 : BitVec 2 := 0
  xmask0 : BitVec 4 := 0
  xmask1 : BitVec 4 := 0
  drained : BitVec 4 := 0
  flipAt : Nat := 0
  restamped : Bool := false
  transit : List Transit := []
  arrived : List (Fin 4 × Packet) := []
  orig : List Packet := []
  deriving DecidableEq, Repr

/-- A NOCMP batch of a pair (R342): the PSEQs of its requests with the status each completed with, and the closing completion with the
link dies that it prefers (R19). -/
structure Batch where
  items : List (BitVec 16 × Option (BitVec 5)) := []
  closer : Option (BitVec 16) := none
  closed : Option (List Nat × Packet) := none
  deriving DecidableEq, Repr

/-- What the destination keeps of a pair (R340), by source EID × 2 + VC. -/
structure PairRx where
  e : BitVec 16 := 0
  inc : Bool := false
  synced : Bool := false
  timer : Option Nat := none
  held : List (Packet × Nat) := []
  batches : List Batch := []
  dead : Bool := false
  deriving DecidableEq, Repr

/-- What a source keeps of a pair (R338), by destination EID × 2 + VC. -/
structure PairTx where
  pseq : BitVec 16 := 0
  pinc : Bool := false
  started : Bool := false
  openNone : List (BitVec 16 × Nat) := []
  deriving DecidableEq, Repr

/-- What a request that this GP8 originates is (R249, R61, R63): a scheduled write, a line forwarded to a member of the group, or a delta. -/
inductive OrigKind where
  | sched | line | delta
  deriving DecidableEq, Repr

/-- A request that this GP8 originates over Svaop and that has no completion yet (R345); `sent` once it has its place in its pair. -/
structure OrigReq where
  rtag : BitVec 32 := 0
  pkt : Packet := {}
  sent : Bool := false
  sentAt : Nat := 0
  kind : OrigKind := .sched
  tile : Nat := 0
  id : Nat := 0
  deriving DecidableEq, Repr

/-- A request that the limiter or the admission arbiter holds (R279, R282). (DESIGN CHOICE: log entry 14) -/
structure Held where
  pkt : Packet := {}
  die : Nat := 0
  lim : BitVec 2 := 0
  deriving DecidableEq, Repr

/-- RT_NODE (R330) and the pending flip (R331). -/
structure Node where
  eid : Eid := 0
  board : BitVec 4 := 0
  hopLimit : Byte := 96
  pairTimeout : BitVec 14 := 200
  restampDelay : BitVec 10 := 20
  flip : Option Nat := none
  deriving DecidableEq, Repr

/-- An EID_LIMIT entry (R281) with the time of its last refill (R282). -/
structure EidLimit where
  rate : BitVec 12 := 0
  burst : BitVec 12 := 0
  tokens : Int := 0
  last : Nat := 0
  deriving DecidableEq, Repr

/-! ### Qoreus (chapter 12) -/

/-- Who issued a host-memory request. -/
inductive HostOrg where
  | walker (tile id : Nat)
  | engine (tile slot inc id : Nat)
  deriving DecidableEq, Repr

/-- An outstanding host-memory request (R360). -/
structure HostReq where
  tag : BitVec 16 := 0
  org : HostOrg := .walker 0 0
  sentAt : Nat := 0
  write : Bool := false
  deriving DecidableEq, Repr

/-- Qoreus beyond its port record: HOST_AGENT, CACHING, AGENT (R355), the message queues of each class (R361) and the outstanding host-memory
requests; `leaving` says that the host leaves the directory in step 3 of an entry (R527), and `linkUp` that QOREUS_LINK_UP has run since Qoreus last
reached UP. -/
structure Qor where
  hostAgent : Bool := false
  caching : Bool := false
  rsp : List Packet := []
  snp : List Packet := []
  walk : List Packet := []
  vec : List Packet := []
  eng : List (Nat × Packet) := []
  lastTile : Nat := 31
  reqs : List HostReq := []
  nextTag : BitVec 16 := 0
  linkUp : Bool := false
  leaving : Bool := false
  retrainAt : Option Nat := none
  deriving DecidableEq, Repr

/-! ### Steward and Warden (chapters 14 to 16) -/

/-- A mailbox (R407, R408): the two slots and MSEQ; `running` once Steward has taken the request. -/
structure Mbox where
  req : BitVec 2048 := 0
  rpl : BitVec 2048 := 0
  mseq : BitVec 32 := 0
  running : Bool := false
  eid : Eid := 0
  deriving DecidableEq, Repr

/-- What a command in progress waits for before its reply is posted. -/
inductive Wait where
  | never
  | phase (ext : Nat) (ph : Bool)              -- the old phase of an extent drains (R47)
  | revoke (ext : Nat)                         -- step 6 of R54
  | ctxFree (cid : Nat)
  | partFree (part : Nat)
  | agents (eid : Nat)                         -- back-invalidations of an EID (R109)
  | binv (ext : Nat)                           -- back-invalidations of an extent (R139)
  | job (tile slot inc : Nat)
  | zeroFill (ext : Nat)
  | window (tile win : Nat)
  | arm
  | rate
  | linkDown (port : Nat)
  | retrain (port : Nat)
  | snapshot
  | test (tile : Nat)
  | takeover
  | commit
  | power
  | inval (part cid : Nat) (all : Bool) (base len : Nat)
  | group (member : Nat) (xh : Xh)             -- a member's answer (R439)
  | rebuild (ext : Nat)
  | abort (part : Nat)                         -- DONE of an aborted partition (R418)
  deriving DecidableEq, Repr

/-- A command in progress (R411, R420, R426): its token, mailbox, MSEQ, opcode, the EID that set OWN, the objects it names (R454), what it
waits for, and the result to post; `deferred` while it has not run yet, `carried` when a switchover commit found it in progress (R453). -/
structure Cmd where
  token : Nat := 0
  mb : MbId := {}
  mseq : BitVec 32 := 0
  opcode : BitVec 16 := 0
  eid : Eid := 0
  names : List (Nat × Nat) := []
  waits : List Wait := []
  result : BitVec 1920 := 0
  status : BitVec 16 := 0
  detail : BitVec 16 := 0
  deferred : Bool := false
  carried : Bool := false
  deriving DecidableEq, Repr

/-- What a journal entry records (R420): the intent of a command taken, that of its writes through Warden, and its completion. -/
inductive JKind where
  | take | write | done
  deriving DecidableEq, Repr

/-- The steps of a takeover and of a switchover commit (R423, R479). -/
inductive CoreStep where
  | none | booting | replay | oldCheck | swWait | swBoot | swLoad | swCarry
  deriving DecidableEq, Repr

/-- An entry of Steward's journal (R420): its sequence number, its command's token, what it records, and whether its CRC holds. -/
structure JEntry where
  seq : Nat := 0
  token : Nat := 0
  kind : JKind := .take
  good : Bool := true
  deriving DecidableEq, Repr

/-- Steward's journal (R420): the next sequence number, and the entries not retired in retained SRAM and in the mirror in reserved DRAM. -/
structure Journal where
  next : Nat := 0
  ring : List JEntry := []
  mirror : List JEntry := []
  deriving DecidableEq, Repr

/-- A vector of the known-answer test (R499): the opcode that it tests, its bytes, and the CRC-32C of its output. (DESIGN CHOICE: log entry 91) -/
structure KatVec where
  test : Byte := 0
  data : List Byte := []
  crc : BitVec 32 := 0
  deriving DecidableEq, Repr

/-- A firmware slot of module flash (R476, R477). (DESIGN CHOICE: log entry 5) -/
structure FwSlot where
  valid : Bool := false
  version : BitVec 32 := 0
  svn : Byte := 0
  advance : Bool := false
  length : Nat := 0
  digest : BitVec 384 := 0
  deriving DecidableEq, Repr

/-- Steward and the management cores: MC_STATUS (R424), the claims held by Warden's configuration port, the reply writer and the link-control port
(R421), the heartbeat, the takeover or commit in progress (`swAt`: when FW_COMMIT began to wait), the mailbox last served (R411), WARDEN_LAST (R428),
DEV_ADMIN and DEV_NTF (R405, R412), and the event records, with their targets, that wait for a core to run (R322, R351, R417); `flashing` is the
FW_STAGE that writes the other slot and what it will hold (R477). -/
structure Stew where
  released : Bool := false
  active : Bool := false
  standby : BitVec 2 := 0
  noFw : Bool := false
  claim : BitVec 32 := 1
  claimReply : BitVec 32 := 1
  claimLink : BitVec 32 := 1
  takeovers : BitVec 16 := 0
  lastCause : BitVec 3 := 0
  heartbeat : Nat := 0
  step : CoreStep := .none
  commit : Bool := false
  commitToken : Option Nat := none
  swAt : Nat := 0
  lastMb : Nat := 255
  wardenCode : Byte := 0
  wardenToken : BitVec 6 := 0
  wardenAddr : BitVec 32 := 0
  admin : Word := 0
  devNtf : Word := 0
  resetAt : Option Nat := none
  withdrawn : Bool := false
  sessions : BitVec 32 := 0
  flashing : Option (Nat × FwSlot) := none
  late : List (Nat × NtfRec) := []
  deriving DecidableEq, Repr

/-- A staging ring (R415): records staged, records that wait for a place (with whether they are tile completions of a tile and
slot), and event records discarded since the last delivery. -/
structure Ring where
  recs : List NtfRec := []
  waiting : List (NtfRec × Option (Nat × Nat)) := []
  dropped : BitVec 16 := 0
  deriving DecidableEq, Repr

/-- A link key direction of a session (R464, R469): highest SCTR accepted, next SCTR to send. -/
structure Sctr where
  accepted : Option Nat := none
  next : Nat := 1
  deriving DecidableEq, Repr

/-! ### Telemetry (chapter 17), power and start-up (chapter 18) -/

/-- SENSOR[k] (R507), with the time of its last record and its consecutive samples over the trip limit (R522). (DESIGN CHOICE: log entry 24) -/
structure Sensor where
  value : BitVec 16 := 0
  warn : Bool := false
  valid : Bool := false
  peak : BitVec 16 := 0
  recAt : Option Nat := none
  trip : Nat := 0
  deriving DecidableEq, Repr

/-- The device error log (R497). -/
structure ELog where
  recs : List ErrRec := []
  next : BitVec 32 := 0
  dropped : BitVec 21 := 0
  beyond : BitVec 16 := 0
  deriving DecidableEq, Repr

/-- Counters: every event, time and histogram counter by its byte offset in the live view (R511), the snapshot view and its registers (R512, R513):
the headers of its blocks and the blocks that have still to latch. -/
structure Cnt where
  live : Tbl Nat := []
  snap : Tbl Nat := []
  hdr : Tbl (BitVec 32) := []
  todo : List Nat := []
  pending : Bool := false
  seq : BitVec 32 := 0
  synced : Bool := false
  snapFt : Word := 0
  deriving DecidableEq, Repr

/-- What survives a whole-chip reset (R536): the fuses and straps of the module, and its flash, among them the seed of the identity keys (R456), the
hashes of the firmware keys (R476), the vectors of the known-answer test (R499), and the remap and timing tables of the stacks (R378, R392).
(DESIGN CHOICE: log entry 5) -/
structure Nv where
  build : BitVec 4 := 0
  units : UnitMap := {}
  dbgdis : Bool := false
  minSvn : Byte := 0
  ceiling : BitVec 10 := 450
  floor : BitVec 10 := 250
  amplMax : Tbl (BitVec 4) := []
  eidS : Eid := 0
  boardS : BitVec 4 := 0
  addrS : BitVec 2 := 0
  fw0 : FwSlot := { valid := true, version := 1, svn := 0, length := 1 }
  fw1 : FwSlot := {}
  seed : BitVec 256 := 0
  fwKeyE : BitVec 384 := 0
  fwKeyM : BitVec 384 := 0
  vectors : List KatVec := []
  slot : Bool := false
  fatal : List ErrRec := []
  fatalPrev : List ErrRec := []
  cause : BitVec 3 := 1
  caused : Bool := false
  resets : BitVec 32 := 0
  remap : Tbl (List (Option Nat)) := []
  timing : Tbl Word := []
  deriving DecidableEq, Repr

/-- The phase of start-up (R532, R538) as the management island knows it. -/
inductive Phase where
  | off          -- no VIN, or the converter stopped
  | rails        -- step 1
  | retryWait    -- rails dropped after a failure, retry pending (R518)
  | dead         -- second failure, until VIN is removed (R518)
  | osc          -- step 2
  | selftest     -- steps 4a to 4c
  | boot         -- step 7
  | ready        -- step 8
  | failed       -- H0 failed (R533)
  | tripped      -- thermal trip (R522)
  deriving DecidableEq, Repr

/-- The steps of entry to and wake from a power state (R527, R528). -/
inductive PwrStep where
  | none | s1 | s2 | s3 | s4 | s5 | s6 | w1 | w2 | w3 | w4 | w5 | w6
  deriving DecidableEq, Repr

/-- Power and start-up: the phase and its progress, STARTUP_STATUS, the unit maps (R534), PWR_STATUS, PWR_CAP and the capper (R519 to R521), the entry
or wake in progress (R527, R528), the I3C port (R537, R545), the FTS output (R546). `rail` counts the rails that have risen in the order of R518,
`fallen` names those that fell for D2 or D2R, in the order in which they rise again, `fusedAt` is when step 3 of R532 ran, `skE` and `skM` are the
identity private keys (R456), and `addrS` is the strap of the I3C address (R545, R548). -/
structure Pwr where
  phase : Phase := .off
  rail : Nat := 0
  railAt : Nat := 0
  railFails : Nat := 0
  fallen : List Nat := []
  fusedAt : Option Nat := none
  elapsed : BitVec 16 := 0
  fused : UnitMap := { stks := 0, linkdies := 0, tiles := 0, quads := 0, hubs := 0, cores := 0 }
  tested : UnitMap := { stks := 0, linkdies := 0, tiles := 0, quads := 0, hubs := 0, cores := 0 }
  logicDone : Bool := false
  phyDone : Bool := false
  memDone : Bool := false
  fillDone : Bool := false
  build : Word := 0
  releasedAt : Nat := 0
  idhash : BitVec 384 := 0
  skE : BitVec 256 := 0
  skM : List Byte := []
  reservedKey : Option Nat := none
  state : BitVec 3 := 0
  entering : Bool := false
  lastAp : BitVec 3 := 0
  input : BitVec 16 := 0
  input1ms : BitVec 16 := 0
  lastUnit : BitVec 16 := 0
  lastReason : Byte := 0
  cap : BitVec 10 := 0
  ceiling : BitVec 10 := 0
  floor : BitVec 10 := 0
  level : BitVec 2 := 0
  step : BitVec 4 := 0
  samples : List (BitVec 16) := []
  stepAt : Nat := 0
  belowAt : Option Nat := none
  overAt : Option Nat := none
  schedThr : Nat := 0
  capRec : Tbl Nat := []
  lowered : Bool := false
  target : BitVec 3 := 0
  pstep : PwrStep := .none
  answers : Tbl Bool := []
  delays : Tbl Nat := []
  askAt : Nat := 0
  refuse : Option (BitVec 16 × Byte) := none
  wake : Bool := false
  wakeFrom : BitVec 3 := 0
  token : Option Nat := none
  i3cAddr : Option (BitVec 7) := none
  addrS : Option (BitVec 2) := none
  fts : Nat := 0
  deriving DecidableEq, Repr

/-! ### The whole state -/

/-- The state of the block. -/
structure State where
  /-- Commands waiting, first in first out. -/
  pending : List Instr := []
  /-- Index of the next free value (the model's own). -/
  fresh : Nat := 0
  /-- Nanoseconds since this start-up (UP_NS, R511). -/
  now : Nat := 0
  nv : Nv := {}
  pwr : Pwr := {}
  sensors : Tbl Sensor := []
  parts : Tbl Part := []
  ctxs : Tbl Ctx := []
  exts : Tbl Ext := []
  shares : Tbl Share := []
  gmap : Tbl (BitVec 19) := []
  rmap : Tbl RMap := []
  prots : Tbl Prot := []
  combs : Tbl Comb := []
  group : Group := {}
  elder : ElderCfg := {}
  regions : Tbl ElderReg := []
  slices : Tbl Slice := []
  agents : Tbl Bool := []
  pred : BitVec 2 := 0
  orphanScan : Bool := false
  dram : List Host.Cell := []
  lines : Tbl LineMeta := []
  splits : List Split := []
  nextSplit : Nat := 0
  stks : Tbl Stack := []
  mem : MemCfg := {}
  tiles : Tbl Tile := []
  lands : Tbl Land := []
  walkers : Tbl Walker := []
  keeper : Keeper := {}
  repl : Replicas := {}
  sched : Sched := {}
  ports : Tbl Port := []
  dies : Tbl Die := []
  node : Node := {}
  rx : Tbl PairRx := []
  tx : Tbl PairTx := []
  origs : List OrigReq := []
  fwds : List FwdWait := []
  nextRtag : BitVec 32 := 0
  released : List Held := []
  limits : Tbl EidLimit := []
  limHeld : List Held := []
  admHeld : List Held := []
  qor : Qor := {}
  mboxes : Tbl Mbox := []
  cmds : List Cmd := []
  stew : Stew := {}
  journal : Journal := {}
  vectors : List KatVec := []
  rings : Tbl Ring := []
  keys : Tbl Sctr := []
  derived : List (Nat × BitVec 256) := []
  elog : ELog := {}
  cnt : Cnt := {}
  deriving DecidableEq, Repr

/-- The state with nothing powered: VIN absent, every register and table at the value the spec gives for reset, DRAM with
nothing listed, and the module's fuses, straps and flash as the assumption log names them. -/
def State.reset : State := {}

end Sys2Proof.Machine
end

