-- ==== Sys2Proof/Machine/Ops.lean ====
section
/-! DEFINITION. The named operations over the state: sparse tables and their accessors, time, the enabled units, counters and
records, notifications, the PPA decode and the lines of DRAM. -/
namespace Sys2Proof.Machine

/-! ### Sparse tables -/

/-- Entry k of a table whose default record is d. -/
def tget {α : Type} (d : α) : Tbl α → Nat → α
  | [], _ => d
  | (j, v) :: r, k => if j = k then v else tget d r k

/-- A table with (k, v) put before the first greater key. -/
def tins {α : Type} : Tbl α → Nat → α → Tbl α
  | [], k, v => [(k, v)]
  | (j, x) :: r, k, v => if j < k then (j, x) :: tins r k v else (k, v) :: (j, x) :: r

/-- A table without key k. -/
def tdel {α : Type} : Tbl α → Nat → Tbl α
  | [], _ => []
  | (j, x) :: r, k => if j = k then tdel r k else (j, x) :: tdel r k

/-- Entry k replaced; a record equal to the default is not listed. -/
def tput {α : Type} [DecidableEq α] (d : α) (t : Tbl α) (k : Nat) (v : α) : Tbl α :=
  if v = d then tdel t k else tins (tdel t k) k v

/-- Entry k changed. -/
def tmod {α : Type} [DecidableEq α] (d : α) (t : Tbl α) (k : Nat) (f : α → α) : Tbl α := tput d t k (f (tget d t k))

/-- Whether a table is in canonical form: keys strictly rising, no record equal to the default. -/
def twf {α : Type} [DecidableEq α] (d : α) : Tbl α → Bool
  | [] => true
  | [(_, v)] => decide (v ≠ d)
  | (j, v) :: (k, w) :: r => decide (j < k) && decide (v ≠ d) && twf d ((k, w) :: r)

/-! ### Accessors of the state's tables -/

/-- Entry k of `sensors`. -/
def State.sensor (s : State) (k : Nat) : Sensor := tget {} s.sensors k
/-- Entry k of `sensors` replaced. -/
def State.setSensor (s : State) (k : Nat) (v : Sensor) : State := { s with sensors := tput {} s.sensors k v }
/-- Entry k of `sensors` changed. -/
def State.modSensor (s : State) (k : Nat) (f : Sensor → Sensor) : State := s.setSensor k (f (s.sensor k))

/-- Entry k of `parts`. -/
def State.part (s : State) (k : Nat) : Part := tget {} s.parts k
/-- Entry k of `parts` replaced. -/
def State.setPart (s : State) (k : Nat) (v : Part) : State := { s with parts := tput {} s.parts k v }
/-- Entry k of `parts` changed. -/
def State.modPart (s : State) (k : Nat) (f : Part → Part) : State := s.setPart k (f (s.part k))

/-- Entry k of `ctxs`. -/
def State.ctx (s : State) (k : Nat) : Ctx := tget {} s.ctxs k
/-- Entry k of `ctxs` replaced. -/
def State.setCtx (s : State) (k : Nat) (v : Ctx) : State := { s with ctxs := tput {} s.ctxs k v }
/-- Entry k of `ctxs` changed. -/
def State.modCtx (s : State) (k : Nat) (f : Ctx → Ctx) : State := s.setCtx k (f (s.ctx k))

/-- Entry k of `exts`. -/
def State.ext (s : State) (k : Nat) : Ext := tget {} s.exts k
/-- Entry k of `exts` replaced. -/
def State.setExt (s : State) (k : Nat) (v : Ext) : State := { s with exts := tput {} s.exts k v }
/-- Entry k of `exts` changed. -/
def State.modExt (s : State) (k : Nat) (f : Ext → Ext) : State := s.setExt k (f (s.ext k))

/-- Entry k of `shares`. -/
def State.share (s : State) (k : Nat) : Share := tget {} s.shares k
/-- Entry k of `shares` replaced. -/
def State.setShare (s : State) (k : Nat) (v : Share) : State := { s with shares := tput {} s.shares k v }
/-- Entry k of `shares` changed. -/
def State.modShare (s : State) (k : Nat) (f : Share → Share) : State := s.setShare k (f (s.share k))

/-- Entry k of `rmap`. -/
def State.rmapE (s : State) (k : Nat) : RMap := tget {} s.rmap k
/-- Entry k of `rmap` replaced. -/
def State.setRmapE (s : State) (k : Nat) (v : RMap) : State := { s with rmap := tput {} s.rmap k v }
/-- Entry k of `rmap` changed. -/
def State.modRmapE (s : State) (k : Nat) (f : RMap → RMap) : State := s.setRmapE k (f (s.rmapE k))

/-- Entry k of `prots`. -/
def State.prot (s : State) (k : Nat) : Prot := tget {} s.prots k
/-- Entry k of `prots` replaced. -/
def State.setProt (s : State) (k : Nat) (v : Prot) : State := { s with prots := tput {} s.prots k v }
/-- Entry k of `prots` changed. -/
def State.modProt (s : State) (k : Nat) (f : Prot → Prot) : State := s.setProt k (f (s.prot k))

/-- Entry k of `combs`. -/
def State.comb (s : State) (k : Nat) : Comb := tget {} s.combs k
/-- Entry k of `combs` replaced. -/
def State.setComb (s : State) (k : Nat) (v : Comb) : State := { s with combs := tput {} s.combs k v }
/-- Entry k of `combs` changed. -/
def State.modComb (s : State) (k : Nat) (f : Comb → Comb) : State := s.setComb k (f (s.comb k))

/-- Entry k of `regions`. -/
def State.region (s : State) (k : Nat) : ElderReg := tget {} s.regions k
/-- Entry k of `regions` replaced. -/
def State.setRegion (s : State) (k : Nat) (v : ElderReg) : State := { s with regions := tput {} s.regions k v }
/-- Entry k of `regions` changed. -/
def State.modRegion (s : State) (k : Nat) (f : ElderReg → ElderReg) : State := s.setRegion k (f (s.region k))

/-- Entry k of `slices`. -/
def State.slice (s : State) (k : Nat) : Slice := tget {} s.slices k
/-- Entry k of `slices` replaced. -/
def State.setSlice (s : State) (k : Nat) (v : Slice) : State := { s with slices := tput {} s.slices k v }
/-- Entry k of `slices` changed. -/
def State.modSlice (s : State) (k : Nat) (f : Slice → Slice) : State := s.setSlice k (f (s.slice k))

/-- Entry k of `lines`. -/
def State.lineMeta (s : State) (k : Nat) : LineMeta := tget {} s.lines k
/-- Entry k of `lines` replaced. -/
def State.setLineMeta (s : State) (k : Nat) (v : LineMeta) : State := { s with lines := tput {} s.lines k v }
/-- Entry k of `lines` changed. -/
def State.modLineMeta (s : State) (k : Nat) (f : LineMeta → LineMeta) : State := s.setLineMeta k (f (s.lineMeta k))

/-- Entry k of `stks`. -/
def State.stack (s : State) (k : Nat) : Stack := tget {} s.stks k
/-- Entry k of `stks` replaced. -/
def State.setStack (s : State) (k : Nat) (v : Stack) : State := { s with stks := tput {} s.stks k v }
/-- Entry k of `stks` changed. -/
def State.modStack (s : State) (k : Nat) (f : Stack → Stack) : State := s.setStack k (f (s.stack k))

/-- Entry k of `tiles`. -/
def State.tile (s : State) (k : Nat) : Tile := tget {} s.tiles k
/-- Entry k of `tiles` replaced. -/
def State.setTile (s : State) (k : Nat) (v : Tile) : State := { s with tiles := tput {} s.tiles k v }
/-- Entry k of `tiles` changed. -/
def State.modTile (s : State) (k : Nat) (f : Tile → Tile) : State := s.setTile k (f (s.tile k))

/-- Entry k of `lands`. -/
def State.land (s : State) (k : Nat) : Land := tget {} s.lands k
/-- Entry k of `lands` replaced. -/
def State.setLand (s : State) (k : Nat) (v : Land) : State := { s with lands := tput {} s.lands k v }
/-- Entry k of `lands` changed. -/
def State.modLand (s : State) (k : Nat) (f : Land → Land) : State := s.setLand k (f (s.land k))

/-- Entry k of `walkers`. -/
def State.walker (s : State) (k : Nat) : Walker := tget {} s.walkers k
/-- Entry k of `walkers` replaced. -/
def State.setWalker (s : State) (k : Nat) (v : Walker) : State := { s with walkers := tput {} s.walkers k v }
/-- Entry k of `walkers` changed. -/
def State.modWalker (s : State) (k : Nat) (f : Walker → Walker) : State := s.setWalker k (f (s.walker k))

/-- Entry k of `ports`. -/
def State.port (s : State) (k : Nat) : Port := tget {} s.ports k
/-- Entry k of `ports` replaced. -/
def State.setPort (s : State) (k : Nat) (v : Port) : State := { s with ports := tput {} s.ports k v }
/-- Entry k of `ports` changed. -/
def State.modPort (s : State) (k : Nat) (f : Port → Port) : State := s.setPort k (f (s.port k))

/-- Entry k of `dies`. -/
def State.die (s : State) (k : Nat) : Die := tget {} s.dies k
/-- Entry k of `dies` replaced. -/
def State.setDie (s : State) (k : Nat) (v : Die) : State := { s with dies := tput {} s.dies k v }
/-- Entry k of `dies` changed. -/
def State.modDie (s : State) (k : Nat) (f : Die → Die) : State := s.setDie k (f (s.die k))

/-- Entry k of `rx`. -/
def State.pairRx (s : State) (k : Nat) : PairRx := tget {} s.rx k
/-- Entry k of `rx` replaced. -/
def State.setPairRx (s : State) (k : Nat) (v : PairRx) : State := { s with rx := tput {} s.rx k v }
/-- Entry k of `rx` changed. -/
def State.modPairRx (s : State) (k : Nat) (f : PairRx → PairRx) : State := s.setPairRx k (f (s.pairRx k))

/-- Entry k of `tx`. -/
def State.pairTx (s : State) (k : Nat) : PairTx := tget {} s.tx k
/-- Entry k of `tx` replaced. -/
def State.setPairTx (s : State) (k : Nat) (v : PairTx) : State := { s with tx := tput {} s.tx k v }
/-- Entry k of `tx` changed. -/
def State.modPairTx (s : State) (k : Nat) (f : PairTx → PairTx) : State := s.setPairTx k (f (s.pairTx k))

/-- Entry k of `limits`. -/
def State.limit (s : State) (k : Nat) : EidLimit := tget {} s.limits k
/-- Entry k of `limits` replaced. -/
def State.setLimit (s : State) (k : Nat) (v : EidLimit) : State := { s with limits := tput {} s.limits k v }
/-- Entry k of `limits` changed. -/
def State.modLimit (s : State) (k : Nat) (f : EidLimit → EidLimit) : State := s.setLimit k (f (s.limit k))

/-- Entry k of `mboxes`. -/
def State.mbox (s : State) (k : Nat) : Mbox := tget {} s.mboxes k
/-- Entry k of `mboxes` replaced. -/
def State.setMbox (s : State) (k : Nat) (v : Mbox) : State := { s with mboxes := tput {} s.mboxes k v }
/-- Entry k of `mboxes` changed. -/
def State.modMbox (s : State) (k : Nat) (f : Mbox → Mbox) : State := s.setMbox k (f (s.mbox k))

/-- Entry k of `rings`. -/
def State.ring (s : State) (k : Nat) : Ring := tget {} s.rings k
/-- Entry k of `rings` replaced. -/
def State.setRing (s : State) (k : Nat) (v : Ring) : State := { s with rings := tput {} s.rings k v }
/-- Entry k of `rings` changed. -/
def State.modRing (s : State) (k : Nat) (f : Ring → Ring) : State := s.setRing k (f (s.ring k))

/-- Entry k of `keys`. -/
def State.sctr (s : State) (k : Nat) : Sctr := tget {} s.keys k
/-- Entry k of `keys` replaced. -/
def State.setSctr (s : State) (k : Nat) (v : Sctr) : State := { s with keys := tput {} s.keys k v }
/-- Entry k of `keys` changed. -/
def State.modSctr (s : State) (k : Nat) (f : Sctr → Sctr) : State := s.setSctr k (f (s.sctr k))

/-- Entry k of `gmap`. -/
def State.granule (s : State) (k : Nat) : (BitVec 19) := tget 0 s.gmap k
/-- Entry k of `gmap` replaced. -/
def State.setGranule (s : State) (k : Nat) (v : (BitVec 19)) : State := { s with gmap := tput 0 s.gmap k v }
/-- Entry k of `gmap` changed. -/
def State.modGranule (s : State) (k : Nat) (f : (BitVec 19) → (BitVec 19)) : State := s.setGranule k (f (s.granule k))

/-- Entry k of `agents`. -/
def State.agent (s : State) (k : Nat) : Bool := tget false s.agents k
/-- Entry k of `agents` replaced. -/
def State.setAgent (s : State) (k : Nat) (v : Bool) : State := { s with agents := tput false s.agents k v }
/-- Entry k of `agents` changed. -/
def State.modAgent (s : State) (k : Nat) (f : Bool → Bool) : State := s.setAgent k (f (s.agent k))

/-! ### Module flash (R392, R536) -/

/-- The timing parameters of a stack for a rate code, as module flash holds them (R378, R536). -/
def Nv.timingOf (n : Nv) (stack : Nat) (code : BitVec 2) : Word := tget 0 n.timing (4 * stack + code.toNat)

/-- Where a row of a bank lies: its own place, or that of the spare which stands for it (R392, R536), the bank's four spares after its 32,768
rows. (DESIGN CHOICE: log entry 12) -/
def Nv.place (n : Nv) (bank row : Nat) : Nat :=
  match (tget [] n.remap bank).findIdx? (· == some row) with
  | some i => 32768 + i
  | none => row

/-- The places physically adjacent to a row's (R375). (DESIGN CHOICE: log entry 12) -/
def Nv.neighbours (n : Nv) (bank row : Nat) : List Nat :=
  let p := n.place bank row
  (if p = 0 then [] else [p - 1]) ++ (if p + 1 < 32772 then [p + 1] else [])

/-! ### Time (R233, R511) -/

/-- Integer nanoseconds of the keeper's FT. (DEDUCED: log entry 4) -/
def State.ftNs (s : State) : Nat := s.keeper.ft.toNat / 65536
/-- Integer nanoseconds of the tiles' replica. (DEDUCED: log entry 4) -/
def State.tileNs (s : State) : Nat := s.repl.tiles.toNat / 65536
/-- Integer nanoseconds of the replica of the hub islands. (DEDUCED: log entry 4) -/
def State.hubNs (s : State) : Nat := s.repl.hub.toNat / 65536
/-- Integer nanoseconds of the replica of link die n. (DEDUCED: log entry 4) -/
def State.dieNs (s : State) (n : Nat) : Nat := (tget 0 s.repl.die n).toNat / 65536
/-- FT as a record stamp. -/
def State.stamp (s : State) : Word := BitVec.ofNat 64 s.ftNs
/-- PAIR_TIMEOUT in ns (R330). -/
def State.pt (s : State) : Nat := s.node.pairTimeout.toNat * 1000
/-- A free value below n (n at least 1), and the state that has used it. -/
def State.draw (s : State) (n : Nat) : Nat × State := (Config.free s.fresh % n, { s with fresh := s.fresh + 1 })

/-! ### Units (R3, R5, R29, R30) -/

/-- Whether stack n, link die n or tile n is enabled (BUILD_INFO). -/
def State.stackEn (s : State) (n : Nat) : Bool := decide (n < 8) && s.pwr.build.getLsbD (5 + n)
def State.dieEn (s : State) (n : Nat) : Bool := decide (n < 4) && s.pwr.build.getLsbD (13 + n)
def State.tileEn (s : State) (n : Nat) : Bool := decide (n < 32) && s.pwr.build.getLsbD (17 + n)
/-- DBGDIS. -/
def State.dbgdis (s : State) : Bool := s.pwr.build.getLsbD 49
/-- Enabled stacks, link dies and tiles in ascending order. -/
def State.stackList (s : State) : List Nat := (List.range 8).filter s.stackEn
def State.dieList (s : State) : List Nat := (List.range 4).filter s.dieEn
def State.tileList (s : State) : List Nat := (List.range 32).filter s.tileEn
/-- Whether port p exists: a Svaop port of an enabled link die, or Qoreus (16) with L0 enabled. -/
def State.portEn (s : State) (p : Nat) : Bool := if p = 16 then s.dieEn 0 else decide (p < 16) && s.dieEn (p / 4)
/-- The quadrant a link die attaches to, and the die of a quadrant (R5). -/
def quadOfDie : Nat → Nat
  | 0 => 0 | 1 => 2 | 2 => 1 | _ => 3
def dieOfQuad : Nat → Nat
  | 0 => 0 | 1 => 2 | 2 => 1 | _ => 3
/-- The link die that serves a quadrant (R29, R30). -/
def State.dieServing (s : State) (q : Nat) : Option Nat :=
  if s.dieEn (dieOfQuad q) then some (dieOfQuad q)
  else match s.dieList.filter (fun d => quadOfDie d / 2 == q / 2) with
    | d :: _ => some d
    | [] => s.dieList.head?
/-- The stack that holds the spill of the ports of a link die, by spill granule 0 to 15 (R28, R30): a stack
that is FAILED, or that has a failed channel in group 2, holds none (R390). -/
def State.spillStack (s : State) (die g : Nat) : Option Nat :=
  let q := quadOfDie die
  let ok := fun n => s.stackEn n && (s.stack n).state != 5 && (s.stack n).failed &&& 0x0F00 == 0
  match [2 * q, 2 * q + 1].filter ok with
  | [a, b] => some (if g % 2 = 0 then a else b)
  | [a] => some a
  | _ => match ((List.range 8).filter (fun n => n / 4 == q / 2)).filter ok with
    | a :: _ => some a
    | [] => ((List.range 8).filter ok).head?

/-- The stack on which a spill granule (0 to 15) of a link die is placed at start-up (R28, R30). (DESIGN CHOICE: log entry 44) -/
def State.spillHome (s : State) (die g : Nat) : Option Nat :=
  let q := quadOfDie die
  match [2 * q, 2 * q + 1].filter s.stackEn with
  | [a, b] => some (if g % 2 = 0 then a else b)
  | [a] => some a
  | _ => match ((List.range 8).filter (fun n => n / 4 == q / 2)).filter s.stackEn with
    | a :: _ => some a
    | [] => s.stackList.head?

/-- The spill granules (0 to 63, 16 for each die) that start-up places on a stack, in die order. (DESIGN CHOICE: log entry 44) -/
def State.spillGrans (s : State) (n : Nat) : List Nat := (List.range 64).filter fun i => s.spillHome (i / 16) (i % 16) == some n

/-- The other reserved granules of a stack: 960 interleaved over the enabled stacks, the lowest-numbered first. (DESIGN CHOICE: log entry 44) -/
def State.otherCount (s : State) (n : Nat) : Nat :=
  let l := s.stackList
  (960 - l.findIdx (· = n) + l.length - 1) / max 1 l.length

/-- How many granules of a stack are reserved, from the highest of group 2 down. (DESIGN CHOICE: log entry 44) -/
def State.resvCount (s : State) (n : Nat) : Nat := (s.spillGrans n).length + s.otherCount n

/-- The PPA granule that holds a spill granule (0 to 63) now: its place from start-up, or, once it has moved, a granule of the scratch of
the stack that it moved to, the lowest reserved granules of that stack (R390). (DESIGN CHOICE: log entry 44) -/
def State.spillGran (s : State) (i : Nat) : Option Nat :=
  (s.spillStack (i / 16) (i % 16)).map fun n =>
    if s.spillHome (i / 16) (i % 16) == some n then n * 32768 + 24575 - (s.spillGrans n).findIdx (· = i)
    else n * 32768 + 24575 - (s.resvCount n - 1 - i)

/-! ### Counters (R509, R511) -/

def devBlk : Nat := 0
def tileBlk (n : Nat) : Nat := 0x1000 + n * 0x1000
def stackBlk (n : Nat) : Nat := 0x21000 + n * 0x1000
def portBlk (p : Nat) : Nat := 0x29000 + p * 0x1000
def dieBlk (n : Nat) : Nat := 0x3A000 + n * 0x1000
def sliceBlk (q : Nat) : Nat := 0x3E000 + q * 0x1000
def stageBlk (q : Nat) : Nat := 0x42000 + q * 0x1000
def partBlk (p : Nat) : Nat := 0x80000 + p * 0x1000
/-- The value at which an event counter sticks (R509). -/
def cntMax : Nat := 2 ^ 48 - 1

/-- The sensor of a unit's temperature and of its supply rail (R495, R506). (DESIGN CHOICE: log entry 24) -/
def tempSensor (unit : Nat) : Nat :=
  let i := unit % 4096
  match unit / 4096 with
  | 1 => 8 + i / 8 | 2 => i % 16 | 3 => 12 + i / 4 | 4 => 12 | 5 => 12 + i | 6 => 8 + i | 7 => 8 + i
  | 8 => 16 + i | 10 => 19 | _ => 18
/-- (DESIGN CHOICE: log entry 24) -/
def voltSensor (unit : Nat) : Nat :=
  let i := unit % 4096
  match unit / 4096 with
  | 1 => 23 | 2 => 24 | 3 => 25 | 4 => 25 | 5 => 25 | 6 => 21 + i / 2 | 7 => 21 + i / 2 | 8 => 21 + i | 10 => 20 | _ => 26

/-- An error record as it is raised: cause, severity, partition, unit and DETAIL; SEQ, FT, TEMP and VOLT are set at the log.
(DESIGN CHOICE: log entry 24) -/
def errRec (cause sev : Nat) (part : Option Nat) (unit : Nat) (detail : Nat) : ErrRec :=
  { cause := BitVec.ofNat 16 cause, sev := BitVec.ofNat 8 sev, part := part.map (BitVec.ofNat 6)
    unit := BitVec.ofNat 16 unit, detail := BitVec.ofNat 320 detail }

/-- A record with what the log adds: SEQ, FT, the unit's TEMP and VOLT, and REDACTED with DETAIL zero for a confidential
partition (R474, R494). (DESIGN CHOICE: log entry 80) -/
def State.stampErr (s : State) (r : ErrRec) : ErrRec :=
  let t := (s.sensor (tempSensor r.unit.toNat)).value.toInt / 8
  let vi := voltSensor r.unit.toNat
  let v := (s.sensor vi).value.toNat * (if vi = 20 then 10 else 1)
  let red := match r.part with | some p => (s.part p.toNat).cfg.getLsbD 0 | none => false
  { r with seq := s.elog.next, ft := s.stamp, temp := BitVec.ofNat 8 (min 255 t.toNat), volt := BitVec.ofNat 16 (min 65535 v)
           redacted := red, detail := if red then 0 else r.detail }

/-- A record offered to the device error log and, when FATAL, to the sticky log (R497, R498). (DESIGN CHOICE: log entry 80) -/
def State.pushErr (s : State) (r0 : ErrRec) : State :=
  let r := s.stampErr r0
  let full := s.elog.recs.length ≥ 1024
  let e := { s.elog with recs := if full then s.elog.recs else s.elog.recs ++ [r], next := s.elog.next + 1
                         dropped := if full && s.elog.dropped != 0x1FFFFF then s.elog.dropped + 1 else s.elog.dropped }
  if r.sev = 3 then
    if s.nv.fatal.length < 16 then { s with elog := e, nv := { s.nv with fatal := s.nv.fatal ++ [r] } }
    else { s with elog := { e with beyond := if e.beyond = 0xFFFF then e.beyond else e.beyond + 1 } }
  else { s with elog := e }

/-- DETAIL of COUNTER_SATURATED (R496): block offset in the view and counter index. (DESIGN CHOICE: log entry 80) -/
def satDetail (off : Nat) : Nat := packBytes [(0, 4, off / 4096 * 4096), (4, 2, (off % 4096 - 8) / 8)]

/-- Event counter `off` advanced by n; it sticks at 2^48 − 1, and the first time one COUNTER_SATURATED record is offered
(R509). A record that finds the log full counts ELOG_DROPPED (R497). (DESIGN CHOICE: log entry 80) -/
def State.countTo (s : State) (off n : Nat) : State × Bool :=
  let v := tget 0 s.cnt.live off
  let v' := min cntMax (v + n)
  ({ s with cnt := { s.cnt with live := tput 0 s.cnt.live off v' } }, decide (v < cntMax) && decide (v' = cntMax))

/-- (DESIGN CHOICE: log entry 80) -/
def elogDroppedOff : Nat := devBlk + 8 + 8 * 10

/-- A record offered to the log, ELOG_DROPPED counted when it is dropped (R497). (DESIGN CHOICE: log entry 80) -/
def State.logErr (s : State) (r : ErrRec) : State :=
  let full := s.elog.recs.length ≥ 1024
  let s := s.pushErr r
  if full then
    let (s, sat) := s.countTo elogDroppedOff 1
    if sat then s.pushErr (errRec 0x70 0 none 0 (satDetail elogDroppedOff)) else s
  else s

/-- An event counter advanced by n (R509). -/
def State.bumpBy (s : State) (off n : Nat) : State :=
  let (s, sat) := s.countTo off n
  if sat then s.logErr (errRec 0x70 0 none 0 (satDetail off)) else s

/-- Event counter k of a block advanced by one. -/
def State.bump (s : State) (blk k : Nat) : State := s.bumpBy (blk + 8 + 8 * k) 1
/-- Histogram bin k of a block advanced by one. -/
def State.bin (s : State) (blk k : Nat) : State := s.bumpBy (blk + 0x800 + 8 * k) 1
/-- Time counter k of a block advanced by n nanoseconds, modulo 2^64. -/
def State.time (s : State) (blk k n : Nat) : State :=
  let off := blk + 0x400 + 8 * k
  { s with cnt := { s.cnt with live := tput 0 s.cnt.live off ((tget 0 s.cnt.live off + n) % 2 ^ 64) } }
/-- Each of a list of event counters of a block advanced by one. -/
def State.bumps (s : State) (l : List (Nat × Nat)) : State := l.foldl (fun s x => s.bump x.1 x.2) s

/-! ### Load (R284, R286) -/

/-- The bin of a delay in ns (R286). -/
def delayBin (ns : Nat) : Nat := if ns < 64 then 0 else min 15 (Nat.log2 (ns / 64) + 1)
/-- The bin of a depth (R286). -/
def depthBin (n : Nat) : Nat := if n = 0 then 0 else min 15 (Nat.log2 n + 1)
/-- The load field of a completion with the given home stack, or of one formed without a home stack (R284). -/
def State.loadOf (s : State) (home : Option Nat) : BitVec 4 :=
  match home with
  | some n => BitVec.ofNat 4 (delayBin (s.stack n).lastMean)
  | none => BitVec.ofNat 4 (delayBin ((s.stackList.map (fun n => (s.stack n).lastMean)).sum / max 1 s.stackList.length))

/-! ### Notifications (R412 to R415) -/

/-- The target of the device. -/
def devTarget : Nat := 64
/-- PART_NTF or DEV_NTF of a target. -/
def State.ntfReg (s : State) (t : Nat) : Word := if t = 64 then s.stew.devNtf else (s.part t).ntf

/-- An event record (KIND 0x02 to 0x3F): staged while at least 64 places of the ring are free, otherwise held when its kind is
never discarded (EXTENT_REVOKED, GROUP_EVENT, FAULT), and else discarded and counted (R415). (DEDUCED: log entry 65) -/
def State.event (s : State) (t : Nat) (r : NtfRec) : State :=
  let r := { r with ft := s.stamp }
  let g := s.ring t
  if g.recs.length + 64 ≤ 1024 then s.setRing t { g with recs := g.recs ++ [r] }
  else if r.kind = 3 || r.kind = 4 || r.kind = 8 then s.setRing t { g with waiting := g.waiting ++ [(r, none)] }
  else (s.setRing t { g with dropped := if g.dropped = 0xFFFF then g.dropped else g.dropped + 1 }).bump devBlk 5

/-- A CMD_DONE or JOB_DONE record: staged when a place is free and nothing waits, otherwise it waits (R415); `job` names the
tile and slot whose job stays ENDING meanwhile, and whose record carries its own FT. (DEDUCED: log entry 65) -/
def State.doneRec (s : State) (t : Nat) (r : NtfRec) (job : Option (Nat × Nat)) : State :=
  let r := if job.isNone then { r with ft := s.stamp } else r
  let g := s.ring t
  if g.recs.length < 1024 && g.waiting.isEmpty then s.setRing t { g with recs := g.recs ++ [r] }
  else s.setRing t { g with waiting := g.waiting ++ [(r, job)] }

/-- Whether no management core runs: in a takeover until its replay has ended, and with NO_FIRMWARE (R423, R424). -/
def State.coreless (s : State) : Bool := s.stew.noFw || s.stew.step == .booting || s.stew.step == .replay

/-- An event record that Steward sends to a target: while no core runs it waits for the new one (R322, R351, R417). -/
def State.stewSend (s : State) (t : Nat) (r : NtfRec) : State :=
  if s.coreless then { s with stew := { s.stew with late := s.stew.late ++ [(t, r)] } } else s.event t r

/-- LINK_EVENT and ROUTE_EVENT, which Steward sends to the device target. -/
def State.stewEvent (s : State) (r : NtfRec) : State := s.stewSend devTarget r

/-- The event records that waited for a core are sent (R322, R351, R417). -/
def State.lateEvents (s : State) : State :=
  s.stew.late.foldl (fun s r => s.event r.1 r.2) { s with stew := { s.stew with late := [] } }

/-- The number of the cycle that the last list switch began (R243). (DEDUCED: log entry 61) -/
def State.cycleNo (s : State) : Nat :=
  match s.sched.running with
  | some im => (s.sched.lastSwitch - s.sched.runStart) / (16 * max 1 im.cycle)
  | none => 0

/-- Whether the management island runs after its start: steps 4 to 8, and a failed start-up. -/
def Pwr.running (p : Pwr) : Bool := p.phase == .selftest || p.phase == .boot || p.phase == .ready || p.phase == .failed

/-- Whether the links serve: in D0 and D1, until step 5 of an entry has taken them down (R523, R527, R530). -/
def State.inService (s : State) : Bool := decide (s.pwr.state.toNat ≤ 1) && s.pwr.pstep != .s6

/-- Whether admission has stopped: from step 4 of an entry on no request enters the memory stages (R527). (DESIGN CHOICE: log entry 77) -/
def State.admitOff (s : State) : Bool := s.pwr.pstep == .s4 || s.pwr.pstep == .s5 || s.pwr.pstep == .s6

/-- SCHED_EVENT with a cause, at most once per cause and cycle of an image (R271, R414); without an image there are no cycles. -/
def State.schedEvent (s : State) (cause : Nat) (imageId : Word) (place cycle : Nat) : State :=
  let cycles := s.sched.running.isSome || (s.sched.syncLost && cause != 6)
  if cycles && s.sched.events.contains (BitVec.ofNat 8 cause, cycle) then s
  else { s with sched := { s.sched with events := (BitVec.ofNat 8 cause, cycle) :: (s.sched.events.take 15) } }.event devTarget
    { kind := 5, obj := imageId.setWidth 32, cause := BitVec.ofNat 8 cause
      spec := BitVec.ofNat 160 (packBytes [(0, 4, place), (4, 8, cycle)]) }

/-! ### Fault records (R490) -/

/-- The unposted records of a partition in tile pending slots, oldest first (R490). -/
def State.pendOf (s : State) (p : Nat) : List (Nat × Nat) :=
  ((List.range 32).filterMap fun n => match (s.tile n).pend with
    | some (_, r) => if (r.cid.toNat / 1024) = p then some ((s.tile n).pendNo, n) else none
    | none => none).mergeSort (fun a b => a.1 ≤ b.1)

/-- A record posted in a partition's fault queue, with a FAULT notification when none is staged and undelivered (R490). -/
def State.postFault (s : State) (p : Nat) (r : FaultRec) : State :=
  let x := s.part p
  let x' := { x with fq := x.fq ++ [(x.fqNext, r)], fqNext := x.fqNext + 1 }
  let s := s.setPart p x'
  let g := s.ring p
  if g.recs.any (·.kind = 8) || g.waiting.any (·.1.kind = 8) then s
  else s.event p { kind := 8, obj := BitVec.ofNat 32 p, cid := BitVec.ofNat 16 (p * 1024), cause := r.cause
                   spec := BitVec.ofNat 160 x'.fq.length }

/-- Whether a record is of a cause on an extent (R493). -/
def FaultRec.isOf (h : FaultRec) (cause xh : Nat) : Bool := h.cause == BitVec.ofNat 8 cause && h.body.extractLsb' 0 24 == BitVec.ofNat 24 xh

/-- Two extent-cause records of one extent joined: LINES added, the lower offset kept (R493). -/
def mergeFault (a b : FaultRec) : FaultRec :=
  let la := (a.body.extractLsb' 32 32).toNat; let lb := (b.body.extractLsb' 32 32).toNat
  let oa := (a.body.extractLsb' 64 40).toNat; let ob := (b.body.extractLsb' 64 40).toNat
  { a with body := BitVec.ofNat 384 (packBytes [(0, 3, a.body.toNat), (4, 4, la + lb), (8, 5, min oa ob)]) }

/-- An extent-cause fault record (R489) of partition p: posted when the queue has a place and nothing of the partition waits,
joined to the held record of the same extent and cause, or held by Steward (R135, R490, R493); discarded from CLOSING until
FREE (R168). -/
def State.extentFault (s : State) (p : Nat) (cause : Nat) (xh : Nat) (lines lowest : Nat) : State :=
  let r : FaultRec := { cause := BitVec.ofNat 8 cause, cid := BitVec.ofNat 16 (p * 1024), ft := s.stamp
                        body := BitVec.ofNat 384 (packBytes [(0, 3, xh), (4, 4, lines), (8, 5, lowest)]) }
  let x := s.part p
  let same := fun (h : FaultRec) => h.isOf cause xh
  if x.state = 3 || x.state = 0 then s
  else if x.held.any same then s.setPart p { x with held := x.held.map fun h => if same h then mergeFault h r else h }
  else if x.fq.length < 256 && x.overflow.isEmpty && x.held.isEmpty && (s.pendOf p).isEmpty then s.postFault p r
  else s.setPart p { x with held := x.held ++ [r] }

/-! ### Address decode (R370) and lines of DRAM -/

/-- The parts of a PPA line number (PPA[39:7]). -/
def lineStack (l : Nat) : Nat := bitsOf l 29 3
def lineGroup (l : Nat) : Nat := bitsOf l 27 2
def lineRow (l : Nat) : Nat := bitsOf l 12 15
def lineBank (l : Nat) : Nat := bitsOf l 10 2
def lineBg (l : Nat) : Nat := Nat.xor (bitsOf l 6 4) (bitsOf l 12 4)
def lineCol (l : Nat) : Nat := bitsOf l 2 4
def lineChan (l : Nat) : Nat := 4 * lineGroup l + Nat.xor (bitsOf l 0 2) (bitsOf l 14 2)
def lineQuad (l : Nat) : Nat := lineStack l / 2
/-- The bank of a line among the 64 of its channel. -/
def lineBankNo (l : Nat) : Nat := 4 * lineBg l + lineBank l
/-- The stack and channel group of a granule. -/
def granStack (g : Nat) : Nat := g / 32768
def granGroup (g : Nat) : Nat := g % 32768 / 8192

/-- One byte of DRAM; an unlisted byte reads 0x00. (DESIGN CHOICE: log entry 8) -/
def State.cell (s : State) (a : Nat) : Byte := tget 0 s.dram a

/-- The 128 stored bytes of a line. (DESIGN CHOICE: log entry 8) -/
def State.rawLine (s : State) (l : Nat) : Line := lineOf ((List.range 128).map fun i => s.cell (l * 128 + i))

/-- The bytes of a list stored from address a upward. (DESIGN CHOICE: log entry 8) -/
def cellsPut (m : List Host.Cell) (a : Nat) : List Byte → List Host.Cell
  | [] => m
  | b :: r => cellsPut (tput 0 m a b) (a + 1) r

/-- A line stored, with clean check bits and no mark, under a key and tweak (R385, R472). (DESIGN CHOICE: log entry 8) -/
def State.storeLine (s : State) (l : Nat) (d : Line) (key : Option Nat) (tweak : Nat) : State :=
  { s with dram := cellsPut s.dram (l * 128) (lineBytes d) }.setLineMeta l { key := key, tweak := tweak }

/-- A line's mark set over its data as read (R382, R384). -/
def State.markLine (s : State) (l : Nat) (m : Mark) : State := s.modLineMeta l fun x => { x with mark := m, raw := none }

/-- What a line reads as under a key and tweak: its bytes when it was last written under them, and otherwise a free value
(R393). (DESIGN CHOICE: log entries 8, 9) -/
def State.readLine (s : State) (l : Nat) (key : Option Nat) (tweak : Nat) : Line :=
  let m := s.lineMeta l
  if m.key = key && m.tweak = tweak then s.rawLine l else Config.stale (key.getD 0) tweak l

/-! ### Extents and lines -/

/-- The tweak of a line of an extent (R472). -/
def xtsTweak (idx gen line : Nat) : Nat := line + idx * 2 ^ 32 + gen * 2 ^ 50

/-- Whether the PPA granule that holds granule i of an extent exists, and its number (R51). -/
def State.extGran (s : State) (x : Ext) (i : Nat) : Nat := (s.granule ((x.mapBase.toNat + i) % 262144)).toNat

/-- The PPA line number of a byte offset in an extent (R51, R370). -/
def State.extLine (s : State) (x : Ext) (off : Nat) : Nat := s.extGran x (off / 2 ^ 21) * 16384 + (off % 2 ^ 21) / 128

/-- What line l of an extent reads as under a tweak: zeros when a zero-fill has run and nothing was written since (R226).
(DESIGN CHOICE: log entries 8, 9) -/
def State.lineData (s : State) (idx l tweak : Nat) : Line :=
  if (s.lineMeta l).key = none && (s.ext idx).zero then 0 else s.readLine l (s.ext idx).key tweak

/-- A line of an extent as a reader of the extent sees it. -/
def State.extRead (s : State) (idx : Nat) (off : Nat) : Line :=
  let x := s.ext idx
  s.lineData idx (s.extLine x off) (xtsTweak idx x.gen.toNat (off / 128))

/-- A line of an extent written whole. -/
def State.extWrite (s : State) (idx : Nat) (off : Nat) (d : Line) : State :=
  let x := s.ext idx
  s.storeLine (s.extLine x off) d x.key (xtsTweak idx x.gen.toNat (off / 128))

/-- The partition of a CID. -/
def cidPart (c : Cid) : Nat := c.toNat / 1024

/-! ### Engine time and updates over all units -/

/-- A change made to each of a list of entries. -/
def State.each {α : Type} (s : State) (l : List α) (f : State → α → State) : State := l.foldl f s

end Sys2Proof.Machine
end

