-- ==== Sys2Proof/Machine/Operands.lean ====
section
/-! DEFINITION. Operand forms: opcodes and statuses by name (R6, R111, R358, R403, R413, R431), the rights and lengths of
requests (R44), the arguments of a mailbox command (R407), references (R433), and the fields of the register words that commands
carry. -/
namespace Sys2Proof

/-- A completion status (R6). -/
abbrev Status := BitVec 5
def stOk : Status := 0
def stRetry : Status := 1
def stUncorrectable : Status := 2
def stDenied : Status := 3
def stRevoked : Status := 4
def stLinkLost : Status := 5
def stTimeout : Status := 6
def stLegacy : Status := 7
def stHostLost : Status := 8
def stAborted : Status := 9
def stPoisoned : Status := 10
def stBusy : Status := 11

/-- A completion status as its receiver takes it: a reserved one counts as UNCORRECTABLE (R7). -/
def readStatus (st : Status) : Status := if st.toNat ≤ 11 then st else stUncorrectable

/-- Opcodes (R111, R358, R403, R413). -/
def oRdOnce : Byte := 0x01
def oRdShared : Byte := 0x02
def oRdOwn : Byte := 0x03
def oUpgrade : Byte := 0x04
def oWrLine : Byte := 0x05
def oWrPartial : Byte := 0x06
def oAtomic : Byte := 0x07
def oWbDirty : Byte := 0x08
def oEvictClean : Byte := 0x09
def oReclaim : Byte := 0x0A
def oCtlRd : Byte := 0x0B
def oCtlWr : Byte := 0x0C
def oNotify : Byte := 0x0D
def oSnpShare : Byte := 0x20
def oSnpInv : Byte := 0x21
def oBinv : Byte := 0x22
def oBinvDiscard : Byte := 0x23
def oSnpAck : Byte := 0x30
def oSnpAckData : Byte := 0x31
def oGrantAck : Byte := 0x32
def oCmp : Byte := 0x40
def oCmpData : Byte := 0x41
def oGrantS : Byte := 0x42
def oGrantE : Byte := 0x43
def oGrantM : Byte := 0x44
def oAtomicResult : Byte := 0x45
def oMrd : Byte := 0x50
def oMwr : Byte := 0x51
def oMwrp : Byte := 0x52
def oVec : Byte := 0x53
def oMcmp : Byte := 0x58
def oMcmpData : Byte := 0x59

/-- The EID of the companion host. -/
def hostEid : Eid := 0xFFE

/-- Whether an opcode is a request of R111 that the memory stage serves. -/
def isMemOpc (o : Byte) : Bool := 1 ≤ o.toNat && o.toNat ≤ 0x0A
/-- Whether a packet is a request that expects a completion of its own (R312). -/
def Packet.expects (p : Packet) : Bool := !p.vc && p.typ == 0 && !p.nocmp && 1 ≤ p.opc.toNat && p.opc.toNat ≤ 0x0C
/-- Whether a packet is a completion (R312). -/
def Packet.isCmp (p : Packet) : Bool := 0x40 ≤ p.opc.toNat && p.opc.toNat ≤ 0x45
/-- Whether a packet is a snoop or back-invalidation. -/
def Packet.isSnoop (p : Packet) : Bool := 0x20 ≤ p.opc.toNat && p.opc.toNat ≤ 0x23
/-- Whether a packet is a control access (R403). -/
def Packet.isCtl (p : Packet) : Bool := p.opc == oCtlRd || p.opc == oCtlWr
/-- Whether a caching request (R109). -/
def isCaching (o : Byte) : Bool := o == oRdShared || o == oRdOwn || o == oUpgrade

/-- The access length of a request in bytes (R46 check 7, R110). -/
def Packet.accLen (p : Packet) : Nat :=
  if p.opc = oRdOnce then p.blen.toNat + 1 else if p.opc = oAtomic then (if p.wide then 8 else 4) else 128

/-- Whether AOP names a defined operation (R126). -/
def Packet.aopOk (p : Packet) : Bool := p.aop.toNat ≤ 10

/-- The rights a request needs at check 6 of R46, as bits R, W, A (R44); none for a reserved OPC or AOP. -/
def Packet.needs (p : Packet) : BitVec 3 :=
  if p.opc = oRdOnce || p.opc = oRdShared || p.opc = oEvictClean then 1
  else if p.opc = oRdOwn || p.opc = oUpgrade then 3
  else if p.opc = oWrLine || p.opc = oWrPartial || p.opc = oWbDirty || p.opc = oReclaim then 2
  else if p.opc = oAtomic then (if p.aopOk then 6 else 0)
  else 0

/-- Whether a request has the form of R112 and R342 on an extent with or without COHERENT (R46 check 9). -/
def Packet.formOk (p : Packet) (coherent : Bool) : Bool :=
  isMemOpc p.opc
  && (if p.opc = oAtomic then p.aopOk && p.offset.toNat % (if p.wide then 8 else 4) == 0
      else p.opc = oRdOnce || p.offset.toNat % 128 == 0)
  && (coherent || p.opc = oRdOnce || p.opc = oWrLine || p.opc = oWrPartial || p.opc = oAtomic)
  && (!p.nocmp || p.opc = oWrLine || p.opc = oWrPartial)

/-- The slice and transaction of a TAG (R110). -/
def tagSlice (t : BitVec 16) : Nat := bitsOf t.toNat 0 2
def tagTxn (t : BitVec 16) : Nat := bitsOf t.toNat 2 10

/-- The table index of a mailbox: administrative 0 to 3, then four per partition. -/
def MbId.idx (m : MbId) : Nat := match m.part with
  | none => m.m.val
  | some p => 4 + 4 * p.val + m.m.val

/-- The mailbox of an index. -/
def mbOf (i : Nat) : MbId := if i < 4 then { m := Fin.ofNat 4 i } else { part := some (Fin.ofNat 64 ((i - 4) / 4)), m := Fin.ofNat 4 i }

end Sys2Proof

namespace Sys2Proof.Machine

/-! ### Register fields -/

/-- PART_CFG (R34). -/
def Part.conf (x : Part) : Bool := x.cfg.getLsbD 0
def Part.strict (x : Part) : Bool := x.cfg.getLsbD 1
def Part.maxCtx (x : Part) : Nat := (x.cfg.extractLsb' 2 11).toNat
def Part.quota (x : Part) : Nat := (x.cfg.extractLsb' 13 19).toNat
/-- PART_SHAPE (R278). -/
def Part.weight (x : Part) : Nat := (x.shape.extractLsb' 0 8).toNat
/-- A filter of EN, EID_MATCH and EID_MASK satisfied by an EID. -/
def eidFits (e mat mask : Eid) : Bool := (e ^^^ mat) &&& mask == 0
/-- PART_ADMIT (R406). -/
def Part.admits (x : Part) (e : Eid) : Bool := x.admCfg.getLsbD 24 && eidFits e (x.admCfg.extractLsb' 0 12) (x.admCfg.extractLsb' 12 12)
/-- Whether an EID is administrative (R404). -/
def State.isAdmin (s : State) (e : Eid) : Bool :=
  e == hostEid || (s.stew.admin.getLsbD 0 && eidFits e (s.stew.admin.extractLsb' 1 12) (s.stew.admin.extractLsb' 13 12))
/-- Notification register fields (R412). -/
def ntfEn (w : Word) : Bool := w.getLsbD 0
def ntfHost (w : Word) : Bool := w.getLsbD 1
def ntfTarget (w : Word) : BitVec 12 := w.extractLsb' 2 12

/-! ### Mailbox commands (R407, R433) -/

/-- Fields of a request slot. -/
def Mbox.own (x : Mbox) : Bool := x.req.getLsbD 0
def Mbox.notify (x : Mbox) : Bool := x.req.getLsbD 8
def Mbox.opcode (x : Mbox) : BitVec 16 := x.req.extractLsb' 16 16
def Mbox.tag (x : Mbox) : BitVec 32 := x.req.extractLsb' 32 32
def Mbox.arglen (x : Mbox) : Nat := (x.req.extractLsb' 64 16).toNat
def Mbox.args (x : Mbox) : Nat := (x.req.extractLsb' 128 1920).toNat
/-- OWN of the reply slot. -/
def Mbox.replied (x : Mbox) : Bool := x.rpl.getLsbD 0
/-- A mailbox whose request is posted and not yet taken (R409). -/
def Mbox.posted (x : Mbox) : Bool := x.own && !x.running && !x.replied

/-- A field of ARGS by byte offset and size. -/
def arg (a o n : Nat) : Nat := bitsOf a (8 * o) (8 * n)

/-- The bytes of ARGS that no field of a command covers, up to its length, as a test that they are zero: fields are (offset,
size) pairs. -/
def argRsvZero (a len : Nat) (fields : List (Nat × Nat)) : Bool :=
  (List.range len).all fun i => fields.any (fun f => f.1 ≤ i && i < f.1 + f.2) || arg a i 1 == 0

/-- A reference with its REF_CID (R433). -/
structure Ref where
  xh : Nat := 0
  off : Nat := 0
  cid : Nat := 0
  deriving DecidableEq, Repr

/-- The reference at byte offset o of ARGS, with REF_CID at byte offset c. -/
def argRef (a o c : Nat) : Ref := { xh := arg a o 3, off := arg a (o + 3) 5, cid := arg a c 2 }

/-- Command statuses (R431). -/
def csOk : Nat := 0
def csBusy : Nat := 1
def csBadOpcode : Nat := 2
def csBadArg : Nat := 3
def csDenied : Nat := 4
def csBadState : Nat := 5
def csTableFull : Nat := 6
def csQuota : Nat := 7
def csNoMemory : Nat := 8
def csNoResource : Nat := 9
def csQueueFull : Nat := 10
def csRangeRead : Nat := 11
def csBadImage : Nat := 12
def csArmLate : Nat := 13
def csAborted : Nat := 14
def csGroupUnreach : Nat := 15
def csNoMajority : Nat := 16
def csAuthFailed : Nat := 17
def csRefused : Nat := 18

/-- Warden refusal codes (R428). -/
def wElectrical : Nat := 1
def wPower : Nat := 2
def wOwnership : Nat := 3
def wConf : Nat := 4
def wEcc : Nat := 5
def wSchedule : Nat := 6
/-- (DEDUCED: log entry 46) -/
def wStructure : Nat := 7
def wQuota : Nat := 8
def wCapacity : Nat := 9
def wState : Nat := 10
def wDebug : Nat := 11
def wClaim : Nat := 12

end Sys2Proof.Machine
end

