-- ==== Sys2Proof/Machine/Flags.lean ====
section
/-! DEFINITION. Computed conditions: the outcome of a DRAM line (R381 to R384), the Reed-Solomon check symbols and decoder of
diagnostic lines, the limit state (R283), the mapping of statuses for Elder requesters (R100), comparisons of sequence numbers,
and sensor warnings (R506, R508). -/
namespace Sys2Proof.Machine

/-- The class of a codeword (R383), in the codes of MEM_DIAG_READ (R447). -/
inductive Cls where
  | clean | corrected | poison | orphan | ue
  deriving DecidableEq, Repr

/-- The code of a class in MEM_DIAG_READ. -/
def Cls.code : Cls → Nat
  | .clean => 0 | .corrected => 1 | .poison => 2 | .orphan => 3 | .ue => 4

/-- The class of a codeword of a line with a mark, given what the pins add: a marked codeword with a further error is UE (R382). -/
def clsOf (m : Mark) (e : RawEcc) : Cls :=
  match m, e with
  | .none, .clean => .clean
  | .none, .corrected _ => .corrected
  | .poison, .clean => .poison
  | .orphan, .clean => .orphan
  | _, _ => .ue

/-- The class of a line: the first row of R383 that applies. -/
def lineCls (a b : Cls) : Cls :=
  if a = .ue || b = .ue then .ue else if a = .poison || b = .poison then .poison
  else if a = .orphan || b = .orphan then .orphan else if a = .corrected || b = .corrected then .corrected else .clean

/-- The status of a line outcome (R384). -/
def clsStatus : Cls → Status
  | .clean => stOk | .corrected => stOk | .ue => stUncorrectable | .poison => stPoisoned | .orphan => stHostLost

/-! ### The code of R381 over GF(2^16) -/

/-- The low 16 terms of a carry-less product modulo the field polynomial. -/
def gfMulAux : Nat → Nat → Nat → Nat
  | 0, _, _ => 0
  | n + 1, a, b =>
    let a2 := if a ≥ 0x8000 then Nat.xor (2 * a) 0x1100B else 2 * a
    Nat.xor (if b % 2 = 1 then a else 0) (gfMulAux n a2 (b / 2))

/-- The product in GF(2^16). -/
def gfMul (a b : Nat) : Nat := gfMulAux 16 a b

/-- α to the power n. -/
def gfPow : Nat → Nat
  | 0 => 1
  | n + 1 => gfMul 2 (gfPow n)

/-- The value of a codeword (highest-degree symbol first) at a point. -/
def gfEval (x : Nat) (l : List Nat) : Nat := l.foldl (fun acc c => Nat.xor (gfMul acc x) c) 0

/-- The coefficients of the generator (x + 1)(x + α)(x + α²)(x + α³) below x^4, highest first. (PRESUMED: log entry 25) -/
def rsGen : List Nat :=
  let mul := fun (g : List Nat) (r : Nat) =>
    List.zipWith Nat.xor (g ++ [0]) (0 :: g.map (gfMul r))
  ((mul (mul (mul [1, 1] 2) 4) 8).drop 1)

/-- The check symbols K0 to K3 of 32 data symbols, D0 taken as the highest-degree symbol. (PRESUMED: log entry 25) -/
def rsCheck (d : List Nat) : List Nat :=
  d.foldl (fun (r : List Nat) x =>
    let f := Nat.xor x (r.headD 0)
    List.zipWith Nat.xor (r.drop 1 ++ [0]) (rsGen.map (gfMul f))) [0, 0, 0, 0]

/-- The 32 data symbols of a codeword of a line (R381). (PRESUMED: log entry 25) -/
def dataSyms (d : Line) (k : Nat) : List Nat := (List.range 32).map fun i => (d.extractLsb' (512 * k + 16 * i) 16).toNat

/-- The four check symbols of a codeword among the eight of a line. (PRESUMED: log entry 25) -/
def checkSyms (c : BitVec 128) (k : Nat) : List Nat := (List.range 4).map fun i => (c.extractLsb' (64 * k + 16 * i) 16).toNat

/-- The check symbols a line has when it is written with clean check bits. (PRESUMED: log entry 25) -/
def cleanChecks (d : Line) : BitVec 128 :=
  BitVec.ofNat 128 (packBytes ((List.range 8).map fun i => (2 * i, 2, (rsCheck (dataSyms d (i / 4))).getD (i % 4) 0)))

/-- The mark constants of R382. (PRESUMED: log entry 25) -/
def poisonConst : List Nat := [0x9D2B, 0x41E6, 0xC73A, 0x2F58]
/-- (PRESUMED: log entry 25) -/
def orphanConst : List Nat := [0x6A15, 0xB3C9, 0x1E74, 0xD08F]

/-- The decoder of R381 to R383 on one stored codeword: clean, one symbol in error, a mark, or uncorrectable. -/
def rsClass (d c : List Nat) : Cls :=
  let k := rsCheck d
  let diff := List.zipWith Nat.xor k c
  if diff = [0, 0, 0, 0] then .clean
  else if diff = poisonConst then .poison
  else if diff = orphanConst then .orphan
  else
    let w := d ++ c
    let s0 := gfEval 1 w; let s1 := gfEval 2 w; let s2 := gfEval 4 w; let s3 := gfEval 8 w
    if s0 ≠ 0 && (List.range 36).any (fun p => gfMul s0 (gfPow p) = s1 && gfMul s1 (gfPow p) = s2 && gfMul s2 (gfPow p) = s3)
    then .corrected else .ue

/-- The check symbols stored with a line: the raw ones of a diagnostic write, or the clean ones with the line's mark applied. -/
def State.storedChecks (s : State) (l : Nat) : BitVec 128 :=
  let m := s.lineMeta l
  match m.raw with
  | some c => c
  | none =>
    let c := cleanChecks (s.rawLine l)
    let k := match m.mark with | .none => [0, 0, 0, 0] | .poison => poisonConst | .orphan => orphanConst
    c ^^^ BitVec.ofNat 128 (packBytes ((List.range 8).map fun i => (2 * i, 2, k.getD (i % 4) 0)))

/-! ### Limit state, Elder statuses, sequence comparison -/

/-- The limit state of a request (R283): held by the limiter, or tokens after the charge below a quarter of the depth. -/
def limitState (x : EidLimit) (held : Bool) : BitVec 2 :=
  if x.rate = 0 then 0 else if held then 2 else if x.tokens < (x.burst.toNat * 1024 : Int) then 1 else 0

/-- The status an Elder requester receives (R100). (DEDUCED: log entry 33) -/
def elderStatus (st : Status) : Status :=
  if st = stPoisoned then stUncorrectable
  else if st = stAborted || st = stDenied || st = stRevoked || st = stHostLost || st = stBusy then stLegacy else st

/-- The signed 16-bit difference of two sequence numbers (R299, R340). -/
def seqDiff (a b : BitVec 16) : Int := (a - b).toInt

/-- The signed 64-bit difference of two tags (R277). -/
def tagLt (a b : Word) : Bool := decide ((a - b).toInt < 0)

/-- Whether VALUE of sensor k lies in its warning band, and whether it lies far enough outside to clear WARN (R506, R508). (DEDUCED: log entry 73) -/
def sensorBand (k : Nat) (v : Int) : Bool × Bool :=
  let hot := fun (t : Int) => (decide (v ≥ t * 8), decide (v ≤ (t - 2) * 8))
  let band := fun (nom : Int) => (decide (v * 100 < nom * 95) || decide (v * 100 > nom * 105),
    decide (v * 100 ≥ nom * 96) && decide (v * 100 ≤ nom * 104))
  if k < 8 then hot 85 else if k < 19 then hot 100 else if k = 19 then hot 110
  else if k = 20 then (decide (v < 4200) || decide (v > 6100), decide (v ≥ 4260) && decide (v ≤ 6040))
  else if k ≤ 22 then band 750 else if k = 23 then band 700 else if k = 24 then band 1100 else band 800

/-- The trip limit of a temperature sensor in °C (R522). (DEDUCED: log entry 73) -/
def tripLimit (k : Nat) : Option Int := if k < 8 then some 105 else if k < 19 then some 115 else if k = 19 then some 125 else none

end Sys2Proof.Machine
end

