-- ==== Sys2Proof/Machine/Send.lean ====
section
/-! DEFINITION. How completions and originated packets leave: session protection (R468, R469), the choice of link die (R19,
R336), the Qoreus queues (R361), NOCMP batches (R342), and what the originating unit of a request is told (R345). -/
namespace Sys2Proof.Machine

/-! ### Nested changes -/

def Tile.job (t : Tile) (k : Nat) : Job := tget {} t.jobs k
def Tile.setJob (t : Tile) (k : Nat) (j : Job) : Tile := { t with jobs := tput {} t.jobs k j }
def State.modJob (s : State) (n k : Nat) (f : Job → Job) : State := s.modTile n fun t => t.setJob k (f (t.job k))
def State.job (s : State) (n k : Nat) : Job := (s.tile n).job k
def Slice.way (x : Slice) (w : Nat) : DirEntry := tget {} x.ways w
def Slice.txn (x : Slice) (t : Nat) : Txn := tget {} x.txns t
def State.setWay (s : State) (q w : Nat) (e : DirEntry) : State := s.modSlice q fun x => { x with ways := tput {} x.ways w e }
def State.setTxn (s : State) (q t : Nat) (v : Txn) : State := s.modSlice q fun x => { x with txns := tput {} x.txns t v }
def Stack.chan (x : Stack) (c : Nat) : Chan := tget {} x.chans c
def State.modChan (s : State) (n c : Nat) (f : Chan → Chan) : State :=
  s.modStack n fun x => { x with chans := tput {} x.chans c (f (x.chan c)) }

/-! ### Session protection (R468 to R471) -/

/-- The index of K(e, dir, vc) of a partition. -/
def sctrIdx (part : Nat) (e : Eid) (out vc : Bool) : Nat := ((part * 4096 + e.toNat) * 2 + b2n out) * 2 + b2n vc

/-- The additional authenticated data: the header with HOPS zero and byte 6 ANDed with 0xE1. -/
def aadOf (p : Packet) : List Byte :=
  (leBytes 32 p.header).mapIdx fun i b => if i = 14 then 0 else if i = 6 then b &&& 0xE1 else b

/-- K(e, dir, vc) of a link secret (R464). (DESIGN CHOICE: log entry 10) -/
def linkKey (ls : BitVec 384) (e : Eid) (out vc : Bool) : BitVec 256 :=
  Config.hkdfExpand 256 ls (ascii "GP8 v1 lk" ++ leBytes 2 e.toNat ++ leBytes 1 (b2n out) ++ leBytes 1 (b2n vc))

/-- The key of an endpoint, direction and virtual channel in a partition's session: the session unit takes the one that it keeps, or derives it
(R464). (DESIGN CHOICE: log entry 10) -/
def State.keyOf (s : State) (part : Nat) (e : Eid) (out vc : Bool) : BitVec 256 :=
  match s.derived.find? (·.1 = sctrIdx part e out vc) with
  | some k => k.2
  | none => linkKey ((s.part part).ls.getD 0) e out vc

/-- The most derived keys that the session unit keeps (R464). -/
def maxDerived : Nat := 8192

/-- A key used: it is kept as the most recently used, and the least recently used goes (R464). -/
def State.keepKey (s : State) (part : Nat) (e : Eid) (out vc : Bool) : State :=
  let i := sctrIdx part e out vc
  { s with derived := ((i, s.keyOf part e out vc) :: s.derived.filter (·.1 ≠ i)).take maxDerived }

/-- The GCM tag of a packet between this device and endpoint e in a partition's session (R468): the nonce is SID and SCTR. (DESIGN CHOICE: log entry 10) -/
def State.gcm (s : State) (part : Nat) (e : Eid) (out : Bool) (p : Packet) : BitVec 128 :=
  Config.gcmTag (s.keyOf part e out p.vc) (leBytes 4 (s.part part).sid.toNat ++ leBytes 8 p.sctr) (aadOf p)
    ((leBytes 160 p.bodyNat).take p.bodyLen)

/-- A packet protected for its destination when its partition has an established session: the next SCTR, ENC, and the tag as the
last 16 bytes (R468); an ABORTED completion goes unprotected (R471), and what the device itself sends is no partition's.
(DESIGN CHOICE: log entries 17, 49) -/
def State.protect (s : State) (p : Packet) : Packet × State :=
  let part := cidPart p.cid
  let x := s.part part
  if x.conf && x.sess = 1 && !p.syn && !p.dev && !(p.stat = stAborted) then
    let k := sctrIdx part p.dst true p.vc
    let n := (s.sctr k).next
    let p1 : Packet := { p with len := p.len + 16, prot := BitVec.ofNat 96 (n + 2 ^ 64) }
    ({ p1 with rest := leBytes 16 (s.gcm part p.dst true p1).toNat }, (s.keepKey part p.dst true p.vc).modSctr k fun x => { x with next := n + 1 })
  else (p, s)

/-- Whether a received packet passes R469 in the session of a partition. (DEDUCED: log entry 20; DESIGN CHOICE: log entry 17) -/
def State.protOk (s : State) (part : Nat) (p : Packet) : Bool :=
  let x := s.part part
  let high := (s.sctr (sctrIdx part p.src false p.vc)).accepted
  x.ls.isSome && p.enc && (BitVec.ofNat 128 (ofLe p.rest) == s.gcm part p.src false p)
    && (match high with | some h => decide (h < p.sctr) | none => true)

/-- The session unit's record of a packet it has checked (R469, R470): the highest SCTR, or the failure counters.
(DEDUCED: log entry 20; DESIGN CHOICE: log entry 17) -/
def State.noteProt (s : State) (part : Nat) (p : Packet) : State :=
  let k := sctrIdx part p.src false p.vc
  let ok := s.protOk part p
  let s := if (s.part part).ls.isSome && p.enc then s.keepKey part p.src false p.vc else s
  if ok then s.modSctr k fun x => { x with accepted := some p.sctr }
  else
    let s' := s.bump devBlk 8
    match (s.sctr k).accepted with
    | some h => if p.enc && decide (p.sctr ≤ h) then s'.bump devBlk 9 else s'
    | none => s'

/-- The session unit at a completion or a snoop answer (R468 to R470): in an established session it is checked and recorded, and one that
fails is to be discarded; a synthetic completion and an ABORTED one come unprotected (R471). (DEDUCED: log entry 20) -/
def State.sessionIn (s : State) (p : Packet) : State × Bool :=
  let part := cidPart p.cid
  let x := s.part part
  if x.conf && x.sess = 1 && !(p.syn || (p.isCmp && p.stat = stAborted)) then (s.noteProt part p, s.protOk part p) else (s, true)

/-! ### Where a packet leaves (R19, R336) -/

/-- The route entry for an EID in a slot of a link die (R328). -/
def State.route (s : State) (d : Nat) (slot : Bool) (e : Eid) : Route :=
  tget {} (if slot then (s.die d).slot1 else (s.die d).slot0) e.toNat
/-- XMASK and state of a slot. -/
def Die.xmask (x : Die) (slot : Bool) : BitVec 4 := if slot then x.xmask1 else x.xmask0
def Die.slotState (x : Die) (slot : Bool) : BitVec 2 := if slot then x.s1 else x.s0
/-- ORDER of an entry as port indices. -/
def Route.ports (r : Route) : List Nat := [bitsOf r.order.toNat 0 2, bitsOf r.order.toNat 2 2, bitsOf r.order.toNat 4 2, bitsOf r.order.toNat 6 2]

/-- Whether link die d is usable for an EID (R336). (DESIGN CHOICE: log entry 38) -/
def State.dieUsable (s : State) (d : Nat) (e : Eid) : Bool :=
  let x := s.die d
  let r := s.route d x.cur e
  s.dieEn d && r.v && r.ports.any fun i => !(x.xmask x.cur).getLsbD i && (s.port (4 * d + i)).state == 3

/-- The first usable die of the preferred ones, otherwise the lowest-numbered usable die (R336). (DESIGN CHOICE: log entry 38) -/
def State.pickDie (s : State) (pref : List Nat) (e : Eid) : Option Nat :=
  ((pref.filter fun d => s.dieUsable d e) ++ (s.dieList.filter fun d => s.dieUsable d e)).head?

/-! ### Completions at the units of this device -/

/-- A completion handed to the catcher of a job's engine; of a job that has ended it is discarded (R159, R170). -/
def State.engDone (s : State) (n k inc : Nat) (d : EDone) : State :=
  let j := s.job n k
  if j.st = .free || j.inc.toNat ≠ inc then s
  else s.modJob n k fun j => { j with eng := { j.eng with done := j.eng.done ++ [d] } }

/-- A completion handed to a tile's scheduled operation. -/
def State.schedDone (s : State) (n : Nat) (d : EDone) : State :=
  s.modTile n fun t => { t with srun := t.srun.map fun r => { r with eng := { r.eng with done := r.eng.done ++ [d] } } }

/-- A completion handed to the walk of a tile. -/
def State.walkDone (s : State) (n : Nat) (d : EDone) : State :=
  s.modTile n fun t => { t with walk := t.walk.map fun w => if w.waiting && w.rid == d.id then { w with ready := some d, waiting := false } else w }

/-- The wait that a RETRY's BACKOFF asks for, in ns (R120). -/
def backoffNs (bo : BitVec 4) : Nat := 64 * 2 ^ bo.toNat

/-- A message to another member that is to be sent again: after RETRY no sooner than its BACKOFF allows and with ATTEMPT one more, up to 15
(R120, R121); else as a new request. (DESIGN CHOICE: log entry 27) -/
def Fwd.retry (f : Fwd) (st : Status) (bo : BitVec 4) (now : Nat) : Fwd :=
  if st = stRetry then { f with again := true, readyAt := now + backoffNs bo, attempt := min 15 (f.attempt + 1) }
  else { f with again := true, readyAt := now, attempt := 0 }

/-- What a wait learns from the end of a message of it to another member: a line that may not have been committed is sent again, and a delta or a
whole request only after RETRY, since what was applied must not be applied twice; the status of a delta that may be lost becomes the
request's, and a whole request's status, line and old value are the request's own (R65). (DESIGN CHOICE: log entry 27) -/
def FwdWait.ended (w : FwdWait) (rtag : BitVec 32) (st : Status) (bo : BitVec 4) (data : Line) (old now : Nat) : FwdWait :=
  match w.fwds.find? (·.rtag = rtag) with
  | none => w
  | some f =>
    let lost := st = stTimeout || st = stLinkLost
    let v := { w with fwds := w.fwds.filter (·.rtag ≠ rtag) }
    if st = stRetry || (!f.delta && !f.whole && lost) then
      { w with fwds := w.fwds.map fun f => if f.rtag = rtag then f.retry st bo now else f }
    else if f.whole then { v with st := st, data := data, old := old }
    else if f.delta && lost then { v with st := st } else v

/-- An originated request of RTAG ends at its unit with a status; only the first completion counts (R313, R345). -/
def State.origDone (s : State) (rtag : BitVec 32) (st : Status) (bo : BitVec 4) (data : Line) (old : Nat := 0) : State :=
  match s.origs.find? (·.rtag = rtag) with
  | none => s
  | some o =>
    let s' := { s with origs := s.origs.filter (·.rtag ≠ rtag) }
    if o.kind ≠ .sched then { s' with fwds := s'.fwds.map (·.ended rtag st bo data old s.now) }
    else s'.schedDone o.tile { id := o.id, status := st, backoff := bo, data := data, at_ := s.now }

/-- What the originating unit of a packet is told when the packet cannot leave or is dropped: a request with a completion of its
own ends with the status; nothing else is told (R312, R336). -/
def State.lostAtUnit (s : State) (p : Packet) (st : Status) : State :=
  if p.expects then s.origDone p.rtag st 0 0 else s

/-- A packet for the host put in its Qoreus queue (R356, R361). While Qoreus is not UP or in RETRAIN it is dropped, and a VEC is
counted in QOR_VEC_DROP (R364, R365). -/
def State.toHost (s : State) (p0 : Packet) : State :=
  let up := (s.port 16).state
  let p := { p0 with snp := p0.isSnoop, epoch := false, pseq := 0, nocmp := false, last := false }
  if up = 3 || up = 4 then
    if p.opc = oVec then (if up = 3 then { s with qor := { s.qor with vec := s.qor.vec ++ [p] } } else s.bump (portBlk 16) 16)
    else
      let (p, s) := s.protect p
      if p.snp then { s with qor := { s.qor with snp := s.qor.snp ++ [p] } } else { s with qor := { s.qor with rsp := s.qor.rsp ++ [p] } }
  else if p.opc = oVec then s.bump (portBlk 16) 16 else s

/-- A packet that this GP8 originates, with the link dies it prefers (R336): placed on the die it leaves from, or, when no die is
usable, its unit receives LINK_LOST and RT_UNREACH counts on the preferred die. -/
def State.send (s : State) (pref : List Nat) (p : Packet) : State :=
  if p.dst = hostEid then s.toHost p
  else match s.pickDie pref p.dst with
    | some d => s.modDie d fun x => { x with orig := x.orig ++ [{ p with epoch := x.cur, src := s.node.eid }] }
    | none => (s.bump (dieBlk (pref.headD 0)) 3).lostAtUnit p stLinkLost

/-! ### Completions to requesters -/

/-- The table index of a pair by endpoint and VC. -/
def pairIdx (e : Eid) (vc : Bool) : Nat := 2 * e.toNat + b2n vc

/-- The preferred dies of a completion (R19): the one attached to the home quadrant, then the arrival die. (DESIGN CHOICE: log entry 19) -/
def cmpDies (home : Option Nat) (arrival : Nat) : List Nat :=
  match home with
  | some st => [dieOfQuad (st / 2), arrival]
  | none => [arrival]

/-- A completion packet for a request. (DESIGN CHOICE: log entry 19) -/
def State.cmpFor (s : State) (r : Req) (home : Option Nat) (st : Status) : Packet :=
  { dst := r.pkt.src, src := s.node.eid, cid := r.pkt.cid, vc := true, tc := r.pkt.tc, stat := st, load := s.loadOf home
    lim := r.lim, rtag := r.pkt.rtag, opc := oCmp, len := 32 }

/-- The status of a batch (R342): the first non-OK of its requests in PSEQ order, then that of the closing request. -/
def Batch.status (b : Batch) (own : Status) : Status :=
  match b.items.find? (fun i => i.2.isSome && i.2 ≠ some stOk) with
  | some (_, some st) => st
  | _ => own

/-- The closing completion of a batch with the batch's status. -/
def Batch.closing (b : Batch) (p : Packet) : Packet :=
  let st := b.status p.stat
  if st = p.stat then p else { p with stat := st, opc := oCmp, data := 0, len := 32, opnd := 0 }

/-- Batches of a pair whose requests have all completed: their closing completions leave (R342), each by the link dies of its own request. -/
def State.closeBatches (s : State) (k : Nat) : State :=
  let x := s.pairRx k
  let ready := fun (b : Batch) => b.closed.isSome && b.items.all (·.2.isSome)
  let out := (x.batches.filter ready).filterMap fun b => b.closed.map fun c => (c.1, b.closing c.2)
  (s.setPairRx k { x with batches := x.batches.filter fun b => !ready b }).each out fun s c => s.send c.1 c.2

/-- A batch with the status of one of its requests noted. -/
def Batch.note (b : Batch) (pseq : BitVec 16) (st : Status) : Batch :=
  { b with items := b.items.map fun i => if i.1 = pseq ∧ i.2 = none then (i.1, some st) else i }
/-- Whether a batch waits for the completion of its closing request. -/
def Batch.waits (b : Batch) (pseq : BitVec 16) : Bool := b.closer == some pseq && b.closed.isNone
/-- A batch with the completion of its closing request noted, with the link dies that it prefers. -/
def Batch.noteClose (b : Batch) (pseq : BitVec 16) (pref : List Nat) (p : Packet) : Batch :=
  if b.waits pseq then { b with closed := some (pref, p) } else b

/-- A completion of a fabric or host request leaves; that of a NOCMP request is kept for its batch, that of a closing request
waits for its batch (R342). -/
def State.reply (s : State) (r : Req) (home : Option Nat) (p : Packet) : State :=
  let pref := cmpDies home r.die
  let k := pairIdx r.pkt.src false
  let pq := r.pkt.pseq
  if r.pkt.src = hostEid then s.send pref p
  else if r.pkt.nocmp && (r.pkt.opc = oWrLine || r.pkt.opc = oWrPartial) then
    (s.modPairRx k fun x => { x with batches := x.batches.map (·.note pq p.stat) }).closeBatches k
  else if (s.pairRx k).batches.any (·.waits pq) then
    (s.modPairRx k fun x => { x with batches := x.batches.map (·.noteClose pq pref p) }).closeBatches k
  else s.send pref p

end Sys2Proof.Machine
end

