-- ==== Sys2Proof/Machine/Reply.lean ====
section
/-! DEFINITION. Posting the replies of mailbox commands (R408, R409, R415, R422) when what they wait for has come. -/
namespace Sys2Proof.Machine

/-- Whether an active management core runs Steward: after its release, outside a takeover (R423, R424), and in D0 and D1 before step 5 of an
entry (R523, R527). -/
def State.stewardUp (s : State) : Bool :=
  s.stew.released && !s.stew.noFw && !(s.stew.step == .booting || s.stew.step == .replay)
    && decide (s.pwr.state.toNat ≤ 1) && s.pwr.pstep != .s5 && s.pwr.pstep != .s6

/-- The reply slot of a command (R408). -/
def replySlot (c : Cmd) (tag : BitVec 32) : BitVec 2048 :=
  BitVec.ofNat 2048 (packBytes [(0, 1, 1), (2, 2, c.opcode.toNat), (4, 4, tag.toNat), (8, 2, c.status.toNat), (10, 2, c.detail.toNat),
    (12, 4, c.mseq.toNat), (16, 240, c.result.toNat)])

/-- CMD_DONE of a command (R414). -/
def cmdDone (c : Cmd) (tag : BitVec 32) : NtfRec :=
  { obj := BitVec.ofNat 32 (c.mb.m.val + (if c.mb.part.isNone then 256 else 0)), tag := tag, kind := 1
    cid := BitVec.ofNat 16 ((c.mb.part.map (·.val)).getD 0 * 1024)
    spec := BitVec.ofNat 160 (packBytes [(0, 2, c.status.toNat), (2, 2, c.opcode.toNat), (4, 4, c.mseq.toNat)]) }

/-! ### The journal (R420) -/

/-- An entry written to both copies, with the next sequence number. -/
def Journal.write (j : Journal) (token : Nat) (kind : JKind) : Journal :=
  let e : JEntry := { seq := j.next, token := token, kind := kind }
  { next := j.next + 1, ring := j.ring ++ [e], mirror := j.mirror ++ [e] }

/-- The entries of a command retired from both copies when its reply is posted. -/
def Journal.retire (j : Journal) (token : Nat) : Journal :=
  { j with ring := j.ring.filter (·.token ≠ token), mirror := j.mirror.filter (·.token ≠ token) }

/-- Which of the two copies of an entry stands: the one with the valid CRC and the higher sequence number. -/
def JEntry.stands (a b : JEntry) : JEntry := if !b.good || (a.good && b.seq ≤ a.seq) then a else b

/-- The journal loaded: what stands of each entry is in both copies. -/
def Journal.loaded (j : Journal) : Journal :=
  let l := j.ring.zipWith JEntry.stands j.mirror
  { j with ring := l, mirror := l }

/-- Whether a command is incomplete by the journal: taken, with no completion entry (R423 step 5). -/
def Journal.isOpen (j : Journal) (token : Nat) : Bool :=
  j.ring.any (fun e => e.good && e.token == token && e.kind == .take) && !j.ring.any fun e => e.good && e.token == token && e.kind == .done

/-- An entry of Steward's journal. -/
def State.note (s : State) (token : Nat) (kind : JKind) : State := { s with journal := s.journal.write token kind }

/-- The intent of a write through Warden that Steward makes when what a command waits for has come (R420). (DESIGN CHOICE: log entry 88) -/
def State.noteFor (s : State) (w : Wait) : State := s.each (s.cmds.filter (·.waits.contains w)) fun s c => s.note c.token .write

/-! ### Replies -/

/-- The reply of a command posted: only in a RUNNING mailbox with its MSEQ (R422); request OWN clears as reply OWN sets, and CMD_DONE is
staged when NOTIFY is set (R409). The command leaves the commands in progress; its completion entry goes before the reply, and its entries
are retired with it (R420). -/
def State.postReply (s0 : State) (c : Cmd) : State :=
  let s := { s0 with cmds := s0.cmds.filter (·.token ≠ c.token), journal := (s0.journal.write c.token .done).retire c.token }
  let i := c.mb.idx
  let x := s.mbox i
  if x.running && x.mseq = c.mseq then
    let s := s.setMbox i { x with running := false, req := x.req &&& ~~~1, rpl := replySlot c x.tag }
    if x.notify then s.doneRec (match c.mb.part with | some p => p.val | none => devTarget) (cmdDone c x.tag) none else s
  else s

/-- Every command that waits for nothing more is answered, in the order the commands were taken. -/
def State.postReady (s : State) : State :=
  if s.stewardUp then s.each (s.cmds.filter fun c => c.waits.isEmpty && !c.deferred) fun s c => s.postReply c else s

/-- What a command waits for has come, for every command that waits for it. -/
def State.wake (s : State) (w : Wait) : State :=
  let less := fun (c : Cmd) => { c with waits := c.waits.filter (· ≠ w) }
  if s.cmds.any fun c => c.waits.contains w then ({ s with cmds := s.cmds.map less }).postReady
  else s

/-- A command in progress ends with a status in place of what it waited for. -/
def State.failCmd (s : State) (token : Nat) (status detail : Nat) (result : BitVec 1920 := 0) : State :=
  let end_ := fun (c : Cmd) =>
    if c.token = token then
      { c with waits := [], deferred := false, status := BitVec.ofNat 16 status, detail := BitVec.ofNat 16 detail, result := result } else c
  ({ s with cmds := s.cmds.map end_ }).postReady

/-- Commands that wait for something end with a status. -/
def State.wakeFail (s : State) (w : Wait) (status : Nat) : State :=
  s.each (s.cmds.filter fun c => c.waits.contains w) fun s c => s.failCmd c.token status 0

end Sys2Proof.Machine
end

