-- ==== Sys2Proof/Machine/Stage.lean ====
section
/-! DEFINITION. The memory stage (R46, R47), weighted fair queuing (R277), the admission arbiter's entries (R276, R279), and the
end of a request: counters and completion (R18, R20, R47). -/
namespace Sys2Proof.Machine

/-! ### Weighted fair queuing (R277) -/

/-- RECIP(w). -/
def recip (w : Nat) : Nat := 65536 / w
/-- The later of two tags. -/
def tagMax (a b : Word) : Word := if tagLt a b then b else a
/-- on_arrival at an empty queue. -/
def Wfq.arrive (q : Wfq) (v : Word) (charge : Nat) : Wfq :=
  let st := match q.fin with | none => v | some f => tagMax v f
  { start := st, fin := some (st + BitVec.ofNat 64 charge) }
/-- The tags after the head is served, with the charge of the new head when there is one. -/
def Wfq.served (q : Wfq) (next : Option Nat) : Wfq :=
  match next with
  | some c => { start := q.fin.getD 0, fin := some (q.fin.getD 0 + BitVec.ofNat 64 c) }
  | none => q
/-- on_eligible_again (R277). -/
def Wfq.again (q : Wfq) (v : Word) : Wfq :=
  if tagLt q.start v then { start := v, fin := q.fin.map (· + (v - q.start)) } else q
/-- The queue with the smallest head start tag among eligible queues in ascending order; ties to the lowest index. -/
def wfqPick (tags : Tbl Wfq) : List Nat → Option Nat
  | [] => none
  | k :: r => match wfqPick tags r with
    | none => some k
    | some j => if tagLt (tget {} tags j).start (tget {} tags k).start then some j else some k
/-- What follows a service in select(): idle queues whose tag V has reached are cleared; when every queue is empty V becomes the
largest F issued and every F is cleared. `busy` tells which queues hold entries. -/
def wfqAfter (v : Word) (tags : Tbl Wfq) (busy : Nat → Bool) : Word × Tbl Wfq :=
  if tags.any (fun x => busy x.1) then
    (v, tags.foldl (fun t x => match x.2.fin with
      | some f => if !busy x.1 && !tagLt v f then tput {} t x.1 {} else t
      | none => t) tags)
  else (tags.foldl (fun m x => match x.2.fin with | some f => tagMax m f | none => m) v, [])

/-! ### The admission arbiter's entries (R276, R279) -/

/-- Requests of a flow in an arbiter: 0 device-critical, 1 TC7 and scheduled, 2 background, 3 + p partition p. -/
def Stack.flowLen (x : Stack) (f : Nat) : Nat := (x.queue.filter (·.flow = f)).length
/-- Whether a flow can take k more entries: 256 are reserved for each of flows 0 and 1, and a partition's flow holds at most 1,024 (R279). -/
def Stack.room (x : Stack) (f : Nat) (k : Nat := 1) : Bool :=
  let c0 := x.flowLen 0 + (if f = 0 then k else 0)
  let c1 := x.flowLen 1 + (if f = 1 then k else 0)
  let rest := x.queue.length - x.flowLen 0 - x.flowLen 1 + (if f = 0 || f = 1 then 0 else k)
  if f = 0 && c0 ≤ 256 then true
  else if f = 1 && c1 ≤ 256 then true
  else decide (rest + (c0 - 256) + (c1 - 256) ≤ 3584) && (decide (f < 3) || decide (x.flowLen f + k ≤ 1024))
/-- The charge of a request in its partition's queue. -/
def State.charge (s : State) (r : Req) : Nat := r.cost * recip (max 1 (s.part (r.flow - 3)).weight)

/-- Whether a line lies on a failed channel or stack (R390). -/
def State.lineFailed (s : State) (l : Nat) : Bool :=
  let x := s.stack (lineStack l)
  x.state == 5 || x.failed.getLsbD (lineChan l)

/-- Whether a request writes without reading, and so takes a place of the write buffer (R373). -/
def Req.isWrite (r : Req) : Bool := match r.act with | .write _ => true | _ => false

/-- Whether a request writes a line back for the directory. -/
def Req.isBack (r : Req) : Bool := r.isWrite && (r.org == .crit || r.pkt.opc == oWbDirty)

/-- Whether a request is one of a pair: a fabric or Elder request, or a line step of a contribution. (DEDUCED: log entry 31) -/
def Req.ofPair (r : Req) : Bool := r.org == .fab || r.org == .elder || (match r.act with | .contrib _ _ _ _ => true | _ => false)

/-- Whether two requests must keep their order at the arbiter: those of one pair to one line (R17, R276), and what the directory writes back
before every later access to the line that it lets through (R116). (DEDUCED: log entry 31) -/
def Req.ordered (a b : Req) : Bool :=
  a.line == b.line && (a.isBack || (a.pkt.src == b.pkt.src && a.pkt.cid == b.pkt.cid && decide (a.org = b.org))
    || (a.pkt.src == b.pkt.src && a.ofPair && b.ofPair))

/-- Whether an earlier request of an arbiter holds a request back. (DEDUCED: log entry 31) -/
def heldBack : List Req → Req → Bool
  | [], _ => false
  | a :: l, r => if a = r then false else a.ordered r || heldBack l r

/-- A request joins its flow at the arbiter of a stack, in an entry (R276, R277). (DESIGN CHOICE: log entry 15) -/
def State.joinFlow (s : State) (n : Nat) (r0 : Req) : State :=
  let r := { r0 with arrived := s.now }
  s.modStack n fun x =>
    let x' := { x with queue := x.queue ++ [r] }
    if 3 ≤ r.flow && 1 ≤ (s.part (r.flow - 3)).weight && x.flowLen r.flow = 0 then
      { x' with tags := tput {} x.tags r.flow ((tget {} x.tags r.flow).arrive x.vtime (s.charge r)) }
    else x'

/-- A request comes to the arbiter of its line's stack. What a unit of this device brings forth when no entry is free, or while an earlier
one of its flow waits, or one that it must not overtake on its line (R116, R276), waits at the unit, and MEM_ADMIT_STALL counts it (R279).
(DESIGN CHOICE: log entry 15) -/
def State.enqueue (s : State) (r : Req) : State :=
  let n := lineStack r.line
  let x := s.stack n
  if x.room r.flow && x.wait.all (·.flow ≠ r.flow) && !x.wait.any (·.ordered r) then s.joinFlow n r
  else (s.modStack n fun x => { x with wait := x.wait ++ [r] }).bump (stackBlk n) 9

/-- The requests that wait for an entry of a stack's arbiter join their flows in order, as far as there is room (R279).
(DESIGN CHOICE: log entry 15) -/
def State.refill (s : State) (n : Nat) : List Req → State
  | [] => s
  | r :: l =>
    let x := s.stack n
    if x.room r.flow && x.wait.find? (·.flow = r.flow) == some r && !heldBack x.wait r then
      ((s.setStack n { x with wait := x.wait.erase r }).joinFlow n r).refill n l
    else s.refill n l

/-! ### Extents as the memory stage reads them -/

/-- The offset within this member's granules: for PARITY the local granule of the stripe (R62). -/
def Ext.local_ (x : Ext) (off : Nat) : Nat :=
  if x.parity then (off / 2 ^ 21 / (if x.pwidth then 7 else 3)) * 2 ^ 21 + off % 2 ^ 21 else off

/-- The number of granules this member holds of an extent. -/
def Ext.localSize (x : Ext) : Nat :=
  let k := if x.pwidth then 7 else 3
  if x.parity then (x.size.toNat + k - 1) / k else x.size.toNat

/-- The rights of a partition's class k in an extent: the owner's, or those of a consenting member's slot; none when the
partition is neither (R43, R46 check 5, R48). -/
def State.rightsOf (s : State) (x : Ext) (part : Nat) (k : Nat) : Option (BitVec 3) :=
  if x.owner.toNat = part then some (x.rights.extractLsb' (3 * k) 3)
  else if x.shared then
    ((s.share x.shareRef.toNat).slots.find? fun e => e.2.valid && e.2.consent && decide (e.2.part.toNat = part)).map
      fun e => e.2.rights.extractLsb' (3 * k) 3
  else none

/-- Member index of a stripe slot (R60). -/
def Prot.member (p : Prot) (slot : Nat) : Nat := bitsOf p.slots.toNat (3 * slot) 3

/-- Whether a member of the group has been silent for 4 ms (R64). (DESIGN CHOICE: log entry 27) -/
def State.silent (s : State) (m : Nat) : Bool := m ≠ s.group.self.val && decide (tget 0 s.group.lastHb m + 4000000 ≤ s.ftNs)

/-- Whether this member reaches a strict majority of its group, counting itself (R64). (DESIGN CHOICE: log entry 27) -/
def State.majority (s : State) : Bool :=
  s.group.promoted || decide (s.group.nmemb < 2 * ((List.range s.group.nmemb).filter fun m => !s.silent m).length)

/-- The other members of the group. (DESIGN CHOICE: log entry 27) -/
def State.peers (s : State) : List Nat := (List.range s.group.nmemb).filter (· ≠ s.group.self.val)

/-- Whether this member serves a byte offset of a protected extent (R61, R62, R65): the target of a rebuild serves nothing until it has ended,
and a member that has lost a stack alone serves on, forwarding what it cannot do itself (R65). (DESIGN CHOICE: log entry 28) -/
def State.serves (s : State) (x : Ext) (off : Nat) : Bool :=
  let p := s.prot x.protRef.toNat
  let me := s.group.self.val
  let here := fun k => p.member k == me && (!p.lost.getLsbD k || p.stackOut)
  if x.mirror then here 0 || (here 1 && p.lost.getLsbD 0)
  else if x.parity then
    let k := if x.pwidth then 7 else 3
    let g := off / 2 ^ 21
    let ps := (g / k) % (k + 1)
    let d := (ps + 1 + g % k) % (k + 1)
    here d || (p.lost.getLsbD d && here ps)
  else true

/-- The stripe slot in which this member holds its lines of a protected extent (R60 to R62). (DESIGN CHOICE: log entry 28) -/
def State.mySlot (s : State) (x : Ext) : Nat :=
  let p := s.prot x.protRef.toNat
  let me := s.group.self.val
  let n := if x.mirror then 2 else if x.pwidth then 8 else 4
  ((List.range n).find? fun i => p.member i == me).getD 0

/-- The parity slot and the data slot of a byte offset of a PARITY extent (R62). (DESIGN CHOICE: log entry 28) -/
def Ext.slotsAt (x : Ext) (off : Nat) : Nat × Nat :=
  let k := if x.pwidth then 7 else 3
  let g := off / 2 ^ 21
  let ps := (g / k) % (k + 1)
  (ps, (ps + 1 + g % k) % (k + 1))

/-- Whether this member stands in for a lost data slot as the parity member of its stripe (R65). (DESIGN CHOICE: log entry 28) -/
def State.standIn (s : State) (x : Ext) (off : Nat) : Bool := x.parity && (s.mySlot x) == (x.slotsAt off).1

/-- Whether the redundancy of a line still stands: no slot of its stripe but this member's own is lost (R65). (DESIGN CHOICE: log entry 28) -/
def State.redundant (s : State) (x : Ext) : Bool :=
  let p := s.prot x.protRef.toNat
  let n := if x.mirror then 2 else if x.pwidth then 8 else 4
  (List.range n).all fun i => i == s.mySlot x || !p.lost.getLsbD i

/-- Whether this member is the target of a rebuild of an extent that another member runs: its own slot is still lost, and not by a failed stack
(R66, R67). (DESIGN CHOICE: log entry 83) -/
def State.isTarget (s : State) (x : Ext) : Bool :=
  (s.prot x.protRef.toNat).lost.getLsbD (s.mySlot x) && !(s.prot x.protRef.toNat).stackOut

/-- The member that serves a request of this one whose line lies on a failed stack or channel: the mirror, or the stripe's parity member, while
it is not lost (R65, R390). (DESIGN CHOICE: log entry 28) -/
def State.standby (s : State) (x : Ext) (off : Nat) : Option Nat :=
  let p := s.prot x.protRef.toNat
  let me := s.mySlot x
  let (ps, d) := x.slotsAt off
  if x.mirror then (if me = 0 && !p.lost.getLsbD 1 then some (p.member 1) else none)
  else if x.parity && me = d && s.redundant x then some (p.member ps) else none

/-- Whether a further slot of the stripe is lost beside the data slot for which this member stands in, so that the line is lost (R65). -/
def State.stripeLost (s : State) (x : Ext) (off : Nat) : Bool :=
  let p := s.prot x.protRef.toNat
  let (ps, d) := x.slotsAt off
  s.standIn x off && p.lost.getLsbD d
    && (List.range (if x.pwidth then 8 else 4)).any fun i => i ≠ ps && i ≠ d && p.lost.getLsbD i

/-- Whether what another member forwarded is taken in by this member: the secondary takes any request of the primary, and the stripe's parity
member any of the data member for which it stands in (R61, R65); the target of a rebuild takes any other member's lines (R66).
(DESIGN CHOICE: log entry 27) -/
def State.fromPeer (s : State) (p : Packet) (x : Ext) : Bool :=
  let eid := fun m => tget 0 s.group.eids m
  let pr := s.prot x.protRef.toNat
  let off := p.offset.toNat
  s.group.on
    && ((x.mirror && pr.member 1 == s.group.self.val && eid (pr.member 0) == p.src && !s.serves x 0)
      || (s.standIn x off && eid (pr.member (x.slotsAt off).2) == p.src)
      || ((x.mirror || x.parity) && p.opc == oWrLine && s.isTarget x && s.peers.any fun m => eid m == p.src))

/-- A message to a member of the group. (DESIGN CHOICE: log entry 27) -/
def State.groupSend (s : State) (m : Nat) (tc : Option (Fin 8)) (g : GroupMsg) : State :=
  { s with group := { s.group with out := s.group.out ++ [{ member := m, tc := tc, msg := g }] } }

/-- The members that a write or an atomic of a protected extent must also reach, and whether each takes a delta: the primary's line a live
secondary, a data member's delta a live parity member, and, below CURSOR, the member that is being rebuilt (R61, R63, R66). -/
def State.forwardTo (s : State) (r : Req) : List (Nat × Bool) :=
  let x := s.ext r.ext
  let off := r.pkt.offset.toNat
  let p := s.prot x.protRef.toNat
  let me := s.mySlot x
  let (ps, d) := x.slotsAt off
  let live := if x.mirror then (if me = 0 && !p.lost.getLsbD 1 then [(p.member 1, false)] else [])
    else if x.parity && me = d && !p.lost.getLsbD ps then [(p.member ps, true)] else []
  let built := if p.rstate ≠ 0 && !p.target && p.rslot.val ≠ me && off / 2 ^ 21 < p.cursor.toNat then
      if x.mirror then [(p.member p.rslot.val, false)]
      else if x.parity && me = d && p.rslot.val = ps then [(p.member ps, true)]
      else if x.parity && me = ps && p.rslot.val = d then [(p.member d, false)] else []
    else []
  if s.isTarget x then [] else live ++ built

/-- A line, a delta or a whole request sent to another member in the class of the causing request (R272), as a request of its own RTAG and
ATTEMPT (R121). -/
def State.postFwd (s : State) (r : Req) (f : Fwd) : State :=
  let off := BitVec.ofNat 40 (r.pkt.offset.toNat / 128 * 128)
  let ctl := BitVec.ofNat 4 f.attempt
  let k : Packet := { dst := tget 0 s.group.eids f.member, src := s.node.eid, cid := r.pkt.cid, xh := r.pkt.xh, offset := off, tc := r.pkt.tc
                      opc := oWrLine, ctl := ctl, data := f.data, len := 160, rtag := f.rtag }
  let p : Packet := if f.whole then
      { k with opc := r.pkt.opc, aop := r.pkt.aop, wide := r.pkt.wide, offset := r.pkt.offset, blen := r.pkt.blen, opnd := r.pkt.opnd
               data := r.pkt.data, len := if r.pkt.opc = oWrLine || r.pkt.opc = oWrPartial then 160 else 32 }
    else k
  let o : OrigReq := { rtag := f.rtag, pkt := p, sent := f.delta, sentAt := s.now, kind := if f.delta then .delta else .line }
  let s := { s with origs := s.origs ++ [o] }
  if f.delta then s.groupSend f.member (some r.pkt.tc) (.delta r.pkt.cid f.rtag ctl r.pkt.xh off f.data) else s.send (s.dieServing (lineQuad r.line)).toList p

/-- A request whose effect must also be committed by other members waits for them (R61, R63): each gets the line or the delta. -/
def State.forward (s : State) (r : Req) (l : List (Nat × Bool)) (was new data : Line) (old : Nat) : State :=
  let fs : List Fwd := l.mapIdx fun i f =>
    { member := f.1, rtag := s.nextRtag + BitVec.ofNat 32 i, delta := f.2, data := if f.2 then was ^^^ new else new }
  let w : FwdWait := { req := r, data := data, old := old, fwds := fs }
  let s := { s with fwds := s.fwds ++ [w], nextRtag := s.nextRtag + BitVec.ofNat 32 fs.length }
  s.each fs fun s f => s.postFwd r f

/-- A request of this member that another one serves, and whose completion is the request's (R65). (DESIGN CHOICE: log entries 27, 28) -/
def State.forwardWhole (s : State) (r : Req) (m : Nat) : State :=
  let f : Fwd := { member := m, rtag := s.nextRtag, whole := true }
  { s with fwds := s.fwds ++ [{ req := r, whole := true, fwds := [f] }], nextRtag := s.nextRtag + 1 : State }.postFwd r f

/-- What another member must be sent again is sent again, each under a new RTAG, when the wait that a RETRY asked for is over (R120).
(DESIGN CHOICE: log entry 27) -/
def State.forwardAgain (s : State) : State :=
  s.each (s.fwds.flatMap fun w => (w.fwds.filter fun f => f.again && decide (f.readyAt ≤ s.now)).map fun f => (w.req, f)) fun s (r, f) =>
    let g := { f with rtag := s.nextRtag, again := false }
    let swap := fun (w : FwdWait) => { w with fwds := w.fwds.map fun h => if h.rtag = f.rtag then g else h }
    { s with fwds := s.fwds.map swap, nextRtag := s.nextRtag + 1 }.postFwd r g

/-- The loss of the last copy of a line, reported once for each extent (R65); what is lost before the record is posted is added to it (R493). -/
def State.dataLost (s : State) (idx lines lowest : Nat) : State :=
  let x := s.ext idx
  let held := (s.part x.owner.toNat).held.any (·.isOf 0x21 (idx + x.gen.toNat * 2 ^ 18))
  if (s.prot x.protRef.toNat).reported && !held then s
  else (s.modProt x.protRef.toNat fun p => { p with reported := true }).extentFault x.owner.toNat 0x21 (idx + x.gen.toNat * 2 ^ 18) lines lowest

/-- GROUP_EVENT to the owner of an extent (R65, R414). -/
def State.groupEvent (s : State) (idx cause slot : Nat) : State :=
  s.event (s.ext idx).owner.toNat { kind := 4, obj := BitVec.ofNat 32 idx, cause := BitVec.ofNat 8 cause
                                    cid := BitVec.ofNat 16 ((s.ext idx).owner.toNat * 1024), spec := BitVec.ofNat 160 slot }

/-- The line number of R472 for the line that this member holds at a byte offset of an extent: that of the offset; a parity line has no offset in
the extent, and the line number is that of the granule in which this member holds it. (DESIGN CHOICE: log entry 28) -/
def State.lineNo (s : State) (x : Ext) (off : Nat) : Nat := if s.standIn x off then x.local_ off / 128 else off / 128

/-- The tweak of a request's line: the generation is that of its handle (R472). -/
def State.reqTweak (s : State) (r : Req) : Nat :=
  xtsTweak r.ext (r.pkt.xh.extractLsb' 18 6).toNat (s.lineNo (s.ext r.ext) r.pkt.offset.toNat)

/-! ### The checks of R46 -/

/-- The checks of the memory stage in order, for a request with an EID (none for on-chip units, which present no EID) and its
protection required or not: the status of the first that fails, or none. That a member without a majority answers RETRY (R64) is tested between
checks 8 and 9, where the spec gives it no place. A line that another member forwards has passed the checks of the member that serves it, and
only checks 1, 4, 7 and 9 are made here. (DESIGN CHOICE: log entries 19, 27) -/
def State.msCheck (s : State) (p : Packet) (eid : Option Eid) (needProt : Bool) : Option Status :=
  let part := cidPart p.cid
  let x := s.part part
  let c := s.ctx p.cid.toNat
  let e := s.ext (p.xh.extractLsb' 0 18).toNat
  let fits := match eid with | some i => eidFits i c.eidMatch c.eidMask | none => true
  let prot := !(x.conf && needProt) || s.protOk part p
  let live := e.state = 1 && e.gen = p.xh.extractLsb' 18 6
  let beyond := p.offset.toNat + p.accLen > e.size.toNat * 2 ^ 21 || p.offset.toNat % 128 + p.accLen > 128
  if eid.isSome && s.fromPeer p e then
    if x.state = 4 then some stAborted else if !live then some stRevoked else if beyond || !p.formOk false then some stDenied else none
  else if x.state = 4 then some stAborted
  else if x.state ≠ 2 then some stDenied
  else if !(c.state = 2 && fits && prot) then some stDenied
  else if !live then some stRevoked
  else match s.rightsOf e part c.cls.toNat with
    | none => some stDenied
    | some r =>
      if r &&& p.needs ≠ p.needs then some stDenied
      else if beyond then some stDenied
      else if (e.mirror || e.parity) && !s.serves e p.offset.toNat then some stDenied
      else if (e.mirror || e.parity) && !s.majority then some stRetry
      else if !p.formOk e.coherent then some stDenied
      else none

/-- The extent index a request names, and the line its offset decodes to; the locator reads them without any check (R15). -/
def pktExt (p : Packet) : Nat := (p.xh.extractLsb' 0 18).toNat
def State.locate (s : State) (p : Packet) : Nat :=
  let x := s.ext (pktExt p)
  s.extLine x (x.local_ p.offset.toNat)

/-! ### The end of a request -/

/-- The in-flight counters of a request that ends (R39, R47). -/
def State.leave (s : State) (r : Req) : State :=
  if r.counted then
    let s := s.modExt r.ext fun x => if r.phase then { x with ctrB := x.ctrB - 1 } else { x with ctrA := x.ctrA - 1 }
    if r.org = .elder then s else s.modCtx r.pkt.cid.toNat fun c => { c with inflight := c.inflight - 1 }
  else s

/-- A request that passed every check enters the counters of the current phase (R47). -/
def State.enter (s : State) (r : Req) : Req × State :=
  let x := s.ext r.ext
  let s := s.modExt r.ext fun x => if x.phase then { x with ctrB := x.ctrB + 1 } else { x with ctrA := x.ctrA + 1 }
  let s := if r.org = .elder then s else s.modCtx r.pkt.cid.toNat fun c => { c with inflight := c.inflight + 1 }
  ({ r with phase := x.phase, counted := true }, s)

/-- The bytes of an access moved to the start of DATA (RD_ONCE returns LEN + 1 bytes, R110). -/
def sliceLine (d : Line) (lo n : Nat) : Line := BitVec.ofNat 1024 ((d.toNat >>> (8 * lo)) % 2 ^ (8 * n))

/-- Whether the partition that a request belongs to is ABORTED, so that its completion carries ABORTED (R35, R417). -/
def State.reqAborted (s : State) (r : Req) : Bool :=
  match r.org with
  | .crit => false
  | .spill _ _ _ _ => false
  | .elder => (s.part (s.ext r.ext).owner.toNat).abortAt.isSome || (s.part (s.ext r.ext).owner.toNat).state == 4
  | _ => (s.part (cidPart r.pkt.cid)).abortAt.isSome || (s.part (cidPart r.pkt.cid)).state == 4

/-- The completion of a request is formed and given to its requester: status, the line read, the old value of an atomic, and
the backoff hint of a RETRY (R18, R47, R100, R110). (DESIGN CHOICE: log entries 15, 19) -/
def State.deliver (s : State) (r : Req) (st0 : Status) (data : Line) (old : Nat) (bo : BitVec 4) (rsv : Bool) : State :=
  let st := if s.reqAborted r then stAborted else st0
  let form := fun (st : Status) =>
    let c := { s.cmpFor r r.home st with ctl := if st = stRetry then bo else 0, reserved := rsv && st == stRetry }
    if st ≠ stOk then c
    else if r.pkt.opc = oRdOnce then
      { c with opc := oCmpData, len := 160, data := sliceLine data (r.pkt.offset.toNat % 128) (r.pkt.blen.toNat + 1) }
    else if r.pkt.opc = oAtomic then { c with opc := oAtomicResult, opnd := BitVec.ofNat 128 old } else c
  match r.org with
  | .fab => s.reply r r.home (form st)
  | .elder => s.reply r r.home (form (elderStatus st))
  | .engine n k inc => s.engDone n k inc { id := r.id, status := st, backoff := bo, data := data, at_ := s.now }
  | .sched n => s.schedDone n { id := r.id, status := st, backoff := bo, data := data, at_ := s.now }
  | .walker n => s.walkDone n { id := r.id, status := st, backoff := bo, data := data, at_ := s.now }
  | .crit => s
  | .spill _ _ _ _ => s

/-- A request ends: its counters are decremented and its completion is formed (R18 step 6, R20). -/
def State.finish (s : State) (r : Req) (st : Status) (data : Line := 0) (old : Nat := 0) : State :=
  (s.leave r).deliver r st data old 0 false

/-- A request is NACKed with RETRY (R20, R119). -/
def State.nack (s : State) (r : Req) (bo : BitVec 4) (rsv : Bool) : State := (s.leave r).deliver r stRetry 0 0 bo rsv

/-- The flow of a request (R276). -/
def reqFlow (r : Req) : Nat :=
  match r.org with
  | .crit => 0
  | .spill _ _ _ _ => 0
  | .sched _ => 1
  | .fab => if r.pkt.tc = 7 then 1 else 3 + cidPart r.pkt.cid
  | _ => 3 + cidPart r.pkt.cid

/-- The DRAM effect and cost of a request on a line without directory or combining (R110, R276). -/
def directAct (p : Packet) : Act × Nat :=
  if p.opc = oWrLine then (.write p.data, 128)
  else if p.opc = oWrPartial then (.part p.opnd p.data, 256)
  else if p.opc = oAtomic then (.atom, 256)
  else (.read, 128)

end Sys2Proof.Machine
end

