-- ==== Sys2Proof/Machine/Directory.lean ====
section
/-! DEFINITION. The directory slices (chapter 04): lookup, allocation and eviction, transactions, reservations, snoops, the
atomic predictor, and what a line does when its answers or its data arrive. -/
namespace Sys2Proof.Machine

/-! ### Entries (R103 to R105) -/

/-- The set and tag of a line address. -/
def setOf (a : Nat) : Nat := Nat.xor (Nat.xor (bitsOf a 0 16) (bitsOf a 16 16)) (bitsOf a 32 1)
def tagOf (a : Nat) : BitVec 17 := BitVec.ofNat 17 (a >>> 16)

/-- The way that tracks a line, when one does. -/
def Slice.find (x : Slice) (a : Nat) : Option Nat :=
  ((List.range 16).map (fun w => setOf a * 16 + w)).find? fun w =>
    let e := x.way w
    (e.state != 0 || e.opn) && e.tag == tagOf a

/-- The line address of a way (R104). -/
def Slice.lineOfWay (x : Slice) (w : Nat) : Nat :=
  let t := (x.way w).tag.toNat
  t * 65536 + Nat.xor (Nat.xor (w / 16) (t % 65536)) (t / 65536)

/-- The exact slots of an entry. -/
def DirEntry.slots (e : DirEntry) : List Eid := (List.range 4).map fun i => e.sharers.extractLsb' (12 * i) 12
/-- SHARERS of exact slots. -/
def slotsWord (l : List Eid) : Word :=
  BitVec.ofNat 64 (packBits ((List.range 4).map fun i => (12 * i, 12, (l.getD i 0xFFF).toNat)))
/-- The empty exact list. -/
def noSharers : Word := 0x0000FFFFFFFFFFFF

/-- The EIDs that may hold a line (R105): the exact slots, or every agent of the set groups. -/
def State.holders (s : State) (e : DirEntry) : List Eid :=
  if e.fmt then ((s.agents.filter fun a => a.2 && e.sharers.getLsbD (a.1 / 64)).map fun a => BitVec.ofNat 12 a.1)
  else e.slots.filter (· ≠ 0xFFF)

/-- Whether an EID is a caching agent (R107). -/
def State.isAgent (s : State) (e : Eid) : Bool := s.agent e.toNat

/-- An entry with a sharer added (R105). -/
def DirEntry.add (e : DirEntry) (x : Eid) : DirEntry :=
  if e.fmt then { e with sharers := e.sharers ||| (1 <<< (x.toNat / 64)) }
  else
    let l := e.slots.filter (· ≠ 0xFFF)
    if l.contains x then e
    else if l.length < 4 then { e with sharers := slotsWord ((e.slots.mapIdx fun i y =>
      if y = 0xFFF && i = (e.slots.findIdx (· = 0xFFF)) then x else y)) }
    else { e with fmt := true, sharers := (x :: l).foldl (fun w y => w ||| (1 <<< (y.toNat / 64))) 0 }

/-- An exact entry without an EID. (DESIGN CHOICE: log entry 30) -/
def DirEntry.drop (e : DirEntry) (x : Eid) : DirEntry := { e with sharers := slotsWord (e.slots.map fun y => if y = x then 0xFFF else y) }

/-- The owner of an entry in E or M, or of one being granted E or M. -/
def DirEntry.owner (e : DirEntry) : Eid := e.sharers.extractLsb' 0 12

/-! ### Pseudo-LRU (R124) -/

/-- The tree with every node on a way's path naming the other half: node i of level d, root at bit 0. -/
def plruTouch (t : BitVec 15) (w : Nat) : BitVec 15 :=
  let set := fun (t : BitVec 15) (n : Nat) (hi : Bool) => if hi then t ||| BitVec.ofNat 15 (1 <<< n) else t &&& ~~~ (BitVec.ofNat 15 (1 <<< n))
  let n1 := 1 + w / 8; let n2 := 3 + w / 4; let n3 := 7 + w / 2
  set (set (set (set t 0 (w / 8 = 0)) n1 (w / 4 % 2 = 0)) n2 (w / 2 % 2 = 0)) n3 (w % 2 = 0)

/-- The way the tree leads to among ways that may be victims. -/
def plruVictim (t : BitVec 15) (ok : Nat → Bool) : Option Nat :=
  let half := fun (n lo len : Nat) =>
    let hiOk := (List.range (len / 2)).any fun i => ok (lo + len / 2 + i)
    let loOk := (List.range (len / 2)).any fun i => ok (lo + i)
    if (t.getLsbD n && hiOk) || !loOk then lo + len / 2 else lo
  if (List.range 16).any ok then
    let a := half 0 0 16
    let b := half (1 + a / 8) a 8
    let c := half (3 + b / 4) b 4
    some (half (7 + c / 2) c 2)
  else none

/-- The tree of a way's set touched (R124). -/
def State.touch (s : State) (q w : Nat) : State :=
  s.modSlice q fun x => { x with lru := tput 0 x.lru (w / 16) (plruTouch (tget 0 x.lru (w / 16)) (w % 16)) }

/-! ### Transactions (R106, R115) -/

/-- The lowest-numbered free transaction. (DESIGN CHOICE: log entry 84) -/
def Slice.freeTxn (x : Slice) : Option Nat := (List.range 1024).find? fun t => (x.txn t).kind == .free

/-- The extent and offset that name a line in a snoop, by the reverse map (R51, R553). -/
def State.nameLine (s : State) (a : Nat) : Nat × Nat :=
  let m := s.rmapE (a / 16384)
  (m.ext.toNat, m.pos.toNat * 2 ^ 21 + (a % 16384) * 128)

/-- The status and data of a tracked line's EID that answers no more: the host while Qoreus is down (R133). -/
def State.gone (s : State) (e : Eid) : Bool := e == hostEid && !((s.port 16).state == 3 || (s.port 16).state == 4)

/-- XH and OFFSET by which a snoop names a line (R553): those of the request that opened its transaction; for a back-invalidation those of the
reverse map, with the generation under which the holders obtained the line: once a revocation has begun, the one before step 1 of R54. -/
def State.snoopName (s : State) (a : Nat) (req : Option Req) : Xh × BitVec 40 :=
  match req with
  | some r => (r.pkt.xh, BitVec.ofNat 40 (r.pkt.offset.toNat / 128 * 128))
  | none =>
    let (idx, off) := s.nameLine a
    let x := s.ext idx
    let gen := if x.state = 2 then x.gen - 1 else x.gen
    (BitVec.ofNat 24 (idx + gen.toNat * 2 ^ 18), BitVec.ofNat 40 off)

/-- One snoop or back-invalidation packet of a transaction (R110, R553). (DESIGN CHOICE: log entry 19) -/
def State.snoopPkt (s : State) (q t : Nat) (opc : Byte) (name : Xh × BitVec 40) (cid : Cid) (tc : Fin 8) (e : Eid) : Packet :=
  { dst := e, src := s.node.eid, cid := cid, tc := tc, len := 32, opc := opc, xh := name.1, offset := name.2, tag := BitVec.ofNat 16 (q + 4 * t) }

/-- Snoops for a line, by the request that opened the transaction, if one did: the link die that serves the home quadrant, and the counter
COH_BINV_SENT of a back-invalidation (R144). -/
def State.snoop (s : State) (q t : Nat) (opc : Byte) (a : Nat) (req : Option Req) (cid : Cid) (tc : Fin 8) (dst : List Eid) : State :=
  let name := s.snoopName a req
  s.each dst fun s e =>
    let s := if opc = oBinv || opc = oBinvDiscard then s.bump (sliceBlk q) 5 else s
    s.send ((s.dieServing q).toList) (s.snoopPkt q t opc name cid tc e)

/-- A transaction opened on a way (R106, R115). -/
def State.openTxn (s : State) (q t w : Nat) (v : Txn) : State :=
  let e := (s.slice q).way w
  (s.setTxn q t { v with way := w, line := (s.slice q).lineOfWay w, since := s.now }).setWay q w
    { e with opn := true, txn := BitVec.ofNat 10 t }

/-- A transaction closed: its entry is free. -/
def State.freeWay (s : State) (q w : Nat) : State := s.setWay q w {}
def State.dropTxn (s : State) (q t : Nat) : State := s.setTxn q t {}

/-- A transaction closed with its entry left in a stable state; an S entry without any holder is freed. (DESIGN CHOICE: log entry 30) -/
def State.settle (s : State) (q t w : Nat) (e : DirEntry) : State :=
  let e := { e with opn := false, txn := 0 }
  (s.dropTxn q t).setWay q w (if e.state = 1 && !e.fmt && e.sharers = noSharers then {} else e)

/-! ### Entries that a scan has not reached (R133) -/

/-- An entry that a scan in progress has not reached, as a request or a back-invalidation finds it: one that the host owns is ORPHANED, and
the host's exact slot of an S line is cleared (R133). -/
def State.meetScan (s : State) (q w : Nat) : State :=
  let e := (s.slice q).way w
  if !(s.slice q).scanning || e.opn then s
  else if (e.state = 2 || e.state = 3) && e.owner = hostEid then s.setWay q w { e with state := 4 }
  else if e.state = 1 && !e.fmt && e.slots.contains hostEid then
    let e' := e.drop hostEid
    s.setWay q w (if e'.sharers = noSharers then {} else e')
  else s

/-- The entry of a line, if there is one, as a request finds it during a scan (R133). -/
def State.meetLine (s : State) (q a : Nat) : State :=
  match (s.slice q).find a with
  | some w => s.meetScan q w
  | none => s

/-! ### Back-invalidation (R109, R138, R139, R141) -/

/-- The back-invalidation that an entry is due, if any: with discard when its extent is being revoked; with writeback when its
extent is unshared, an EID it lists loses its AGENT bit (the host's also with R363), or the device enters D2, D2R or D3 (R527 step 3). -/
def State.binvDue (s : State) (q w : Nat) : Option Byte :=
  let e := (s.slice q).way w
  let (idx, _) := s.nameLine ((s.slice q).lineOfWay w)
  let lists := fun (x : Nat) => if e.fmt then e.sharers.getLsbD (x / 64) else e.slots.contains (BitVec.ofNat 12 x)
  if e.opn || e.state = 0 || e.state = 4 then none
  else if (s.ext idx).state = 2 then some oBinvDiscard
  else if s.cmds.any (fun c => c.waits.any fun x => match x with
      | .binv i => i == idx
      | .agents x => lists x
      | _ => false)
    || (s.pwr.pstep == .s3 && (s.pwr.target != 3 || lists 0xFFE)) || (s.qor.leaving && lists 0xFFE) then some oBinv
  else none

/-- An entry back-invalidated: BINV or BINV_DISCARD to every holder, or freed at once when no holder can answer; nothing while the
transaction table is full. -/
def State.binvWay (s0 : State) (q w : Nat) : State :=
  let s := s0.meetScan q w
  match s.binvDue q w, (s.slice q).freeTxn with
  | some opc, some t =>
    let e := (s.slice q).way w
    let a := (s.slice q).lineOfWay w
    let cid : Cid := BitVec.ofNat 16 ((s.ext (s.nameLine a).1).owner.toNat * 1024)
    let dst := (s.holders e).filter fun x => !s.gone x
    if dst.isEmpty then s.freeWay q w
    else (s.openTxn q t w { kind := .evictWait, cid := cid, await := dst, opc := opc, discard := opc == oBinvDiscard }).snoop
      q t opc a none cid 6 dst
  | _, _ => s

/-- Whether any slice tracks a line for which a test of its slice and way holds. -/
def State.tracks (s : State) (f : Nat → Nat → Bool) : Bool :=
  [0, 1, 2, 3].any fun q => (s.slice q).ways.any fun e => (e.2.state != 0 || e.2.opn) && f q e.1

/-- Whether a way tracks a line of an extent, and whether it may list an EID. -/
def State.wayExt (s : State) (idx q w : Nat) : Bool := (s.nameLine ((s.slice q).lineOfWay w)).1 == idx
/-- (DESIGN CHOICE: log entry 30) -/
def State.wayLists (s : State) (e q w : Nat) : Bool :=
  let x := (s.slice q).way w
  if x.fmt then x.sharers.getLsbD (e / 64) else x.slots.contains (BitVec.ofNat 12 e)

/-- Commands that wait for back-invalidations go on when no line that they concern is tracked; an AGENT bit is cleared then (R109), that of a host
which is to be no agent any more too (R363). -/
def State.sweepsDone (s : State) : State :=
  let s := if s.qor.leaving && !s.tracks (s.wayLists 0xFFE) then { s.setAgent 0xFFE false with qor := { s.qor with leaving := false } } else s
  s.each (s.cmds.flatMap (·.waits)) fun s w => match w with
    | .binv i => if s.tracks (s.wayExt i) then s else s.wake w
    | .agents e => if s.tracks (s.wayLists e) then s else ((s.noteFor w).setAgent e false).wake w
    | _ => s

/-- Every entry of a slice that is due a back-invalidation. (DESIGN CHOICE: log entry 30) -/
def State.sweep (s : State) (q : Nat) : State := (s.each ((s.slice q).ways.map (·.1)) fun s w => s.binvWay q w).sweepsDone
/-- Every slice swept. (DESIGN CHOICE: log entry 30) -/
def State.sweepAll (s : State) : State := s.each [0, 1, 2, 3] fun s q => s.sweep q

/-! ### Grants (R116, R129) and the end of requests -/

/-- The grant opcode of the state that it grants. -/
def grantOpc (next : BitVec 3) : Byte := if next = 1 then oGrantS else if next = 2 then oGrantE else oGrantM

/-- A grant is sent: the entry records the grantee, the way's tree is touched, and GRANT_ACK is awaited. -/
def State.grant (s : State) (q t : Nat) (r : Req) (next : BitVec 3) (nodata : Bool) (data : Line) : State :=
  let v := (s.slice q).txn t
  let e := (s.slice q).way v.way
  let e' := if next = 1 then e.add r.pkt.src else { e with fmt := false, sharers := slotsWord [r.pkt.src] }
  let s := (s.setTxn q t { v with kind := .grantWait, eid := r.pkt.src, next := next, since := s.now }).setWay q v.way e'
  let s := s.touch q v.way
  let s := if r.atReq then s.bump (sliceBlk q) 8 else s
  (s.leave r).reply r r.home { s.cmpFor r r.home stOk with
    opc := grantOpc next, tag := BitVec.ofNat 16 (q + 4 * t), nodata := nodata, atomicGrant := r.atReq
    len := if nodata then 32 else 160, data := if nodata then 0 else data }

/-- The line that a grant waits for has been read: the grant is sent, or, on any other outcome or for an aborted partition, the request ends with
its status and the entry is freed, or stays in S with the holders that it still has (R134, R140, R384). A grantee that has lost its AGENT bit
while its line was fetched, and the host that has gone down meanwhile, get HOST_LOST; for an EID other than the host's the spec names no
status. (DESIGN CHOICE: log entry 30) -/
def State.fetched (s : State) (q t : Nat) (r : Req) (st0 : Status) (data : Line) : State :=
  let v := (s.slice q).txn t
  let e := (s.slice q).way v.way
  let st := if s.reqAborted r then stAborted else if st0 = stOk && (v.aborted || !s.isAgent r.pkt.src) then stHostLost else st0
  if st = stOk then s.grant q t r v.next false data
  else
    let s := s.settle q t v.way (if v.next = 1 || e.state = 1 then { e with state := 1 } else {})
    (s.finish r st).sweep q

/-- One line step of a contribution is done; with the last one its request ends, with the first status other than OK (R224). -/
def State.stepDone (s : State) (k : Nat) (st : Status) : State :=
  match s.splits.find? (·.id = k) with
  | none => s
  | some v =>
    let v' : Split := { v with left := v.left - 1, st := if v.st = stOk then st else v.st }
    if v'.left = 0 then ({ s with splits := s.splits.filter (·.id ≠ k) }).finish v.req v'.st
    else { s with splits := s.splits.map fun x => if x.id = k then v' else x }

/-- A request that has been at the DRAM, or could not go there, ends. -/
def State.endReq (s : State) (r : Req) (st : Status) (data : Line := 0) (old : Nat := 0) : State :=
  match r.txn, r.split with
  | some (q, t), _ => s.fetched q t r st data
  | none, some k => s.stepDone k st
  | none, none => s.finish r st data old

/-- Whether a request came from another member of the group (R61, R65). (DESIGN CHOICE: log entry 27) -/
def State.byPeer (s : State) (r : Req) : Bool := r.org == .fab && s.fromPeer r.pkt (s.ext r.ext)

/-- A write or atomic of a protected extent that this member has committed ends, when other members must commit it too after they have
(R61, R63). -/
def State.endFwd (s : State) (r : Req) (was new : Line) (data : Line := 0) (old : Nat := 0) : State :=
  match s.forwardTo r with
  | [] => s.endReq r stOk data old
  | l => s.forward r l was new data old

/-- The requests that wait for no other member any more end; one that the other member could not serve either has lost its last copy (R65). -/
def State.forwarded (s : State) : State :=
  s.each (s.fwds.filter (·.fwds.isEmpty)) fun s w =>
    let s := { s with fwds := s.fwds.erase w }
    (if w.whole && w.st = stUncorrectable then s.dataLost w.req.ext 1 w.req.pkt.offset.toNat else s).endReq w.req w.st w.data w.old

/-- What is on its way to a member that is declared lost is waited for no longer (R65). -/
def State.forwardNot (s : State) (m : Nat) : State :=
  let dead := s.fwds.flatMap fun w => (w.fwds.filter (·.member = m)).map (·.rtag)
  { s with fwds := s.fwds.map fun w => { w with fwds := w.fwds.filter (·.member ≠ m) }
           origs := s.origs.filter fun o => !(o.kind != OrigKind.sched && dead.contains o.rtag) : State }.forwarded

/-- A request goes to the DRAM of its line. On a failed channel or stack it completes with UNCORRECTABLE, or, in a protected extent, the mirror
or parity member serves it; when that cannot be, its last copy is lost, unless another member sent it, which then knows (R65, R387, R390).
(DESIGN CHOICE: log entries 9, 28) -/
def State.toDram (s : State) (r : Req) : State :=
  if s.lineFailed r.line then
    let x := s.ext r.ext
    match s.standby x r.pkt.offset.toNat with
    | some m => s.forwardWhole r m
    | none => (if (x.mirror || x.parity) && !s.byPeer r then s.dataLost r.ext 1 r.pkt.offset.toNat else s).endReq r stUncorrectable
  else s.enqueue r


/-- Returned data of a line written to DRAM ahead of what follows on the line (R116): a full-line write that completes to nobody,
in the flow of the partition of the transaction. (DESIGN CHOICE: log entry 30) -/
def State.writeBack (s : State) (a : Nat) (cid : Cid) (d : Line) : State :=
  let (idx, off) := s.nameLine a
  let x := s.ext idx
  let gen := if x.state = 2 then x.gen - 1 else x.gen
  s.toDram { pkt := { cid := cid, opc := oWrLine, offset := BitVec.ofNat 40 off, data := d
                      xh := BitVec.ofNat 24 (idx + gen.toNat * 2 ^ 18) }
             org := .crit, ext := idx, line := a, act := .write d, flow := 3 + cidPart cid }

/-! ### Serving a request on a line with no open transaction (R116) -/

/-- What a request finds that cannot be served now: the BACKOFF of its RETRY. -/
abbrev Served := Except (BitVec 4) State

/-- A grantable request waits for its line's data (kind `fetch` of GRANT_WAIT). -/
def State.fetch (s : State) (q t w : Nat) (r : Req) (next : BitVec 3) : State :=
  (s.openTxn q t w { kind := .fetch, eid := r.pkt.src, cid := r.pkt.cid, req := r, next := next, opc := r.pkt.opc }).toDram
    { r with act := .read, cost := 128, txn := some (q, t) }

/-- A request done directly at the DRAM, with no entry (row I of R116). -/
def State.direct (s : State) (r : Req) : State :=
  if r.pkt.opc = oReclaim then s.toDram { r with act := .reclaim, cost := 256 }
  else s.toDram { r with act := (directAct r.pkt).1, cost := (directAct r.pkt).2 }

/-- Whether a request is granted a copy of its line. -/
def Req.grants (r : Req) : Bool := isCaching r.pkt.opc || r.atReq

/-- The state that a grant from I gives (R116). -/
def Req.nextI (r : Req) : BitVec 3 := if r.pkt.opc = oRdShared then 2 else 3

/-- A way for a line (R124): the lowest-numbered FREE way is taken; a victim without a holder that can answer is freed and taken; for
any other victim BINV goes to its holders and the request parks on the victim's transaction. The way counts as allocated, and the tree is touched,
when its line has been read and its grant is sent: a read that fails allocates no entry (R384). (DESIGN CHOICE: log entry 30) -/
def State.allocate (s0 : State) (q : Nat) (r : Req) : Served :=
  let base := setOf r.line * 16
  let s := s0.each (List.range 16) fun s i => s.meetScan q (base + i)
  let x := s.slice q
  let take := fun (s : State) (w : Nat) (t : Nat) =>
    (s.setWay q w { tag := tagOf r.line, sharers := slotsWord [r.pkt.src] }).fetch q t w r r.nextI
  match x.freeTxn with
  | none => .error 4
  | some t =>
    match (List.range 16).find? fun i => (x.way (base + i)).state = 0 && !(x.way (base + i)).opn with
    | some i => .ok (take s (base + i) t)
    | none =>
      match plruVictim (tget 0 x.lru (setOf r.line)) fun i => !(x.way (base + i)).opn && (x.way (base + i)).state ≠ 4 with
      | none => .error 4
      | some i =>
        let w := base + i
        let dst := (s.holders (x.way w)).filter fun e => !s.gone e
        let s := s.bump (sliceBlk q) 4
        if dst.isEmpty then .ok (take (s.freeWay q w) w t)
        else
          .ok ((s.openTxn q t w { kind := .evictWait, cid := r.pkt.cid, req := r, await := dst, opc := oBinv
                                  parked := some r }).snoop q t oBinv (x.lineOfWay w) none r.pkt.cid r.pkt.tc dst)

/-- A request on a line in I. -/
def State.serveI (s : State) (q : Nat) (r : Req) : Served :=
  if r.grants then s.allocate q r
  else if r.pkt.opc = oWbDirty then .ok (s.finish r stDenied)
  else if r.pkt.opc = oEvictClean then .ok (s.finish r stOk)
  else .ok (s.direct r)

/-- Whether an entry in S may still list an EID (R105). -/
def DirEntry.mayHold (e : DirEntry) (x : Eid) : Bool :=
  e.state = 1 && (if e.fmt then e.sharers.getLsbD (x.toNat / 64) else e.slots.contains x)

/-- An entry in S that no EID but one may hold any more: a coarse entry keeps the EID's group, since it returns to the exact form only when it is
freed (R105). -/
def DirEntry.only (e : DirEntry) (x : Eid) : DirEntry :=
  if e.fmt then { e with sharers := 1 <<< (x.toNat / 64) } else { e with sharers := slotsWord [x] }

/-- Every holder that had to be invalidated is gone: the grant's line is read, the entry staying in S while the grantee may hold a copy, or the
write or atomic is done and the entry freed. -/
def State.invalidated (s : State) (q t w : Nat) (r : Req) : State :=
  if r.grants then
    let e := (s.slice q).way w
    (s.setWay q w (if e.mayHold r.pkt.src then { e.only r.pkt.src with state := 1 }
      else { e with state := 0, fmt := false, sharers := slotsWord [r.pkt.src] })).fetch q t w r 3
  else (((s.dropTxn q t).freeWay q w).direct r).sweep q

/-- A request that invalidates holders (R115): SNP_INV to the targets that can answer, or on at once when there is none. -/
def State.serveInv (s : State) (q w : Nat) (r : Req) : Served :=
  let x := s.slice q
  let e := x.way w
  let targets := (s.holders e).filter fun h => !(r.grants && h == r.pkt.src)
  let live := targets.filter fun h => !s.gone h
  let listed := !e.fmt && e.slots.contains r.pkt.src
  match x.freeTxn with
  | none => if live.isEmpty && !r.grants then .ok ((s.freeWay q w).direct r) else .error 4
  | some t =>
    if !live.isEmpty then
      .ok ((s.openTxn q t w { kind := .invWait, eid := r.pkt.src, cid := r.pkt.cid, req := r, await := live, opc := oSnpInv
                              next := 3 }).snoop q t oSnpInv r.line (some r) r.pkt.cid r.pkt.tc live)
    else if r.pkt.opc = oUpgrade && listed && targets.isEmpty then
      .ok ((s.openTxn q t w { kind := .grantWait, eid := r.pkt.src, cid := r.pkt.cid, req := r, opc := r.pkt.opc }).grant
        q t r 3 true 0)
    else .ok (s.invalidated q t w r)

/-- A request on a line in S, E or M that its own rows of R116 serve. -/
def State.serveHeld (s : State) (q w : Nat) (r : Req) : Served :=
  let x := s.slice q
  let e := x.way w
  let o := r.pkt.opc
  let owned := e.state = 2 || e.state = 3
  if owned && e.owner = r.pkt.src then
    if o = oWbDirty then .ok (((s.freeWay q w).toDram { r with act := .write r.pkt.data, cost := 128 }))
    else if o = oEvictClean then .ok ((s.freeWay q w).finish r stOk)
    else (s.freeWay q w).serveI q r
  else if o = oWbDirty then .ok (s.finish r stDenied)
  else if o = oReclaim then .ok (s.finish r stOk)
  else if o = oEvictClean then
    let e' := e.drop r.pkt.src
    .ok ((if owned || e.fmt then s else s.setWay q w (if e'.sharers = noSharers then {} else e')).finish r stOk)
  else if o = oRdOnce && !owned then .ok (s.direct r)
  else if o = oRdShared || o = oRdOnce then
    match x.freeTxn with
    | none => .error 4
    | some t =>
      if !owned then .ok (s.fetch q t w r 1)
      else if s.gone e.owner then .ok (s.finish r stHostLost)
      else .ok ((s.openTxn q t w { kind := .shareWait, eid := r.pkt.src, cid := r.pkt.cid, req := r, await := [e.owner]
                                   opc := oSnpShare, next := 1 }).snoop q t oSnpShare r.line (some r) r.pkt.cid r.pkt.tc [e.owner])
  else s.serveInv q w r

/-- A request on a line whose entry is ORPHANED (R119, R134). For EVICT_CLEAN the spec's table has no row: it completes OK and changes nothing, as
one from no owner does on a line in E or M. (DESIGN CHOICE: log entry 30) -/
def State.serveOrphan (s : State) (r : Req) : Served :=
  if r.pkt.opc = oWrLine || r.pkt.opc = oReclaim then .error 5
  else if r.pkt.opc = oWbDirty then .ok (s.finish r stDenied)
  else if r.pkt.opc = oEvictClean then .ok (s.finish r stOk)
  else .ok (s.finish r stHostLost)

/-- A request on a line with no open transaction. -/
def State.serve (s : State) (q : Nat) (r : Req) : Served :=
  match (s.slice q).find r.line with
  | none => s.serveI q r
  | some w => if ((s.slice q).way w).state = 4 then s.serveOrphan r else s.serveHeld q w r

/-! ### NACKs and reservations (R119 to R123) -/

/-- Whether a reservation is that of a request's (EID, CID, opcode). -/
def Resv.is (v : Resv) (r : Req) : Bool := v.line == r.line && v.eid == r.pkt.src && v.cid == r.pkt.cid && v.opc == r.pkt.opc

/-- The reservations without one, the 50 µs of the line's next one starting now (R123). -/
def resvDrop (l : List Resv) (now : Nat) (p : Resv → Bool) : List Resv :=
  match l.find? p with
  | none => l
  | some v =>
    let wasHead := (l.find? (·.line = v.line)).any p
    let l := l.filter fun x => !p x
    if wasHead then
      match l.findIdx? (·.line = v.line) with
      | some i => l.mapIdx fun j x => if j = i then { x with since := now } else x
      | none => l
    else l

/-- A RETRY of the slice, which COH_NACK counts unless the request completes with ABORTED in its place (R144), with the reservation that ATTEMPT 7
or more makes (R122, R123). A request that holds its reservation already is answered
as such before the table is looked at, so that COH_RESV_FULL does not count it: the spec does not say which of the two comes first.
(DESIGN CHOICE: log entry 30) -/
def State.dirNack (s : State) (q : Nat) (r : Req) (bo : BitVec 4) : State :=
  let x := s.slice q
  let s := if s.reqAborted r then s else s.bump (sliceBlk q) 0
  if r.pkt.ctl.toNat < 7 then s.nack r bo false
  else if x.resv.any (·.is r) then
    let head := (x.resv.find? (·.line = r.line)).any (·.is r)
    (s.modSlice q fun x => { x with resv := x.resv.map fun v => if head && v.is r then { v with since := s.now } else v }).nack
      r bo true
  else if 4096 ≤ x.resv.length then (s.bump (sliceBlk q) 3).nack r 6 false
  else if 8 ≤ (x.resv.filter (·.eid = r.pkt.src)).length then s.nack r bo false
  else
    (s.modSlice q fun x => { x with resv := x.resv ++ [{ line := r.line, xh := r.pkt.xh, offset := r.pkt.offset, eid := r.pkt.src, cid := r.pkt.cid, opc := r.pkt.opc
                                                         since := s.now }] }).nack r bo true

/-- Whether a reservation was made for what a request names, wherever the extent's granules lie now (R142). -/
def Resv.named (v : Resv) (r : Req) : Bool :=
  v.xh == r.pkt.xh && v.offset == r.pkt.offset && v.eid == r.pkt.src && v.cid == r.pkt.cid && v.opc == r.pkt.opc

/-- A request that failed a memory-stage check frees its reservation (R123), whichever slice holds it (R142). (DESIGN CHOICE: log entry 30) -/
def State.dropResv (s : State) (r : Req) : State :=
  s.each [0, 1, 2, 3] fun s q => s.modSlice q fun x => { x with resv := resvDrop x.resv s.now (·.named r) }

/-- A reservation that is served leaves its line (R122). (DESIGN CHOICE: log entry 30) -/
def State.takeResv (s : State) (q : Nat) (r : Req) : State :=
  s.modSlice q fun x => { x with resv := resvDrop x.resv s.now (·.is r) }

/-- The BACKOFF of a RETRY for an open transaction on a line, when there is one (R120). -/
def State.openBackoff (s : State) (q a : Nat) : Option (BitVec 4) :=
  let x := s.slice q
  (x.find a).bind fun w =>
    let e := x.way w
    let k := (x.txn e.txn.toNat).kind
    if e.opn then some (if k = .fetch || k = .grantWait then 3 else 5) else none

/-- The parked request of an eviction that has ended proceeds as on I, or on what its line has become meanwhile (R116, R119). Where another
requester has reserved the line meanwhile, R116 lets the parked request proceed and R122 NACKs every other request: it is served, having come
before the reservation. (DESIGN CHOICE: log entry 30) -/
def State.serveParked (s0 : State) (q : Nat) (r : Req) : State :=
  let s := s0.meetLine q r.line
  match s.openBackoff q r.line with
  | some bo => s.dirNack q r bo
  | none => match s.serve q r with
    | .ok s => s
    | .error bo => s.dirNack q r bo

/-! ### The request at its slice -/

/-- The predictor's index of a line (R127). -/
def predIdx (a : Nat) : Nat := Nat.xor (Nat.xor (bitsOf a 0 12) (bitsOf a 12 12)) (bitsOf a 24 9)

/-- An ATOMIC of an agent reads the predictor, which is then updated; whether it is placed at the requester (R127, R128). -/
def State.predict (s : State) (q : Nat) (r : Req) : Bool × State :=
  let x := s.slice q
  let h := predIdx r.line
  let c := tget 0 x.pred h
  let busy := x.resv.any (·.line = r.line) || match x.find r.line with
    | none => false
    | some w => (x.way w).opn || (s.holders (x.way w)).any (· ≠ r.pkt.src)
  let c' := if busy then (if c = 3 then 3 else c + 1) else if c = 0 then 0 else c - 1
  (s.pred = 2 || (s.pred ≠ 1 && decide (c.toNat < 2)), s.modSlice q fun x => { x with pred := tput 0 x.pred h c' })

/-- The recorded owner of an open line (R116, R118): the owner before the transaction, or the grantee of E or M. -/
def Txn.owner (v : Txn) (e : DirEntry) : Option Eid :=
  match v.kind with
  | .fetch | .grantWait => if v.next = 1 then none else some v.eid
  | .invWait => if v.after then (if v.next = 1 then none else some v.eid)
                else if e.state = 2 || e.state = 3 then some e.owner else none
  | .shareWait | .evictWait => if e.state = 2 || e.state = 3 then some e.owner else none
  | .free => none

/-! ### The last answer of a transaction (R116) -/

/-- A transaction whose answers have all come settles; the parked request of an eviction is served as on I. A requester whose partition has been
aborted keeps the S copy that it may hold tracked (R140). (DESIGN CHOICE: log entry 30) -/
def State.settleTxn (s : State) (q t : Nat) : State :=
  let v := (s.slice q).txn t
  let w := v.way
  let e := (s.slice q).way w
  let r := v.req
  if !v.await.isEmpty then s
  else match v.kind with
  | .shareWait =>
    let e' : DirEntry := { e with state := 1, fmt := false, sharers := slotsWord [e.owner] }
    if v.aborted then (s.settle q t w e').sweep q
    else if r.pkt.opc = oRdShared then ((s.dropTxn q t).setWay q w { e' with state := e.state, opn := false }).fetch q t w r 1
    else ((s.settle q t w e').direct r).sweep q
  | .invWait =>
    if v.after then ((s.dropTxn q t).freeWay q w).sweep q
    else if v.aborted then
      (s.settle q t w (if r.grants && e.mayHold r.pkt.src then e.only r.pkt.src else {})).sweep q
    else s.invalidated q t w r
  | .evictWait =>
    let s := (s.dropTxn q t).freeWay q w
    match v.parked with
    | none => s.sweep q
    | some r => (s.serveParked q r).sweep q
  | _ => s

/-- The WB_DIRTY of the recorded owner of an open line (R116): its data is written and its answer, if it has come, counts. -/
def State.wbOpen (s : State) (q t : Nat) (r : Req) : State :=
  let s := s.toDram { r with act := .write r.pkt.data, cost := 128 }
  let v := (s.slice q).txn t
  if v.wbWait.contains r.pkt.src then
    (s.setTxn q t { v with await := v.await.filter (· ≠ r.pkt.src), wbWait := v.wbWait.filter (· ≠ r.pkt.src) }).settleTxn q t
  else s.setTxn q t { v with wbDone := r.pkt.src :: v.wbDone }

/-- A coherent request at its home slice, after the memory stage's checks (R109, R116 to R129). -/
def State.dirRequest (s : State) (r0 : Req) : State :=
  let q := lineQuad r0.line
  if isCaching r0.pkt.opc && !s.isAgent r0.pkt.src then s.finish r0 stDenied
  else
    let (atReq, s) := if r0.org = .fab && r0.pkt.opc = oAtomic && s.isAgent r0.pkt.src then s.predict q r0 else (false, s)
    let r := { r0 with atReq := atReq }
    let s := s.meetLine q r.line
    let x := s.slice q
    let opn := (x.find r.line).bind fun w => if (x.way w).opn then some (x.way w) else none
    match opn with
    | some e =>
      let t := e.txn.toNat
      let v := x.txn t
      if r.pkt.opc = oWbDirty then (if v.owner e = some r.pkt.src then s.wbOpen q t r else s.finish r stDenied)
      else s.dirNack q r ((s.openBackoff q r.line).getD 5)
    | none =>
      let head := x.resv.find? (·.line = r.line)
      let mine := head.any (·.is r) && decide (7 ≤ r.pkt.ctl.toNat)
      if head.isSome && !mine && r.pkt.opc ≠ oWbDirty && r.pkt.opc ≠ oEvictClean then s.dirNack q r 5
      else match s.serve q r with
      | .error bo => s.dirNack q r bo
      | .ok s => if mine then (s.bump (sliceBlk q) 1).takeResv q r else s

/-! ### Answers -/

/-- A snoop answer (R116, R553): one that matches no awaited answer is discarded; data is written unless the extent is being revoked;
WB_PENDING of the owner counts only with its WB_DIRTY. Where the WB_DIRTY of an owner that a BINV_DISCARD asked fails the memory stage's checks
(the extent is revoked), the spec does not say whether it has arrived: the answer then counts at the pair timeout. (DESIGN CHOICE: log entry 30) -/
def State.snoopAnswer (s : State) (p : Packet) (data : Option Line) : State :=
  let q := tagSlice p.tag
  let t := tagTxn p.tag
  let v := (s.slice q).txn t
  let e := (s.slice q).way v.way
  if !v.await.contains p.src || v.wbWait.contains p.src then s
  else if p.wbPending && data.isNone && v.owner e = some p.src && !v.wbDone.contains p.src then
    s.setTxn q t { v with wbWait := p.src :: v.wbWait }
  else
    let s := match data with
      | some d => if v.discard then s else s.writeBack v.line v.cid d
      | none => s
    (s.modSlice q fun x => { x with txns := tmod {} x.txns t fun v => { v with await := v.await.filter (· ≠ p.src) } }).settleTxn q t

/-- A GRANT_ACK (R116, R553): from the grantee of an open grant it closes the transaction. -/
def State.grantAcked (s : State) (p : Packet) : State :=
  let q := tagSlice p.tag
  let t := tagTxn p.tag
  let v := (s.slice q).txn t
  if v.kind = .grantWait && v.eid = p.src then
    (s.settle q t v.way { (s.slice q).way v.way with state := v.next }).sweep q
  else s

/-! ### Silence, host loss and abort -/

/-- COH_AGENT_SILENT (R496): the EID, the opcode of the unanswered message and the line, of the partition that owns the extent. -/
def State.logSilent (s : State) (q : Nat) (opc : Byte) (a : Nat) (e : Eid) : State :=
  let p := (s.ext (s.nameLine a).1).owner.toNat
  (s.bump (sliceBlk q) 6).logErr
    (errRec 0x20 0 (some p) (0x6000 + q) (packBytes [(0, 2, e.toNat), (2, 1, opc.toNat), (8, 5, a * 128)]))

/-- A transaction that has waited for the pair timeout (R116): a grantee that has not acknowledged is sent SNP_INV; any other silent
target counts as answered and is logged. Timers of transactions that await the host stand still while Qoreus retrains (R363).
(DESIGN CHOICE: log entry 30) -/
def State.txnTimeout (s : State) (q t : Nat) : State :=
  let v := (s.slice q).txn t
  let retrain := match s.qor.retrainAt with | some _ => true | none => false
  let host := v.await.contains hostEid || (v.kind == .grantWait && v.eid == hostEid)
  if s.now < v.since + s.pt || (retrain && host) then s
  else match v.kind with
  | .grantWait =>
    let s := s.setTxn q t { v with kind := .invWait, after := true, await := [v.eid], opc := oSnpInv, since := s.now }
    s.snoop q t oSnpInv v.line (some v.req) v.cid v.req.pkt.tc [v.eid]
  | .shareWait | .invWait | .evictWait =>
    ((s.each v.await fun s e => s.logSilent q v.opc v.line e).setTxn q t { v with await := [], wbWait := [] }).settleTxn q t
  | _ => s

/-- The entry of an open transaction without the host's exact slot in S (R133). -/
def State.hostSlotGone (s : State) (q t : Nat) : State :=
  let v := (s.slice q).txn t
  let e := (s.slice q).way v.way
  let shared := if v.kind = .fetch || v.kind = .grantWait then v.next = 1 else e.state = 1
  if v.kind ≠ .free && shared && !e.fmt then s.setWay q v.way (e.drop hostEid) else s

/-- The open transactions of a slice when Qoreus goes down (R133, R142): a line that the host owns, or is granted for writing, is
ORPHANED and the request waiting for it completes with HOST_LOST, unless its WB_DIRTY has committed, with which the line is I (R368); a GRANT_S to
the host closes; a grant to the host whose line is being read does not come; else the host counts as answered. -/
def State.hostGoneTxn (s0 : State) (q t : Nat) : State :=
  let s := s0.hostSlotGone q t
  let v := (s.slice q).txn t
  let e := (s.slice q).way v.way
  let orphan := { e with state := 4, opn := false, txn := 0, fmt := false, sharers := slotsWord [hostEid] }
  let held := (e.state = 2 || e.state = 3) && e.owner = hostEid
  let back := held && v.wbDone.contains hostEid
  let owned := held && !back
  let asI := fun (s : State) =>
    let s := (s.dropTxn q t).freeWay q v.way
    if v.aborted then s else s.serveParked q v.req
  match v.kind with
  | .grantWait =>
    if v.eid ≠ hostEid then s
    else if v.next = 1 then s.settle q t v.way { e with state := 1 }
    else (s.dropTxn q t).setWay q v.way orphan
  | .shareWait =>
    if owned then
      let s := (s.dropTxn q t).setWay q v.way orphan
      if v.aborted then s else s.finish v.req stHostLost
    else if back then asI s
    else s
  | .invWait =>
    if v.after && v.eid = hostEid && v.next ≠ 1 then (s.dropTxn q t).setWay q v.way orphan
    else if owned && !v.after then
      let s := (s.dropTxn q t).setWay q v.way orphan
      if v.aborted then s else s.finish v.req stHostLost
    else if back && !v.after then asI s
    else (s.setTxn q t { v with await := v.await.filter (· ≠ hostEid), wbWait := v.wbWait.filter (· ≠ hostEid) }).settleTxn q t
  | .evictWait =>
    if owned then
      let s := (s.dropTxn q t).setWay q v.way orphan
      match v.parked with
      | none => s
      | some r => s.serveParked q r
    else (s.setTxn q t { v with await := v.await.filter (· ≠ hostEid), wbWait := v.wbWait.filter (· ≠ hostEid) }).settleTxn q t
  | .fetch =>
    if v.eid ≠ hostEid then s
    else (s.setTxn q t { v with aborted := true }).setWay q v.way (if v.next = 1 then e else { e with sharers := noSharers })
  | .free => s

/-- The request that a released packet of a requester outside the Elder filter becomes at its memory stage. -/
def State.directReq (s : State) (h : Held) : Req :=
  let r : Req := { pkt := h.pkt, die := h.die, lim := h.lim, ext := pktExt h.pkt, line := s.locate h.pkt
                   home := some (lineStack (s.locate h.pkt)) }
  { r with flow := reqFlow r }

/-- A WB_DIRTY of the host that was accepted before Qoreus went down, and still waits on its way to a line that the host owns, commits (R368): it goes
ahead of what it waits for, because the line is not the host's any more afterwards. (DESIGN CHOICE: log entry 30) -/
def State.hostBack (s : State) (h : Held) : State :=
  let r := s.directReq h
  let q := lineQuad r.line
  let owned := match (s.slice q).find r.line with
    | some w => let e := (s.slice q).way w; (e.state == 2 || e.state == 3) && e.owner == hostEid
    | none => false
  if h.pkt.opc = oWbDirty && h.pkt.src = hostEid && owned && (s.msCheck h.pkt (some h.pkt.src) true).isNone && (s.ext r.ext).coherent then
    let s := { s with released := s.released.erase h, limHeld := s.limHeld.erase h, admHeld := s.admHeld.erase h }
    let s := if (s.part (cidPart h.pkt.cid)).conf then s.noteProt (cidPart h.pkt.cid) h.pkt else s
    let (r, s) := s.enter r
    s.dirRequest r
  else s

/-- Host loss at the directory (R109, R133): accepted write-backs of the host commit (R368), the AGENT bit of 0xFFE is cleared, ORPHAN_SCAN is set,
every slice scans; lines whose transaction ends so are back-invalidated where that is due (R138, R139). -/
def State.hostGone (s : State) : State :=
  let s := s.each (s.released ++ s.limHeld ++ s.admHeld) State.hostBack
  let s := { s.setAgent 0xFFE false with orphanScan := true }
  s.each [0, 1, 2, 3] fun s q =>
    ((s.modSlice q fun x => { x with scanning := true }).each ((s.slice q).txns.map (·.1)) fun s t => s.hostGoneTxn q t).sweep q

/-- What a slice knows of orphaned lines per extent, with one more: the count and the lowest offset (R135). -/
def orphanNote (l : Tbl (Nat × Nat)) (idx off : Nat) : Tbl (Nat × Nat) :=
  match l.find? (·.1 = idx) with
  | some (_, n, o) => tput (0, 0) l idx (min 4194304 (n + 1), min o off)
  | none => tput (0, 0) l idx (1, off)

/-- An entry as the scan reaches it: an ORPHANED line is written back with the orphan mark and freed (R134). -/
def State.scanWay (s : State) (q w : Nat) : State :=
  let s := s.meetScan q w
  let x := s.slice q
  if (x.way w).state = 4 then
    let a := x.lineOfWay w
    let (idx, off) := s.nameLine a
    ((s.markLine a .orphan).freeWay q w).modSlice q fun x => { x with orphans := orphanNote x.orphans idx off }
  else s

/-- The host-loss scan of a slice ends; with the last one ORPHAN_SCAN clears and one COH_HOST_LOST record per extent is formed.
(DESIGN CHOICE: log entry 30) -/
def State.scanDone (s : State) (q : Nat) : State :=
  if !(s.slice q).scanning then s
  else
    let s := ((s.each ((s.slice q).ways.map (·.1)) fun s w => s.scanWay q w).modSlice q fun x => { x with scanning := false }).sweepsDone
    if [0, 1, 2, 3].any fun q => (s.slice q).scanning then s
    else
      let all := [0, 1, 2, 3].foldl (fun (m : Tbl (Nat × Nat)) q => (s.slice q).orphans.foldl (fun m e =>
        match m.find? (·.1 = e.1) with
        | some (_, n, o) => tput (0, 0) m e.1 (min 4194304 (n + e.2.1), min o e.2.2)
        | none => tput (0, 0) m e.1 e.2) m) []
      let s := s.each [0, 1, 2, 3] fun s q => s.modSlice q fun x => { x with orphans := [] }
      { s with orphanScan := false }.each all fun s e =>
        let x := s.ext e.1
        s.extentFault x.owner.toNat 0x20 (e.1 + x.gen.toNat * 2 ^ 18) e.2.1 e.2.2

/-- The open transactions of an aborted partition (R125, R140): the waiting request completes with ABORTED, the transaction runs to
its end. -/
def State.abortTxns (s : State) (part : Nat) : State :=
  s.each [0, 1, 2, 3] fun s q => s.each ((s.slice q).txns.map (·.1)) fun s t =>
    let v := (s.slice q).txn t
    match v.kind with
    | .shareWait | .invWait =>
      if !v.after && !v.aborted && cidPart v.req.pkt.cid = part then
        (s.setTxn q t { v with aborted := true }).finish v.req stAborted
      else s
    | .evictWait =>
      match v.parked with
      | some r => if cidPart r.pkt.cid = part then (s.setTxn q t { v with parked := none }).finish r stAborted else s
      | none => s
    | _ => s

end Sys2Proof.Machine
end

