-- ==== Sys2Proof/Machine/Ofa.lean ====
section
/-! DEFINITION. The order-free accumulator word (R192 to R200). -/
namespace Sys2Proof

/-- An OFA word: special with its flags, or finite. -/
inductive Ofa where
  | special (flags : Nat)
  | word (anchor : Nat) (b2 b1 b0 : Int) (count : Nat)
  deriving DecidableEq, Repr

def fNan : Nat := 1
def fPinf : Nat := 2
def fNinf : Nat := 4
def fOvf : Nat := 8

/-- The empty word of an anchor. -/
def Ofa.empty (a : Nat) : Ofa := .word a 0 0 0 0

/-- The word that 128 bits hold; a malformed word is the special word NaN (R199). -/
def Ofa.ofBits (n : Nat) : Ofa :=
  let sx := fun (x : Nat) => intDec true 36 x
  let a := bitsOf n 121 7
  let c := bitsOf n 1 12
  let b2 := bitsOf n 85 36; let b1 := bitsOf n 49 36; let b0 := bitsOf n 13 36
  if n % 2 = 1 then .special fNan
  else if a = 0x7F then (if c = 0 && b1 = 0 && b0 = 0 && b2 < 16 then .special b2 else .special fNan)
  else if c = 0 && !(b2 = 0 && b1 = 0 && b0 = 0) then .special fNan
  else .word a (sx b2) (sx b1) (sx b0) c

/-- The bits of a word (R192, R194). A bin that well-formed words with unbalanced bins have carried beyond 36 bits is stored modulo 2^36; within one
operation it stays exact. The spec rules this out for balanced digits alone. (DESIGN CHOICE: log entry 92) -/
def Ofa.bits : Ofa → Nat
  | .special f => packBits [(85, 36, f), (121, 7, 0x7F)]
  | .word a b2 b1 b0 c => packBits [(1, 12, c), (13, 36, intCode 36 b0), (49, 36, intCode 36 b1), (85, 36, intCode 36 b2), (121, 7, a)]

/-- A balanced digit and its carry (R196). -/
def bal (x : Int) : Int × Int :=
  let d := x % 16777216
  let d := if d ≥ 8388608 then d - 16777216 else d
  (d, (x - d) / 16777216)

/-- fold (R196). -/
def Ofa.fold : Ofa → Ofa
  | .special f => .special f
  | .word a b2 b1 b0 _ =>
    let (d0, k0) := bal b0
    let (d1, k1) := bal (b1 + k0)
    let t2 := b2 + k1
    if t2 < -34359738368 || t2 ≥ 34359738368 then .special fOvf
    else .word a t2 d1 d0 (if d0 = 0 && d1 = 0 && t2 = 0 then 0 else 1)

/-- A word as a target of an anchor takes it: a finite word of another anchor is the special word NaN (R195 step 5). -/
def Ofa.at (x : Ofa) (anchor : Nat) : Ofa :=
  match x with
  | .word a _ _ _ _ => if a = anchor then x else .special fNan
  | x => x

/-- The flags of a word; those of a finite word are 0. -/
def Ofa.flags : Ofa → Nat
  | .special f => f
  | _ => 0

/-- Two finite words of one anchor added (R196). -/
def Ofa.addWords (anchor : Nat) (x y : Ofa) : Ofa :=
  match x, y with
  | .word _ a2 a1 a0 ac, .word _ b2 b1 b0 bc =>
    let t2 := a2 + b2
    if t2 < -34359738368 || t2 ≥ 34359738368 then .special fOvf else .word anchor t2 (a1 + b1) (a0 + b0) (ac + bc)
  | x, y => .special (Nat.lor x.flags y.flags)

/-- COUNT of a word. -/
def Ofa.count : Ofa → Nat
  | .word _ _ _ _ c => c
  | _ => 0

/-- merge into a target of an anchor (R196). Where a fold of a merge past COUNT 4,095 itself gives special(OVF), the flags are ORed and the result is
special: the pseudocode would go on to add bins of a special word. (DESIGN CHOICE: log entry 92) -/
def Ofa.merge (anchor : Nat) (x y : Ofa) : Ofa :=
  let a := x.at anchor
  let b := y.at anchor
  match a, b with
  | .word _ _ _ _ _, .word _ _ _ _ _ =>
    if a.count + b.count > 4095 then
      match a.fold, b.fold with
      | .word p q r s t, .word p' q' r' s' t' => Ofa.addWords anchor (.word p q r s t) (.word p' q' r' s' t')
      | a', b' => .special (Nat.lor a'.flags b'.flags)
    else Ofa.addWords anchor a b
  | a, b => .special (Nat.lor a.flags b.flags)

/-- L0 of an anchor (R192). -/
def ofaL0 (anchor : Nat) : Int := 2 * (anchor : Int) - 160

/-- contribution_word (R195). -/
def Ofa.contrib (anchor : Nat) (v : Val) : Ofa :=
  match v with
  | .nan => .special fNan
  | .inf neg => .special (if neg then fNinf else fPinf)
  | .fin neg m e =>
    let k := rne.toGrid neg m e (ofaL0 anchor)
    if k > 2 ^ 59 then .special fOvf
    else
      let n : Int := if neg then -(k : Int) else k
      let (d0, k0) := bal n
      let (d1, d2) := bal k0
      .word anchor d2 d1 d0 1

/-- absorb (R196). -/
def Ofa.absorb (anchor : Nat) (w : Ofa) (v : Val) : Ofa := w.merge anchor (.contrib anchor v)

/-- The exact value of a word, or how a special word reads out (R194): OVF reads as NaN does. -/
def Ofa.value : Ofa → Val
  | .special f =>
    if bitsOf f 0 1 = 1 || (bitsOf f 1 1 = 1 && bitsOf f 2 1 = 1) then .nan
    else if bitsOf f 1 1 = 1 then .inf false
    else if bitsOf f 2 1 = 1 then .inf true
    else .nan
  | .word a b2 b1 b0 _ =>
    let n := b2 * 281474976710656 + b1 * 16777216 + b0
    if n = 0 then .fin false 0 0 else .ofInt n (ofaL0 a)

/-- Whether a special word reads out as OVF. -/
def Ofa.isOvf : Ofa → Bool
  | .special f => f % 8 = 0
  | _ => false

/-- SAT does not apply to the readout of a special word (R194). -/
def Ofa.rnd (w : Ofa) (d : Rnd) : Rnd :=
  match w with
  | .special _ => { d with sat := false }
  | _ => d

/-- The sum of contributions of R223: a stored word, all zero being the empty word of the anchor (R222). -/
def Ofa.stored (anchor n : Nat) : Ofa := if n = 0 then .empty anchor else .ofBits n

end Sys2Proof
end

