-- ==== Sys2Proof/Machine/Combine.lean ====
section
/-! DEFINITION. Combining extents (R221 to R231): contributions on the DRAM path and to landing windows, reads of folded words, and
the release of a window. -/
namespace Sys2Proof.Machine

/-! ### Contributions (R223) -/

/-- The size in bytes of an element of a combine format. -/
def fmtSize (fmt : Nat) : Nat := match elemOf fmt with | some e => e.bits / 8 | none => 1

/-- The bytes of a line that a request writes: all of them, or those of the mask. -/
def contribMask (p : Packet) : BitVec 128 := if p.opc = oWrPartial then p.opnd else BitVec.allOnes 128

/-- Whether element k of size sz of a line is wholly masked out, and wholly in. -/
def elemOut (m : BitVec 128) (sz k : Nat) : Bool := (m.extractLsb' (k * sz) sz) == 0
def elemIn (m : BitVec 128) (sz k : Nat) : Bool := (m.extractLsb' (k * sz) sz) == BitVec.allOnes sz

/-- Whether a contribution meets R223: every element whole, and every element below offset E × s. -/
def contribOk (x : Ext) (fmt : Nat) (p : Packet) : Bool :=
  let sz := fmtSize fmt
  let m := contribMask p
  (List.range (128 / sz)).all fun k =>
    elemOut m sz k || (elemIn m sz k && decide (p.offset.toNat + (k + 1) * sz ≤ x.size.toNat * 131072 * sz))

/-- The elements that a contribution carries. -/
def contribCount (fmt : Nat) (p : Packet) : Nat :=
  ((List.range (128 / fmtSize fmt)).filter fun k => !elemOut (contribMask p) (fmtSize fmt) k).length

/-- One element of a contribution merged into a word of an anchor (R195). -/
def contribWord (anchor fmt : Nat) (w : Ofa) (bits : Nat) : Ofa :=
  match elemOf fmt with
  | some .ofa => w.merge anchor (.ofBits bits)
  | some e => w.absorb anchor (e.dec 127 bits)
  | none => w

/-- The eight words of a stored line, with the words of codewords that decode UE or POISON taken as NaN (R386). -/
def lineWords (anchor : Nat) (d : Line) (bad0 bad1 : Bool) : List Ofa :=
  (List.range 8).map fun j =>
    if (j < 4 && bad0) || (4 ≤ j && bad1) then .special fNan else .stored anchor (d.extractLsb' (128 * j) 128).toNat

/-- A line of eight words. -/
def wordsLine (l : List Ofa) : Line := BitVec.ofNat 1024 (packBytes (l.mapIdx fun j w => (16 * j, 16, w.bits)))

/-- One line step of a contribution (R224): elements lo to lo + 7 of the data merged into the line's words; words without a
contribution are written as they are. -/
def combStep (c : Comb) (old : Line) (bad0 bad1 : Bool) (m : BitVec 128) (d : Line) (lo : Nat) : Line :=
  let sz := fmtSize c.fmt.toNat
  let a := c.anchor.toNat
  wordsLine ((lineWords a old bad0 bad1).mapIdx fun j w =>
    let k := lo + j
    if k * sz < 128 && !elemOut m sz k then contribWord a c.fmt.toNat w (d.extractLsb' (8 * k * sz) (8 * sz)).toNat else w)

/-! ### Landing windows (R225, R227) -/

/-- The landing directory entry that holds a chunk of an extent: tile and window. -/
def State.landOf (s : State) (ext chunk : Nat) : Option (Nat × Nat) :=
  (s.lands.find? fun e => e.2.v && e.2.ext == ext && e.2.chunk == chunk).map fun e => (e.1 / 16, e.1 % 16)

/-- The chunk of an element and of a byte offset in the words of the extent (R222). -/
def chunkOfElem (e : Nat) : Nat := e / 16384
/-- A stored window word of a tile. -/
def Tile.winWord (t : Tile) (anchor win i : Nat) : Ofa := .stored anchor (tget 0 t.words (win * 16384 + i)).toNat
def Tile.setWord (t : Tile) (win i : Nat) (w : Ofa) : Tile :=
  { t with words := tput 0 t.words (win * 16384 + i) (BitVec.ofNat 128 w.bits) }
/-- A window's words emptied. -/
def Tile.clearWin (t : Tile) (win : Nat) : Tile :=
  { t with words := t.words.filter fun e => e.1 / 16384 ≠ win, consumed := tput 0 t.consumed win 0 }

/-- A contribution absorbed in a landing window of a tile. -/
def absorbIn (c : Comb) (anchor win : Nat) (p : Packet) (t : Tile) : Tile :=
  let sz := fmtSize c.fmt.toNat
  let i0 := p.offset.toNat / sz % 16384
  let m := contribMask p
  (List.range (128 / sz)).foldl (fun t k =>
    if elemOut m sz k then t
    else t.setWord win (i0 + k) (contribWord anchor c.fmt.toNat (t.winWord anchor win (i0 + k)) (p.data.extractLsb' (8 * k * sz) (8 * sz)).toNat)) t

/-- The words of line n (of 2,048) of a window. -/
def Tile.winLine (t : Tile) (anchor win n : Nat) : List Ofa := (List.range 8).map fun j => t.winWord anchor win (8 * n + j)

/-- Words merged one by one into an anchor. -/
def mergeWords (anchor : Nat) (a b : List Ofa) : List Ofa := List.zipWith (fun x y => x.merge anchor y) a b

/-! ### Requests (R223) -/

/-- The extent offsets of the lines of words that a contribution takes on the DRAM path: one line step for each eight words (R222, R224). -/
def stepOffs (fmt : Nat) (p : Packet) : List Nat :=
  let sz := fmtSize fmt
  (List.range (max 1 (16 / sz))).map fun k => (p.offset.toNat / sz + 8 * k) * 16

/-- The DRAM path of a contribution: its line steps one by one, its request completing with the last (R224); the stage of the words counts it
(R230). -/
def State.dramPath (s : State) (r : Req) (c : Comb) : State :=
  let x := s.ext r.ext
  let offs := stepOffs c.fmt.toNat r.pkt
  let id := s.nextSplit
  let v : Split := { id := id, left := offs.length, req := r }
  let s := { s with splits := s.splits ++ [v], nextSplit := id + 1 }
  let s := s.bump (stageBlk (lineQuad (s.extLine x (offs.headD 0)))) 0
  s.each offs.zipIdx fun s (off, k) =>
    s.toDram { r with org := .crit, counted := false, line := s.extLine x off, cost := 256, split := some id
                      pkt := { r.pkt with offset := BitVec.ofNat 40 off }
                      act := .contrib (contribMask r.pkt) r.pkt.data (8 * k) 8 }

/-- Whether the table of R223 lets a request of a COMBINE extent have an effect. -/
def State.combOk (s : State) (x : Ext) (p : Packet) : Bool :=
  let c := s.comb x.protRef.toNat
  c.valid && !c.clearing &&
    (if p.opc = oRdOnce then decide (p.offset.toNat % 16 = 0) && decide ((p.blen.toNat + 1) % 16 = 0)
     else (p.opc = oWrLine || p.opc = oWrPartial) && contribOk x c.fmt.toNat p)

/-- The landing window that takes a contribution now: its chunk is resident, and the window is neither being released nor closed for its
operation (R225, R228, R262). -/
def State.landing (s : State) (ext : Nat) (c : Comb) (p : Packet) : Option (Nat × Nat) :=
  match s.landOf ext (chunkOfElem (p.offset.toNat / fmtSize c.fmt.toNat)) with
  | some (t, w) => let l := s.land (16 * t + w); if l.draining || l.late then none else some (t, w)
  | none => none

/-- The lines for which a request needs an entry of an arbiter before it is released (R279): none where a landing window takes it. -/
def State.linesOf (s : State) (r : Req) : List Nat :=
  let x := s.ext r.ext
  let c := s.comb x.protRef.toNat
  if x.combine && (r.pkt.opc = oWrLine || r.pkt.opc = oWrPartial) then
    (if (s.landing r.ext c r.pkt).isSome then [] else (stepOffs c.fmt.toNat r.pkt).map (s.extLine x))
  else [r.line]

/-- Whether the arbiters have room for every entry that a request needs (R279). -/
def State.roomFor (s : State) (r : Req) : Bool :=
  let l := s.linesOf r
  l.all fun a => (s.stack (lineStack a)).room r.flow (l.filter fun b => lineStack b = lineStack a).length

/-- The stack whose MEM_ADMIT_STALL counts a request that must wait (R279). -/
def State.stallAt (s : State) (r : Req) : Nat := lineStack ((s.linesOf r).headD r.line)

/-- SCHED_LATE counts the elements of a contribution that comes after the START of the operation that reads its window (R262). -/
def State.lateCount (s : State) (ext : Nat) (c : Comb) (p : Packet) : State :=
  match s.landOf ext (chunkOfElem (p.offset.toNat / fmtSize c.fmt.toNat)) with
  | some (t, w) =>
    let l := s.land (16 * t + w)
    if l.late && !l.draining then s.bumpBy (tileBlk t + 8 + 8 * 12) (contribCount c.fmt.toNat p) else s
  | none => s

/-- A request of a COMBINE extent that has passed every check (R223). (DESIGN CHOICE: log entry 51) -/
def State.combine (s : State) (r : Req) : State :=
  let x := s.ext r.ext
  let c := s.comb x.protRef.toNat
  let p := r.pkt
  if !s.combOk x p then s.finish r stDenied
  else if p.opc = oRdOnce then s.toDram { r with act := .combRead, cost := 128 }
  else match s.landing r.ext c p with
    | some (t, w) => s.modTile t fun x => { x with lands := x.lands ++ [{ win := w, req := r }] }
    | none => (s.lateCount r.ext c p).dramPath r c

/-! ### Release (R228) -/

/-- The request of the next release step of a window, when contributions routed to it have been absorbed. A line on a failed channel
takes no part (R390). (DESIGN CHOICE: log entry 51) -/
def State.mergeNext (s : State) (t w : Nat) : State :=
  let l := s.land (16 * t + w)
  let n := tget 0 (s.tile t).consumed w
  if l.v && l.draining && n < 2048 && !((s.tile t).lands.any (·.win = w)) then
    let x := s.ext l.ext
    let off := fun (k : Nat) => l.chunk * 262144 + k * 128
    let upTo := fun (k : Nat) => s.modTile t fun y => { y with consumed := tput 0 y.consumed w k }
    match ((List.range (2048 - n)).map (n + ·)).find? fun k => !s.lineFailed (s.extLine x (off k)) with
    | none => upTo 2048
    | some k =>
      (upTo k).toDram { pkt := { cid := BitVec.ofNat 16 (x.owner.toNat * 1024), xh := BitVec.ofNat 24 (l.ext + x.gen.toNat * 2 ^ 18), offset := BitVec.ofNat 40 (off k), opc := oWrLine }
                        org := .crit, ext := l.ext, line := s.extLine x (off k), act := .merge t w, flow := 3 + x.owner.toNat
                        cost := 256 }
  else s

/-- A window's release begins (R228 step 1). (DESIGN CHOICE: log entry 51) -/
def State.releaseWin (s : State) (t w : Nat) : State :=
  let l := s.land (16 * t + w)
  if l.v && !l.draining then (s.setLand (16 * t + w) { l with draining := true }).mergeNext t w else s

/-- Whether the running image reserves a window. -/
def State.winReserved (s : State) (t w : Nat) : Bool := s.sched.running.isSome && (s.tile t).armed.resv.getLsbD w

/-- A window given up (R54 step 3, R228 step 4): FREE, or SCHED when the armed image reserves it; its entry is cleared, RESIDENT falls, and
contributions still queued for it end with OK. (DESIGN CHOICE: log entry 51) -/
def State.dropWin (s : State) (t w : Nat) : State :=
  let l := s.land (16 * t + w)
  let q := (s.tile t).lands.filter (·.win = w)
  let s := s.setLand (16 * t + w) (if l.sched then { l with v := false, draining := false, ext := 0, chunk := 0 } else { due := l.due })
  let s := s.modComb (s.ext l.ext).protRef.toNat fun c => { c with resident := c.resident - 1 }
  let s := s.modTile t fun y => { y.clearWin w with
    wins := tput .free y.wins w (if s.winReserved t w then .sched else .free), lands := y.lands.filter (·.win ≠ w) }
  (s.each q fun s x => s.finish x.req stOk).wake (.window t w)

/-- A contribution absorbed by the window of a tile that it was routed to, and reported (R225, R228): CMB_LANDING_CONTRIB counts it, its request
ends, and a window that is being released goes on when nothing is queued for it. -/
def State.absorbOne (s : State) (n w : Nat) (r : Req) : State :=
  let c := s.comb (s.ext r.ext).protRef.toNat
  let s := s.modTile n fun t => absorbIn c (s.land (16 * n + w)).anchor.toNat w r.pkt t
  ((s.bump (tileBlk n) 8).finish r stOk).mergeNext n w

/-- LANDING_ABSORB (R225, R228): the tile absorbs the contribution queued first and reports it. -/
def execLandingAbsorb (tile : Fin 32) (s : State) : Host.Outcome State Fault Refusal :=
  match (s.tile tile.val).lands with
  | [] => .next s
  | ⟨w, r⟩ :: rest => .next ((s.modTile tile.val fun t => { t with lands := rest }).absorbOne tile.val w r)

end Sys2Proof.Machine
end

