-- ==== Sys2Proof/Machine/LinkOps.lean ====
section
/-! DEFINITION. Shared operations of the ports (chapters 09, 10, 12): output queues (R273), gates and windows (R255), replay (R299,
R302), credits and acknowledgement (R306), retrain (R307, R308) and link-down (R310 to R312, R329, R365), with the keeper's entry
into holdover (R239). -/
namespace Sys2Proof

/-- The message class of a packet among credits: 0 REQ, 1 RSP, 2 SNP (R353). -/
def Packet.cls (p : Packet) : Nat := if p.snp then 2 else if p.vc then 1 else 0
/-- The credit returns in the header of a flit at a port (R292, R353). -/
def Flit.returns (f : Flit) (p : Nat) : List (Nat × BitVec 16) := [(0, f.crr), (1, f.crs)] ++ if p = 16 then [(2, f.crn)] else []
/-- The code of a retrain trigger (R318). -/
def RetrainCause.code : RetrainCause → BitVec 4
  | .lock => 1 | .uncorr => 2 | .ber => 3 | .nak => 4 | .protocol => 5 | .peer => 6

end Sys2Proof

namespace Sys2Proof.Machine

/-! ### Output queues (R273) -/

/-- The queue of a class of a port: 0 to 7 the traffic classes, 8 the DRAIN packet that goes ahead of every queued frame (R332). -/
def Port.queue (x : Port) (t : Nat) : List QPkt := tget [] x.queues t
def Port.setQueue (x : Port) (t : Nat) (l : List QPkt) : Port := { x with queues := tput [] x.queues t l }
/-- The flits that a queued packet takes. -/
def QPkt.flits (q : QPkt) : Nat := flitsOf q.pkt.len.toNat
/-- The flits that a queue holds. -/
def Port.occ (x : Port) (t : Nat) : Nat := ((x.queue t).map QPkt.flits).sum
/-- Whether a queue can take n more flits: TC0 to TC6 share 1,024 of which 64 are reserved for each, TC7 holds 256 (R273). -/
def Port.room (x : Port) (t n : Nat) : Bool :=
  if t = 7 then decide (x.occ 7 + n ≤ 256)
  else decide (((List.range 7).map fun i => x.occ i + (if i = t then n else 0) - 64).sum ≤ 576)

/-- Whether the spill region holds flits, and how many wait to be written to it (R302, R318). -/
def Port.spilling (x : Port) : Bool := x.store.any (·.written)
def Port.backlog (x : Port) : Nat := (x.store.filter fun f => f.spill && !f.written).length

/-- CRED of a class. -/
def Port.credits (x : Port) (c : Nat) : Nat := tget 0 x.cred c

/-- Whether no frame can start because of the window of 32,767 flits (R301): it is full, or no queued frame fits into it. -/
def Port.windowShut (x : Port) : Bool :=
  let heads := x.queues.filterMap fun q => q.2.head?
  decide (32767 ≤ x.store.length) || (!heads.isEmpty && heads.all fun q => decide (32767 < x.store.length + q.flits))

/-- Whether a port is busy to the router for a packet in a class's queue: queue, window, spill backlog or credits (R305, R334). -/
def Port.busy (x : Port) (t : Nat) (p : Packet) : Bool :=
  !(x.room t (flitsOf p.len.toNat)) || x.windowShut || decide (64 < x.backlog)
    || decide (x.credits p.cls < flitsOf p.len.toNat)

/-- W_t of PORT_TCW (R275). -/
def Port.tcWeight (x : Port) (t : Nat) : Nat := (x.tcw.extractLsb' (8 * t) 8).toNat
/-- The WFQ charge of a frame in its class (R277). -/
def Port.charge (x : Port) (t n : Nat) : Nat := n * 256 * recip (max 1 (x.tcWeight t))

/-- A packet joins a queue of a port: tags of R277, and a listening port returns to full operation (R524). -/
def State.queueOn (s : State) (p t : Nat) (pkt : Packet) (demoted : Bool) (inp : Option (Fin 4) := none) : State :=
  s.modPort p fun x =>
    let q : QPkt := { pkt := pkt, at_ := s.now, demoted := demoted, inWin := t == 7 && x.gateOpen.getLsbD 7, inp := inp }
    let x' := { (x.setQueue t (x.queue t ++ [q])) with listening := false }
    if t < 7 && 1 ≤ x.tcWeight t && (x.queue t).isEmpty then
      { x' with tags := tput {} x.tags t ((tget {} x.tags t).arrive x.vtime (x.charge t q.flits)) }
    else x'

/-! ### Gates (R244, R255) -/

/-- The Crocus list that a port runs: that of the running image, none in the no-image state or when the port is not scheduled. -/
def State.gateList (s : State) (p : Nat) : Option (List GateEntry) :=
  match s.sched.running with
  | some im => (im.lists.find? (·.1 = p)).map (·.2)
  | none => none

/-- How long the run of entries open to a class lasts from entry i on, in 16 ns units, over at most n entries. (DEDUCED: log entry 60) -/
def runLen (l : List GateEntry) (t : Nat) : Nat → Nat → Nat
  | 0, _ => 0
  | n + 1, i =>
    match l[i % l.length]? with
    | some e => if e.gate.getLsbD t then e.dur + runLen l t n (i + 1) else 0
    | none => 0

/-- The end of the run of entries open to a class from entry i on, which begins at FT a; none when every entry is open to the class, so
that the run goes on across every wrap (R255). -/
def runEnd (l : List GateEntry) (t i a : Nat) : Option Nat :=
  if l.all (·.gate.getLsbD t) then none else some (a + 16 * runLen l t l.length i)

/-- The FT, in ns, at which the window of a class that is open at a port ends, or none when it does not end; at a pending takeover it goes
on only into the new list. -/
def State.windowEnd (s : State) (p t : Nat) : Option Nat :=
  let x := s.port p
  match s.gateList p with
  | none => some 0
  | some l =>
    let e := runEnd l t x.gateIdx x.gateStart
    let early := e.any fun b => decide (b < s.sched.tx)
    match s.sched.pending, s.sched.next with
    | true, some im =>
      if early then e
      else match (im.lists.find? (·.1 = p)).map (·.2) with
        | some l' => runEnd l' t 0 s.sched.tx
        | none => if t = 7 then some s.sched.tx else none
    | true, none => if s.sched.disarm && !early then (if t = 7 then some s.sched.tx else none) else e
    | false, _ => e

/-- The guard that the gate units apply, in ns: ESYNC in mode F (R255). -/
def State.guard (s : State) : Nat :=
  match s.sched.running with
  | some im => if im.mode then s.keeper.esync.toNat else 0
  | none => 0

/-- When a frame of n flits that starts now ends by a port's replica, with the guard, in units of 2^-16 × 0.01 ns. -/
def State.frameEnd (s : State) (p n : Nat) : Nat :=
  (tget 0 s.repl.die (p / 4)).toNat * 100 + n * 128 * 65536 + s.guard * 6553600

/-- Whether a time in those units is no later than the end of a window in ns. -/
def fitsBy (e : Option Nat) (t : Nat) : Bool :=
  match e with
  | some b => decide (t ≤ b * 6553600)
  | none => true

/-- Whether a frame of n flits of a class may start at a port now (R255): inside a window, ending by the replica no later than the
window's end, less ESYNC in mode F. Without a list TC0 to TC6 always may (R269). -/
def State.gateOk (s : State) (p t n : Nat) : Bool :=
  match s.gateList p with
  | none => t ≠ 7
  | some _ =>
    (s.port p).gateOpen.getLsbD t && fitsBy (s.windowEnd p t) (s.frameEnd p n)

/-! ### Replay (R299, R302, R303) -/

/-- The flits of a replay store that have been sent: they come first. -/
def Port.sent (x : Port) : Nat := (x.store.filter (·.sentAt.isSome)).length

/-- A spilled flit whose read is to be requested next in a replay. -/
def Port.nextRead (x : Port) : Option TxFlit := x.store.find? fun f => f.written && f.back = 0

/-- The PPA line of a flit of a port's spill region, 256 B for each SEQ (R27, R28, R302). (DESIGN CHOICE: log entry 44) -/
def State.spillLine (s : State) (p : Nat) (seq : BitVec 16) : Option Nat :=
  let off := seq.toNat % 32768 * 256
  (s.spillGran (4 * p + off / 2097152)).map fun g => g * 16384 + off % 2097152 / 128

/-- The key under which reserved DRAM is written (R472). -/
def State.resvKey (s : State) : Option Nat := s.pwr.reservedKey

/-- The line of a half of a spilled flit: a flit takes two lines. (DESIGN CHOICE: log entry 44) -/
def halfLine (l : Nat) (half : Bool) : Nat := if half then l + 1 else l

/-- A half of a flit's 256 bytes. -/
def flitHalf (f : Flit) (half : Bool) : Line := lineOf (f.bytes.drop (if half then 128 else 0))

/-- The device-critical access to a half of a spilled flit (R276, R302). (DESIGN CHOICE: log entry 44) -/
def State.spillHalf (s : State) (p : Nat) (f : TxFlit) (write h : Bool) : State :=
  match s.spillLine p f.seq with
  | none => s
  | some l =>
    s.enqueue { org := .spill p f.seq h write, line := halfLine l h, act := if write then .write (flitHalf f.flit h) else .read, flow := 0 }

/-- The accesses to the two lines of a spilled flit. (DESIGN CHOICE: log entry 44) -/
def State.spillReq (s : State) (p : Nat) (f : TxFlit) (write : Bool) : State := s.each [false, true] fun s h => s.spillHalf p f write h

/-- The next spilled flit of a replay is read back. (DESIGN CHOICE: log entry 44) -/
def State.readBack (s : State) (p : Nat) : State :=
  let x := s.port p
  if x.replay.isNone then s
  else match x.nextRead with
    | some f => (s.setPort p { x with store := x.store.map fun g => if g.seq = f.seq then { g with back := 1, halves := 0 } else g }).spillReq p f false
    | none => s

/-- A replay starts from the oldest unacknowledged flit that has been sent; from which ACK on, and when, is noted (R299). -/
def State.startReplay (s : State) (p : Nat) : State :=
  let x := s.port p
  if x.sent = 0 then s
  else (s.setPort p { x with replay := some 0, replayAck := some (x.lastAck, s.now), store := x.store.map fun f => { f with back := 0 } }).readBack p

/-- Whether a request is not an access to a spilled flit of a port among those that are freed. -/
def Req.notSpill (r : Req) (p : Nat) (gone : BitVec 16 → Bool) : Bool :=
  match r.org with
  | .spill q seq _ _ => !(q == p && gone seq)
  | _ => true

/-- Accesses to a port's spill that wait at an arbiter or at a channel are cancelled when their flits are freed (R322). -/
def State.cancelSpill (s : State) (p : Nat) (gone : BitVec 16 → Bool) : State :=
  let keep := fun (l : List Req) => l.filter fun r => r.notSpill p gone
  s.each s.stackList fun s n => s.modStack n fun x =>
    { x with queue := keep x.queue, wait := keep x.wait, chans := x.chans.map fun c => (c.1, { c.2 with entries := keep c.2.entries, issued := keep c.2.issued }) }

/-! ### Acknowledgement and credits (R306) -/

/-- A protocol error at a port (R293, R306): counted, and a trigger of a retrain. -/
def State.protoErr (s : State) (p : Nat) : State := (s.modPort p fun x => { x with protoErr := true }).bump (portBlk p) 10

/-- ACK applied: flits up to it are freed and counted for their classes; none when it lies outside the range. -/
def State.applyAck (s : State) (p : Nat) (ack : BitVec 16) : Option State :=
  let x := s.port p
  let d := seqDiff ack x.lastAck
  if d < 0 || (x.sent : Int) < d then none
  else
    let n := d.toNat
    let freed := x.store.take n
    let acked := freed.foldl (fun t f => tmod 0 t f.cls (· + 1)) x.acked
    let left := x.sent - n
    let replay := match x.replay with
      | some i => if i - n < left then some (i - n) else none
      | none => none
    let s := s.setPort p { x with store := x.store.drop n, acked := acked, lastAck := ack, replay := replay
                                  nakSame := if n = 0 then x.nakSame else 0 }
    some (if freed.any (·.spill) then s.cancelSpill p fun q => freed.any (·.seq = q) else s)

/-- The credit returns of a header applied for the classes, or none when more credits return than flits were acknowledged. -/
def Port.applyCredits (x : Port) (l : List (Nat × BitVec 16)) : Option Port :=
  if l.all fun e => tget 0 x.returned e.1 + (e.2 - tget 0 x.lastCr e.1).toNat ≤ tget 0 x.acked e.1 then
    some (l.foldl (fun x e =>
      let d := (e.2 - tget 0 x.lastCr e.1).toNat
      { x with returned := tmod 0 x.returned e.1 (· + d), cred := tmod 0 x.cred e.1 (· + d), lastCr := tput 0 x.lastCr e.1 e.2 }) x)
  else none

/-- The ACK and credits of a good header: first ACK, then credits (R306). -/
def State.applyHeader (s : State) (p : Nat) (f : Flit) : State :=
  match s.applyAck p f.ack with
  | none => s.protoErr p
  | some s =>
    match (s.port p).applyCredits (f.returns p) with
    | some x => s.setPort p x
    | none => s.protoErr p

/-! ### The keeper's entry into holdover (R239) -/

/-- A LOCKED keeper enters HOLDOVER, following ALT_PARENT when its neighbour reports LOCKED. (DEDUCED: log entry 37) -/
def State.holdover (s : State) : State :=
  let k := s.keeper
  if k.state ≠ 2 || k.root then s
  else
    let a := k.alt.toNat
    let follow := decide (a < 16) && (s.port a).state = 3 && (s.port a).peerKstate.toNat % 8 = 2
    { s with keeper := { k with state := 3, holdSince := s.ftNs, followAlt := follow, good := 0, bad := 0, slew := 0, freqAdj := 0 } }.bump devBlk 3

/-! ### Retrain (R296, R307, R308) -/

/-- An LCTL flit of a body. -/
def lctlFlit (body : BitVec 1920) : Flit := { typ := 2, body := body }
/-- Whether an LCTL flit is a TSX. (DEDUCED: log entry 36) -/
def isTsx (f : Flit) : Bool := f.byte 0 = 2
/-- RETRAIN_REQ, RESUME and DOWN (R295). -/
def retrainReqFlit (cause : Nat) : Flit := lctlFlit (BitVec.ofNat 1920 (3 + cause * 256))
def resumeFlit : Flit := lctlFlit 4
/-- (DESIGN CHOICE: log entry 41) -/
def downFlit (reason : Nat) : Flit := lctlFlit (BitVec.ofNat 1920 (5 + reason * 256))

/-- UNIT of a port (R495). -/
def portUnit (p : Nat) : Nat := if p = 16 then 0x4000 else 0x3000 + p

/-! ### Link-down (R310 to R312) -/

/-- A synthetic completion leaves the link die of a port, or the usable one of R336. -/
def State.synth (s : State) (d : Nat) (p : Packet) : State :=
  match s.pickDie [d] p.dst with
  | some d => s.modDie d fun x => { x with orig := x.orig ++ [{ p with epoch := x.cur }] }
  | none => s.bump (dieBlk d) 3

/-- The synthetic completion that stands for a request or a completion (R343). -/
def State.synthFor (s : State) (p : Packet) (src dst : Eid) (st : Status) (fill : Bool) : Packet :=
  { dst := dst, src := src, cid := p.cid, vc := true, tc := p.tc, syn := true, fill := fill, pseq := p.pseq, pinc := p.pinc
    len := 0, stat := st, load := s.loadOf none, rtag := p.rtag }

/-- What a dropped packet brings about, and whether a synthetic completion is formed (R312). -/
def State.dropPacket (s : State) (d : Nat) (p : Packet) : State × Bool :=
  if p.syn || p.typ ≠ 0 then (s, false)
  else if p.expects then
    (if p.src = s.node.eid then s.origDone p.rtag stLinkLost 0 0 else s.synth d (s.synthFor p p.dst p.src stLinkLost false), true)
  else if p.isCmp then (s.synth d (s.synthFor p p.src p.dst stLinkLost true), true)
  else if p.isSnoop then
    (if p.src = s.node.eid then s else s.synth d (s.synthFor p p.dst p.src stLinkLost false), true)
  else (s, false)

/-- The packets of a port that a link-down drops: those queued, and those with an unacknowledged flit. -/
def Port.dropped (x : Port) : List Packet :=
  (x.store.filter (·.flit.eop)).map (·.pkt) ++ (List.range 9).flatMap fun t => (x.queue t).map (·.pkt)

/-- The transmit and receive state of a link that is down: SEQ, ACK, credits and window are cleared (R311); coefficients, tuning,
registers and counters stay. -/
def Port.downed (x : Port) (st : BitVec 3) (cause : BitVec 4) (now : Nat) : Port :=
  { state := st, lastDown := cause, retrainCause := x.retrainCause, peerEid := x.peerEid, rtt := x.rtt, credReq := x.credReq
    credRsp := x.credRsp, credSnp := x.credSnp, laneOk := x.laneOk, en := x.en, auto := x.auto, peerCaps := x.peerCaps
    coeffs := x.coeffs, coeffEid := x.coeffEid, shortOk := x.shortOk, ampl := x.ampl, preset := x.preset, lanes := x.lanes
    retrains := x.retrains, downAt := now, tcw := x.tcw, tseq := x.tseq, gateIdx := x.gateIdx, gateStart := x.gateStart
    gateOpen := x.gateOpen, frames := x.frames, served0 := x.served0, fecCtr := x.fecCtr, wire := x.wire, wireAt := x.wireAt, fecMsg := x.fecMsg }

/-- The DRAINING slot of a link die is freed when DRAINED covers every port (R332 step 5). -/
def State.drainCheck (s : State) (d : Nat) : State :=
  let x := s.die d
  if (x.s0 = 3 || x.s1 = 3) && x.drained = 15 then
    (s.setDie d { x with s0 := if x.s0 = 3 then 0 else x.s0, s1 := if x.s1 = 3 then 0 else x.s1 }).stewEvent
      { kind := 7, obj := BitVec.ofNat 32 d, cause := 1 }
  else s

/-- Originated packets held in the transit buffer of a link die that is no longer usable for them end at their units (R336). -/
def State.heldLost (s : State) (d : Nat) : State :=
  let x := s.die d
  let lost := fun (t : Transit) => t.inp.isNone && !s.dieUsable d t.pkt.dst
  (s.setDie d { x with transit := x.transit.filter fun t => !lost t }).each (x.transit.filter lost) fun s t =>
    s.lostAtUnit t.pkt stLinkLost

/-- Every outstanding host-memory request ends at its unit with a status (R359, R365). -/
def State.hostReqDone (s : State) (q : HostReq) (st : Status) (data : Line) : State :=
  let s := { s with qor := { s.qor with reqs := s.qor.reqs.filter (·.tag ≠ q.tag) } }
  match q.org with
  | .walker n id => s.walkDone n { id := id, status := st, data := data, at_ := s.now }
  | .engine n k inc id => s.engDone n k inc { id := id, status := st, data := data, at_ := s.now }

/-- What the loss of Qoreus brings beside R311 (R364, R365): VECs are counted, host-memory requests end with LINK_LOST, and the host
is lost as an agent. -/
def State.qoreusLost (s : State) : State :=
  let vecs := ((s.port 16).store.filter fun f => f.flit.eop && f.pkt.opc = oVec).length + s.qor.vec.length
  let reqs := s.qor.reqs
  let s := { s with qor := { s.qor with rsp := [], snp := [], walk := [], vec := [], eng := [], retrainAt := none, linkUp := false, leaving := false } }
  let s := if vecs = 0 then s else s.bumpBy (portBlk 16 + 8 + 8 * 16) vecs
  s.each reqs fun s q => s.hostReqDone q stLinkLost 0

/-- What waits for a retrain to end is answered with PORT_STATUS.STATE (R446). (DEDUCED: log entry 66) -/
def State.retrainEnded (s : State) (p : Nat) : State :=
  let st := (s.port p).state
  let g := fun (c : Cmd) => if c.waits.contains (.retrain p) then { c with result := BitVec.ofNat 1920 st.toNat } else c
  ({ s with cmds := s.cmds.map g }).wake (.retrain p)

/-- Link-down of a port with a cause (R311): to DOWN, or to DISABLED when EN is clear. (DEDUCED: log entry 36; DESIGN CHOICE: log entry 41) -/
def State.linkDown (s0 : State) (p : Nat) (cause : BitVec 4) : State :=
  let x := s0.port p
  let st : BitVec 3 := if x.en then 1 else 0
  let pkts := if p = 16 then x.dropped ++ s0.qor.rsp ++ s0.qor.snp ++ s0.qor.walk ++ s0.qor.vec ++ s0.qor.eng.map (·.2) else x.dropped
  let s := (s0.cancelSpill p fun _ => true).setPort p (x.downed st cause s0.now)
  let (s, n) := if p = 16 then (s, 0) else
    pkts.foldl (fun (a : State × Nat) k => let (s, b) := a.1.dropPacket (p / 4) k; (s, a.2 + b2n b)) (s, 0)
  let s := if p = 16 then (s0.qoreusLost.setPort p (x.downed st cause s0.now)).hostGone else s
  let s := s.bump (portBlk p) 9
  let s := if pkts.isEmpty then s else s.bumpBy (portBlk p + 8 + 8 * 11) pkts.length
  let s := if n = 0 then s else s.bumpBy (portBlk p + 8 + 8 * 12) n
  let s := s.logErr (errRec 0x10 2 none (portUnit p)
    (packBytes [(0, 1, cause.toNat), (1, 1, x.retrainCause.toNat), (4, 4, pkts.length), (8, 4, n)]))
  let s := s.stewEvent { kind := 6, obj := BitVec.ofNat 32 p, cause := BitVec.ofNat 8 cause.toNat }
  let s := if p = 16 then s else
    let s := s.modDie (p / 4) fun d => { d with drained := d.drained ||| BitVec.ofNat 4 (1 <<< (p % 4)) }
    let lost := if s.sched.running.isSome then s.sched.lost ||| BitVec.ofNat 16 (1 <<< p) else s.sched.lost
    let s := { s with sched := { s.sched with lost := lost, lostAt := tput 0 s.sched.lostAt p (s.dieNs (p / 4)) } }
    let s := if s.keeper.parent.toNat = p then s.holdover else s
    (s.drainCheck (p / 4)).heldLost (p / 4)
  (s.wake (.linkDown p)).retrainEnded p

/-! ### Leaving a retrain (R308, R363) -/

/-- The timers of transactions that await the host go on as Qoreus is UP again (R363). -/
def State.hostTimers (s : State) : State :=
  match s.qor.retrainAt with
  | none => s
  | some t0 =>
    let s := { s with qor := { s.qor with retrainAt := none } }
    s.each [0, 1, 2, 3] fun s q => s.modSlice q fun x =>
      let g := fun (v : Txn) =>
        if v.await.contains hostEid || (v.kind == .grantWait && v.eid == hostEid) then { v with since := v.since + (s.now - max t0 v.since) } else v
      { x with txns := x.txns.map fun e => (e.1, g e.2) }

/-- The ACK and the credit returns of RESUME applied (R306), or none when they make a protocol error. -/
def State.resumeHeader (s : State) (p : Nat) (h : BitVec 16 × List (Nat × BitVec 16)) : Option State :=
  match s.applyAck p h.1 with
  | none => none
  | some s => ((s.port p).applyCredits h.2).map fun x => s.setPort p x

/-- A retrain that RESUME ends: UP, and replay from the peer's ACK + 1; a header that R306 refuses is a protocol error (R296, R309). Qoreus
reaches UP again with it (R363, R366). -/
def State.resumed (s : State) (p : Nat) (h : BitVec 16 × List (Nat × BitVec 16)) : State :=
  match s.resumeHeader p h with
  | none => (s.bump (portBlk p) 10).linkDown p 9
  | some s =>
    let s := s.modPort p fun x => { x with state := 3, train := {}, gotResume := none, protoErr := false, uncorr := [], corrBits := []
                                           nakSame := 0, lastBlock := s.now, lastData := s.now }
    let s := (s.startReplay p).retrainEnded p
    if p = 16 then { s with qor := { s.qor with linkUp := false } }.hostTimers else s

/-- A trigger of a retrain at a port in UP: RETRAIN, or link-down with FLAPPING at the fourth within 100 ms (R296); the end that starts it
sends RETRAIN_REQ, one that joins its peer does not (R307); a TSX that waits is not sent any more (R317). -/
def State.retrain (s : State) (p : Nat) (cause : BitVec 4) : State :=
  let x := s.port p
  let recent := x.retrains.filter fun t => s.now < t + 100000000
  if x.state ≠ 3 then s
  else if 3 ≤ recent.length then (s.setPort p { x with retrainCause := cause }).linkDown p 3
  else
    let s := (s.setPort p { x with state := 4, retrainCause := cause, retrains := recent ++ [s.now], protoErr := false
                                   lctl := (x.lctl.filter fun f => !isTsx f) ++ if cause = 6 then [] else [retrainReqFlit cause.toNat], train := { step := 1, at_ := s.now }
                                   gotResume := none }).bump (portBlk p) 8
    if p = 16 then { s with qor := { s.qor with retrainAt := some s.now } } else s

end Sys2Proof.Machine
end

