-- ==== Sys2Proof/Machine/Pairs.lean ====
section
/-! DEFINITION. The pair sequencer: pair ordering and batches (R340 to R343), the limiter (R281 to R283), and the release of requests,
completions and snoop answers to the rows that serve them (R14). -/
namespace Sys2Proof.Machine

/-! ### Release and the limiter -/

/-- Whether a request is one that a row serves: R111, control accesses. (DEDUCED: log entry 18; DESIGN CHOICE: log entry 14) -/
def isRowRequest (o : Byte) : Bool := 1 ≤ o.toNat && o.toNat ≤ 0x0C
/-- Whether a message on the RSP channel is a snoop answer. (DEDUCED: log entry 18) -/
def isSnpAnswer (o : Byte) : Bool := 0x30 ≤ o.toNat && o.toNat ≤ 0x32

/-- Whether the Elder filter takes a requester's packets (R94); the host is never filtered (R95). -/
def State.filtered (s : State) (e : Eid) : Bool := s.elder.filter && e != hostEid && eidFits e s.elder.eidMatch s.elder.eidMask

/-- Whether an earlier request of a pair still waits for an entry of an arbiter (R279). -/
def State.pairWaits (s : State) (src : Eid) : Bool :=
  s.stackList.any fun n => (s.stack n).wait.any fun a => a.ofPair && a.pkt.src = src

/-- Whether a request of a pair must wait behind one that is held for an entry of an arbiter (R279). -/
def State.pairHeld (s : State) (src : Eid) : Bool := s.admHeld.any (·.pkt.src = src) || s.pairWaits src

/-- A request with a reserved opcode ends with the status of the first check of R46 that fails, or as the Elder filter has it.
(DEDUCED: log entry 18) -/
def State.stray (s : State) (h : Held) : State :=
  let p := h.pkt
  let r : Req := { pkt := p, die := h.die, lim := h.lim }
  s.reply r none (s.cmpFor r none (if s.filtered p.src then stLegacy else (s.msCheck p (some p.src) true).getD stDenied))

/-- A released packet is handed on: to its row, or to its end when no row serves it, behind what is held of its pair (R279); NOTIFY and snoops
have no receiver in a GP8.
(DEDUCED: log entry 18; DESIGN CHOICE: log entries 14, 15) -/
def State.handOn (s : State) (h : Held) : State :=
  let p := h.pkt
  if p.vc then (if p.isCmp || isSnpAnswer p.opc || p.opc = oMcmp || p.opc = oMcmpData || p.syn then { s with released := s.released ++ [h] } else s)
  else if isRowRequest p.opc then { s with released := s.released ++ [h] }
  else if p.opc = oNotify || p.isSnoop then s
  else if s.pairHeld p.src then { s with admHeld := s.admHeld ++ [h] } else s.stray h

/-- The bytes of payload and of data read that the limiter charges for (R282). (DEDUCED: log entry 42) -/
def limCharge (p : Packet) : Nat :=
  let wr := p.opc = oWrLine || p.opc = oWrPartial || p.opc = oWbDirty || p.opc = oCtlWr
  let rd := p.opc = oRdShared || p.opc = oRdOwn || p.opc = oUpgrade
  max 32 (if wr then 128 else if rd then 128 else if p.opc = oRdOnce || p.opc = oCtlRd then p.blen.toNat + 1 else 0)

/-- Where a released packet is taken (R14): a request at the memory stage of its home quadrant, an Elder request by the region that it names,
a control access at the control decoder, a snoop answer at its directory slice, and a completion at the unit of its RTAG or TAG.
(DESIGN CHOICE: log entry 14) -/
def State.station (s : State) (p : Packet) : Nat :=
  if p.vc then (if isSnpAnswer p.opc then 8 + tagSlice p.tag else if p.opc = oMcmp || p.opc = oMcmpData then 16 + p.tag.toNat else 2 ^ 20 + p.rtag.toNat)
  else if s.filtered p.src then
    let a := p.offset.toNat % 2 ^ 36
    let g := s.region (a / 2 ^ 21)
    lineQuad (s.extLine (s.ext g.index.toNat) (g.granule.toNat * 2 ^ 21 + a % 2 ^ 21))
  else if p.isCtl then 4
  else lineQuad (s.locate p)

/-- Whether two packets of one pair pass the session unit of an established session, which takes them in the order of their release (R469). -/
def State.sameSession (s : State) (a b : Packet) : Bool :=
  let x := s.part (cidPart b.cid)
  a.src == b.src && cidPart a.cid == cidPart b.cid && x.conf && x.sess == 1 && !a.syn && !b.syn

/-- Whether a released packet is the next at its place: each place takes its packets in the order of their release (R12, R17), and the session unit
after pair release those of a pair, whatever their places (R469). Nothing is served outside D0 and D1 (R521, R523), and no request enters a memory
stage while admission has stopped (R527). -/
def State.turn (s : State) (p : Packet) : Bool :=
  if !s.inService || (s.admitOff && !p.vc && !p.isCtl) then false
  else match s.released.find? fun h => h.pkt.vc == p.vc && (s.station h.pkt == s.station p || s.sameSession h.pkt p) with
  | some h => h.pkt == p
  | none => false

/-- A released packet taken for its row. (DEDUCED: log entry 42; DESIGN CHOICE: log entry 14) -/
def State.take (s : State) (p : Packet) : Held × State :=
  match s.released.find? (·.pkt = p) with
  | some h => (h, { s with released := s.released.erase h })
  | none => ({ pkt := p }, s)

/-- The bucket of an EID refilled to an FT (R282). (DEDUCED: log entry 42) -/
def EidLimit.refill (x : EidLimit) (ft : Nat) : EidLimit :=
  { x with tokens := min (x.burst.toNat * 4096 : Int) (x.tokens + x.rate.toNat * ((ft - x.last : Nat) : Int)), last := ft }

/-- A request at the limiter (R282, R283): charged and handed on, or held with every later request of its pair.
(DEDUCED: log entry 42; DESIGN CHOICE: log entry 15) -/
def State.limiter (s : State) (h : Held) : State :=
  let e := h.pkt.src.toNat
  let x := s.limit e
  if h.pkt.vc || h.pkt.tc = 7 then s.handOn h
  else if s.limHeld.any (·.pkt.src = h.pkt.src) then { s with limHeld := s.limHeld ++ [{ h with lim := 2 }] }.bump devBlk 2
  else if x.rate = 0 then s.handOn h
  else
    let x := x.refill s.hubNs
    if x.tokens < 0 then { s.setLimit e x with limHeld := s.limHeld ++ [{ h with lim := 2 }] }.bump devBlk 2
    else
      let x := { x with tokens := x.tokens - limCharge h.pkt }
      (s.setLimit e x).handOn { h with lim := limitState x false }

/-- The requests of an EID that the limiter holds are released in order while its tokens are not negative. -/
def State.limiterGo (s : State) (e : Eid) : Nat → State
  | 0 => s
  | n + 1 =>
    match s.limHeld.find? (·.pkt.src = e) with
    | none => s
    | some h =>
      let x := s.limit e.toNat
      let x := if x.rate = 0 then x else x.refill s.hubNs
      if x.rate ≠ 0 && x.tokens < 0 then s.setLimit e.toNat x
      else
        let x := if x.rate = 0 then x else { x with tokens := x.tokens - limCharge h.pkt }
        let s := { s.setLimit e.toNat x with limHeld := s.limHeld.erase h }
        (s.handOn { h with lim := if x.rate = 0 then 0 else 2 }).limiterGo e n

/-- LIMITER_RELEASE (R282). (DEDUCED: log entry 42) -/
def execLimiterRelease (eid : Eid) (s : State) : Host.Outcome State Fault Refusal := .next (s.limiterGo eid s.limHeld.length)

/-! ### Batches (R342) -/

/-- A released request joins or closes the batch of its pair. -/
def PairRx.batch (x : PairRx) (p : Packet) : PairRx :=
  let opn := x.batches.find? (·.closer.isNone)
  if p.nocmp && (p.opc = oWrLine || p.opc = oWrPartial) then
    match opn with
    | some _ => { x with batches := x.batches.map fun b => if b.closer.isNone then { b with items := b.items ++ [(p.pseq, none)] } else b }
    | none => { x with batches := x.batches ++ [{ items := [(p.pseq, none)] }] }
  else if p.last && !p.nocmp then
    { x with batches := x.batches.map fun b => if b.closer.isNone then { b with closer := some p.pseq } else b }
  else x

/-- A packet released in pair order (R14): a FILL only counts as received; a request passes the limiter. -/
def State.releasePkt (s : State) (p : Packet) (die : Nat) : State :=
  if p.syn then s
  else if p.vc then s.handOn { pkt := p, die := die }
  else (s.modPairRx (pairIdx p.src false) fun x => x.batch p).limiter { pkt := p, die := die }

/-! ### Pair ordering (R340, R341) -/

/-- The packets of a pair that can be released now from an expected PSEQ on, in order, with the PSEQ that is expected then and what
stays held. -/
def contiguous : Nat → BitVec 16 → Bool → List (Packet × Nat) → List (Packet × Nat) × BitVec 16 × List (Packet × Nat)
  | 0, e, _, held => ([], e, held)
  | n + 1, e, inc, held =>
    match held.find? fun h => h.1.pinc == inc && h.1.pseq == e with
    | some h =>
      let (out, e', rest) := contiguous n (e + 1) inc (held.filter fun k => !(k.1.pinc == inc && k.1.pseq == e))
      (h :: out, e', rest)
    | none => ([], e, held)

/-- The gap timer of a pair after a packet (R344): it starts with the first held packet and restarts when E advances. -/
def PairRx.timed (x : PairRx) (now : Nat) (advanced : Bool) : PairRx :=
  { x with timer := if x.held.isEmpty then none else if advanced || x.timer.isNone then some now else x.timer }

/-- A packet accepted as the expected one: it and every held packet that is now contiguous are released. -/
def State.pairAccept (s : State) (k : Nat) (p : Packet) (die : Nat) : State :=
  let x := s.pairRx k
  let (out, e, rest) := contiguous x.held.length (p.pseq + 1) x.inc x.held
  let s := s.setPairRx k (({ x with e := e, held := rest }).timed s.now true)
  s.each ((p, die) :: out) fun s h => s.releasePkt h.1 h.2

/-- The FILL packets that a pair holds: they stand in the reserve (R341). -/
def PairRx.fills (x : PairRx) : Nat := (x.held.filter (·.1.fill)).length

/-- The entries of the reserve that are in use (R341): requests held at release, and FILL packets held. -/
def State.reserveUsed (s : State) : Nat := s.limHeld.length + s.admHeld.length + (s.rx.map fun e => e.2.fills).sum

/-- Whether the reserve can take a FILL packet (R341): one that does not stay held needs no entry for long. -/
def State.fillRoom (s : State) (p : Packet) : Bool :=
  let x := s.pairRx (pairIdx p.src true)
  !(x.synced && decide (0 ≤ seqDiff p.pseq x.e)) || (decide (s.reserveUsed < 4096) && decide (x.fills < 1024) && decide (x.held.length < 8192))

/-- Whether the reorder buffer can take a sequenced packet (R341): the reserve of 4,096 entries for packets in order and FILL, 61,440
entries for held packets, 8,192 for one pair of which 1,024 of the reserve. Requests held at release are in order. -/
def State.reorderRoom (s : State) (p : Packet) : Bool :=
  let x := s.pairRx (pairIdx p.src p.vc)
  let inOrd := s.reserveUsed
  let mine := x.fills + (if p.vc then 0 else (s.limHeld.filter (·.pkt.src = p.src)).length + (s.admHeld.filter (·.pkt.src = p.src)).length)
  let held : Nat := (s.rx.map fun e => e.2.held.length - e.2.fills).sum
  let isNext := p.resync || (x.synced && p.pinc == x.inc && p.pseq == x.e)
  let dup := x.synced && p.pinc == x.inc && decide (seqDiff p.pseq x.e < 0)
  dup || (decide (mine + (x.held.length - x.fills) < 8192) &&
    if isNext then decide (inOrd < 4096) && decide (mine < 1024) else decide (held < 61440))

/-- A sequenced packet at its destination (R340). After a break, packets of the old incarnation are discarded (R344).
(DESIGN CHOICE: log entries 15, 38) -/
def State.pairIn (s : State) (p : Packet) (die : Nat) : State :=
  let k := pairIdx p.src p.vc
  let x := s.pairRx k
  if p.resync then
    let keep := x.held.filter fun h => h.1.pinc == p.pinc && decide (0 < seqDiff h.1.pseq p.pseq)
    (s.setPairRx k { x with inc := p.pinc, e := p.pseq, synced := true, dead := false, held := keep
                            batches := x.batches.filter (·.closer.isSome) }).pairAccept k p die
  else if x.dead && p.pinc == x.inc then s
  else if !x.synced || p.pinc != x.inc then
    s.setPairRx k (({ x with held := x.held ++ [(p, die)] }).timed s.now false)
  else
    let d := seqDiff p.pseq x.e
    if d = 0 then s.pairAccept k p die
    else if d < 0 || x.held.any (fun h => h.1.pinc == p.pinc && h.1.pseq == p.pseq) then s
    else s.setPairRx k (({ x with held := x.held ++ [(p, die)] }).timed s.now false)

/-- A synthetic packet bypasses pair order (R343): a FILL also counts its PSEQ as received when d ≥ 0; the packet goes to its row.
(DESIGN CHOICE: log entry 38) -/
def State.synIn (s : State) (p : Packet) (die : Nat) : State :=
  let k := pairIdx p.src true
  let x := s.pairRx k
  let s := { s with released := s.released ++ [{ pkt := p, die := die }] }
  if p.fill && x.synced && 0 ≤ seqDiff p.pseq x.e then s.pairIn { p with vc := true, resync := false, pinc := x.inc } die else s

end Sys2Proof.Machine
end

