-- ==== Sys2Proof/Machine/Time.lean ====
section
/-! DEFINITION. What a nanosecond without a command does: FT advances (R13, R233), with the part of the correction that the keeper
slews in that time (R234). DESIGN CHOICE (log entry 2): the model's clock ticks when the queue of commands is empty. -/
namespace Sys2Proof.Machine

/-- The part of a correction that one nanosecond of slewing makes: at most 100 ppm, that is 6 units of 2^-16 ns (R234).
(DESIGN CHOICE: log entry 2) -/
def slewStep (r : Int) : Int := max (-6) (min 6 r)

/-- FREQ_ADJ while a correction is slewed, in 0.01 ppm: 0 once it is used up (R236). (DESIGN CHOICE: log entry 2) -/
def adjOf (r : Int) : BitVec 16 := BitVec.ofInt 16 (slewStep r * 100000000 / 65536)

/-- FT after one nanosecond: one unit of integer nanoseconds and the slewed part of the correction, or none while the keeper is stopped
(R524). (DESIGN CHOICE: log entry 2) -/
def Keeper.tick (k : Keeper) : Keeper :=
  if k.stopped then k
  else
    let d := slewStep k.slew
    { k with ft := k.ft + 65536 + BitVec.ofInt 80 d, slew := k.slew - d, freqAdj := adjOf (k.slew - d) }

/-- All replicas after one nanosecond of the reference clock (R13). (DESIGN CHOICE: log entry 2) -/
def Replicas.tick (r : Replicas) : Replicas :=
  { tiles := r.tiles + 65536, hub := r.hub + 65536, dram := r.dram + 65536
    die := (List.range 4).foldl (fun t n => tput 0 t n (tget 0 r.die n + 65536)) [] }

/-- Every replica at the keeper's FT (R13). -/
def Replicas.at_ (ft : BitVec 80) : Replicas :=
  { tiles := ft, hub := ft, dram := ft, die := (List.range 4).foldl (fun t n => tput 0 t n ft) [] }

/-- The replicas a nanosecond later: every 256 ns they take the correction that the keeper broadcasts, between them they run on (R13). -/
def Replicas.next (r : Replicas) (k : Keeper) (now : Nat) : Replicas :=
  if k.stopped then r else if now % 256 = 0 then Replicas.at_ k.ft else r.tick

/-- The state after one nanosecond without a command. Before the oscillator is stable, and while the keeper is stopped
(R524), FT does not advance (R532). (DESIGN CHOICE: log entry 2) -/
def State.tick (s : State) : State :=
  match s.pwr.phase with
  | .selftest | .boot | .ready | .failed =>
    { s with now := s.now + 1, keeper := s.keeper.tick, repl := s.repl.next s.keeper.tick (s.now + 1) }
  | _ => { s with now := s.now + 1 }

end Sys2Proof.Machine
end

