-- ==== Sys2Proof/Machine/Keeper.lean ====
section
/-! DEFINITION. The FT keeper (R234, R239), timestamp exchanges (R314 to R317), and the sync-loss rule (R240). -/
namespace Sys2Proof.Machine

/-! ### Schedules: state words and the sync-loss rule -/

/-- SCHED_STATUS.STATE (R254); while the sync-loss rule runs to its end the image counts as running. (DESIGN CHOICE: log entry 35) -/
def State.schedState (s : State) : Nat :=
  if s.sched.running.isSome || s.sched.syncLost then (if s.sched.pending then 3 else 2) else if s.sched.pending then 1 else 0

/-- IMAGE_ID of the running image, or 0 (R254, R314). (DEDUCED: log entry 36) -/
def State.imageId (s : State) : Word := match s.sched.running with | some im => im.id | none => 0

/-- The landing windows that the armed image holds (tile × 16 + window). -/
def State.imageLands (s : State) : List Nat := (s.lands.filter (·.2.sched)).map (·.1)

/-- A gate unit goes to entry i of a list, which begins at FT t (R255): a window of TC7 that ends is counted in SCHED_MISSED for each frame
that became ready in it; a class whose gate opens again has its tags set under R277. (DEDUCED: log entry 43) -/
def State.gateMove (s : State) (p : Nat) (l : List GateEntry) (i t : Nat) : State :=
  let x := s.port p
  let g := ((l[i]?).map (·.gate)).getD 0xFF
  let ends7 := x.gateOpen.getLsbD 7 && !g.getLsbD 7
  let missed := if ends7 then ((x.queue 7).filter (·.inWin)).length else 0
  let x1 := if ends7 then x.setQueue 7 ((x.queue 7).map fun q => { q with inWin := false }) else x
  let again := (List.range 7).filter fun t => g.getLsbD t && !x.gateOpen.getLsbD t && !(x.queue t).isEmpty && decide (1 ≤ x.tcWeight t)
  let tags := again.foldl (fun r t => tput {} r t ((tget {} r t).again x.vtime)) x1.tags
  let s := s.setPort p { x1 with gateIdx := i, gateStart := t, gateOpen := g, tags := tags }
  if missed = 0 then s else s.bumpBy (portBlk p + 8 + 8 * 15) missed

/-- Every gate unit in the no-image state (R269): every gate open, without a list. -/
def State.gatesOpen (s : State) : State := s.each (List.range 16) fun s p => s.gateMove p [] 0 0

/-- A pending or running arm is abandoned: its command, when one waits, ends with a status. (DESIGN CHOICE: log entry 63) -/
def State.abandonArm (s : State) (status : Nat) : State :=
  let tok := s.sched.armToken
  let s := { s with sched := { s.sched with pending := false, disarm := false, next := none, loaded := false, armToken := none } }
  match tok with
  | some t => s.failCmd t status 0
  | none => s

/-- The reserved windows of an image given back: every SCHED window is FREE. -/
def State.freeSched (s : State) : State :=
  s.each s.tileList fun s n => s.modTile n fun t =>
    { t with wins := t.wins.filter fun w => w.2 ≠ WState.sched }

/-- The landing windows of an image given back: those that hold a chunk are released under R228 and then FREE (R240 step 4, R444); no
window-map entry waits for its window any more. (DESIGN CHOICE: log entry 62) -/
def State.endLands (s : State) : State :=
  let s := s.each ((s.lands.filter (·.2.due.isSome)).map (·.1)) fun s w => s.modLand w fun l => { l with due := none }
  s.each s.imageLands fun s w =>
    if (s.land w).v then
      ((s.modLand w fun l => { l with sched := false }).modTile (w / 16) fun t =>
        { t with wins := tput .free t.wins (w % 16) .landing }).releaseWin (w / 16) (w % 16)
    else (s.setLand w {}).modTile (w / 16) fun t => { t with wins := tput .free t.wins (w % 16) .free }

/-- The sync-loss rule (R240), steps 1 to 5. (DESIGN CHOICE: log entry 63) -/
def State.syncLoss (s0 : State) : State :=
  let id := match s0.sched.running, s0.sched.next with
    | some im, _ => im.id
    | none, some im => im.id
    | none, none => 0
  let k := s0.cycleNo
  let any := s0.sched.running.isSome
  let s := s0.abandonArm csBadState
  let s := { s with sched := { s.sched with running := none, syncLost := any, alt := 0, lost := 0 } }.gatesOpen
  let s := s.each s.tileList fun s n => s.modTile n fun t => { t with swait := [] }
  let s := s.endLands
  (if any then s else s.freeSched).schedEvent 6 id 0 k

/-- A keeper enters LOST (R239): the sync-loss rule applies when an image is armed or pending. (DEDUCED: log entry 37) -/
def State.keeperLost (s : State) : State :=
  let armed := s.sched.running.isSome || s.sched.pending || s.sched.next.isSome
  let s := { s with keeper := { s.keeper with state := 4, followAlt := false, good := 0, bad := 0, slew := 0, freqAdj := 0 } }.bump devBlk 4
  if armed then s.syncLoss else s

/-! ### Exchanges -/

/-- The keeper's use of an offset θ of the followed keeper, in 2^-16 ns (R234, R236, R239): one step in ACQUIRING when it exceeds
1 µs, and otherwise slewing; the counts of consecutive exchanges. `sync` tells whether the peer reports LOCKED or HOLDOVER, which counts in
ACQUIRING alone; a keeper in HOLDOVER holds its frequency otherwise (DEDUCED: log entries 34, 37). OFFSET shows the low 24 bits of an offset
that its field cannot hold, of which the spec says nothing (DESIGN CHOICE: log entry 90). -/
def Keeper.use (k : Keeper) (θ : Int) (sync : Bool) : Keeper :=
  let a := θ.natAbs
  let ps : Int := -(θ * 1000 / 65536)
  let k := { k with offset := BitVec.ofInt 24 ps }
  if k.state = 1 && !k.stepped && decide (65536000 < a) then
    { k with ft := k.ft + BitVec.ofInt 80 θ, stepped := true, slew := 0, freqAdj := 0, good := 0 }
  else if k.state = 3 && !sync then { k with slew := 0, freqAdj := 0, good := if a ≤ 131072 then k.good + 1 else 0 }
  else if k.state = 1 || k.state = 2 || k.state = 3 then
    let near := decide (a ≤ 131072) && (sync || k.state ≠ 1)
    { k with slew := θ, freqAdj := adjOf θ
             good := if near then k.good + 1 else 0, bad := if 1310720 < a then k.bad + 1 else 0 }
  else k

/-- The port whose exchanges the keeper uses (R316). (DEDUCED: log entry 34) -/
def Keeper.followed (k : Keeper) : Nat := if k.state = 3 && k.followAlt then k.alt.toNat else k.parent.toNat

/-- A signed difference of 80-bit timestamps. (DEDUCED: log entry 34) -/
def ftDiff (a b : BitVec 80) : Int := (a - b).toInt

/-- A TSX of the peer (R316, R317): what it reports is kept, and the keeper uses θ from the port it follows, unless the exchange is the
first or its delay exceeds the smallest of the last 64 by more than 20 ns; a step of the keeper reaches the replicas with it (R13), and the FTS
pulses go on with the next multiple that the stepped FT reaches (R546). A LOCKED keeper whose parent reports FREE_RUN, ACQUIRING or
LOST enters HOLDOVER. (DEDUCED: log entries 34, 36) -/
def State.tsx (s0 : State) (p : Nat) (x : TsxBody) (arrival : BitVec 80) : State :=
  let o := s0.port p
  if p ≥ 16 || o.state ≠ 3 then s0
  else
    let t1 := x.tEchoTx; let t2 := x.tEchoRx; let t3 := x.tTx; let t4 := arrival
    let θ := (ftDiff t2 t1 + ftDiff t3 t4) / 2
    let d := ((ftDiff t4 t1 - ftDiff t3 t2) / 2).toNat
    let echo := x.echoTseq ≠ 0xFFFF
    let ds := if echo then (o.delays ++ [d]).drop ((o.delays.length + 1) - 64) else o.delays
    let least := ds.foldl min d
    let o' := { o with rxTTx := x.tTx, rxArr := arrival, rxTseq := x.tseq, peerKstate := x.kstate, peerImage := x.imageId, delays := ds }
    let s := s0.setPort p o'
    let ks := x.kstate.toNat % 8
    let s := if p = s.keeper.parent.toNat && s.keeper.state = 2 && !(ks = 2 || ks = 3) then s.holdover else s
    if !echo || p ≠ s.keeper.followed then s
    else if least + 1310720 < d then s.bump (portBlk p) 14
    else
      let k := s.keeper.use θ (ks = 2 || ks = 3)
      if k.stepped && !s.keeper.stepped then
        { s with keeper := k, repl := Replicas.at_ k.ft, pwr := { s.pwr with fts := k.ft.toNat / 65536 / 1000000 } }
      else { s with keeper := k }

/-- TSX (R316). (DEDUCED: log entry 34) -/
def execTsx (port : Fin 17) (x : TsxBody) (arrival : BitVec 80) (s : State) : Host.Outcome State Fault Refusal :=
  .next (s.tsx port.val x arrival)

/-- TSX_SEND (R314): every 4 µs ± 0.5 µs a TSX of a port in UP waits for the next block; T_TX is set as it leaves. (DEDUCED: log entry 34) -/
def execTsxSend (port : Fin 17) (s : State) : Host.Outcome State Fault Refusal :=
  let p := port.val
  let x := s.port p
  if p < 16 && x.state = 3 && x.tsxAt + 3500 ≤ s.now then
    let b : TsxBody := { kstate := BitVec.ofNat 8 (s.keeper.state.toNat + 8 * s.schedState), eid := s.node.eid, tseq := x.tseq
                         tEchoTx := x.rxTTx, tEchoRx := x.rxArr, echoTseq := x.rxTseq, imageId := s.imageId }
    .next (s.setPort p { x with lctl := x.lctl ++ [lctlFlit b.flitBody], tseq := x.tseq + 1, tsxAt := s.now })
  else .next s

/-- KEEPER_LOCK (R239): ACQUIRING or HOLDOVER with 64 consecutive good exchanges becomes LOCKED; HOLD_ACC is cleared. A lock reached on
ALT_PARENT clears FOLLOW_ALT too, so that the keeper follows PARENT again, and while PARENT is still down it stays LOCKED without an exchange that
it uses: the row names HOLD_ACC alone (DESIGN CHOICE: log entry 90). -/
def execKeeperLock (s : State) : Host.Outcome State Fault Refusal :=
  let k := s.keeper
  if (k.state = 1 || k.state = 3) && 64 ≤ k.good then
    .next { s with keeper := { k with state := 2, followAlt := false, good := 0, bad := 0, holdSince := 0 } }
  else .next s

/-- KEEPER_OFFSET_LOSS (R239): a LOCKED keeper with 16 consecutive offsets above 20 ns becomes LOST. (DEDUCED: log entry 37) -/
def execKeeperOffsetLoss (s : State) : Host.Outcome State Fault Refusal :=
  if s.keeper.state = 2 && 16 ≤ s.keeper.bad then .next s.keeperLost else .next s

/-- HOLDOVER_EXPIRE (R239): a held keeper that has drifted by more than HOLD_MAX, 1 ns for every 10 ms of FT, becomes LOST. (DEDUCED: log entry 37) -/
def execHoldoverExpire (s : State) : Host.Outcome State Fault Refusal :=
  let k := s.keeper
  if k.state = 3 && k.holdSince + k.holdMax.toNat * 10000000 < s.ftNs then .next s.keeperLost else .next s

/-- FT_CORRECTION_BROADCAST (R13): every 256 ns every replica takes the keeper's FT. (DEDUCED: log entry 34) -/
def execFtCorrectionBroadcast (s : State) : Host.Outcome State Fault Refusal :=
  if s.now % 256 = 0 && s.pwr.phase ≠ .off then
    .next { s with repl := Replicas.at_ s.keeper.ft }
  else .next s

end Sys2Proof.Machine
end

