-- ==== Sys2Proof/Machine/Operations.lean ====
section
/-! DEFINITION. The operations of the Quince catalogue (R202 to R220) as functions of the elements they read: the operation and parameter
blocks, the operand slots, the validity of a block, and what each operation writes. -/
namespace Sys2Proof.Machine

/-! ### The operation block and the parameter block (R202, R205) -/

def opcAt (o k : Nat) : Nat := bitsOf o (8 * k) 8
def rndAt (o k : Nat) : Nat := bitsOf o (32 + 8 * k) 3
def satAt (o k : Nat) : Bool := bitsOf o (35 + 8 * k) 1 == 1
def varAt (o k : Nat) : Nat := bitsOf o (36 + 8 * k) 3
def fmtAt (o s : Nat) : Nat := if s < 16 then bitsOf o (64 + 5 * s) 5 else 6
def opNwin (o : Nat) : Nat := bitsOf o 144 8
def opAnchor (o : Nat) : Nat := bitsOf o 152 7
def opCount (o : Nat) : Nat := bitsOf o 160 32
def opParamXh (o : Nat) : Nat := bitsOf o 192 24
def opParamOff (o : Nat) : Nat := bitsOf o 216 40

def pmNinstr (p : Nat) : Nat := bitsOf p 0 8
def pmNconst (p : Nat) : Nat := bitsOf p 8 8
def pmNin (p : Nat) : Nat := bitsOf p 16 8
def pmNout (p : Nat) : Nat := bitsOf p 24 8
def pmSeg (p : Nat) : Nat := bitsOf p 32 32
def pmRowlen (p : Nat) : Nat := bitsOf p 64 32
def pmTol (p : Nat) : Nat := bitsOf p 96 32
def pmRows (p : Nat) : Nat := bitsOf p 128 64
/-- CONST[k] as a value. -/
def pmConst (p k : Nat) : Val := fp32.dec (bitsOf p (512 + 32 * k) 32)
/-- Instruction j of PROGRAM. -/
def pmInstr (p j : Nat) : Nat := bitsOf p (1024 + 32 * j) 32

/-! ### The catalogue (R206) -/

/-- The sets of formats that the role columns name; `same` is the code of the first input. -/
inductive FSet where
  | any | anyOfa | float | floatOfa | idx | exin | same
  deriving DecidableEq, Repr

/-- Whether a set holds a format code; `base` is the code of the first input. -/
def FSet.has (f : FSet) (base code : Nat) : Bool :=
  match elemOf code with
  | none => false
  | some e => match f with
    | .any => e != .ofa
    | .anyOfa => true
    | .float => e.isFloat
    | .floatOfa => e.isFloat || e == .ofa
    | .idx => code == 0x14 || code == 0x15 || code == 0x16
    | .exin => e.isMx || (1 ≤ code && code ≤ 5) || (0x10 ≤ code && code ≤ 0x13)
    | .same => code == base

/-- How many elements a stream has: as many as the main stream, one a segment, one a row, one for each element of the table or
destination, or a record of its own layout. -/
inductive SKind where
  | main | seg | idx | table | record | crcWhole | crcBlock
  deriving DecidableEq, Repr

/-- The input and output roles of an operation. -/
def roles (op var pm : Nat) : List (FSet × SKind) × List (FSet × SKind) :=
  match op with
  | 0x01 => ([(.anyOfa, .main)], [(.same, .main)])
  | 0x02 => ([], [(.anyOfa, .main)])
  | 0x03 => ([(.anyOfa, .main)], [(.anyOfa, .main)])
  | 0x04 => (List.replicate (var + 1) (.anyOfa, .main), [(.anyOfa, .main)])
  | 0x05 => ([(.anyOfa, .main)], [(.anyOfa, .seg)])
  | 0x06 => ([(.any, .main), (.same, .main)], [(.anyOfa, .record)])
  | 0x07 => ([(.anyOfa, .main)], [(.anyOfa, if var = 0 then .crcWhole else .crcBlock)])
  | 0x08 => ([(.idx, .idx), (.any, .table)], [(.any, .main)])
  | 0x09 => ([(.anyOfa, .main), (.idx, .idx)] ++ (if var = 0 then [(.any, .table)] else []), [(.anyOfa, .table)])
  | 0x0A => ([(.float, .main), (.floatOfa, .main), (.float, .main), (.float, .main)], [(.float, .main), (.float, .main), (.float, .main)])
  | 0x0B => (List.replicate (pmNin pm) (.exin, .main), List.replicate (pmNout pm) (.float, .main))
  | _ => ([], [])

/-- How many variants an opcode has; none for a reserved opcode. -/
def variants (op : Nat) : Nat :=
  match op with
  | 0x01 => 1 | 0x02 => 2 | 0x03 => 1 | 0x04 => 8 | 0x05 => 5 | 0x06 => 2 | 0x07 => 2 | 0x08 => 1 | 0x09 => 2 | 0x0A => 1 | 0x0B => 1
  | _ => 0

/-- Whether a stage may stand at a position. -/
def posOk (op k nst : Nat) : Bool :=
  if op = 0x02 || op = 0x08 then k == 0
  else if op = 0x05 || op = 0x06 || op = 0x07 || op = 0x09 then k + 1 == nst
  else if op = 0x0A then nst == 1
  else true

/-- Whether a stage ends the pipeline with something other than a stream of the main length. -/
def terminal (op : Nat) : Bool := op == 0x05 || op == 0x06 || op == 0x07 || op == 0x09

/-! ### Operand slots (R203, R180) -/

/-- The use of an operand slot: its stage, whether it is read, an intermediate (1) or written (2), its format, its elements and bytes,
and whether it is the scale array of the slot before it. -/
structure SlotUse where
  slot : Nat
  stage : Nat
  io : Nat
  fmt : Nat
  kind : SKind
  scale : Bool
  elems : Nat
  bytes : Nat
  deriving DecidableEq, Repr

/-- A stream of a stage: its slot (none for the carried stream), format, permitted set and kind. -/
structure Stream where
  slot : Option Nat
  fmt : Nat
  set : FSet
  kind : SKind
  deriving DecidableEq, Repr

/-- A stage of the pipeline. -/
structure Stage where
  op : Nat
  var : Nat
  rnd : Nat
  sat : Bool
  ins : List Stream
  outs : List Stream
  deriving DecidableEq, Repr

/-- The bytes of n elements of a format. -/
def fmtBytes (fmt n : Nat) : Nat := match elemOf fmt with | some e => (e.bits * n + 7) / 8 | none => 0

/-- The elements of a stream kind; `a` is the format of the first input. (DEDUCED: log entry 52) -/
def kindElems (o pm a : Nat) : SKind → Nat
  | .main => opCount o
  | .seg => opCount o / max 1 (pmSeg pm)
  | .idx => opCount o / max 1 (pmRowlen pm)
  | .table => pmRows pm * pmRowlen pm
  | .record => 1
  | .crcWhole => 1
  | .crcBlock => (fmtBytes a (opCount o) + 4095) / 4096

/-- The bytes of a stream. (DEDUCED: log entry 52) -/
def kindBytes (o pm a fmt : Nat) (k : SKind) : Nat :=
  match k with
  | .record => 16
  | .crcWhole => 4
  | .crcBlock => 4 * kindElems o pm a k
  | k => fmtBytes fmt (kindElems o pm a k)

/-- Whether a stream kind is made of elements of the slot's format. -/
def SKind.elementwise : SKind → Bool
  | .record => false | .crcWhole => false | .crcBlock => false | _ => true

/-- Slots taken by roles from a slot upward: an MX operand takes the next slot for its scales (R180). -/
def takeSlots (o pm a stage io : Nat) : Nat → List (FSet × SKind) → Nat × List SlotUse × List Stream
  | n, [] => (n, [], [])
  | n, (f, k) :: r =>
    let fmt := fmtAt o n
    let mx := k.elementwise && io ≠ 1 && (match elemOf fmt with | some e => e.isMx | none => false)
    let u : SlotUse := { slot := n, stage := stage, io := io, fmt := fmt, kind := k, scale := false
                         elems := kindElems o pm a k, bytes := kindBytes o pm a fmt k }
    let us := if mx then [u, { u with slot := n + 1, fmt := fmtAt o (n + 1), scale := true, bytes := u.elems / 32 }] else [u]
    let (n', us', ss) := takeSlots o pm a stage io (if mx then n + 2 else n + 1) r
    (n', us ++ us', { slot := some n, fmt := fmt, set := f, kind := k } :: ss)

/-- The slots and stages of a block from stage k on; `carry` is the format of the carried stream. -/
def planFrom (o pm nst : Nat) : Nat → Nat → Nat → Nat → List SlotUse × List Stage
  | 0, _, _, _ => ([], [])
  | left + 1, k, n, carry =>
    let op := opcAt o k
    let rs := roles op (varAt o k) pm
    let a := if k = 0 then fmtAt o n else carry
    let (n1, us1, ins) := takeSlots o pm a k 0 n (if k = 0 then rs.1 else rs.1.drop 1)
    let ins := if k = 0 then ins else (rs.1.take 1).map (fun r => { slot := none, fmt := carry, set := r.1, kind := r.2 }) ++ ins
    let (n2, us2, outs) := takeSlots o pm a k (if k + 1 = nst then 2 else 1) n1 rs.2
    let st : Stage := { op := op, var := varAt o k, rnd := rndAt o k, sat := satAt o k, ins := ins, outs := outs }
    let (us3, sts) := planFrom o pm nst left (k + 1) n2 ((outs.head?.map (·.fmt)).getD 6)
    (us1 ++ us2 ++ us3, st :: sts)

/-- The slots and stages of a block (R203). (DESIGN CHOICE: log entry 53) -/
def plan (o nst pm : Nat) : List SlotUse × List Stage := planFrom o pm nst nst 0 0 6

/-- The number of stages of a scheduled operation's block, whose opcodes at or above it are zero (R202). (DESIGN CHOICE: log entry 53) -/
def stagesOf (o : Nat) : Nat := ((List.range 4).takeWhile fun k => opcAt o k ≠ 0).length

/-! ### Validity (R204, R205, R220) -/

/-- Whether any of the stages needs the parameter block. -/
def needsParam (o nst : Nat) : Bool :=
  (List.range nst).any fun k => let op := opcAt o k
    op == 0x02 || op == 0x05 || op == 0x08 || op == 0x09 || op == 0x0A || op == 0x0B || (op == 0x06 && varAt o k == 1)

/-- Fields of an instruction of R219. -/
def iOp (w : Nat) : Nat := bitsOf w 26 6
def iD (w : Nat) : Nat := bitsOf w 22 4
def iA (w : Nat) : Nat := bitsOf w 18 4
def iB (w : Nat) : Nat := bitsOf w 14 4
def iC (w : Nat) : Nat := bitsOf w 10 4
def iK (w : Nat) : Nat := bitsOf w 0 4

/-- Which of the fields D, A, B and C an instruction uses. -/
def iUses (op : Nat) : Bool × Bool × Bool × Bool :=
  match op with
  | 0x01 => (true, false, false, false) | 0x02 => (false, true, false, false) | 0x03 => (true, false, false, false)
  | 0x07 => (true, true, true, true) | 0x0F => (true, true, true, true) | 0x10 => (true, true, true, true)
  | 0x09 => (true, true, false, false) | 0x0C => (true, true, false, false) | 0x0D => (true, true, false, false)
  | _ => (true, true, true, false)

/-- Whether an instruction is defined, with its unused register fields 0 and K in range (R219, R220). -/
def instrOk (pm w : Nat) : Bool :=
  let op := iOp w
  let (d, a, b, c) := iUses op
  1 ≤ op && op ≤ 0x10 && (d || iD w == 0) && (a || iA w == 0) && (b || iB w == 0) && (c || iC w == 0)
    && (op ≠ 0x01 || iK w < pmNin pm) && (op ≠ 0x02 || iK w < pmNout pm) && (op ≠ 0x03 || iK w < pmNconst pm)

/-- Whether a program is valid (R220). -/
def progOk (pm : Nat) : Bool :=
  let n := pmNinstr pm
  let ws := (List.range n).map (pmInstr pm)
  let times := fun (op k : Nat) => (ws.filter fun w => iOp w == op && iK w == k).length
  1 ≤ n && n ≤ 32 && ws.all (instrOk pm) && (List.range (pmNin pm)).all (fun k => times 1 k == 1)
    && (List.range (pmNout pm)).all (fun k => times 2 k == 1)

/-- Whether the parameter block suits the stages (R205). -/
def paramOk (o nst pm : Nat) : Bool :=
  let ops := (List.range nst).map (opcAt o)
  let c := opCount o
  pmNconst pm ≤ 16
    && (if ops.contains 0x0B then 1 ≤ pmNin pm && pmNin pm ≤ 8 && 1 ≤ pmNout pm && pmNout pm ≤ 4 && progOk pm
          && (!(ops.take (nst - 1)).contains 0x0B || pmNout pm == 1)
        else pmNinstr pm == 0)
    && (!ops.contains 0x05 || (1 ≤ pmSeg pm && pmSeg pm ≤ c && c % pmSeg pm == 0))
    && (!(ops.contains 0x08 || ops.contains 0x09) || (1 ≤ pmRowlen pm && pmRowlen pm ≤ 65536 && c % pmRowlen pm == 0))
    && (!ops.contains 0x02 || 1 ≤ pmNconst pm)

/-- Whether a format code is MX, or an integer format. -/
def mxFmt (f : Nat) : Bool := match elemOf f with | some e => e.isMx | none => false
def intFmt (f : Nat) : Bool := match elemOf f with | some e => e.isInt | none => false

/-- Whether a stage creates an OFA target (R207 to R209, R213). -/
def Stage.makesOfa (st : Stage) : Bool :=
  let f := (st.outs.head?.map (·.fmt)).getD 6
  st.op == 0x04 || (st.op == 0x05 && st.var < 2) || ((st.op == 0x02 || st.op == 0x03 || st.op == 0x05) && f == 0x1F)
    || (st.op == 0x09 && (if st.var = 0 then !intFmt f else f == 0x1F))

/-- Whether the formats of a stage's streams are ones that the catalogue permits, and MX streams have whole blocks. -/
def Stage.fmtsOk (o pm : Nat) (st : Stage) : Bool :=
  let a := (st.ins.head?.map (·.fmt)).getD 6
  (st.ins ++ st.outs).all fun x => x.set.has a x.fmt
    && (!(mxFmt x.fmt && x.kind.elementwise) || kindElems o pm a x.kind % 32 == 0)

/-- Whether a block is valid in itself (R202 to R206, R220), the ranges apart. (DEDUCED: log entry 58) -/
def blockOk (o nst pm : Nat) : Bool :=
  let (us, sts) := plan o nst pm
  1 ≤ nst && nst ≤ 4 && 1 ≤ opCount o
    && (List.range 4).all (fun k => k < nst || opcAt o k == 0)
    && (List.range nst).all (fun k => varAt o k < variants (opcAt o k) && rndAt o k ≤ 5 && posOk (opcAt o k) k nst)
    && (!needsParam o nst || paramOk o nst pm)
    && us.length ≤ 16 && us.all (fun u => !u.scale || u.fmt == 0x11)
    && sts.all (Stage.fmtsOk o pm)
    && (opAnchor o ≤ 0x7E || !sts.any Stage.makesOfa)
    && (match sts.getLast? with
        | some st => if st.op == 0x09 && st.var == 0 then
              opNwin o ≤ 16 && (intFmt ((st.outs.head?.map (·.fmt)).getD 6) || pmRows pm * pmRowlen pm ≤ opNwin o * 16384)
            else opNwin o == 0
        | none => false)

/-- Whether the ranges fit the slots: every read and written slot has exactly the bytes it implies, with ACC 0 or 1, and no
other slot has a range (R204). -/
def rangesOk (us : List SlotUse) (rs : List Rng) : Bool :=
  rs.all (fun r => us.any fun u => u.slot == r.slot.toNat && u.io ≠ 1 && r.acc.toNat == (if u.io = 0 then 0 else 1))
    && us.all fun u => u.io == 1
      || (rs.any (fun r => r.slot.toNat == u.slot) && ((rs.filter fun r => r.slot.toNat == u.slot).map (·.len.toNat)).sum == u.bytes)

/-- R204 of a job: the block, its ranges, and a parameter block where a stage needs one. (DEDUCED: log entry 58) -/
def opOk (o nst pm : Nat) (rs : List Rng) : Bool :=
  blockOk o nst pm && (!needsParam o nst || bitsOf o 192 64 ≠ 0) && rangesOk (plan o nst pm).1 rs

/-! ### Throughput (R159, R216) -/

/-- The bytes a slot moves for the whole main stream: a GATHER reads one table element for each element. -/
def SlotUse.moves (o : Nat) (u : SlotUse) : Nat := if u.io = 0 && u.kind = .table then fmtBytes u.fmt (opCount o) else u.bytes

/-- The elements that an engine processes in 256 cycles, and at most 16 KiB of any one input (R159, R216); at least one. -/
def blockMax (o nst pm : Nat) : Nat :=
  let us := (plan o nst pm).1
  let c := opCount o
  let tot := fun (io : Nat) => ((us.filter (·.io = io)).map (SlotUse.moves o)).sum
  let lim := fun (k : Nat) => match opcAt o k with
    | 0x04 => 8192 / (varAt o k + 1) | 0x05 => 8192 | 0x09 => 8192 | 0x0A => 1024 | 0x0B => 8192 / max 1 (pmNinstr pm) | _ => 16384
  let least := fun (l : List Nat) => l.foldl min 16384
  max 1 (least ((List.range nst).map lim ++ (us.filter (·.io = 0)).map (fun u => 16384 * c / max 1 (u.moves o))
    ++ [16384 * c / max 1 (tot 0), 16384 * c / max 1 (tot 2)]))

/-! ### Elements -/

/-- An element as it passes through a stage: its encoding (scale and code), a value, or an OFA word. -/
inductive Item where
  | raw (scale code : Nat)
  | val (v : Val)
  | word (w : Ofa)
  deriving DecidableEq, Repr

/-- An encoding as a value or word of a format. (DEDUCED: log entry 52) -/
def itemOf (fmt : Nat) (x : Nat × Nat) : Item :=
  match elemOf fmt with
  | some .ofa => .word (.ofBits x.2)
  | some e => .val (e.dec x.1 x.2)
  | none => .raw x.1 x.2

/-- The exact value of an element; that of a word is taken with no fold and no rounding, and a special word counts as what it reads out as (R194,
R209). -/
def Item.v : Item → Val
  | .raw _ _ => .nan
  | .val v => v
  | .word w => w.value

/-- The value that an element is converted from: a word is folded before (R198). -/
def Item.readout : Item → Val
  | .word w => w.fold.value
  | x => x.v

/-- An element absorbed or merged into a word (R195). -/
def Item.into (anchor : Nat) (x : Item) (w : Ofa) : Ofa :=
  match x with
  | .word y => w.merge anchor y
  | x => w.absorb anchor x.v

/-- Elements encoded in a format; `d i` is the rounding of element i of the list (R189 to R191, R198, R207). (DEDUCED: log entry 52) -/
def encItems (anchor fmt : Nat) (d : Nat → Rnd) (l : List Item) : List (Nat × Nat) :=
  match elemOf fmt with
  | some .ofa => l.map fun x => match x with
    | .raw s c => (s, c)
    | x => (0, ((x.into anchor (.empty anchor)).fold).bits)
  | some e =>
    if e.isMx && l.all (fun x => match x with | .raw _ _ => false | _ => true) then
      let (s, cs) := mxEnc e d (l.map Item.readout)
      cs.map fun c => (s, c)
    else l.mapIdx fun i x => match x with
      | .raw s c => (s, c)
      | .word w => (0, e.enc (w.fold.rnd (d i)) w.fold.value)
      | .val v => (0, e.enc (d i) v)
  | none => l.map fun _ => (0, 0)

/-- The rounding of the output element of a given stochastic-rounding index (R184, R186, R188). -/
def Stage.round (st : Stage) (seed k idx : Nat) : Rnd := { mode := st.rnd, sat := st.sat, draw := srDraw seed k idx }

/-! ### Expression programs (R218, R219) -/

/-- The registers and outputs after one instruction; every input is in FP32. -/
def exprStep (pm : Nat) (ins : List Val) (x : List Val × List Val) (w : Nat) : List Val × List Val :=
  let r := fun (k : Nat) => x.1.getD k (.fin false 0 0)
  let a := r (iA w); let b := r (iB w); let c := r (iC w)
  let put := fun (v : Val) => (x.1.set (iD w) v, x.2)
  match iOp w with
  | 0x01 => put (ins.getD (iK w) .nan)
  | 0x02 => (x.1, x.2.set (iK w) a)
  | 0x03 => put (pmConst pm (iK w))
  | 0x04 => put (r32 (addVal a b))
  | 0x05 => put (r32 (addVal a b.neg))
  | 0x06 => put (r32 (mulVal a b))
  | 0x07 => put (r32 (addVal (mulVal a b) c))
  | 0x08 => put (r32 (divVal a b))
  | 0x09 => put (r32 (sqrtVal a))
  | 0x0A => put (minVal a b)
  | 0x0B => put (maxVal a b)
  | 0x0C => put a.mag
  | 0x0D => put a.neg
  | 0x0E => put (.fin false (if a.ltIeee b then 1 else 0) 0)
  | 0x0F => put (if a.truthy then b else c)
  | _ => put (minVal (maxVal a b) c)

/-- The outputs of the program for one element. -/
def exprRun (pm : Nat) (ins : List Val) : List Val :=
  let z : Val := .fin false 0 0
  (((List.range (pmNinstr pm)).map (pmInstr pm)).foldl (exprStep pm (ins.map r32)) (List.replicate 16 z, List.replicate (pmNout pm) z)).2

/-- One element of OPT2M (R214): P′, M′ and S′ in FP32. -/
def opt2m (pm : Nat) (p g m s : Val) : List Val :=
  let c := pmConst pm
  let p := r32 p; let g := r32 g; let m := r32 m; let s := r32 s
  let m1 := r32 (mulVal (c 1) g)
  let m := r32 (addVal (mulVal (c 0) m) m1)
  let g2 := r32 (mulVal g g)
  let s1 := r32 (mulVal (c 3) g2)
  let s := r32 (addVal (mulVal (c 2) s) s1)
  let mh := r32 (mulVal m (c 7))
  let sh := r32 (mulVal s (c 8))
  let q := r32 (addVal (sqrtFine sh) (c 5))
  let d := r32 (divVal mh q)
  let u := r32 (addVal (mulVal (c 6) p) d)
  [r32 (addVal p (r32 (mulVal (c 4) u)).neg), m, s]

/-! ### Stages of one element each -/

/-- The outputs of an elementwise stage for the element at main index i (R207, R208, R212, R214, R218). -/
def Stage.elt (st : Stage) (o pm i : Nat) (xs : List (Nat × (Nat × Nat))) : List Item :=
  let it := fun (k : Nat) => let x := xs.getD k (6, 0, 0); itemOf x.1 x.2
  let a := opAnchor o
  match st.op with
  | 0x01 => let x := xs.getD 0 (6, 0, 0); [.raw x.2.1 x.2.2]
  | 0x02 => [.val (pmConst pm (if st.var = 0 then 0 else i % max 1 (pmNconst pm)))]
  | 0x03 => [it 0]
  | 0x04 => [.word (xs.foldl (fun w x => (itemOf x.1 x.2).into a w) (.empty a)).fold]
  | 0x08 => [it 0]
  | 0x0A => (opt2m pm (it 0).v (it 1).v (it 2).v (it 3).v).map .val
  | 0x0B => (exprRun pm ((List.range xs.length).map fun k => (it k).v)).map .val
  | _ => []

/-- The main streams of a stage for the u elements from e: for each element one encoding for each stream; none when data
is missing. `rd` reads an element of a slot. -/
def Stage.read (st : Stage) (rd : Nat → Nat → Nat → Option (Nat × Nat)) (carry : List (Nat × Nat)) (e u : Nat) :
    Option (List (List (Nat × (Nat × Nat)))) :=
  let ss := if st.op = 0x08 then st.ins.drop 1 else st.ins.filter (·.kind = .main)
  (List.range u).mapM fun i => ss.mapM fun x => match x.slot with
    | none => (carry[i]?).map fun c => (x.fmt, c)
    | some n => (rd n x.fmt (e + i)).map fun c => (x.fmt, c)

/-- The encoded outputs of an elementwise stage, one list for each output; output k of several draws at 4i + k (R215). -/
def Stage.outputs (st : Stage) (o pm seed k e : Nat) (xs : List (List (Nat × (Nat × Nat)))) : List (List (Nat × Nat)) :=
  let items := xs.mapIdx fun i x => st.elt o pm (e + i) x
  let n := st.outs.length
  st.outs.mapIdx fun q x =>
    encItems (opAnchor o) x.fmt (fun i => st.round seed k (if n = 1 then e + i else 4 * (e + i) + q))
      (items.map fun l => l.getD q (.raw 0 0))

/-- The stages from stage k on for the u elements from e: what the last elementwise stage writes, or what a terminal stage reads, with
that stage's number and itself. -/
def pipe (o pm seed : Nat) (rd : Nat → Nat → Nat → Option (Nat × Nat)) (e u : Nat) :
    Nat → List (Nat × Nat) → List Stage → Option (Nat × Stage × List (List (Nat × (Nat × Nat))) × List (List (Nat × Nat)))
  | _, _, [] => none
  | k, carry, st :: rest => do
    let xs ← st.read rd carry e u
    if terminal st.op then some (k, st, xs, [])
    else
      let outs := st.outputs o pm seed k e xs
      match rest with
      | [] => some (k, st, xs, outs)
      | rest => pipe o pm seed rd e u (k + 1) (outs.headD []) rest

/-! ### What a unit of elements writes -/

/-- Element codes of w bits as bytes. -/
def codeBytes (w : Nat) (l : List Nat) : List Byte :=
  leBytes ((w * l.length + 7) / 8) (packBits (l.mapIdx fun i c => (w * i, w, c)))

/-- Bytes for a slot at a stream position. -/
abbrev Piece := Nat × Nat × List Byte

/-- Encoded elements from element index i of a slot as pieces: the elements, and the scale of an MX block. -/
def outPieces (slot fmt i : Nat) (l : List (Nat × Nat)) : List Piece :=
  let w := match elemOf fmt with | some e => e.bits | none => 8
  (slot, w * i / 8, codeBytes w (l.map (·.2)))
    :: (if mxFmt fmt then [(slot + 1, i / 32, [BitVec.ofNat 8 (l.headD (0, 0)).1])] else [])

/-- What processing a unit leaves: the state of the last stage, the pieces to write, and the elements to add at destinations (R213). -/
structure UnitOut where
  st : StageSt := {}
  writes : List Piece := []
  adds : List (Nat × (Nat × (Nat × Nat))) := []
  deriving DecidableEq, Repr

/-- The square of an element for SUMSQ (R209). -/
def Item.square (x : Item) : Item :=
  match x with
  | .word (.special f) => if (Ofa.special f).isOvf then .word (.special fOvf)
      else match (Ofa.special f).value with | .inf _ => .word (.special fPinf) | _ => .word (.special fNan)
  | x => .val (mulVal x.v x.v)

/-- The value of a segment after one more element (MAX, MIN, ABSMAX of R209). -/
def pickVal (var : Nat) (best : Option Val) (v : Val) : Val :=
  let v := if var = 4 then v.mag else v
  match best with
  | none => v
  | some b => if var = 3 then minVal b v else maxVal b v

/-- One element of REDUCE (R209): the segment's word or value, and its output when the segment is complete. -/
def reduceElt (st : Stage) (o pm seed k : Nat) (x : Nat × (Nat × Nat)) (u : UnitOut) : UnitOut :=
  let a := opAnchor o
  let s := u.st
  let it := itemOf x.1 x.2
  let s := if st.var < 2 then
      { s with word := BitVec.ofNat 128 ((if st.var = 0 then it else it.square).into a (.stored a s.word.toNat)).bits }
    else { s with best := some (pickVal st.var s.best it.v) }
  if s.count + 1 < pmSeg pm then { u with st := { s with count := s.count + 1 } }
  else
    let out : Item := if st.var < 2 then .word (Ofa.stored a s.word.toNat).fold else .val (s.best.getD .nan)
    let s' := { s with count := 0, word := 0, best := none, outs := s.outs + 1 }
    let f := (st.outs.head?.map (·.fmt)).getD 6
    let slot := (st.outs.head?.bind (·.slot)).getD 0
    if mxFmt f then
      let h := s.hold ++ [out.readout]
      if h.length < 32 then { u with st := { s' with hold := h } }
      else
        let b := s.outs - 31
        { u with st := { s' with hold := [] }
                 writes := u.writes ++ outPieces slot f b (encItems a f (fun i => st.round seed k (b + i)) (h.map .val)) }
    else { u with st := s', writes := u.writes ++ outPieces slot f s.outs (encItems a f (fun _ => st.round seed k s.outs) [out]) }

/-- A sign-magnitude encoding as an ordered integer (R210). (DEDUCED: log entry 56) -/
def signMag (w c : Nat) : Int := if bitsOf c (w - 1) 1 = 1 then -(bitsOf c 0 (w - 1) : Int) else bitsOf c 0 (w - 1)

/-- Whether a pair mismatches (R210). R210 does not place an infinity against a finite number: with VARIANT ULP such a pair mismatches, whatever TOL.
(DEDUCED: log entry 56; DESIGN CHOICE: log entry 57) -/
def mismatch (var tol fmt : Nat) (x y : Nat × Nat) : Bool :=
  if var = 0 then x != y
  else match elemOf fmt with
    | none => false
    | some e =>
      match e.dec x.1 x.2, e.dec y.1 y.2 with
      | .nan, .nan => false
      | .nan, _ => true
      | _, .nan => true
      | .inf s, .inf t => s != t
      | .inf _, _ => true
      | _, .inf _ => true
      | _, _ =>
        if e.isMx && x.1 ≠ y.1 then Config.mxUlp x.1 x.2 y.1 y.2
        else
          let n := fun (c : Nat) => match e with
            | .int sg b => intDec sg b c
            | .mxint => intDec true 8 c
            | e => signMag e.bits c
          decide ((n x.2 - n y.2).natAbs > tol)

/-- One pair of COMPARE at main index i. (DEDUCED: log entries 52, 56; DESIGN CHOICE: log entry 57) -/
def compareElt (st : Stage) (pm i : Nat) (xs : List (Nat × (Nat × Nat))) (s : StageSt) : StageSt :=
  let x := xs.getD 0 (6, 0, 0); let y := xs.getD 1 (6, 0, 0)
  if mismatch st.var (pmTol pm) x.1 x.2 y.2 then { s with mism := s.mism + 1, first := some (s.first.getD i) } else s

/-- One byte of CHECKSUM (R211): with VARIANT BLOCK a checksum is written for each 4 KiB. (DEDUCED: log entry 52) -/
def crcStep (block : Bool) (slot : Nat) (u : UnitOut) (b : Byte) : UnitOut :=
  let c := crcByte u.st.crc b
  let n := u.st.crcBytes + 1
  if block && n = 4096 then
    { u with st := { u.st with crc := 0xFFFFFFFF, crcBytes := 0, crcOut := u.st.crcOut + 1 }
             writes := u.writes ++ [(slot, 4 * u.st.crcOut, leBytes 4 (c ^^^ 0xFFFFFFFF).toNat)] }
  else { u with st := { u.st with crc := c, crcBytes := n } }

/-- What a terminal stage writes when the main stream has ended: the record of COMPARE, the last checksum. -/
def Stage.finish (st : Stage) (u : UnitOut) : UnitOut :=
  let slot := (st.outs.head?.bind (·.slot)).getD 0
  match st.op with
  | 0x06 => { u with writes := u.writes ++ [(slot, 0, leBytes 16 (u.st.mism + (u.st.first.getD (2 ^ 64 - 1)) * 2 ^ 64))] }
  | 0x07 => if st.var = 0 || u.st.crcBytes > 0 then
      { u with writes := u.writes ++ [(slot, 4 * u.st.crcOut, leBytes 4 (u.st.crc ^^^ 0xFFFFFFFF).toNat)] } else u
  | _ => u

/-- A terminal stage over a unit of elements from main index e (R209 to R211, R213). `row` gives the destination row of an element of
SCATTER_ADD. -/
def Stage.terminate (st : Stage) (o pm seed k e : Nat) (row : Nat → Nat) (xs : List (List (Nat × (Nat × Nat)))) (s : StageSt) : UnitOut :=
  let slot := (st.outs.head?.bind (·.slot)).getD 0
  let u0 : UnitOut := { st := s }
  match st.op with
  | 0x05 => xs.foldl (fun u x => reduceElt st o pm seed k (x.getD 0 (6, 0, 0)) u) u0
  | 0x06 => { u0 with st := (xs.foldl (fun a x => (a.1 + 1, compareElt st pm a.1 x a.2)) (e, s)).2 }
  | 0x07 =>
    let f := (st.ins.head?.map (·.fmt)).getD 6
    let w := match elemOf f with | some e => e.bits | none => 8
    (codeBytes w (xs.map fun x => (x.getD 0 (6, 0, 0)).2.2)).foldl (crcStep (st.var == 1) slot) u0
  | _ => { u0 with adds := xs.mapIdx fun i x =>
      (row (e + i) * pmRowlen pm + (e + i) % max 1 (pmRowlen pm), x.getD 0 (6, 0, 0)) }

/-- The unit in which a pipeline is processed: 32 elements when a slot is MX, otherwise one. -/
def unitOf (us : List SlotUse) : Nat := if us.any (fun u => mxFmt u.fmt && u.kind.elementwise) then 32 else 1

/-- The u elements from e of an operation: none when data is missing. -/
def runUnit (o nst pm seed : Nat) (rd : Nat → Nat → Nat → Option (Nat × Nat)) (row : Nat → Nat) (e u : Nat) (s : StageSt) : Option UnitOut := do
  let (k, st, xs, outs) ← pipe o pm seed rd e u 0 [] (plan o nst pm).2
  if terminal st.op then
    let r := st.terminate o pm seed k e row xs s
    some (if e + u = opCount o then st.finish r else r)
  else
    some { st := s, writes := (List.zip st.outs outs).flatMap fun x => outPieces (x.1.slot.getD 0) x.1.fmt e x.2 }

/-! ### SCATTER_ADD (R213) -/

/-- A value added to an integer destination element, with wrapping. -/
def intAdd (fmt : Nat) (d : Rnd) (old : Nat) (x : Nat × (Nat × Nat)) : Nat :=
  match elemOf fmt with
  | some (.int sg b) => intCode b (intDec sg b old + toIntVal sg b d (itemOf x.1 x.2).v)
  | _ => old

/-- The pieces of a unit of values of DIRECT at their destinations. (DESIGN CHOICE: log entry 57) -/
def directPieces (o pm seed k e : Nat) (st : Stage) (adds : List (Nat × (Nat × (Nat × Nat)))) : List Piece :=
  let f := (st.outs.head?.map (·.fmt)).getD 6
  let slot := (st.outs.head?.bind (·.slot)).getD 0
  let enc := encItems (opAnchor o) f (fun i => st.round seed k (e + i)) (adds.map fun a => itemOf a.2.1 a.2.2)
  if mxFmt f then
    let i := (adds.headD (0, 6, 0, 0)).1
    let ps := outPieces slot f i enc
    if pmRowlen pm % 32 = 0 then ps
    else ps.map fun p => (p.1, p.2.1, p.2.2.mapIdx fun j _ => BitVec.ofNat 8 (Config.mxDirect p.2.1 j))
  else (List.zip adds enc).flatMap fun x => outPieces slot f x.1.1 [x.2]

end Sys2Proof.Machine
end

