-- ==== Sys2Proof/Machine/Jobs.lean ====
section
/-! DEFINITION. The life of a dynamic job outside the engine (R152 to R172): fault records of a tile, the end of a job and its completion,
stops, cancels, aborts, and dispatch. -/
namespace Sys2Proof.Machine

/-! ### Names -/

/-- Causes of a job's end (R166). -/
def jcDone : Byte := 0
def jcCancelled : Byte := 1
def jcRetired : Byte := 2
def jcMemory : Byte := 3
def jcTranslation : Byte := 4
def jcBudget : Byte := 5
def jcEngine : Byte := 6

/-- JOB_ID (R152). -/
def jobId (n k : Nat) (j : Job) : Nat := n * 2 ^ 27 + k * 2 ^ 21 + j.inc.toNat
/-- Occupied slots of a tile, ascending. -/
def Tile.slots (t : Tile) : List Nat := (List.range 64).filter fun k => (t.job k).st ≠ .free
/-- The partition of a job. -/
def Job.part (j : Job) : Nat := cidPart j.cid
/-- Whether a tile is disabled: not enabled, or disabled by failed tests (R155, R504). (DEDUCED: log entry 60) -/
def State.tileDead (s : State) (n : Nat) : Bool := !s.tileEn n || (s.tile n).kat.health == 2

/-! ### The operation of a job -/

def Job.op (j : Job) : Nat := j.opblk.toNat
def Job.pm (j : Job) : Nat := j.param.toNat
/-- The output element that a write piece of a slot at a stream position begins in. -/
def Job.stageOpc (j : Job) (k : Nat) : Nat := opcAt j.op k
/-- The number of output elements of a whole operation. -/
def outTotal (o nst pm : Nat) : Nat :=
  ((plan o nst pm).1.find? fun u => u.io = 2).elim 0 fun u => match u.kind with
    | .table => if varAt o (nst - 1) = 0 then u.elems else opCount o
    | _ => u.elems
/-- The output elements that an operation has produced so far. -/
def Eng.produced (e : Eng) (o nst pm : Nat) : Nat :=
  if e.finished then outTotal o nst pm
  else match opcAt o (nst - 1) with
    | 0x05 => e.last.outs - e.last.hold.length
    | 0x06 => 0
    | 0x07 => e.last.crcOut
    | 0x09 => if varAt o (nst - 1) = 0 then (if e.phase = 2 then e.row else 0) else e.elem
    | _ => e.elem
/-- ELEMS_DONE (R166): every output element below it is written. -/
def Job.elemsDone (j : Job) : Nat :=
  ((j.eng.out ++ j.eng.retry).filter (·.write)).foldl (fun m a => min m a.elem) (j.eng.produced j.op j.nstage j.pm)

/-! ### Fault records (R86, R167, R488) -/

/-- A translation fault record of a job (R488). -/
def State.transFault (s : State) (n k cause pva level acc : Nat) (entry : Word) (st : Status) (phase : Nat) : FaultRec :=
  let j := s.job n k
  { cause := BitVec.ofNat 8 cause, cid := j.cid, ft := s.stamp
    body := BitVec.ofNat 384 (packBytes [(0, 4, jobId n k j), (4, 4, j.tag.toNat), (8, 6, pva), (14, 1, level), (15, 1, acc),
      (16, 8, entry.toNat), (24, 1, st.toNat), (25, 1, phase), (26, 1, n)]) }

/-- Whether a partition discards its fault records (R168): from CLOSING until FREE. -/
def State.discards (s : State) (p : Nat) : Bool := (s.part p).state == 3 || (s.part p).state == 0

/-- A job's fault record leaves it: posted, or discarded when its partition closes, or placed in the tile's pending slot, which parks the
engine (R167, R168). -/
def State.offerRec (s : State) (n k : Nat) : State :=
  let j := s.job n k
  match j.frec with
  | none => s
  | some r =>
    let p := j.part
    let done := fun (s : State) => s.modJob n k fun j => { j with recPosted := true }
    if j.recPosted then s
    else if s.discards p then done s
    else if (s.part p).fq.length < 256 && (s.part p).overflow.isEmpty && (s.pendOf p).isEmpty then done (s.postFault p r)
    else match (s.tile n).pend with
      | some _ => s
      | none =>
        let no := (s.pendOf p).foldl (fun m e => max m e.1) 0 + 1
        (s.modTile n fun t => { t with pend := some (k, r), pendAt := s.now, pendNo := no, parked := true }).bump (tileBlk n) 6

/-! ### The end of a job (R153, R166) -/

/-- The engine time of the block in progress, in ns (R174), and in ns of FT (R149). -/
def State.blockNs (s : State) (e : Eng) : Nat := s.now - e.blockAt
def State.blockFtNs (s : State) (e : Eng) : Nat := s.hubNs - e.blockFt

/-- The engine leaves a running job: its time is counted, what it has read and not consumed is discarded (R159, R162). -/
def State.leaveEngine (s : State) (n k : Nat) : State :=
  let j := s.job n k
  if (s.tile n).running = some k then
    let d := s.blockNs j.eng
    let f := s.blockFtNs j.eng
    let s := s.time (tileBlk n) 0 d
    (s.modTile n fun t => { t with running := none }).modJob n k fun j =>
      { j with engNs := j.engNs + f, quantNs := j.quantNs + d
               eng := { j.eng with buf := [], asked := [], blockAt := s.now, blockFt := s.hubNs, held := false, heldHost := false } }
  else s

/-- A descriptor slot becomes FREE: its windows and RPL entries are released, its incarnation count stays (R147, R152). -/
def State.slotFree (s : State) (n k : Nat) : State :=
  let j := s.job n k
  let mine := (List.range 16).filter fun w => tget WState.free (s.tile n).wins w == .job k
  let s := s.modTile n fun t =>
    let t := mine.foldl (fun t w => { t.clearWin w with wins := tput .free t.wins w .free }) t
    { t.setJob k { inc := j.inc } with
      running := if t.running = some k then none else t.running
      walk := match t.walk with | some w => if w.slot = k then none else some w | none => none }
  s.wake (.job n k j.inc.toNat)

/-- The JOB_DONE record of a job (R166, R414). -/
def Job.doneRec (j : Job) (n k : Nat) : NtfRec :=
  { kind := 0, obj := BitVec.ofNat 32 (jobId n k j), tag := j.tag, cid := j.cid
    status := if j.cause = jcMemory then j.status.setWidth 8 else 0, cause := j.cause
    spec := BitVec.ofNat 160 (packBytes [(0, 1, if j.cause.toNat < 3 then 0 else j.stage),
      (4, 8, if j.cause = jcEngine && j.heldKat then 0 else j.elemsDone), (12, 6, j.failPva.toNat)])
    ft := j.ftEnd }

/-- An ended job hands off its completion. QJ_END_FAIL, which the spec only names, counts every cause other than DONE, CANCELLED and CONTEXT_RETIRED
among them (DESIGN CHOICE: log entry 53). Its slot is freed at the hand-off, or stays ENDING while the ring is full (R166, R415). -/
def State.handOff (s : State) (n k : Nat) : State :=
  let j := s.job n k
  let p := j.part
  let s := if j.cause = jcDone then s else s.bump (tileBlk n) 5
  if j.cause = jcDone && !j.flags.getLsbD 0 then s.slotFree n k
  else
    let room := (s.ring p).recs.length < 1024 && (s.ring p).waiting.isEmpty
    let s := (s.doneRec p (j.doneRec n k) (some (n, k))).modJob n k fun j => { j with handed := true }
    if room then s.slotFree n k else s

/-- A job in ENDING goes on when every access has completed and its record has been posted: a test falls due and holds it on a suspect
tile (R502, R503), and otherwise its completion is handed off. -/
def State.tryEnd (s : State) (n k : Nat) : State :=
  let j := s.job n k
  if j.st ≠ .ending || !j.eng.out.isEmpty || !j.eng.done.isEmpty || (j.frec.isSome && !j.recPosted) || j.heldKat || j.handed then s
  else
    let s := s.modTile n fun t => { t with kat := { t.kat with
      jobs := min 256 (t.kat.jobs + 1), due := t.kat.due || t.kat.health == 1
      trigger := if t.kat.health == 1 && !t.kat.due then 1 else t.kat.trigger } }
    if (s.tile n).kat.health = 1 then s.modJob n k fun j => { j with heldKat := true } else s.handOff n k

/-- A job enters ENDING with a cause, and leaves the engine and the walker (R153). -/
def State.endJob (s : State) (n k : Nat) (cause : Byte) (st : Status) (stage : Nat) (pva : BitVec 48) (rec : Option FaultRec) : State :=
  let s := s.leaveEngine n k
  let s := s.modTile n fun t => { t with walk := match t.walk with | some w => if w.slot = k then none else some w | none => none }
  let s := s.modJob n k fun j =>
    { j with st := .ending, cause := cause, status := st, stage := stage, failPva := pva, ftEnd := s.stamp, frec := rec, todo := [] }
  (s.offerRec n k).tryEnd n k

/-- Engine accesses issued and not completed. -/
def Eng.quietNow (e : Eng) : Bool := e.out.isEmpty && e.done.isEmpty

/-- Whether the cause of a stop has gone: the scheduled operation or the test has ended, the entries are re-resolved (R153, R171). -/
def Tile.cleared (t : Tile) (j : Job) : Bool :=
  !j.reres && j.todo.isEmpty && (match j.stop with
    | .sched => t.srun.isNone && t.swait.isEmpty
    | .kat => !t.kat.running && !t.kat.force
    | _ => true)

/-- SUSPENDED jobs of a tile whose stop cause has gone become READY, as quantum-stopped jobs when their quantum has expired as well (R153, R171), or
when a power state stopped them (R524). -/
def State.rouse (s : State) (n : Nat) : State :=
  s.modTile n fun t => (List.range 64).foldl (fun t k =>
    let j := t.job k
    if j.st = .suspended && t.cleared j then
      t.setJob k { j with st := .ready, lastStop := if j.quantum || j.stop == .power then .quantum else j.stop, stop := .none, quantum := false }
    else t) t

/-- A STOPPING job whose last outstanding access has completed: SUSPENDED, or ENDING when it is marked (R153, R171); one that had issued its
last access when INVALIDATE_RANGE reached it completes normally, whatever stopped it (R92). -/
def State.tryStop (s : State) (n k : Nat) : State :=
  let j := s.job n k
  if j.st ≠ .stopping || (s.tile n).running = some k || !j.eng.quietNow then s
  else match j.mark with
    | some c => s.endJob n k c j.status j.stage j.failPva j.frec
    | none =>
      if (j.stop = .inval || j.reres) && j.eng.finished && j.eng.retry.isEmpty then s.endJob n k jcDone 0 0 0 none
      else (s.modJob n k fun j => { j with st := .suspended }).rouse n

/-- A running or stopping job that ends with a cause: the engine issues nothing further, its outstanding accesses are collected first, and then
it is ENDING (R153, R165); until then it reads as STOPPING. Any other job is ENDING at once. (DESIGN CHOICE: log entry 53) -/
def State.endRun (s : State) (n k : Nat) (cause : Byte) (st : Status) (stage : Nat) (pva : BitVec 48) (rec : Option FaultRec) : State :=
  let s := s.leaveEngine n k
  let j := s.job n k
  if j.st = .running || j.st = .stopping then
    (s.modJob n k fun j => { j with st := .stopping, mark := some cause, status := st, stage := stage, failPva := pva, frec := rec }).tryStop n k
  else s.endJob n k cause st stage pva rec

/-- Windows that a dynamic job or a landing chunk can take: FREE, and not held for an image that is being armed (R146, R253). -/
def State.freeWins (s : State) (n : Nat) : List Nat :=
  (List.range 16).filter fun w => tget WState.free (s.tile n).wins w == .free
    && !(s.sched.next.isSome && (s.tile n).staged.resv.getLsbD w)

/-- Windows that a job still has to take. -/
def Job.needWins (t : Tile) (k : Nat) (j : Job) : Nat :=
  opNwin j.op - ((List.range 16).filter fun w => tget WState.free t.wins w == .job k).length

/-- Whether an earlier job of the same CID is still on the tile. -/
def Tile.predecessor (t : Tile) (j : Job) : Bool :=
  t.slots.any fun i => (t.job i).cid == j.cid && decide ((t.job i).order < j.order)

/-- The candidates of a tile (R156). -/
def State.candidates (s : State) (n : Nat) : List Nat :=
  let t := s.tile n
  t.slots.filter fun k => let j := t.job k
    j.st == .ready && decide (j.needWins t k ≤ (s.freeWins n).length) && !(j.flags.getLsbD 1 && t.predecessor j)

/-- Whether another partition has a candidate on a tile (R157). -/
def State.othersWait (s : State) (n : Nat) (part : Nat) (cands : List Nat) : Bool := cands.any fun i => (s.job n i).part ≠ part

/-- A safe point at which a running job stops (R159): the engine is free, and its accesses are collected. A quantum that has expired by then
counts beside the stop's cause (R171). -/
def State.safePoint (s : State) (n k : Nat) : State :=
  let s := s.leaveEngine n k
  let c := (s.job n k).stop
  let s := match c with
    | .sched => s.bump (tileBlk n) 2 | .inval => s.bump (tileBlk n) 3 | .quantum => s.bump (tileBlk n) 4 | _ => s
  let late := decide (1000000 ≤ (s.job n k).quantNs) && s.othersWait n (s.job n k).part (s.candidates n)
  (s.modJob n k fun j => { j with st := .stopping, quantum := j.quantum || late }).tryStop n k

/-- A request to stop the running job of a tile (R153): it is STOPPING; a job that is stopping already is stopped once, and remembers that
its quantum expired (R171). -/
def State.askStop (s : State) (n : Nat) (c : StopCause) : State :=
  match (s.tile n).running with
  | none => s
  | some k => s.modJob n k fun j =>
    if j.st = .running then { j with st := .stopping, stop := c } else if c = .quantum then { j with quantum := true } else j

/-- A job to be ended with a cause by JOB_CANCEL or CONTEXT_DESTROY (R153, R169). A running or stopping job is marked and ends with its last
access; a job that already ends keeps its own cause. -/
def State.cancelJob (s : State) (n k : Nat) (c : Byte) : State :=
  let j := s.job n k
  match j.st with
  | .free => s
  | .ending => s
  | .running => s.modJob n k fun j =>
    if j.mark.isSome then { j with st := .stopping } else { j with st := .stopping, mark := some c, status := 0, stage := 0, failPva := 0 }
  | .stopping => s.modJob n k fun j => if j.mark.isSome then j else { j with mark := some c, status := 0, stage := 0, failPva := 0 }
  | _ => s.endJob n k c 0 0 0 none

/-- An access that ends its job (R165, R171): a running job issues nothing further and ends with its last completion, a stopping one is marked unless it already is. -/
def State.failJob (s : State) (n k : Nat) (st : Status) (stage : Nat) (pva : BitVec 48) : State :=
  let j := s.job n k
  match j.st with
  | .running => if j.mark.isSome then s.safePoint n k else s.endRun n k jcMemory st stage pva none
  | .stopping => s.modJob n k fun j => if j.mark.isSome then j else { j with mark := some jcMemory, status := st, stage := stage, failPva := pva }
  | _ => s

/-- The pending slot of a tile is emptied: the job's record has left it, the engine unparks, and records that wait in other jobs of the
tile are offered. -/
def State.unpark (s : State) (n : Nat) : State :=
  match (s.tile n).pend with
  | none => s
  | some (k, r) =>
    let s := s.modTile n fun t => { t with pend := none, parked := false }
    let s := if (s.job n k).frec = some r then (s.modJob n k fun j => { j with recPosted := true }).tryEnd n k else s
    s.each ((s.tile n).slots.filter fun k => (s.job n k).frec.isSome && !(s.job n k).recPosted) fun s k => (s.offerRec n k).tryEnd n k

/-- The partition ABORT at a tile (R170): every job of the partition becomes FREE, its engine time counted and without a completion, one that
waits for a place of the ring included, and a pending record moves to the overflow list when it has room. QJ_OVERFLOW_MOVE, which the
spec only names, counts the move after 1 ms alone (DESIGN CHOICE: log entry 53). -/
def State.abortTile (s : State) (p n : Nat) : State :=
  let s := s.each ((s.tile n).slots.filter fun k => (s.job n k).part = p) fun s k =>
    ((s.leaveEngine n k).modRing p fun g => { g with waiting := g.waiting.filter fun x => x.2 ≠ some (n, k) }).slotFree n k
  match (s.tile n).pend with
  | some (_, r) =>
    if cidPart r.cid = p && (s.part p).overflow.length < 1024 then
      (s.modPart p fun x => { x with overflow := x.overflow ++ [r] }).unpark n
    else s
  | none => s

/-- Whether INVALIDATE_RANGE still waits for a job of the contexts it names: one that holds an affected entry and is neither
re-resolved nor ending with no access outstanding (R89, R90, R92). -/
def State.invalPends (s : State) (part cid : Nat) (all : Bool) : Bool :=
  (List.range 32).any fun n => (s.tile n).slots.any fun k =>
    let j := s.job n k
    j.reres && (if all then j.part == part else j.cid.toNat == cid) && !(j.st == .ending && j.eng.quietNow)

/-- The partition of a named object, when it has one. -/
def State.partOfName (s : State) (n : Nat × Nat) : Option Nat :=
  match n.1 with
  | 0 => some n.2
  | 1 => some (n.2 / 1024)
  | 2 => if (s.ext n.2).state = 0 then none else some (s.ext n.2).owner.toNat
  | _ => none

/-- Whether a command names a live job of a partition. -/
def State.namesJob (s : State) (p : Nat) (n : Nat × Nat) : Bool :=
  let j := s.job (bitsOf n.2 27 5) (bitsOf n.2 21 6)
  n.1 == 3 && j.st != .free && j.inc.toNat == bitsOf n.2 0 21 && j.part == p

/-- Whether a command belongs to a partition: its own mailboxes posted it, or it names the partition or an object or job of it.
(DEDUCED: log entry 46) -/
def State.cmdOf (s : State) (p : Nat) (c : Cmd) : Bool :=
  (c.mb.part.map (·.val)) == some p || c.names.any fun n => s.partOfName n == some p || s.namesJob p n

/-- The commands that an abort ends with PARTITION_ABORTED at DONE (R418): those of the partition in progress, but for PARTITION_RECOVER and
PARTITION_CLOSE. -/
def State.endedBy (s : State) (p : Nat) (c : Cmd) : Bool :=
  c.opcode != 0x0103 && c.opcode != 0x0104 && (c.waits.contains (.abort p) || s.cmdOf p c)

/-- The waiting commands of a partition held until DONE when its abort starts, whatever the abort frees meanwhile (R92, R418).
(DESIGN CHOICE: log entry 49) -/
def State.abortHold (s : State) (p : Nat) : State :=
  { s with cmds := s.cmds.map fun c => if s.endedBy p c && !c.waits.isEmpty then { c with waits := c.waits ++ [.abort p] } else c }

/-- Commands whose invalidation is complete are answered; while no core runs Steward none is, and the core that takes over runs them again
(R92, R423). -/
def State.invalCheck (s : State) : State :=
  if !s.stewardUp then s else
  s.each (s.cmds.flatMap (·.waits)) fun s w => match w with
    | .inval part cid all _ _ => if s.invalPends part cid all then s else s.wake w
    | _ => s

/-! ### Pending records (R167, R490) -/

/-- FAULT_RECORD_POST (R490): the next record takes a free place: from the overflow list, then a tile's pending slot, then those that
Steward holds. -/
def execFaultRecordPost (part : Fin 64) (s : State) : Host.Outcome State Fault Refusal :=
  let p := part.val
  let x := s.part p
  if x.fq.length ≥ 256 || s.discards p then .next s
  else match x.overflow with
    | r :: rest => .next ((s.setPart p { x with overflow := rest }).postFault p r)
    | [] => match s.pendOf p with
      | (_, n) :: _ => match (s.tile n).pend with
        | some (_, r) => .next ((s.postFault p r).unpark n)
        | none => .next s
      | [] => match x.held with
        | r :: rest => .next ((s.setPart p { x with held := rest }).postFault p r)
        | [] => .next s

/-- PENDING_RECORD_TIMEOUT (R167): 1 ms after it entered the slot, a record moves to the overflow list when the list has room and Steward
runs. -/
def execPendingRecordTimeout (tile : Fin 32) (s : State) : Host.Outcome State Fault Refusal :=
  let t := s.tile tile.val
  match t.pend with
  | none => .next s
  | some (_, r) =>
    let p := cidPart r.cid
    if t.pendAt + 1000000 ≤ s.now && s.stewardUp && (s.part p).overflow.length < 1024 then
      .next (((s.modPart p fun x => { x with overflow := x.overflow ++ [r] }).bump (tileBlk tile.val) 7).unpark tile.val)
    else .next s

/-! ### Dispatch (R156) -/

/-- The slot with the least key. -/
def least (key : Nat → Nat) : List Nat → Option Nat
  | [] => none
  | k :: r => match least key r with
    | none => some k
    | some b => if key b < key k then some b else some k

/-- The job that R156 selects. -/
def State.selects (s : State) (n : Nat) : Option Nat :=
  let t := s.tile n
  let c := s.candidates n
  let first := fun (k : Nat) => ((t.job k).firstRun).getD 0
  let resumed := c.filter fun k => (t.job k).firstRun.isSome && (t.job k).lastStop ≠ .quantum
  match least first resumed with
  | some k => some k
  | none =>
    let turn := fun (k : Nat) => ((t.job k).part + 127 - t.lastPart.toNat) % 64
    match least turn c with
    | none => none
    | some k0 =>
      let mine := c.filter fun k => (t.job k).part = (t.job k0).part
      match least first (mine.filter fun k => (t.job k).firstRun.isSome && (t.job k).lastStop = .quantum) with
      | some k => some k
      | none => least (fun k => (t.job k).order) mine

/-- Whether the engine of a tile can take a dynamic job: free, unparked, enabled, no scheduled operation due, no test due or running, and
not gated or stopped for a power state (R156, R500). -/
def State.engineFree (s : State) (n : Nat) : Bool :=
  let t := s.tile n
  !s.tileDead n && t.running.isNone && !t.parked && t.srun.isNone && t.swait.isEmpty && !t.kat.due && !t.kat.running && !t.gated

/-- A job goes to the engine (R153, R147): it takes its windows, which are empty at its first dispatch. QJ_DISPATCH counts every dispatch, that
of a resumed job among them, which QJ_RESUME counts beside it: the spec only names the two (R174; DESIGN CHOICE: log entry 53). -/
def State.runJob (s : State) (n k : Nat) : State :=
  let j := s.job n k
  let wins := (s.freeWins n).take (j.needWins (s.tile n) k)
  let s := s.modTile n fun t =>
    let t := wins.foldl (fun t w => { t.clearWin w with wins := tput .free t.wins w (.job k) }) t
    let ph : Nat := if opcAt j.op (j.nstage - 1) = 0x09 && varAt j.op (j.nstage - 1) = 0 then 0 else 1
    { t.setJob k { j with st := .running, runAt := s.now, quantNs := 0, stop := .none, quantum := false, firstRun := some (j.firstRun.getD s.now)
                          eng := { (if j.firstRun.isNone then { j.eng with phase := ph } else j.eng) with blockAt := s.now, blockFt := s.hubNs } } with
      running := some k, lastPart := BitVec.ofNat 6 j.part }
  let s := s.bump (tileBlk n) 0
  if j.firstRun.isSome then s.bump (tileBlk n) 1 else s

/-- DISPATCH (R156). -/
def execDispatch (tile : Fin 32) (s : State) : Host.Outcome State Fault Refusal :=
  if s.engineFree tile.val then
    match s.selects tile.val with
    | some k => .next (s.runJob tile.val k)
    | none => .next s
  else .next s

/-- QUANTUM_EXPIRY (R157): after 1 ms of engine time since its dispatch, a job is stopped when another partition has a candidate, and
otherwise its quantum restarts. -/
def execQuantumExpiry (tile : Fin 32) (s : State) : Host.Outcome State Fault Refusal :=
  let n := tile.val
  match (s.tile n).running with
  | none => .next s
  | some k =>
    let j := s.job n k
    if j.quantNs + s.blockNs j.eng < 1000000 then .next s
    else if s.othersWait n j.part (s.candidates n) then .next (s.askStop n .quantum)
    else
      let d := s.blockNs j.eng
      .next ((s.time (tileBlk n) 0 d).modJob n k fun j =>
        { j with quantNs := 0, engNs := j.engNs + s.blockFtNs j.eng, eng := { j.eng with blockAt := s.now, blockFt := s.hubNs } })

/-- BUDGET_EXHAUSTED (R149, R164): a job whose engine time in µs of FT reaches BUDGET is marked to end at its next safe point. -/
def execBudgetExhausted (tile : Fin 32) (s : State) : Host.Outcome State Fault Refusal :=
  let n := tile.val
  match (s.tile n).running with
  | none => .next s
  | some k =>
    let j := s.job n k
    if j.budget ≠ 0 && j.budget * 1000 ≤ j.engNs + s.blockFtNs j.eng && j.mark.isNone then
      .next (s.modJob n k fun j => { j with mark := some jcBudget })
    else .next s

/-! ### Engine faults and suspect tiles (R164, R502) -/

/-- A failure of a tile's engine (R502): SUSPECT with FAILS 1, one more failure of the episode, or at the third DISABLED, which the caller
carries out; `true` says that the tile is to be disabled. (DEDUCED: log entry 54) -/
def State.tileFails (s : State) (n : Nat) : State × Bool :=
  let k := (s.tile n).kat
  let f := k.fails + 1
  let k' := { k with health := 1, fails := min 3 (if k.health = 0 then 1 else f), passes := 0, lastFail := s.now }
  (s.modTile n fun t => { t with kat := k' }, k.health == 1 && decide (3 ≤ f))

/-- An ENGINE_FAULT record (R496). (DEDUCED: log entry 54) -/
def engineFaultRec (n id opc stage checker elem part : Nat) : ErrRec :=
  errRec 0x40 2 (some part) (0x1000 + n) (packBytes [(0, 4, id), (4, 1, opc), (5, 1, stage), (6, 1, checker), (8, 8, elem)])

/-- The firing of a scheduled entry fails (R263, R504): it is counted, recorded with the cycle of the firing, and reported once in the cycle in
which it fails (R271). (DEDUCED: log entry 54) -/
def State.schedFailed (s : State) (n entry cycle : Nat) (st : Status) : State :=
  let id := (s.sched.running.map (·.id)).getD 0
  let s := s.bump (tileBlk n) 13
  let s := s.logErr (errRec 0x18 2 none (0x1000 + n) (packBytes [(0, 2, entry), (2, 1, st.toNat), (8, 8, cycle), (16, 8, id.toNat)]))
  s.schedEvent 5 id n s.cycleNo

/-- A resident chunk placed in a window (R226): the empty word, LANDING, its entry and RESIDENT. -/
def State.placeChunk (s : State) (n w ext chunk : Nat) : State :=
  let c := s.comb (s.ext ext).protRef.toNat
  let s := s.setLand (16 * n + w) { v := true, ext := ext, chunk := chunk, anchor := c.anchor }
  let s := s.modComb (s.ext ext).protRef.toNat fun c => { c with resident := c.resident + 1 }
  s.modTile n fun t => { t.clearWin w with wins := tput .free t.wins w .landing }

/-- The tile that R226 chooses for a chunk in a quadrant: the one with the most FREE windows, the lowest when two are equal. -/
def State.tileFor (s : State) (q : Nat) (avoid : Nat → Bool) : Option Nat :=
  let ts := (s.tileList.filter fun n => n / 8 = q && !avoid n && !(s.freeWins n).isEmpty)
  least (fun n => 16 - (s.freeWins n).length) ts

/-- The landing chunks of a tile, those of the armed image among them or not: window, extent and chunk. -/
def State.chunksOf (s : State) (n : Nat) (sched : Bool) : List (Nat × Nat × Nat) :=
  ((List.range 16).map fun w => (w, s.land (16 * n + w))).filterMap fun x =>
    if x.2.v && (sched || !x.2.sched) && !x.2.draining then some (x.1, x.2.ext, x.2.chunk) else none

/-- A chunk of a disabled tile is placed again on another tile of the quadrant, when one has a FREE window (R504). -/
def State.replaceChunk (s : State) (n ext chunk : Nat) : State :=
  let t := s.tile n
  if t.kat.health = 2 && t.kat.replace.contains (ext, chunk) then
    let s := s.modTile n fun t => { t with kat := { t.kat with replace := t.kat.replace.filter (· ≠ (ext, chunk)) } }
    match s.tileFor (n / 8) fun m => m == n || s.tileDead m with
    | some m => match s.freeWins m with
      | w :: _ => s.placeChunk m w ext chunk
      | [] => s
    | none => s
  else s

/-- A tile becomes DISABLED (R504): its jobs end with ENGINE_FAULT, its landing chunks, those of the armed image included, are released, and the chunks are noted to be placed
again in another tile of the quadrant when their windows are free; those that a test had released already, and whose windows are free, are
placed now. -/
def State.disableTile (s : State) (n : Nat) : State :=
  let ks := (s.tile n).slots.filter fun k => (s.job n k).st ≠ .ending
  let chunks := s.chunksOf n true
  let s := s.modTile n fun t => { t with kat := { t.kat with health := 2, due := false, running := false, force := false, replace := t.kat.replace ++ chunks.map (·.2) } }
  let s := s.logErr (errRec 0x42 3 none (0x1000 + n) (packBytes [(0, 2, ks.length)]))
  let s := s.each ks fun s k => s.endRun n k jcEngine 0 0 0 none
  let s := s.each (s.tile n).slots fun s k =>
    let j := s.job n k
    if j.st = .ending && j.heldKat && !j.handed then (s.modJob n k fun j => { j with cause := jcEngine }).handOff n k else s
  let s := s.each chunks fun s x => s.releaseWin n x.1
  (s.each (s.tile n).kat.replace fun s x => if (s.landOf x.1 x.2).isSome then s else s.replaceChunk n x.1 x.2).wakeFail (.test n) csBadState

end Sys2Proof.Machine
end

