-- ==== Sys2Proof/Machine/Walker.lean ====
section
/-! DEFINITION. The page walkers (R69 to R81): reading tables, the checks of R71 and R72, the table-entry cache, and the resolved page
list. -/
namespace Sys2Proof.Machine

/-! ### Requests of units of this device -/

/-- A request of an on-chip unit at the memory stage (R21, R46): it presents no EID and no session protection. -/
def State.unitReq (s : State) (r0 : Req) : State :=
  match s.msCheck r0.pkt none false with
  | some st => (s.dropResv r0).deliver r0 st 0 0 (if st = stRetry then 15 else 0) false
  | none =>
    let e := s.ext r0.ext
    let (r, s) := s.enter r0
    if e.combine then s.combine r
    else if e.coherent then s.dirRequest r
    else s.toDram { r with act := (directAct r.pkt).1, cost := (directAct r.pkt).2 }

/-- The request that a unit sends for a packet. -/
def State.unitMk (s : State) (o : Org) (id : Nat) (p : Packet) : Req :=
  let r : Req := { pkt := { p with src := s.node.eid, dst := s.node.eid }, org := o, id := id, ext := pktExt p, line := s.locate p
                   home := some (lineStack (s.locate p)) }
  { r with flow := reqFlow r }

/-- A unit that finds no room stalls, and MEM_ADMIT_STALL of the stack counts it (R279). -/
def State.unitStall (s : State) (r : Req) : State := s.bump (stackBlk (s.stallAt r)) 9

/-- Whether another host-memory request may be sent (R360). -/
def State.hostRoom (s : State) : Bool := decide (s.qor.reqs.length < 1024)
/-- A TAG that no outstanding host-memory request uses. -/
def State.hostTag (s : State) : BitVec 16 :=
  ((List.range 1025).map fun i => s.qor.nextTag + BitVec.ofNat 16 i).find? (fun t => !s.qor.reqs.any (·.tag = t)) |>.getD s.qor.nextTag
/-- A host-memory request queued on Qoreus (R358, R361); while Qoreus is down it ends with LINK_LOST (R77, R365). (DEDUCED: log entry 43) -/
def State.hostSend (s : State) (o : HostOrg) (p : Packet) : State :=
  let t := s.hostTag
  let q : HostReq := { tag := t, org := o, sentAt := s.now, write := p.opc ≠ oMrd }
  let p := { p with src := s.node.eid, dst := hostEid, tag := t, tc := 6 }
  if (s.port 16).state = 3 || (s.port 16).state = 4 then
    let s := { s with qor := { s.qor with reqs := s.qor.reqs ++ [q], nextTag := t + 1 } }
    match o with
    | .walker _ _ => { s with qor := { s.qor with walk := s.qor.walk ++ [p] } }
    | .engine n _ _ _ => { s with qor := { s.qor with eng := s.qor.eng ++ [(n, p)] } }
  else s.hostReqDone q stLinkLost 0

/-! ### Page-table entries (R70, R71) -/

def pteV (e : Word) : Bool := e.getLsbD 0
def pteLeaf (e : Word) : Bool := e.getLsbD 1
def ptePool (e : Word) : Bool := e.getLsbD 2
/-- R, W and A of an entry. -/
def pteRights (e : Word) : BitVec 3 := e.extractLsb' 3 3
def pteXh (e : Word) : Xh := e.extractLsb' 8 24
/-- OFFSET in 4 KiB units. -/
def pteOff (e : Word) : Nat := (e.extractLsb' 32 27).toNat
/-- HPA[51:12]. -/
def pteHpa (e : Word) : Nat := (e.extractLsb' 12 40).toNat
/-- Bits of PVA below the page or span of an entry of a level. -/
def spanBits (level : Nat) : Nat := 12 + 9 * level

/-- The condition of R71 that an entry of a level breaks first, as its fault cause; `host` is the context's table space. (DEDUCED: log entry 55) -/
def pteFault (host : Bool) (level : Nat) (e : Word) : Option Nat :=
  let rsv := if ptePool e then e.extractLsb' 59 5 != 0 else e.extractLsb' 8 4 != 0 || e.extractLsb' 52 12 != 0
  let n := if ptePool e then pteOff e else pteHpa e
  if !pteV e then some 0x10
  else if rsv then some 0x12
  else if pteLeaf e && level == 3 || !pteLeaf e && level == 0 then some 0x12
  else if !pteLeaf e && ptePool e == host then some 0x12
  else if pteLeaf e && !ptePool e && !host then some 0x12
  else if pteLeaf e && n % 2 ^ (9 * level) != 0 then some 0x13
  else none

/-- The rights that an access type needs (R72). -/
def accNeeds (acc : BitVec 2) : BitVec 3 := if acc = 0 then 1 else if acc = 1 then 2 else 6

/-! ### The table-entry cache (R78) -/

/-- The cached entry of a context at a level for a PVA. -/
def Walker.find (w : Walker) (cid : Cid) (level pva : Nat) : Option PtCache :=
  w.cache.find? fun c => c.cid == cid && c.level == level && c.pfx == pva / 2 ^ spanBits level
/-- An entry used: it becomes the most recently used; the least recently used of more than 1,024 goes. -/
def Walker.use (w : Walker) (c : PtCache) : Walker := { w with cache := (c :: w.cache.erase c).take 1024 }

/-! ### The walk -/

/-- The RPL entry of a job that holds a PVA. -/
def Job.entry (j : Job) (pva : Nat) : Option Rpl :=
  j.rpl.find? fun r => r.v && r.pva.toNat * 4096 / 2 ^ (12 + 9 * r.size.toNat) == pva / 2 ^ (12 + 9 * r.size.toNat)

/-- The declared access types of the ranges that touch a page (R80). -/
def Job.accs (j : Job) (page size : Nat) : List (BitVec 2) :=
  (j.ranges.filter fun r => decide (r.pva.toNat < page + size) && decide (page < r.pva.toNat + r.len.toNat)).map (·.acc)

/-- A walk at the root of its context's tables (R73). -/
def Walk.root (w : Walk) (c : Ctx) : Walk :=
  let b := if c.hostPt then (c.ptRoot.extractLsb' 0 40).toNat * 4096 else (c.ptRoot.extractLsb' 24 24).toNat * 4096
  { w with host := c.hostPt, level := 3, base := b, xh := c.ptRoot.extractLsb' 0 24, rights := 7, restart := false, attempt := 0, kept := none }

/-- The place of the entry that a walk needs for a PVA. -/
def Walk.place (w : Walk) (pva : Nat) : Nat := w.base + pva / 2 ^ spanBits w.level % 512 * 8

/-- The entry in a line of a table. -/
def lineEntry (d : Line) (place : Nat) : Word := d.extractLsb' (8 * (place % 128)) 64

/-- The walk of a tile replaced. -/
def State.setWalk (s : State) (n : Nat) (w : Option Walk) : State := s.modTile n fun t => { t with walk := w }

/-- The table read that a walk needs, sent: a line of the host, or of an extent under R46 (R76, R77). A walk that finds no room waits. -/
def State.walkRead (s : State) (n : Nat) (w : Walk) (j : Job) (pva : Nat) : State :=
  let a := w.place pva / 128 * 128
  let id := (s.tile n).nextId
  let w' := { w with rid := id, waiting := true, ready := none, held := false }
  let hold := fun (s : State) => s.setWalk n (some { w with held := true })
  let go := fun (s : State) => s.modTile n fun t => { t with walk := some w', nextId := id + 1 }
  if s.now < w.retryAt then s
  else if w.host then
    if s.hostRoom then (go s).hostSend (.walker n id) { opc := oMrd, hpa := BitVec.ofNat 64 a }
    else if w.held then s else hold (s.bump (portBlk 16) 15)
  else
    let r := s.unitMk (.walker n) id { opc := oRdOnce, xh := w.xh, offset := BitVec.ofNat 40 a, blen := 127, cid := j.cid
                                       ctl := BitVec.ofNat 4 (min 15 w.attempt) }
    if s.roomFor r then (go s).unitReq r else if w.held then s else hold (s.unitStall r)

/-- The end of a walk: the job is READY, or its entries are re-resolved (R153, R89). -/
def State.walkEnd (s : State) (n : Nat) (w : Walk) : State :=
  let s := s.setWalk n none
  let s := s.modJob n w.slot fun j => if j.st = .resolving then { j with st := .ready } else { j with reres := false }
  (s.rouse n).invalCheck

/-- A translation fault of a walk ends its job (R86, R87); FAIL_PVA of the completion is that of the faulting page (R166). (DEDUCED: log entry 55) -/
def State.walkFault (s : State) (n : Nat) (w : Walk) (cause pva level : Nat) (acc : BitVec 2) (e : Word) (st : Status) : State :=
  let r := s.transFault n w.slot cause pva level acc.toNat e st (b2n w.reres)
  (s.endJob n w.slot jcTranslation 0 0 (BitVec.ofNat 48 (pva / 4096 * 4096)) (some r)).invalCheck

/-- What remains to be resolved when the page that holds the first byte is done. -/
def todoAfter (l : List (BitVec 48 × Nat × BitVec 2)) (next : Nat) : List (BitVec 48 × Nat × BitVec 2) :=
  match l with
  | (p, len, acc) :: r => if next < p.toNat + len then (BitVec.ofNat 48 next, p.toNat + len - next, acc) :: r else r
  | [] => []

/-- RPL entries in use on a tile (R148). -/
def Tile.rplUsed (t : Tile) : Nat := (t.slots.map fun k => (t.job k).rpl.length).sum

/-- What an entry gives a resolution: a fault, a table that the cache now holds, an RPL entry, or, for want of store space, nothing yet. -/
inductive Used where
  | fault (s : State)
  | table (s : State)
  | leaf (s : State)
  | full
  deriving DecidableEq, Repr

/-- The entry of a walk's level for a PVA used: the checks of R71 and R72, the cache (R78), and the RPL entry of a leaf page with the union of its
access types (R80). (DEDUCED: log entry 55) -/
def State.takeEntry (s : State) (n : Nat) (w : Walk) (pva : Nat) (acc : BitVec 2) (e : Word) : Used :=
  let j := s.job n w.slot
  match pteFault w.host w.level e with
  | some cause => .fault (s.walkFault n w cause pva w.level acc e 0)
  | none =>
    let rights := w.rights &&& pteRights e
    if !pteLeaf e then
      let x : PtCache := { cid := j.cid, level := w.level, pfx := pva / 2 ^ spanBits w.level, entry := e }
      .table (s.modWalker (n / 8) fun k => k.use x)
    else
      let size := 2 ^ spanBits w.level
      let page := pva / size * size
      let accs := j.accs page size
      let bad := fun (a : BitVec 2) => rights &&& accNeeds a != accNeeds a
      if bad acc || accs.any bad then
        .fault (s.walkFault n w 0x11 pva w.level (if bad acc then acc else (accs.find? bad).getD acc) e 0)
      else if j.rpl.length ≥ 65536 then .fault (s.walkFault n w 0x15 page 0xF acc 0 0)
      else if (s.tile n).rplUsed ≥ 98304 then .full
      else
        let r : Rpl :=
          { v := true, size := BitVec.ofNat 2 w.level, tgt := ptePool e, rights := rights, pva := BitVec.ofNat 36 (page / 4096)
            xh := if ptePool e then pteXh e else 0, offset := if ptePool e then BitVec.ofNat 27 (pteOff e) else 0
            hpa := if ptePool e then 0 else BitVec.ofNat 40 (pteHpa e)
            need := accs.foldl (fun m a => m ||| accNeeds a) 0 }
        .leaf (s.modJob n w.slot fun j => { j with rpl := j.rpl ++ [r] })

/-- The first byte of a part [p, stop) of a PVA range that no entry of the page list holds; each step passes one page of the list. -/
def Job.lacksIn (j : Job) (stop : Nat) : Nat → Nat → Option Nat
  | 0, _ => none
  | m + 1, p =>
    if stop ≤ p then none
    else match j.entry p with
      | some r => j.lacksIn stop m ((p / 2 ^ (12 + 9 * r.size.toNat) + 1) * 2 ^ (12 + 9 * r.size.toNat))
      | none => some p

/-- The part of a span that a resolution still needs: its first byte, in the first range that touches it, that no page of the list holds, and that
range's access type (R77, R80). -/
def Job.needs (j : Job) (base size : Nat) : Option (Nat × BitVec 2) :=
  j.todo.findSome? fun x =>
    (j.lacksIn (min (base + size) (x.1.toNat + x.2.1)) (j.rpl.length + 1) (max base x.1.toNat)).map fun p => (p, x.2.2)

/-- Every entry of a table line that the resolution needs is used, in ascending order, before another line is read (R77): the state, and whether
the walk goes on. For want of store space the walk keeps the line, and uses the rest of it when there is space (R148). (DEDUCED: log entry 55) -/
def State.useLine (s : State) (n : Nat) (w : Walk) (d : EDone) : List Nat → State × Bool
  | [] => (s, true)
  | base :: r =>
    let j := s.job n w.slot
    match j.needs base (2 ^ spanBits w.level) with
    | none => s.useLine n w d r
    | some (pva, acc) =>
      match s.takeEntry n w pva acc (lineEntry d.data (w.place pva)) with
      | .fault s => (s, false)
      | .full => (s.setWalk n (some { w with kept := some d }), false)
      | .table s => s.useLine n w d r
      | .leaf s => s.useLine n w d r

/-- The PVAs at which the spans of the 16 entries of the line begin that holds the entry for a PVA. -/
def Walk.lineSpans (w : Walk) (pva : Nat) : List Nat :=
  let span := 2 ^ spanBits w.level
  (List.range 16).map fun i => (pva / (16 * span) * 16 + i) * span

/-- A walk one level down, in the table that an entry names. -/
def Walk.down (w : Walk) (e : Word) : Walk :=
  { w with level := w.level - 1, rights := w.rights &&& pteRights e, xh := pteXh e, base := if w.host then pteHpa e * 4096 else pteOff e * 4096 }

/-- A walk goes on until it needs a read, waits for store space, faults or ends; at most `fuel` entries and pages. (DEDUCED: log entry 55) -/
def State.walkGo (s : State) (n : Nat) : Nat → State
  | 0 => s
  | fuel + 1 =>
    match (s.tile n).walk with
    | none => s
    | some w =>
      let j := s.job n w.slot
      let c := s.ctx j.cid.toNat
      match j.todo with
      | [] => s.walkEnd n w
      | (p, _, acc) :: _ =>
        let pva := p.toNat
        match j.entry pva with
        | some r =>
          let next := (pva / 2 ^ (12 + 9 * r.size.toNat) + 1) * 2 ^ (12 + 9 * r.size.toNat)
          ((s.modJob n w.slot fun j => { j with todo := todoAfter j.todo next }).setWalk n (some (w.root c))).walkGo n fuel
        | none =>
          match (s.walker (n / 8)).find j.cid w.level pva with
          | none => s.walkRead n w j pva
          | some x => match s.takeEntry n w pva acc x.entry with
            | .fault s => s
            | .full => s.setWalk n (some (w.root c))
            | .leaf s => (s.setWalk n (some (w.root c))).walkGo n fuel
            | .table s => (s.setWalk n (some (w.down x.entry))).walkGo n fuel

/-- A bound on the entries and pages that one continuation of a walk passes. -/
def walkFuel : Nat := 2 ^ 40

/-- Whether the walkers take no job: in step 4 of an entry to D2, D2R or D3 and after it, until the wake (R524, R527). -/
def State.walkersOff (s : State) : Bool :=
  decide (2 ≤ s.pwr.state.toNat) || s.pwr.pstep == .s4 || s.pwr.pstep == .s5 || s.pwr.pstep == .s6

/-- WALKER_TAKE_JOB (R153, R148, R89): the next job in submission order that is QUEUED, or is stopped with entries to re-resolve; its context
must be ACTIVE (R86). (DEDUCED: log entry 55) -/
def execWalkerTakeJob (tile : Fin 32) (s : State) : Host.Outcome State Fault Refusal :=
  let n := tile.val
  let t := s.tile n
  if t.walk.isSome || t.parked || s.tileDead n || s.walkersOff then .next s
  else
    let ready := t.slots.filter fun k => let j := t.job k; j.st == .queued || (j.st == .suspended && j.reres)
    match least (fun k => (t.job k).order) ready with
    | none => .next s
    | some k =>
      let j := t.job k
      let c := s.ctx j.cid.toNat
      let w : Walk := Walk.root { slot := k, reres := j.st == .suspended } c
      let s := (s.setWalk n (some w)).modJob n k fun j => if j.st = .queued then { j with st := .resolving } else j
      if c.state ≠ 2 then .next (s.walkFault n w 0x16 0 0xF 0 0 0)
      else .next (s.walkGo n walkFuel)

/-- The PVA that a walk resolves next. -/
def Job.nextPva (j : Job) : Nat := (j.todo.headD (0, 0, 0)).1.toNat

/-- A table line used (R77), after which the walk goes on from its root with what is still to be resolved. -/
def State.walkLine (s : State) (n : Nat) (w : Walk) (d : EDone) : State :=
  let j := s.job n w.slot
  let (s, on) := (s.setWalk n (some (w.root (s.ctx j.cid.toNat)))).useLine n { w with attempt := 0, kept := none } d (w.lineSpans j.nextPva)
  if on then s.walkGo n walkFuel else s

/-- A walk that waited goes on: with the rest of a line that it keeps, or with what it needs next. -/
def State.walkOn (s : State) (n : Nat) : State :=
  match (s.tile n).walk with
  | some w => match w.kept with
    | some d => s.walkLine n w d
    | none => s.walkGo n walkFuel
  | none => s

/-- What a walk does with a completed table read (R76, R77). -/
def State.walkDoneRead (s : State) (n : Nat) (w : Walk) (d : EDone) : State :=
  let j := s.job n w.slot
  let c := s.ctx j.cid.toNat
  let pva := j.nextPva
  let acc : BitVec 2 := (j.todo.headD (0, 0, 0)).2.2
  let w0 := { w with ready := none }
  if w.restart then (s.setWalk n (some (w0.root c))).walkGo n walkFuel
  else if d.status = stRetry then
    s.setWalk n (some { w0 with attempt := min 15 (w.attempt + 1), retryAt := d.at_ + 64 * 2 ^ d.backoff.toNat })
  else if d.status ≠ stOk then s.walkFault n w0 0x14 pva w.level acc 0 d.status
  else s.walkLine n w0 d

/-- WALKER_TABLE_READ_DONE (R76): the walker of a quadrant takes the next completed table read of its tiles; a walk that waited for room, for
store space or for the wait after a RETRY goes on, each in its turn. (DEDUCED: log entry 55) -/
def execWalkerTableReadDone (q : Fin 4) (s : State) : Host.Outcome State Fault Refusal :=
  let ws := ((List.range 8).map (8 * q.val + ·)).filterMap fun n => (s.tile n).walk.map fun w => (n, w)
  match ws.find? (fun x => x.2.ready.isSome) with
  | some (n, w) => match w.ready with
    | some d => .next (s.walkDoneRead n w d)
    | none => .next s
  | none => .next (s.each ((ws.filter fun x => !x.2.waiting).map (·.1)) State.walkOn)

end Sys2Proof.Machine
end

