-- ==== Sys2Proof/Machine/Control.lean ====
section
/-! DEFINITION. The control region (R400 to R410): the locations and who may access them, the registers as they read, the fault queues
and the error log (R491, R492, R497), the mailboxes (R409), and the start of an abort (R416, R417). -/
namespace Sys2Proof.Machine

/-! ### Locations (R400 to R402, R404) -/

/-- What lies at a word of the control region. -/
inductive Loc where
  | mbox (m : MbId) (reply : Bool) (o : Nat)     -- a byte offset in a request or reply slot
  | dev (o : Nat)
  | abort (p : Nat)
  | part (p o : Nat)
  | view (snap : Bool) (o : Nat)
  | reserved
  deriving DecidableEq, Repr

/-- Whether a device-window offset lies in a range that R401 lists. -/
def devListed (o : Nat) : Bool :=
  [(0x8, 8), (0x100, 8), (0x200, 8), (0x300, 8), (0x400, 8), (0x4000, 8), (0x4800, 0x400), (0x5000, 0x100), (0x6000, 0x38), (0x7000, 0x80),
    (0x8000, 0x8000), (0x10000, 0x1000), (0x11000, 0x28), (0x12000, 0x20), (0x20000, 0x20000), (0x40000, 0x1000), (0x50000, 0x10000),
    (0x60000, 0x1000), (0x70000, 0x1000)].any fun r => decide (r.1 ≤ o) && decide (o < r.1 + r.2)

/-- The location of a byte offset. -/
def locOf (o : Nat) : Loc :=
  if o < 0x100000 then
    if 0x1000 ≤ o && o < 0x1800 then .mbox { m := Fin.ofNat 4 (o / 0x200) } (decide (0x100 ≤ o % 0x200)) (o % 0x100)
    else if devListed o then .dev o else .reserved
  else if o < 0x500000 then
    let p := (o - 0x100000) / 0x10000
    let i := o % 0x10000
    if i < 0x800 then .mbox { part := some (Fin.ofNat 64 p), m := Fin.ofNat 4 (i / 0x200) } (decide (0x100 ≤ i % 0x200)) (i % 0x100)
    else if i = 0x1100 then .abort p
    else if (0x1000 ≤ i && i < 0x1028) || (0x2000 ≤ i && i < 0x4000) then .part p i
    else .reserved
  else if 0x800000 ≤ o && o < 0xC00000 then .view (decide (0xA00000 ≤ o)) (o % 0x200000)
  else .reserved

/-- Whether a packet comes from a partition-p requester (R404): protected while a session is established; a protected one after the session has ended
fails R469, because no key remains (R483). -/
def State.partReq (s : State) (p : Nat) (k : Packet) : Bool :=
  let x := s.part p
  cidPart k.cid == p && x.admits k.src && (x.state == 1 || x.state == 2 || x.state == 4)
    && (if x.conf && x.sess == 1 then s.protOk p k else !(x.conf && k.enc))

/-- Whether a packet comes from an administrative requester: by EID, with CID 0 in the device window. (DESIGN CHOICE: log entry 19) -/
def State.admReq (s : State) (k : Packet) (dev : Bool) : Bool := s.isAdmin k.src && (!dev || k.cid == 0)

/-- Whether a location may be read. (DESIGN CHOICE: log entry 64) -/
def State.mayRead (s : State) (k : Packet) : Loc → Bool
  | .mbox m _ _ => match m.part with
    | none => s.admReq k true
    | some p => s.partReq p.val k || (s.admReq k false && !(s.part p.val).conf)
  | .dev _ => s.admReq k true
  | .abort p => s.partReq p k || s.admReq k false
  | .part p _ => s.partReq p k || s.admReq k false
  | .view _ o => s.admReq k false || (decide (0x80000 ≤ o) && decide (o < 0xC0000) && s.partReq ((o - 0x80000) / 0x1000) k)
  | .reserved => s.admReq k false

/-- Whether a location may be written, the state of its mailbox apart. (DESIGN CHOICE: log entry 64) -/
def State.mayWrite (s : State) (k : Packet) : Loc → Bool
  | .mbox m _ _ => match m.part with
    | none => s.admReq k true
    | some p => s.partReq p.val k
  | .abort p => s.partReq p k || s.admReq k false
  | _ => false

/-! ### Records as bytes -/

/-- A fault record with its SEQ (R486). -/
def FaultRec.bits (seq : BitVec 32) (r : FaultRec) : Nat :=
  packBytes [(0, 1, r.cause.toNat), (2, 2, r.cid.toNat), (4, 4, seq.toNat), (8, 8, r.ft.toNat), (16, 48, r.body.toNat)]

/-- An error record (R494). -/
def ErrRec.bits (r : ErrRec) : Nat :=
  packBytes [(0, 2, r.cause.toNat), (2, 1, r.sev.toNat),
    (3, 1, (match r.part with | some p => p.toNat + 64 | none => 0) + 128 * b2n r.redacted), (4, 4, r.seq.toNat), (8, 8, r.ft.toNat),
    (16, 2, r.unit.toNat), (18, 1, r.temp.toNat), (20, 2, r.volt.toNat), (24, 40, r.detail.toNat)]

/-- Word i of a record of which a list may hold one at an index. -/
def wordOf (n i : Nat) : Nat := bitsOf n (64 * i) 64

/-! ### Registers (the layouts are those of the rules named) -/

/-- TILE_STATUS (R155). -/
def State.tileStatus (s : State) (n : Nat) : Nat :=
  let t := s.tile n
  let e := if s.tileDead n then 5 else if t.srun.isSome then 2 else if t.kat.running then 4 else if t.running.isSome then 1
    else if t.parked then 3 else 0
  packBits [(0, 3, e), (3, 7, t.slots.length), (10, 7, (t.slots.filter fun k => (t.job k).st = .ready).length), (17, 17, 98304 - t.rplUsed),
    (34, 1, b2n t.pend.isSome), (35, 6, (t.pend.map fun x => cidPart x.2.cid).getD 0), (41, 1, b2n (t.kat.health == 1))]

/-- FT_CFG (R235). (DEDUCED: log entry 37) -/
def Keeper.cfg (k : Keeper) : Nat :=
  packBits [(0, 5, k.parent.toNat), (5, 5, k.alt.toNat), (10, 1, b2n k.root), (11, 8, k.esync.toNat), (19, 8, k.holdMax.toNat)]
/-- FT_STATUS (R236). (DEDUCED: log entry 37) -/
def State.ftStatus (s : State) : Nat :=
  let k := s.keeper
  packBits [(0, 3, k.state.toNat), (3, 24, k.offset.toNat), (27, 16, k.freqAdj.toNat),
    (43, 16, if k.state = 3 then (s.ftNs - k.holdSince) / 10000000 else 0), (59, 1, b2n k.followAlt)]
/-- SCHED_STATUS (R254). -/
def State.schedStatus (s : State) : Nat :=
  packBits [(0, 2, s.schedState), (2, 1, b2n ((s.sched.running.map (·.mode)).getD false)), (3, 1, b2n s.sched.staged), (4, 16, s.sched.alt.toNat)]

/-- EID_LIMIT (R281), with TOKENS as they stand. -/
def State.limitWord (s : State) (e : Nat) : Nat :=
  let x := s.limit e
  let x := if x.rate = 0 then x else x.refill s.hubNs
  packBits [(0, 12, x.rate.toNat), (12, 12, x.burst.toNat), (24, 32, (BitVec.ofInt 32 x.tokens).toNat)]

/-- PORT_STATUS, PORT_LINK and PORT_CFG (R318 to R320, R355). -/
def Port.statusWord (x : Port) : Nat :=
  packBits [(0, 3, x.state.toNat), (3, 4, x.lastDown.toNat), (7, 4, x.retrainCause.toNat), (11, 12, x.peerEid.toNat), (23, 16, x.sent),
    (39, 16, x.nextSeq.toNat), (55, 1, b2n x.spilling)]
def Port.linkWord (x : Port) : Nat :=
  packBits [(0, 16, x.rtt.toNat), (16, 15, x.credReq.toNat), (31, 15, x.credRsp.toNat), (46, 8, x.laneOk.toNat)]
def Port.cfgWord (x : Port) : Nat := packBits [(0, 1, b2n x.en), (1, 1, b2n x.auto)]

/-- RT_NODE (R330) and ROUTE_CTL (R329). -/
def Node.word (n : Node) : Nat :=
  packBits [(0, 12, n.eid.toNat), (12, 4, n.board.toNat), (16, 8, n.hopLimit.toNat), (24, 14, n.pairTimeout.toNat), (38, 10, n.restampDelay.toNat)]
def Die.ctl (d : Die) : Nat :=
  packBits [(0, 1, b2n d.cur), (1, 2, d.s0.toNat), (3, 2, d.s1.toNat), (5, 4, d.xmask0.toNat), (9, 4, d.xmask1.toNat), (13, 4, d.drained.toNat)]
/-- A route entry (R328). -/
def Route.word (r : Route) : Nat :=
  packBits [(0, 1, b2n r.v), (1, 1, b2n r.local_), (2, 8, r.order.toNat), (10, 3, r.nprod.toNat), (13, 8, r.dist.toNat)]

/-- MEM_STACK_STATUS (R396). -/
def Stack.statusWord (x : Stack) : Nat :=
  packBits [(0, 3, x.state.toNat), (3, 2, x.rate.toNat), (5, 1, b2n x.tset), (6, 1, b2n x.diag), (7, 16, x.failed.toNat), (23, 8, x.temp.toNat),
    (31, 1, b2n x.hot), (32, 1, b2n x.throttle)]

/-- ELOG_STATUS and FATAL_STATUS (R497, R498). -/
def State.elogStatus (s : State) : Nat :=
  packBits [(0, 11, s.elog.recs.length), (11, 32, ((s.elog.recs.head?.map (·.seq)).getD s.elog.next).toNat), (43, 21, s.elog.dropped.toNat)]
def State.fatalStatus (s : State) : Nat :=
  packBits [(0, 5, s.nv.fatal.length), (5, 16, s.elog.beyond.toNat), (21, 5, s.nv.fatalPrev.length)]

/-- TEST_STATUS (R501). -/
def Kat.word (k : Kat) : Nat :=
  packBits [(0, 2, k.health.toNat), (2, 1, b2n k.due), (3, 1, b2n k.running), (4, 1, b2n k.lastPass), (5, 2, k.fails), (7, 7, k.passes),
    (14, 9, k.jobs), (23, 32, k.lastMs.toNat)]
/-- SENSOR (R507). -/
def Sensor.word (x : Sensor) : Nat := packBits [(0, 16, x.value.toNat), (16, 1, b2n x.warn), (17, 1, b2n x.valid), (18, 16, x.peak.toNat)]
/-- SNAP_STATUS (R513). -/
def Cnt.status (c : Cnt) : Nat := packBits [(0, 1, b2n c.pending), (1, 32, c.seq.toNat), (33, 1, b2n c.synced)]

/-- PWR_STATUS, PWR_CAP, RESET_CAUSE and the unit maps (R520, R521, R534, R535). -/
def Pwr.statusWord (p : Pwr) : Nat :=
  packBits [(0, 3, p.state.toNat), (3, 1, b2n p.entering), (4, 3, p.lastAp.toNat), (7, 16, p.input.toNat), (23, 16, p.input1ms.toNat),
    (39, 16, p.lastUnit.toNat), (55, 8, p.lastReason.toNat)]
def Pwr.capWord (p : Pwr) : Nat :=
  packBits [(0, 10, p.cap.toNat), (10, 10, p.ceiling.toNat), (20, 10, p.floor.toNat), (30, 2, p.level.toNat), (32, 4, p.step.toNat)]
def Nv.causeWord (n : Nv) : Nat := packBits [(0, 3, n.cause.toNat), (3, 32, n.resets.toNat)]
def mapWord (m : UnitMap) : Nat :=
  packBits [(0, 8, m.stks.toNat), (8, 4, m.linkdies.toNat), (12, 32, m.tiles.toNat), (44, 4, m.quads.toNat), (48, 2, m.hubs.toNat),
    (50, 2, m.cores.toNat)]

/-- Whether a quadrant is enabled: its switch, stage and slice, and its hub die. -/
def quadOk (m : UnitMap) (q : Nat) : Bool := m.quads.getLsbD q && m.hubs.getLsbD (q / 2)

/-- A bit for each of n units that satisfies a condition, from bit `lo` up. -/
def mapBits (lo n : Nat) (f : Nat → Bool) : Nat := ((List.range n).filter f).foldl (fun m i => m + 2 ^ (lo + i)) 0

/-- UNIT_TESTED (R533, R534): a unit that is disabled with its quadrant or its hub die reads 0, as one that failed. (DEDUCED: log entry 21) -/
def shownMap (m : UnitMap) : UnitMap :=
  { m with stks := BitVec.ofNat 8 (mapBits 0 8 fun n => m.stks.getLsbD n && quadOk m (n / 2))
           linkdies := BitVec.ofNat 4 (mapBits 0 4 fun n => m.linkdies.getLsbD n && quadOk m (quadOfDie n))
           tiles := BitVec.ofNat 32 (mapBits 0 32 fun n => m.tiles.getLsbD n && quadOk m (n / 8))
           quads := BitVec.ofNat 4 (mapBits 0 4 (quadOk m)) }

/-- MC_STATUS and WARDEN_LAST (R424, R428). -/
def Stew.mcWord (w : Stew) : Nat :=
  packBits [(0, 1, b2n w.active), (1, 2, w.standby.toNat), (3, 1, b2n w.noFw), (4, 32, w.claim.toNat), (36, 16, w.takeovers.toNat),
    (52, 3, w.lastCause.toNat)]
def Stew.lastWord (w : Stew) : Nat := packBits [(0, 8, w.wardenCode.toNat), (8, 6, w.wardenToken.toNat), (14, 32, w.wardenAddr.toNat)]

/-- The running and the other firmware slot. -/
def Nv.runSlot (n : Nv) : FwSlot := if n.slot then n.fw1 else n.fw0
def Nv.otherSlot (n : Nv) : FwSlot := if n.slot then n.fw0 else n.fw1
/-- FW_STATE.STATE (R478). -/
def State.fwState (s : State) : Nat := if s.stew.commit then 2 else if s.nv.otherSlot.valid then 1 else 0
def State.fwStateWord (s : State) : Nat :=
  packBits [(0, 2, s.fwState), (2, 8, s.nv.runSlot.svn.toNat), (10, 8, s.nv.minSvn.toNat), (18, 1, b2n s.nv.slot)]
def State.fwStatusWord (s : State) : Nat :=
  packBits [(0, 32, s.nv.runSlot.version.toNat), (32, 32, if s.fwState = 0 then 0 else s.nv.otherSlot.version.toNat)]

/-- ELDER_CFG (R94). -/
def ElderCfg.word (c : ElderCfg) : Nat :=
  packBits [(0, 1, b2n c.filter), (1, 1, b2n c.en), (2, 6, c.part.toNat), (8, 12, c.eidMatch.toNat), (20, 12, c.eidMask.toNat)]

/-- A register of the device window. -/
def State.devWord (s : State) (o : Nat) : Nat :=
  if o < 0x1000 then
    if o = 0x8 then s.pwr.build.toNat else if o = 0x100 then s.stew.admin.toNat else if o = 0x200 then s.stew.mcWord
    else if o = 0x300 then s.stew.devNtf.toNat else if o = 0x400 then s.stew.lastWord else 0
  else if o < 0x5000 then
    if o = 0x4000 then s.elder.word
    else if o = 0x4800 then s.pred.toNat + 4 * b2n s.orphanScan
    else if 0x4A00 ≤ o && o < 0x4C00 then
      packBits ((List.range 64).map fun j => (j, 1, b2n (s.agent ((o - 0x4A00) / 8 * 64 + j))))
    else 0
  else if o < 0x6000 then s.tileStatus ((o - 0x5000) / 8)
  else if o < 0x7000 then
    if o = 0x6000 then s.ftNs else if o = 0x6008 then s.keeper.frac.toNat else if o = 0x6010 then s.keeper.cfg
    else if o = 0x6018 then s.ftStatus else if o = 0x6020 then s.schedStatus
    else if o = 0x6028 then (if s.sched.pending then s.sched.tx else s.sched.lastTx)
    else if o = 0x6030 then s.imageId.toNat else 0
  else if o < 0x8000 then (s.port ((o - 0x7000) / 8)).tcw.toNat
  else if o < 0x10000 then s.limitWord ((o - 0x8000) / 8)
  else if o < 0x11000 then
    let x := s.port ((o - 0x10000) / 0x100)
    if o % 0x100 = 0 then x.statusWord else if o % 0x100 = 8 then x.linkWord else if o % 0x100 = 0x10 then x.cfgWord else 0
  else if o < 0x12000 then if o = 0x11000 then s.node.word else (s.die ((o - 0x11008) / 8)).ctl
  else if o < 0x20000 then
    let x := s.port 16
    if o = 0x12000 then x.statusWord else if o = 0x12008 then x.linkWord else if o = 0x12010 then x.cfgWord + 4 * b2n s.qor.hostAgent
    else if o = 0x12018 then x.credSnp.toNat + 2 ^ 15 * b2n s.qor.caching + 2 ^ 16 * b2n (s.agent 0xFFE) else 0
  else if o < 0x40000 then
    let i := o - 0x20000
    let r := fun (e : Nat) => (s.route (i / 0x8000) (i % 0x8000 ≥ 0x4000) (BitVec.ofNat 12 e)).word
    let e := i % 0x4000 / 4
    r e + 2 ^ 32 * r (e + 1)
  else if o < 0x50000 then
    if o = 0x40800 then s.mem.patrolH.toNat
    else if o < 0x40800 && o % 0x100 = 0 then (s.stack ((o - 0x40000) / 0x100)).statusWord else 0
  else if o < 0x60000 then
    if o = 0x50000 then s.elogStatus
    else if 0x50040 ≤ o && o < 0x50080 then wordOf ((s.elog.recs.head?.map ErrRec.bits).getD 0) ((o - 0x50040) / 8)
    else if 0x51000 ≤ o && o < 0x53000 then s.elogStatus
    else if 0x54000 ≤ o && o < 0x54400 then wordOf ((s.nv.fatal[(o - 0x54000) / 64]?.map ErrRec.bits).getD 0) (o % 64 / 8)
    else if 0x54400 ≤ o && o < 0x54800 then wordOf ((s.nv.fatalPrev[(o - 0x54400) / 64]?.map ErrRec.bits).getD 0) (o % 64 / 8)
    else if o = 0x54800 then s.fatalStatus
    else if 0x58000 ≤ o && o < 0x58100 then (s.tile ((o - 0x58000) / 8)).kat.word
    else if 0x59000 ≤ o && o < 0x59100 then (s.sensor ((o - 0x59000) / 8)).word
    else if o = 0x5A000 then s.cnt.status else if o = 0x5A008 then s.cnt.snapFt.toNat else 0
  else if o < 0x70000 then
    if o = 0x60000 then s.pwr.statusWord else if o = 0x60008 then s.pwr.capWord else if o = 0x60018 then s.nv.causeWord
    else if o = 0x60020 then mapWord s.pwr.fused else if o = 0x60028 then mapWord (shownMap s.pwr.tested) else 0
  else
    if o < 0x70030 then bitsOf s.pwr.idhash.toNat ((o - 0x70000) * 8) 64
    else if o = 0x70100 then s.fwStatusWord else if o = 0x70108 then s.fwStateWord else 0

/-! ### Registers of a partition window -/

/-- CONTEXTS and GRANULES of PART_STATUS (R33). -/
def State.partContexts (s : State) (p : Nat) : Nat := (s.ctxs.filter fun e => e.1 / 1024 = p && e.2.state ≠ 0).length
def State.partGranules (s : State) (p : Nat) : Nat :=
  if (s.part p).state = 0 then 0
  else ((s.exts.filter fun e => e.2.owner.toNat = p && e.2.state ≠ 0 && !e.2.left).map fun e => e.2.localSize).sum

/-- PART_STATUS (R33). -/
def State.partStatus (s : State) (p : Nat) : Nat :=
  let x := s.part p
  packBits [(0, 3, x.state.toNat), (3, 2, x.cause.toNat), (5, 11, s.partContexts p), (16, 19, s.partGranules p)]

/-- FQ_STATUS and FQ_UNPOSTED (R491). -/
def Part.fqStatus (x : Part) : Nat := packBits [(0, 9, x.fq.length), (9, 32, ((x.fq.head?.map (·.1)).getD x.fqNext).toNat)]
def State.fqUnposted (s : State) (p : Nat) : Nat :=
  let x := s.part p
  let pend := s.pendOf p
  packBits [(0, 32, pend.length + x.overflow.length + x.held.length), (32, 1, b2n (pend.any fun e => (s.tile e.2).parked))]

/-- A register of a partition window; `adm` says that an administrative requester that is no partition requester reads it (R492). -/
def State.partWord (s : State) (p o : Nat) (adm : Bool) : Nat :=
  let x := s.part p
  if o = 0x1000 then s.partStatus p else if o = 0x1008 then x.cfg.toNat else if o = 0x1010 then x.shape.toNat
  else if o = 0x1018 then x.admCfg.toNat else if o = 0x1020 then x.ntf.toNat
  else if o = 0x2000 then x.fqStatus else if o = 0x2008 then s.fqUnposted p
  else if 0x2040 ≤ o && o < 0x2080 then
    if adm && x.conf && 0x2050 ≤ o then 0 else wordOf ((x.fq.head?.map fun r => r.2.bits r.1).getD 0) ((o - 0x2040) / 8)
  else if 0x2800 ≤ o && o < 0x3000 then x.fqStatus
  else if o = 0x3000 then packBits [(0, 2, x.sess.toNat), (2, 32, x.sid.toNat)]
  else if 0x3008 ≤ o && o < 0x3038 then bitsOf x.th.toNat ((o - 0x3008) * 8) 64
  else 0

/-! ### The counter views (R509 to R511) -/

/-- Whether the unit of a block of the counter views is enabled. -/
def State.blkOn (s : State) (b : Nat) : Bool :=
  let quad := quadOk s.pwr.tested
  if b = 0 then true
  else if b < 0x21 then s.tileEn (b - 1) else if b < 0x29 then s.stackEn (b - 0x21) else if b < 0x3A then s.portEn (b - 0x29)
  else if b < 0x3E then s.dieEn (b - 0x3A) else if b < 0x42 then quad (b - 0x3E) else if b < 0x46 then quad (b - 0x42)
  else decide (0x80 ≤ b) && decide (b < 0xC0) && !(s.part (b - 0x80)).conf

/-- An event counter or histogram bin as it reads: SAT with the last value (R509). -/
def cntWord (n : Nat) : Nat := if n = cntMax then n + 2 ^ 48 else n

/-- A word of a counter view. -/
def State.viewWord (s : State) (snap : Bool) (o : Nat) : Nat :=
  let k := o % 0x1000
  if !s.blkOn (o / 0x1000) then 0
  else if k = 0 then (if snap then (tget 0 s.cnt.hdr (o / 0x1000)).toNat else 0)
  else if !snap && o = 0x400 then s.ftNs
  else if !snap && o = 0x408 then s.now
  else
    let v := tget 0 (if snap then s.cnt.snap else s.cnt.live) o
    if 0x400 ≤ k && k < 0x800 then v else cntWord v

/-! ### Reads -/

/-- A word of a mailbox slot. -/
def State.mboxWord (s : State) (m : MbId) (reply : Bool) (o : Nat) : Nat :=
  let x := s.mbox m.idx
  wordOf (if reply then x.rpl else x.req).toNat (o / 8)

/-- The head record of a fault queue freed by a partition requester's read of FQ_ACK[k] (R492). -/
def State.fqAck (s : State) (p k : Nat) : State :=
  match (s.part p).fq with
  | (seq, _) :: rest => if seq.toNat % 256 = k then s.modPart p fun x => { x with fq := rest } else s
  | [] => s

/-- The head record of the error log freed by a read of ELOG_ACK[k] (R497). -/
def State.elogAck (s : State) (k : Nat) : State :=
  match s.elog.recs with
  | r :: rest => if r.seq.toNat % 1024 = k then { s with elog := { s.elog with recs := rest } } else s
  | [] => s

/-- A word read, with the effect that the read has (R233, R492, R497). -/
def State.readWord (s : State) (k : Packet) (o : Nat) : Nat × State :=
  match locOf o with
  | .mbox m r i => (s.mboxWord m r i, s)
  | .dev i =>
    let s := if i = 0x6000 then { s with keeper := { s.keeper with frac := s.keeper.ft.extractLsb' 0 16 } }
      else if 0x51000 ≤ i && i < 0x53000 then s.elogAck ((i - 0x51000) / 8) else s
    (s.devWord i, s)
  | .abort p => (2 * b2n (s.part p).done, s)
  | .part p i =>
    let mine := s.partReq p k
    let s := if mine && 0x2800 ≤ i && i < 0x3000 then s.fqAck p ((i - 0x2800) / 8) else s
    (s.partWord p i (!mine), s)
  | .view sn i => (s.viewWord sn i, s)
  | .reserved => (0, s)

/-- The words of a read in ascending order. (DESIGN CHOICE: log entry 64) -/
def State.readWords (s : State) (k : Packet) : List Nat → List Nat × State
  | [] => ([], s)
  | o :: r =>
    let (w, s) := s.readWord k o
    let (l, s) := s.readWords k r
    (w :: l, s)

/-- The byte offset of a control access, when its XH and OFFSET have the form of R403. -/
def ctlOff (p : Packet) : Option Nat := if p.xh = 0 && p.offset.toNat < 2 ^ 24 then some p.offset.toNat else none

/-- The words that a CTL_RD names, when it has the form of R403. -/
def readOffs (p : Packet) : Option (List Nat) :=
  let n := p.blen.toNat + 1
  match ctlOff p with
  | some o => if n % 8 = 0 && o % 8 = 0 && o % 128 + n ≤ 128 then some ((List.range (n / 8)).map fun i => o + 8 * i) else none
  | none => none

/-- The words that a CTL_WR writes, when its mask has the form of R403. -/
def writeOffs (p : Packet) : Option (List Nat) :=
  match ctlOff p with
  | some o =>
    let byte := fun (i : Nat) => (p.opnd.extractLsb' (8 * i) 8)
    if o % 128 = 0 && (List.range 16).all fun i => byte i == 0 || byte i == 0xFF then
      some (((List.range 16).filter fun i => byte i == 0xFF).map fun i => o + 8 * i)
    else none
  | none => none

/-- Whether a location belongs to the partition of a packet's CID. -/
def Loc.mine (k : Packet) (l : Loc) : Bool :=
  let p := cidPart k.cid
  match l with
  | .mbox m _ _ => m.part.any (·.val == p)
  | .abort q => q == p
  | .part q _ => q == p
  | .view _ o => o / 0x1000 == 0x80 + p
  | _ => false

/-- The completion of a control access: one of a location that is not of the CID's partition is the device's own, and no session protects it
(R404, R468). -/
def State.ctlCmp (s : State) (h : Held) (st : Status) : Packet :=
  { s.cmpFor { pkt := h.pkt, die := h.die, lim := h.lim } none st with
    dev := match ctlOff h.pkt with | some o => !(locOf o).mine h.pkt | none => true }

/-- The session unit's account of a control access of a confidential partition with a session, or of a protected one without (R469, R470, R483). -/
def State.noteCtl (s : State) (k : Packet) (locs : List Loc) : State :=
  let p := cidPart k.cid
  let x := s.part p
  if x.conf && (x.sess = 1 || k.enc) && locs.any (·.mine k) && x.admits k.src then s.noteProt p k else s

/-- A control-region read answered (R403, R404). While an image is being committed the identity and update registers answer BUSY (R478).
(DESIGN CHOICE: log entry 64) -/
def State.ctlRead (s : State) (h : Held) : State :=
  let p := h.pkt
  let r : Req := { pkt := p, die := h.die, lim := h.lim }
  match readOffs p with
  | none => s.reply r none (s.ctlCmp h stDenied)
  | some l =>
    let ok := l.all fun o => s.mayRead p (locOf o)
    let s1 := s.noteCtl p (l.map locOf)
    if !ok then s1.reply r none (s1.ctlCmp h stDenied)
    else if s.stew.commit && l.any (fun o => decide (0x70000 ≤ o) && decide (o < 0x71000)) then s1.reply r none (s1.ctlCmp h stBusy)
    else
      let (ws, s2) := s1.readWords p l
      s2.reply r none { s2.ctlCmp h stOk with opc := oCmpData, len := 160,
                                                  data := BitVec.ofNat 1024 (packBits (ws.mapIdx fun i w => (64 * i, 64, w))) }

/-! ### Aborts (R416, R417) -/

/-- An abort starts: the partition is ABORTED with a cause, its engines stop and its jobs are FREE. (DESIGN CHOICE: log entry 49) -/
def State.abortStart (s : State) (p : Nat) (cause : BitVec 2) : State :=
  if (s.part p).state = 1 || (s.part p).state = 2 then
    let s := s.modPart p fun x => { x with state := 4, cause := cause, abortAt := some s.now }
    ((s.abortHold p).each s.tileList fun s n => (s.abortTile p n).rouse n).invalCheck
  else s

/-! ### Writes (R409, R416) -/

/-- The bytes of a line written into a slot at a byte offset, under a mask. (DESIGN CHOICE: log entry 64) -/
def slotPut (slot : BitVec 2048) (o : Nat) (m : BitVec 128) (d : Line) : BitVec 2048 :=
  let k := wideMask m
  let wide := fun (x : Line) => (x.setWidth 2048) <<< (8 * o)
  (slot &&& ~~~ (wide k)) ||| wide (d &&& k)

/-- A write to a mailbox slot, and whether it is allowed (R409). -/
def State.mboxWrite (s : State) (m : MbId) (reply : Bool) (o : Nat) (k : Packet) : Option State :=
  let x := s.mbox m.idx
  if x.own then none
  else if x.replied then
    if reply && o = 0 && k.opnd.getLsbD 0 && !k.data.getLsbD 0 then some (s.setMbox m.idx { x with rpl := x.rpl &&& ~~~1 }) else none
  else if reply then none
  else
    let x1 := { x with req := slotPut x.req o k.opnd k.data }
    some (s.setMbox m.idx (if x1.own then { x1 with mseq := x.mseq + 1, running := false, eid := k.src } else x1))

/-- A control-region write (R403, R404). (DESIGN CHOICE: log entry 64) -/
def State.ctlWrite (s : State) (h : Held) : State :=
  let p := h.pkt
  let r : Req := { pkt := p, die := h.die, lim := h.lim }
  let end_ := fun (s : State) (st : Status) => s.reply r none (s.ctlCmp h st)
  match writeOffs p with
  | none => end_ s stDenied
  | some l =>
    let ok := l.all fun o => s.mayWrite p (locOf o)
    let s1 := s.noteCtl p (l.map locOf)
    if !ok then end_ s1 stDenied
    else match l with
      | [] => end_ s1 stOk
      | o :: _ => match locOf o with
        | .mbox m rp _ => match s1.mboxWrite m rp (o / 128 * 128 % 256) p with
          | some s2 => end_ s2 stOk
          | none => end_ s1 stDenied
        | .abort q => end_ (if p.data.getLsbD 0 then s1.abortStart q 1 else s1) stOk
        | _ => end_ s1 stDenied

/-- A control access that its turn has come for: one with NOCMP completes with ACCESS_DENIED and applies nothing (R342); one from a filtered
EID is an Elder request and ends with LEGACY_ABORT (R95). (DESIGN CHOICE: log entry 64) -/
def State.ctlGo (s : State) (h : Held) : State :=
  if h.pkt.nocmp then
    let r : Req := { pkt := h.pkt, die := h.die, lim := h.lim }
    s.reply r none (s.ctlCmp h stDenied)
  else if h.pkt.opc = oCtlRd then s.ctlRead h else s.ctlWrite h

/-- The row of a control access of an opcode: it waits behind a held request of its pair (R279). (DESIGN CHOICE: log entry 64) -/
def State.ctlRow (s : State) (o : Byte) (p : Packet) : State :=
  if p.opc ≠ o || s.filtered p.src || !s.turn p then s
  else
    let (h, s) := s.take p
    if s.pairHeld h.pkt.src then { s with admHeld := s.admHeld ++ [h] } else s.ctlGo h

/-- CTL_RD (R403). -/
def execCtlRd (p : Packet) (s : State) : Host.Outcome State Fault Refusal := .next (s.ctlRow oCtlRd p)
/-- FT_NOW_NS_READ (R233): the read latches the fraction. -/
def execFtNowNsRead (p : Packet) (s : State) : Host.Outcome State Fault Refusal := .next (s.ctlRow oCtlRd p)
/-- FQ_ACK_READ (R492). -/
def execFqAckRead (p : Packet) (s : State) : Host.Outcome State Fault Refusal := .next (s.ctlRow oCtlRd p)
/-- ELOG_ACK_READ (R497). -/
def execElogAckRead (p : Packet) (s : State) : Host.Outcome State Fault Refusal := .next (s.ctlRow oCtlRd p)
/-- CTL_WR (R403). -/
def execCtlWr (p : Packet) (s : State) : Host.Outcome State Fault Refusal := .next (s.ctlRow oCtlWr p)
/-- MAILBOX_POST (R409): a write that sets OWN of an IDLE mailbox posts the request, and MSEQ advances. -/
def execMailboxPost (p : Packet) (s : State) : Host.Outcome State Fault Refusal := .next (s.ctlRow oCtlWr p)
/-- MAILBOX_REPLY_CLEAR (R409): a write that clears OWN of the reply returns the mailbox to IDLE. -/
def execMailboxReplyClear (p : Packet) (s : State) : Host.Outcome State Fault Refusal := .next (s.ctlRow oCtlWr p)
/-- PART_ABORT_WRITE (R416). -/
def execPartAbortWrite (p : Packet) (s : State) : Host.Outcome State Fault Refusal := .next (s.ctlRow oCtlWr p)

end Sys2Proof.Machine
end

