-- ==== Sys2Proof/Machine/Link.lean ====
section
/-! DEFINITION. The rows of the link layer (chapters 10 and 12): training and PARAM, retrain, RESUME and DOWN, FEC blocks and flits in
both directions, replay and spill, frames and gates. -/
namespace Sys2Proof.Machine

/-! ### Training (R296, R297, R529) -/

/-- Whether ports may train: after the release of the management cores, outside D2, D2R and D3 (R1, R521, R524). -/
def State.portsOn (s : State) : Bool :=
  (s.pwr.phase == .boot || s.pwr.phase == .ready) && ((decide (s.pwr.state.toNat ≤ 1) && s.pwr.pstep != .s6) || s.pwr.pstep == .w5 || s.pwr.pstep == .w6)

/-- The bound of a training step in ns, full or short (R297, R308, R529). -/
def stepBound (step : Nat) (short : Bool) : Nat :=
  match step with
  | 1 => 1000000
  | 2 => if short then 20000 else 100000000
  | 3 => 1000000
  | 4 => if short then 19740 else 323400000
  | _ => 10000

/-- CRED_REQ, CRED_RSP and CRED_SNP that the GP8 advertises (R298, R354). -/
def ownParam (s : State) (p : Nat) : ParamBody :=
  if p = 16 then { version := 2, eid := s.node.eid, credReq := 8192, credRsp := 8192, credSnp := 0, port := 16 }
  else { version := 1, eid := s.node.eid, credReq := 16383, credRsp := 16384, port := BitVec.ofNat 8 p, caps := 7 }

/-- A port whose training fails: DOWN with a cause. -/
def State.trainFail (s : State) (p : Nat) (cause : BitVec 4) : State :=
  s.modPort p fun x => { x with state := 1, lastDown := cause, train := {}, lctl := [], downAt := s.now }

/-- Whether the retry timer of a DOWN port has come (R296, R320): with AUTO, 100 ms after it went down, and at once while it has never been
down since start-up or was DISABLED (R321). (DEDUCED: log entry 86) -/
def Port.retryDue (x : Port) (now : Nat) : Bool :=
  x.auto && (x.lastDown = 0 || x.lastDown = 6 || decide (x.downAt + 100000000 ≤ now))

/-- TRAINING_START (R296): a DOWN port with EN starts step 1, on a signal on all its lanes, or when its retry timer has come. -/
def execTrainingStart (trigger : TrainTrigger) (s : State) : Host.Outcome State Fault Refusal :=
  let start := fun (p : Nat) =>
    let x := s.port p
    if s.portEn p && s.portsOn && x.state = 1 && x.en then s.setPort p { x with state := 2, train := { step := 1, at_ := s.now }, lctl := [] }
    else s
  match trigger with
  | .signal p => .next (start p.val)
  | .retry p => .next (if (s.port p.val).retryDue s.now then start p.val else s)

/-- Training has ended (R296): the port is UP with SEQ 0, ACK 0xFFFF and no credits returned. -/
def State.portUp (s : State) (p : Nat) : State :=
  let s := s.modPort p fun x =>
    { x with state := 3, train := {}, shortOk := false, nextSeq := 0, lastAck := 0xFFFF, exp := 0, crr := 0, crs := 0, crn := 0
             lastBlock := s.now, lastData := s.now, tsxAt := s.now }
  if p = 16 then { s with qor := { s.qor with linkUp := false } } else s

/-- The marker that a port sends in step 1 of training (R529): its EID, and in bit 12 SHORT, which it sets while it holds coefficients that short
training may use. -/
def State.marker (s : State) (p : Nat) : BitVec 16 :=
  s.node.eid.setWidth 16 ||| (if (s.port p).shortOk && (s.port p).coeffs then 0x1000 else 0)

/-- Whether the markers of both ends lead to short training (R529): both with SHORT, and coefficients stored for the EID that the other sends. -/
def State.shortTraining (s : State) (p : Nat) (v : BitVec 16) : Bool :=
  (s.marker p).getLsbD 12 && v.getLsbD 12 && (s.port p).coeffEid == v.extractLsb' 0 12

/-- TRAINING_STEP_DONE (R297): the next step starts; after step 1 the peer's marker decides between full and short training; step 2 stores
coefficients for the EID of that marker; after step 4 PARAM is sent; at step 5 the round trip is noted, and with the peer's PARAM in hand the
port is UP. A step that fails ends training; the lanes that passed are those of the qualification, step 4 (R319). (DESIGN CHOICE: log entry 81) -/
def execTrainingStepDone (port : Fin 17) (r : StepResult) (s : State) : Host.Outcome State Fault Refusal :=
  let p := port.val
  let x := s.port p
  if x.state ≠ 2 then .next s
  else match r with
  | .failed lanes => .next ((s.modPort p fun x => if x.train.step = 4 then { x with laneOk := lanes } else x).trainFail p 7)
  | .ok v lanes =>
    let next : TrainSt := { x.train with step := x.train.step + 1, at_ := s.now }
    match x.train.step with
    | 1 =>
      .next (s.setPort p { x with train := { next with short := s.shortTraining p v, marker := v } })
    | 2 => .next (s.setPort p { x with train := next, coeffs := true, coeffEid := x.train.marker.extractLsb' 0 12 })
    | 3 => .next (s.setPort p { x with train := next })
    | 4 =>
      if lanes = 0xFF then
        .next (s.setPort p { x with train := next, laneOk := lanes, lctl := x.lctl ++ [lctlFlit (ownParam s p).flitBody] })
      else .next ((s.setPort p { x with laneOk := lanes }).trainFail p 7)
    | _ =>
      let s := s.setPort p { x with rtt := v, train := { x.train with gotRtt := true } }
      .next (if x.train.gotParam then s.portUp p else s)

/-- TRAINING_STEP_TIMEOUT (R296): a step that exceeds its bound ends training. -/
def execTrainingStepTimeout (port : Fin 17) (s : State) : Host.Outcome State Fault Refusal :=
  let p := port.val
  let x := s.port p
  if x.state = 2 && decide (x.train.at_ + stepBound x.train.step x.train.short < s.now) then .next (s.trainFail p 7) else .next s

/-- Whether a PARAM is valid at a port (R298, R354). -/
def paramBodyOk (p : Nat) (x : ParamBody) : Bool :=
  let q := x.credReq.toNat; let r := x.credRsp.toNat; let n := x.credSnp.toNat
  let ok := fun (c : Nat) => decide (64 ≤ c) && decide (c ≤ 16384)
  if p = 16 then x.version = 2 && x.eid = 0xFFE && ok q && ok r && (!x.caps.getLsbD 3 || ok n) && decide (q + r + n ≤ 32767)
  else x.version = 1 && x.eid ≠ 0xFFF && ok q && ok r && decide (q + r ≤ 32767)

/-- A PARAM of the peer (R296, R298, R354): invalid, it ends training with PARAM_BAD; valid at step 5, it gives the peer's EID and credits,
and the port is UP when the round trip has been measured (R297). -/
def State.paramIn (s : State) (p : Nat) (b : ParamBody) : State :=
  let x := s.port p
  if x.state ≠ 2 || x.train.step ≠ 5 then s
  else if !paramBodyOk p b then s.trainFail p 8
  else
    let snp : BitVec 16 := if p = 16 && b.caps.getLsbD 3 then b.credSnp else 0
    let s := s.setPort p
      { x with train := { x.train with gotParam := true }, peerEid := b.eid, peerCaps := b.caps
               credReq := b.credReq.setWidth 15, credRsp := b.credRsp.setWidth 15
               credSnp := if p = 16 then b.credSnp.setWidth 15 else 0
               cred := tput 0 (tput 0 (tput 0 [] 0 b.credReq.toNat) 1 b.credRsp.toNat) 2 snp.toNat }
    let s := if p = 16 then { s with qor := { s.qor with caching := b.caps.getLsbD 3 } } else s
    if x.train.gotRtt then s.portUp p else s

/-- PARAM (R298). -/
def execParam (port : Fin 17) (x : ParamBody) (s : State) : Host.Outcome State Fault Refusal := .next (s.paramIn port.val x)

/-! ### Retrain (R307, R308) and link-down (R310) -/

/-- The corrected bits of a lane in the last 2^30 bits (789,516 blocks of 1,360 bits a lane). (DEDUCED: log entry 40) -/
def Port.laneErrors (x : Port) (lane : Nat) : Nat := ((x.corrBits.filter fun e => e.1 % 8 = lane).map (·.2)).sum

/-- Whether a trigger of R307 that the port itself counts has come. (DEDUCED: log entry 40) -/
def Port.triggered (x : Port) : RetrainCause → Bool
  | .lock => true
  | .peer => true
  | .uncorr => decide (16 ≤ x.uncorr.length)
  | .ber => (List.range 8).any fun l => decide (107374 < x.laneErrors l)
  | .nak => decide (8 ≤ x.nakSame)
  | .protocol => x.protoErr

/-- RETRAIN_TRIGGER (R307). -/
def execRetrainTrigger (port : Fin 17) (cause : RetrainCause) (s : State) : Host.Outcome State Fault Refusal :=
  if (s.port port.val).triggered cause then .next (s.retrain port.val cause.code) else .next s

/-- A RETRAIN_REQ of the peer: a port in UP joins the retrain (R307). -/
def execRetrainReq (port : Fin 17) (_cause : Byte) (s : State) : Host.Outcome State Fault Refusal := .next (s.retrain port.val 6)

/-- RETRAIN_STEP_DONE (R308): the next step starts; RESUME is sent at step 5; a failed qualification is a link-down. -/
def execRetrainStepDone (port : Fin 17) (r : StepResult) (s : State) : Host.Outcome State Fault Refusal :=
  let p := port.val
  let x := s.port p
  if x.state ≠ 4 || 5 ≤ x.train.step then .next s
  else match r with
  | .failed lanes => .next ((if x.train.step = 4 then s.setPort p { x with laneOk := lanes } else s).linkDown p 2)
  | .ok _ lanes =>
    let n := x.train.step + 1
    if n = 5 && lanes ≠ 0xFF then .next ((s.setPort p { x with laneOk := lanes }).linkDown p 2)
    else
      let s := s.setPort p { x with train := { x.train with step := n }, laneOk := if n = 5 then lanes else x.laneOk
                                    lctl := if n = 5 then x.lctl ++ [resumeFlit] else x.lctl }
      match x.gotResume with
      | some a => .next (if n = 5 then s.resumed p a else s)
      | none => .next s

/-- A RESUME of the peer with the ACK and credit returns of its header: it ends a retrain at step 5, and is kept until then (R296, R308). -/
def State.resumeIn (s : State) (p : Nat) (h : BitVec 16 × List (Nat × BitVec 16)) : State :=
  let x := s.port p
  if x.state ≠ 4 then s
  else if x.train.step = 5 then s.resumed p h
  else s.setPort p { x with gotResume := some h }

/-- RESUME (R296), with an ACK and no further credit returned. -/
def execResume (port : Fin 17) (ack : BitVec 16) (s : State) : Host.Outcome State Fault Refusal := .next (s.resumeIn port.val (ack, []))

/-- RETRAIN_TIMEOUT (R296): a retrain that is not complete within 50 µs is a link-down. -/
def execRetrainTimeout (port : Fin 17) (s : State) : Host.Outcome State Fault Refusal :=
  let p := port.val
  let x := s.port p
  if x.state = 4 && decide (x.train.at_ + 50000 < s.now) then .next (s.linkDown p 2) else .next s

/-- Whether a port is in UP or RETRAIN. -/
def Port.linked (x : Port) : Bool := x.state = 3 || x.state = 4

/-- A DOWN of the peer (R310): with REASON 0 the port keeps its coefficients for short training (R529). (DESIGN CHOICE: log entry 41) -/
def State.downIn (s : State) (p : Nat) (reason : Byte) : State :=
  if (s.port p).linked then (s.modPort p fun x => { x with shortOk := reason = 0 }).linkDown p 5 else s

/-- DOWN (R310). (DESIGN CHOICE: log entry 41) -/
def execDown (port : Fin 17) (reason : Byte) (s : State) : Host.Outcome State Fault Refusal := .next (s.downIn port.val reason)

/-- SIGNAL_LOST (R310): no valid FEC block for 2 µs. -/
def execSignalLost (port : Fin 17) (s : State) : Host.Outcome State Fault Refusal :=
  let p := port.val
  if (s.port p).linked && decide ((s.port p).lastBlock + 2000 ≤ s.now) then .next (s.linkDown p 1) else .next s

/-- Whether a frame is queued for a port, or a message for Qoreus. -/
def State.frameQueued (s : State) (p : Nat) : Bool :=
  (s.port p).queues.any (fun q => !q.2.isEmpty)
    || (p == 16 && !(s.qor.rsp.isEmpty && s.qor.snp.isEmpty && s.qor.walk.isEmpty && s.qor.vec.isEmpty && s.qor.eng.isEmpty))

/-- PORT_LISTEN_IDLE (R524): in D1 a port without a DATA flit in either direction for 100 µs, and without a frame queued for it, listens. -/
def execPortListenIdle (port : Fin 17) (s : State) : Host.Outcome State Fault Refusal :=
  let p := port.val
  let x := s.port p
  if s.pwr.state = 1 && x.state = 3 && decide (x.lastData + 100000 ≤ s.now) && x.store.isEmpty && !s.frameQueued p then
    .next (s.setPort p { x with listening := true })
  else .next s

/-! ### Receiving flits (R291 to R295, R299, R306) -/

/-- The receiver asks for a replay with its next header (R299). -/
def State.setNak (s : State) (p : Nat) : State :=
  s.modPort p fun x => if x.nakHold then x else { x with nakHold := true, nakSend := true, nakAt := s.now }

/-- A NAK of the peer (R299): every unacknowledged flit is replayed from ACK + 1; one with the same ACK within a round trip of the start
of a replay is ignored. (DEDUCED: log entry 40) -/
def State.nakIn (s : State) (p : Nat) (ack : BitVec 16) : State :=
  let s := s.bump (portBlk p) 4
  let x := s.port p
  let same := x.lastNak == some ack
  let s := s.setPort p { x with nakSame := if same then x.nakSame + 1 else 1, lastNak := some ack }
  match x.replayAck with
  | some (a, t) => if a = ack && decide (s.now < t + x.rtt.toNat) then s else s.startReplay p
  | none => s.startReplay p

/-- A packet that a port has received whole is handed to its link die, or, on Qoreus, is a message of the host (R311, R362): requests
with other addresses than those of R357 complete with ACCESS_DENIED. TC7 counts as TC6 (R357). -/
def State.received (s : State) (p : Nat) (pkt : Packet) : State :=
  if p < 16 then s.modDie (p / 4) fun d => { d with arrived := d.arrived ++ [(Fin.ofNat 4 p, pkt)] }
  else
    let s := if !pkt.vc && pkt.tc = 7 then s.bump (portBlk 16) 14 else s
    let q := { pkt with tc := if pkt.tc = 7 then 6 else pkt.tc, pseq := 0, nocmp := false, last := false, syn := false }
    let toGp8 := q.src = hostEid && q.dst = s.node.eid
    if q.vc then (if toGp8 then s.handOn { pkt := q, die := 0 } else s)
    else if toGp8 then s.limiter { pkt := q, die := 0 }
    else s.toHost (s.cmpFor { pkt := { q with src := hostEid } } none stDenied)

/-- A DATA flit that is accepted in order: its credit is returned as the router takes it (R305), and its bytes join the packet in hand;
a packet whose flits disagree with its header is discarded (R326). -/
def State.acceptFlit (s : State) (p : Nat) (f : Flit) : State :=
  let x := s.port p
  let c := if p = 16 && f.cls then 2 else if f.vc then 1 else 0
  let bs := (if f.sop then [] else x.rxPart) ++ leBytes 240 f.body.toNat
  let n := (if f.sop then 0 else x.rxFlits) + 1
  let s := s.setPort p { x with exp := x.exp + 1, nakHold := false, listening := false, lastData := s.now
                                crr := if c = 0 then x.crr + 1 else x.crr, crs := if c = 1 then x.crs + 1 else x.crs
                                rxPart := if f.eop then [] else bs, rxOpen := !f.eop, rxFlits := if f.eop then 0 else n
                                rxVc := f.vc, rxCls := f.cls }
  if !f.eop || !(f.sop || x.rxOpen) then s
  else
    let pkt := { Packet.ofBytes bs with snp := c == 2 }
    if pkt.vc != f.vc || flitsOf pkt.len.toNat ≠ n then (if p = 16 then s else s.bump (dieBlk (p / 4)) 0)
    else s.received p pkt

/-- A DATA flit (R299): accepted, discarded as a duplicate, or discarded with a NAK. -/
def State.dataIn (s : State) (p : Nat) (f : Flit) : State :=
  let d := seqDiff f.seq (s.port p).exp
  if p = 16 && f.cls then s.protoErr p
  else if d = 0 then s.acceptFlit p f
  else if d < 0 then s
  else s.setNak p

/-- A known LCTL message, or one with a reserved MSG, which is counted (R295). -/
def State.lctlIn (s : State) (p : Nat) (f : Flit) : State :=
  match (f.byte 0).toNat with
  | 1 => s.paramIn p (ParamBody.ofBody f.body)
  | 2 => if p = 16 then s else s.tsx p (TsxBody.ofBody f.body) (tget 0 s.repl.die (p / 4))
  | 3 => s.retrain p 6
  | 4 => s.resumeIn p (f.ack, f.returns p)
  | 5 => s.downIn p (f.byte 1)
  | _ => s.bump (portBlk p) 13

/-- Whether the header of a flit is applied when it comes (R306): in UP, and in RETRAIN but for RESUME, whose header ends the retrain. -/
def headerNow (st : BitVec 3) (f : Flit) : Bool := st == 3 || (st == 4 && !(f.typ == 2 && f.byte 0 == 4))

/-- A received flit: a failed CRC sets NAK and nothing else of it counts (R293, R299); in UP and RETRAIN the header's ACK and credits are
applied first; in UP then its NAK and its DATA; LCTL has its effect in every state. TYPE 3 is a protocol error. (DEDUCED: log entry 16) -/
def State.flitIn (s : State) (p : Nat) (f : Flit) : State :=
  let st := (s.port p).state
  if !f.crcOk then
    let s := s.bump (portBlk p) 2
    if st = 3 then s.setNak p else s
  else if f.typ = 3 then (if st = 3 || st = 4 then s.protoErr p else s)
  else
    let s := if headerNow st f then s.applyHeader p f else s
    let s := if st = 3 && f.nak then s.nakIn p f.ack else s
    if f.typ = 1 then (if st = 3 then s.dataIn p f else s)
    else if f.typ = 2 then s.lctlIn p f
    else s

/-- FLIT_RECEIVE (R299). (DEDUCED: log entry 16) -/
def execFlitReceive (port : Fin 17) (f : Flit) (s : State) : Host.Outcome State Fault Refusal :=
  if 2 ≤ (s.port port.val).state.toNat then .next (s.flitIn port.val f) else .next s

/-- FEC_BLOCK_RECEIVE (R291): corrected bits are measured for each lane and corrected symbols counted; a block with an uncorrectable codeword is discarded and a NAK
follows; the five flits of any other block are received in order. (DEDUCED: log entries 16, 40; DESIGN CHOICE: log entry 81) -/
def execFecBlockReceive (port : Fin 17) (b : FecBlock) (s : State) : Host.Outcome State Fault Refusal :=
  let p := port.val
  let x := s.port p
  if x.state.toNat < 2 then .next s
  else
    let bad := b2n b.bad0 + b2n b.bad1
    let k := x.corrBase + 1
    let bits := (b.laneBits.mapIdx fun i n => (k * 8 + i, n)).foldl (fun t e => tput 0 t e.1 e.2)
      (x.corrBits.filter fun e => decide (k < e.1 / 8 + 789516))
    let un := (x.uncorr.filter fun t => decide (s.now < t + 1000000)) ++ List.replicate bad s.now
    let s := s.setPort p { x with corrBase := k, corrBits := bits, uncorr := un, lastBlock := if bad = 0 then s.now else x.lastBlock }
    let s := if b.corrected.isEmpty then s else s.bumpBy (portBlk p + 8) b.corrected.length
    if bad = 0 then .next (s.each [b.f0, b.f1, b.f2, b.f3, b.f4] fun s f => s.flitIn p f)
    else
      let s := s.bumpBy (portBlk p + 16) bad
      .next (if x.state = 3 then s.setNak p else s)

/-- NAK_REPEAT_TIMER (R299): no flit of the expected SEQ for 2 µs plus the round trip. -/
def execNakRepeatTimer (port : Fin 17) (s : State) : Host.Outcome State Fault Refusal :=
  let p := port.val
  let x := s.port p
  if x.state = 3 && x.nakHold && decide (x.nakAt + 2000 + x.rtt.toNat ≤ s.now) then
    .next (s.setPort p { x with nakSend := true, nakAt := s.now })
  else .next s

/-- REPLAY_TIMEOUT (R299): the oldest unacknowledged flit was last sent more than 8 µs plus the round trip ago. -/
def execReplayTimeout (port : Fin 17) (s : State) : Host.Outcome State Fault Refusal :=
  let p := port.val
  let x := s.port p
  match x.store.head?.bind (·.sentAt) with
  | some t => if x.state = 3 && x.replay.isNone && decide (t + 8000 + x.rtt.toNat < s.now) then .next (s.startReplay p) else .next s
  | none => .next s

/-- The flits of a replay store that have not been sent to the spill region. -/
def Port.onDie (x : Port) : List TxFlit := x.store.filter fun f => !f.spill

/-- The oldest 8 flits on die move to the spill region of a port (R302). (DESIGN CHOICE: log entry 44) -/
def State.spillGroup (s : State) (p : Nat) : State :=
  let x := s.port p
  let group := x.onDie.take 8
  let s := s.setPort p { x with store := x.store.map fun f => if group.any (·.seq = f.seq) then { f with spill := true } else f }
  (s.bumpBy (portBlk p + 8 + 8 * 6) group.length).each group fun s f => s.spillReq p f true

/-- SPILL_WRITE (R302): with the on-die buffer of 2,048 flits full, the oldest 8 flits on die move to the spill region; Qoreus has
none (R353). (DESIGN CHOICE: log entry 44) -/
def execSpillWrite (port : Fin 17) (s : State) : Host.Outcome State Fault Refusal :=
  let p := port.val
  if p < 16 && 2048 ≤ (s.port p).onDie.length then .next (s.spillGroup p) else .next s

/-- Groups move to the spill region of a port while its on-die buffer holds more than its 2,048 flits (R302). (DESIGN CHOICE: log entry 44) -/
def State.spillMore (s : State) (p : Nat) : Nat → State
  | 0 => s
  | n + 1 => if p < 16 && decide (2048 < (s.port p).onDie.length) then (s.spillGroup p).spillMore p n else s

/-- A flit that a half of its bytes, read back, gives its body: bytes 16 to 127 and 128 to 255 of the flit (R292). -/
def TxFlit.got (f : TxFlit) (half : Bool) (d : Line) : TxFlit :=
  let b := leBytes 240 f.flit.body.toNat
  let new := if half then b.take 112 ++ lineBytes d else (lineBytes d).drop 16 ++ b.drop 112
  { f with flit := { f.flit with body := BitVec.ofNat 1920 (ofLe new) } }

/-- A flit with a half of its access done; with both, a written flit leaves its body to DRAM, and a read one is back. -/
def TxFlit.halfDone (f : TxFlit) (half write : Bool) (d : Line) : TxFlit :=
  let h := f.halves ||| (if half then 2 else 1)
  let f := if write then f else f.got half d
  if h ≠ 3 then { f with halves := h }
  else if write then { f with halves := 0, written := true, flit := { f.flit with body := 0 } }
  else { f with halves := 0, back := 2 }

/-- The end of an access to a half of a spilled flit, with what a read returned (R302, R310, R388): written, or back for the replay, which then asks
for its next spilled flit, one at a time; an uncorrectable read takes the port down with SPILL_LOST. (DESIGN CHOICE: log entry 44) -/
def State.spillDone (s : State) (p : Nat) (seq : BitVec 16) (half write : Bool) (d : Option Line) : State :=
  let x := s.port p
  let set := fun (d : Line) => s.setPort p { x with store := x.store.map fun f => if f.seq = seq then f.halfDone half write d else f }
  if !x.store.any (·.seq = seq) then s
  else match d with
    | none => s.linkDown p 4
    | some d => if write && x.store.any (·.back = 1) then set d else (set d).readBack p

/-! ### Frames (R274, R361) -/

/-- A frame starts: its flits take the next SEQs and credits and enter the replay store (R299, R304). (DEDUCED: log entry 43) -/
def State.startFrame (s : State) (p : Nat) (pkt : Packet) : State :=
  s.modPort p fun x =>
    let fs := pkt.flits.mapIdx fun i f =>
      let t : TxFlit := { seq := x.nextSeq + BitVec.ofNat 16 i, cls := pkt.cls, flit := { f with seq := x.nextSeq + BitVec.ofNat 16 i }
                          pkt := pkt }
      t
    { x with store := x.store ++ fs, nextSeq := x.nextSeq + BitVec.ofNat 16 fs.length, frames := x.frames + 1, lastData := s.now, listening := false
             cred := tmod 0 x.cred pkt.cls (· - fs.length) }

/-- Whether a frame of a packet may start by window and credits (R301, R304). (DEDUCED: log entry 40) -/
def Port.canStart (x : Port) (limit : Nat) (p : Packet) : Bool :=
  let n := flitsOf p.len.toNat
  decide (x.store.length + n ≤ limit) && decide (n ≤ x.credits p.cls)

/-- The head frame of a queue that may start now: gate, window and credits. -/
def State.headOk (s : State) (p t : Nat) : Bool :=
  match ((s.port p).queue t).head? with
  | some q => s.gateOk p t q.flits && (s.port p).canStart 32767 q.pkt
  | none => false

/-- The class that starts next (R274): DRAIN ahead of all, even while it waits for a credit (R332), TC7, weighted fair queuing, then the classes of weight 0 by least recent
service. -/
def State.pickClass (s : State) (p : Nat) : Option Nat :=
  let x := s.port p
  let low := (List.range 7).filter fun t => s.headOk p t
  if !(x.queue 8).isEmpty then (if (x.queue 8).head?.any fun q => x.canStart 32767 q.pkt then some 8 else none)
  else if s.headOk p 7 then some 7
  else match wfqPick x.tags (low.filter fun t => 1 ≤ x.tcWeight t) with
    | some t => some t
    | none => ((low.filter fun t => x.tcWeight t = 0).map fun t => (tget 0 x.served0 t, t)).foldl
        (fun m e => match m with | none => some e | some b => if e.1 < b.1 then some e else m) none |>.map (·.2)

/-- The tags and service order of a port after a class is served (R277). (DEDUCED: log entry 43) -/
def Port.servedClass (x : Port) (t : Nat) : Port :=
  let x := { x with served0 := tput 0 x.served0 t (x.frames + 1) }
  if t < 7 && 1 ≤ x.tcWeight t then
    let q := tget {} x.tags t
    let tags := tput {} x.tags t (q.served ((x.queue t).head?.map fun h => x.charge t h.flits))
    let (v, tags) := wfqAfter q.start tags fun k => !(x.queue k).isEmpty
    { x with vtime := v, tags := tags }
  else x

/-! ### The transit buffer (R334, R335) -/

/-- The flits of packets in a transit buffer: all, or those that this GP8 originated. -/
def Die.transitFlits (x : Die) (own : Bool) : Nat :=
  ((x.transit.filter fun t => !own || t.inp.isNone).map fun t => flitsOf t.pkt.len.toNat).sum

/-- The packet of a transit buffer that arrived from a port and has waited longest; the first in the buffer among equals. -/
def oldestArrived : List Transit → Option Transit
  | [] => none
  | t :: l =>
    if t.inp.isNone then oldestArrived l
    else match oldestArrived l with
      | some u => if u.at_ < t.at_ then some u else some t
      | none => some t

/-- Room made in a transit buffer: the arrived packet that has waited longest is discarded (R335). -/
def State.makeRoom (s : State) (d need : Nat) : Nat → State
  | 0 => s
  | n + 1 =>
    let x := s.die d
    if x.transitFlits false + need ≤ 4096 then s
    else match oldestArrived x.transit with
      | some t => ((s.setDie d { x with transit := x.transit.erase t }).bump (dieBlk d) 6).makeRoom d need n
      | none => s

/-- A packet held in the transit buffer (R334, R335), which makes room for one that arrived from a port. -/
def State.hold (s : State) (d : Nat) (t : Transit) : State :=
  let n := flitsOf t.pkt.len.toNat
  let s := if t.inp.isSome then s.makeRoom d n (s.die d).transit.length else s
  if t.inp.isNone || (s.die d).transitFlits false + n ≤ 4096 then s.modDie d fun x => { x with transit := x.transit ++ [t] }
  else s.bump (dieBlk d) 6

/-- TC7 frames queued at a port that no image schedules are demoted to TC6 (R245, R269); one for which that queue has no room finds the port busy
and is held in the transit buffer, from which it is deflected (R273, R334). (DEDUCED: log entry 43) -/
def State.demoteQueued (s : State) (p : Nat) : State :=
  let x := s.port p
  if (s.gateList p).isSome || (x.queue 7).isEmpty then s
  else (s.setPort p (x.setQueue 7 [])).each (x.queue 7) fun s q =>
    let k := { q.pkt with tc := 6 }
    if (s.port p).room 6 q.flits then s.queueOn p 6 k true q.inp else s.hold (p / 4) { pkt := k, inp := q.inp, at_ := s.now, demoted := true }

/-- A Svaop port starts its next frame (R274). -/
def State.svaopFrame (s0 : State) (p : Nat) : State :=
  let s := s0.demoteQueued p
  let x := s.port p
  match s.pickClass p with
  | none =>
    if x.windowShut && !x.starved && !(x.queues.all fun q => q.2.isEmpty) then
      (s.setPort p { x with starved := true }).bump (portBlk p) 7
    else s
  | some t =>
    match x.queue t with
    | [] => s
    | q :: rest =>
      let s := s.setPort p { ((x.setQueue t rest).servedClass t) with starved := false }
      let s := (s.startFrame p q.pkt).spillMore p 2
      if q.demoted then s.bump (portBlk p) 16 else s

/-- Whether no Qoreus message can start because of the window of 1,024 flits: one waits, and none that waits first fits (R301, R353). -/
def State.qoreusShut (s : State) : Bool :=
  let q := s.qor
  let heads := [q.rsp.head?, q.snp.head?, q.walk.head?, q.vec.head?, q.eng.head?.map (·.2)].filterMap id
  !heads.isEmpty && heads.all fun p => decide (1024 < (s.port 16).store.length + flitsOf p.len.toNat)

/-- The next message on Qoreus (R361): RSP, SNP, then walker reads, VEC, and engine accesses round robin among tiles. A window that lets none
start is counted once for each episode (R321, R369). -/
def State.qoreusFrame (s0 : State) : State :=
  let shut := s0.qoreusShut
  let s := s0.modPort 16 fun x => { x with starved := shut }
  let s := if shut && !(s0.port 16).starved then s.bump (portBlk 16) 7 else s
  let x := s.port 16
  let q := s.qor
  let can := fun (l : List Packet) => match l.head? with | some p => x.canStart 1024 p | none => false
  let tiles := (List.range 32).map fun i => (q.lastTile + 1 + i) % 32
  let eng := (tiles.filterMap fun n => q.eng.find? (·.1 = n)).head?
  if can q.rsp then ({ s with qor := { q with rsp := q.rsp.drop 1 } }).startFrame 16 (q.rsp.headD {})
  else if can q.snp then ({ s with qor := { q with snp := q.snp.drop 1 } }).startFrame 16 (q.snp.headD {})
  else if can q.walk then ({ s with qor := { q with walk := q.walk.drop 1 } }).startFrame 16 (q.walk.headD {})
  else if can q.vec then ({ s with qor := { q with vec := q.vec.drop 1 } }).startFrame 16 (q.vec.headD {})
  else match eng with
    | some (n, p) =>
      if x.canStart 1024 p then ({ s with qor := { q with eng := q.eng.erase (n, p), lastTile := n } }).startFrame 16 p else s
    | none => s

/-- PORT_FRAME_START (R274, R303, R361): a port in UP whose last frame is sent and that runs no replay starts its next frame. -/
def execPortFrameStart (port : Fin 17) (s : State) : Host.Outcome State Fault Refusal :=
  let p := port.val
  let x := s.port p
  if x.state = 3 && x.replay.isNone && x.store.all (·.sentAt.isSome) then
    .next (if p = 16 then s.qoreusFrame else s.svaopFrame p)
  else .next s

/-! ### Transmitting (R290, R292, R300) -/

/-- A flit as it is sent: ACK, NAK, credits and CRC set. -/
def Port.header (x : Port) (f : Flit) : Flit :=
  { f with ack := x.exp - 1, nak := x.nakSend, crr := x.crr, crs := x.crs, crn := x.crn }.seal

/-- The content of one flit slot (R274, R290, R303, R315, R317): a control flit, a replay flit, a flit of the frame that is being sent, or
IDLE. A TSX takes slot 0 only, in UP, and not within a frame. (DEDUCED: log entries 36, 40, 43) -/
def State.fillSlot (s : State) (p k : Nat) : State :=
  let x := s.port p
  let mid := match x.store.find? (·.sentAt.isNone) with | some f => !f.flit.sop | none => false
  let put := fun (s : State) (x : Port) (f : Flit) =>
    let g := x.header f
    let s := s.setPort p { x with wire := x.wire ++ [g], nakSend := false }
    if x.nakSend then s.bump (portBlk p) 3 else s
  let ctl := x.lctl.find? fun f => !isTsx f || (x.state = 3 && k = 0 && !mid)
  match ctl with
  | some f =>
    let b := if isTsx f then { f with body := ({ TsxBody.ofBody f.body with tTx := tget 0 s.repl.die (p / 4) } : TsxBody).flitBody } else f
    put s { x with lctl := x.lctl.erase f } b
  | none =>
    if x.state ≠ 3 then put s x {}
    else match x.replay with
    | some i =>
      match x.store[i]? with
      | some f =>
        if f.written && f.back ≠ 2 then put s x {}
        else
          let store := x.store.mapIdx fun j g => if j = i then { g with sentAt := some s.now } else g
          let nxt := if i + 1 < x.sent then some (i + 1) else none
          put (s.bump (portBlk p) 5) { x with store := store, replay := nxt } { f.flit with rtx := true }
      | none => put s { x with replay := none } {}
    | none =>
      match x.store.findIdx? (·.sentAt.isNone) with
      | some i =>
        match x.store[i]? with
        | some f =>
          let store := x.store.mapIdx fun j g => if j = i then { g with sentAt := some s.now } else g
          put s { x with store := store, lastData := s.now } f.flit
        | none => put s x {}
      | none => put s x {}

/-- The block that a port has filled is formed, with its counter (R290). -/
def Port.sealBlock (x : Port) : Port := { x with fecMsg := fecMessage (x.fecCtr - 1) x.wire }

/-- A port sends its next block (R290). -/
def State.sendBlock (s : State) (p : Nat) : State :=
  let s := s.modPort p fun x => { x with fecCtr := x.fecCtr + 1, wire := [], wireAt := s.now }
  (s.each [0, 1, 2, 3, 4] fun s k => s.fillSlot p k).modPort p Port.sealBlock

/-- A port in UP sends DOWN with a reason in its next block, and then takes the link-down actions with cause DISABLED (R296, R310).
(DESIGN CHOICE: log entry 41) -/
def State.sendDown (s : State) (p reason : Nat) : State :=
  ((s.modPort p fun x => { x with lctl := downFlit reason :: x.lctl }).sendBlock p).linkDown p 6

/-- FEC_BLOCK_TRANSMIT (R290): the next block of a port that sends: UP, RETRAIN, or TRAINING from step 5 on. (DEDUCED: log entry 40) -/
def execFecBlockTransmit (port : Fin 17) (s : State) : Host.Outcome State Fault Refusal :=
  let p := port.val
  let x := s.port p
  if x.state = 3 || x.state = 4 || (x.state = 2 && x.train.step = 5) then
    .next (s.sendBlock p)
  else .next s

end Sys2Proof.Machine
end

