-- ==== Sys2Proof/Machine/Memory.lean ====
section
/-! DEFINITION. The memory stage's requests (R46, R47, R279): the memory rows, Elder requests (R94 to R101), held requests, and the
directory's answers, timeouts and scans (chapter 04). -/
namespace Sys2Proof.Machine

/-! ### Arrival at the memory stage -/

/-- A fabric request at the memory stage: the checks of R46 in order, then the combine unit, the directory or the arbiter. -/
def State.stageCheck (s0 : State) (r0 : Req) : State :=
  let p := r0.pkt
  let part := cidPart p.cid
  let x := s0.part part
  let c := s0.ctx p.cid.toNat
  let bad := s0.msCheck p (some p.src) true
  let s := if x.conf && x.state = 2 && c.state = 2 && eidFits p.src c.eidMatch c.eidMask then s0.noteProt part p else s0
  match bad with
  | some st => (s.dropResv r0).deliver r0 st 0 0 (if st = stRetry then 15 else 0) false
  | none =>
    let e := s.ext r0.ext
    let (r, s) := s.enter r0
    if e.combine then s.combine r
    else if e.coherent then s.dirRequest r
    else s.toDram { r with act := (directAct p).1, cost := (directAct p).2 }

/-- The region of an aperture address, and the request on the backing extent that it stands for (R96, R325). (DEDUCED: log entry 33) -/
def State.elderReq (s : State) (h : Held) : Req :=
  let a := h.pkt.offset.toNat % 2 ^ 36
  let g := s.region (a / 2 ^ 21)
  let p := { h.pkt with xh := BitVec.ofNat 24 (g.index.toNat + g.gen.toNat * 2 ^ 18)
                        offset := BitVec.ofNat 40 (g.granule.toNat * 2 ^ 21 + a % 2 ^ 21) }
  let x := s.ext g.index.toNat
  { pkt := p, org := .elder, lim := h.lim, die := h.die, ext := g.index.toNat, line := s.extLine x p.offset.toNat
    flow := 3 + s.elder.part.toNat, home := some (lineStack (s.extLine x p.offset.toNat)) }

/-- Whether an Elder request writes. -/
def elderWrite (p : Packet) : Bool := p.opc = oWrLine || p.opc = oWrPartial

/-- The checks of R98 before that of rights, on the region that the request names, and the forms that an Elder requester may use.
(DEDUCED: log entry 33) -/
def State.elderOk (s : State) (h : Held) (r : Req) : Bool :=
  let a := h.pkt.offset.toNat % 2 ^ 36
  let g := s.region (a / 2 ^ 21)
  let x := s.ext g.index.toNat
  s.elder.en && (s.part s.elder.part.toNat).state == 2 && g.v && g.key == h.pkt.cid.extractLsb' 0 4
    && x.state == 1 && x.owner == s.elder.part && x.gen == g.gen
    && decide (a % 128 + r.pkt.accLen ≤ 128) && r.pkt.formOk false

/-- An Elder request (R98 to R100): LEGACY_ABORT at the first check that fails; a write to a read-only region is discarded with OK unless
the partition is STRICT. (DEDUCED: log entry 33) -/
def State.elderIn (s : State) (h : Held) : State :=
  let r := s.elderReq h
  let g := s.region (h.pkt.offset.toNat % 2 ^ 36 / 2 ^ 21)
  if !s.elderOk h r then s.deliver r stLegacy 0 0 0 false
  else
    let ok := if elderWrite r.pkt then g.w else if r.pkt.opc = oAtomic then g.w && g.a else g.r
    if ok then
      let (r, s) := s.enter r
      s.toDram { r with act := (directAct r.pkt).1, cost := (directAct r.pkt).2 }
    else if elderWrite r.pkt && g.r && !(s.part s.elder.part.toNat).strict then s.deliver r stOk 0 0 0 false
    else s.deliver r stLegacy 0 0 0 false

/-- The request that a released packet becomes. -/
def State.reqOf (s : State) (h : Held) : Req :=
  if s.filtered h.pkt.src then s.elderReq h
  else s.directReq h

/-- A request that has its place at the arbiter goes on to the checks; a control access goes to the control decoder, and one with a reserved opcode
to its end. -/
def State.memGo (s : State) (h : Held) : State :=
  if !isRowRequest h.pkt.opc then s.stray h
  else if s.filtered h.pkt.src then s.elderIn h else if h.pkt.isCtl then s.ctlGo h else s.stageCheck (s.reqOf h)

/-- Whether a request must wait at release: for an earlier request of its pair, or for an entry of its home stack's arbiter (R279). -/
def State.mustHold (s : State) (h : Held) : Bool :=
  let r := s.reqOf h
  s.pairHeld h.pkt.src || !s.roomFor r

/-- A request arrives: held while it must wait, which MEM_ADMIT_STALL of the stack counts, and otherwise checked. -/
def State.memArrive (s : State) (h : Held) : State :=
  if s.mustHold h then { s with admHeld := s.admHeld ++ [h] }.bump (stackBlk (s.stallAt (s.reqOf h))) 9
  else s.memGo h

/-- Held requests in the order they were held: each goes on unless it, or an earlier one of its pair, must still wait. -/
def State.admGo (s : State) : List Held → State
  | [] => s
  | h :: rest =>
    let t := { s with admHeld := s.admHeld.erase h }
    let earlier := s.admHeld.find? (·.pkt.src = h.pkt.src)
    if earlier = some h && !s.pairWaits h.pkt.src && (h.pkt.isCtl || !isRowRequest h.pkt.opc || s.roomFor (s.reqOf h)) then (t.memGo h).admGo rest
    else s.admGo rest

/-- ADMIT_ENTRY_RESUME (R279): what units of this device hold for an entry of the stack's arbiter goes on first, then the requests held at
release, as far as entries are free. -/
def execAdmitEntryResume (stack : Fin 8) (s : State) : Host.Outcome State Fault Refusal :=
  if s.stackEn stack.val then
    let s := s.refill stack.val (s.stack stack.val).wait
    .next (s.admGo s.admHeld)
  else .next s

/-! ### The memory rows (R116, R126, R136, R223) -/

/-- A memory request of an opcode that its requester may send directly (R95), in its turn at its memory stage (R17). -/
def State.memRow (s : State) (o : Byte) (p : Packet) : State :=
  if p.opc ≠ o || s.filtered p.src || !s.turn p then s
  else
    let (h, s) := s.take p
    s.memArrive h

/-- RD_ONCE (R116). -/
def execRdOnce (p : Packet) (s : State) : Host.Outcome State Fault Refusal := .next (s.memRow oRdOnce p)
/-- RD_SHARED (R116). -/
def execRdShared (p : Packet) (s : State) : Host.Outcome State Fault Refusal := .next (s.memRow oRdShared p)
/-- RD_OWN (R116). -/
def execRdOwn (p : Packet) (s : State) : Host.Outcome State Fault Refusal := .next (s.memRow oRdOwn p)
/-- UPGRADE (R116). -/
def execUpgrade (p : Packet) (s : State) : Host.Outcome State Fault Refusal := .next (s.memRow oUpgrade p)
/-- WR_LINE (R116). -/
def execWrLine (p : Packet) (s : State) : Host.Outcome State Fault Refusal := .next (s.memRow oWrLine p)
/-- WR_PARTIAL (R116). -/
def execWrPartial (p : Packet) (s : State) : Host.Outcome State Fault Refusal := .next (s.memRow oWrPartial p)
/-- ATOMIC (R126). -/
def execAtomic (p : Packet) (s : State) : Host.Outcome State Fault Refusal := .next (s.memRow oAtomic p)
/-- WB_DIRTY (R116). -/
def execWbDirty (p : Packet) (s : State) : Host.Outcome State Fault Refusal := .next (s.memRow oWbDirty p)
/-- EVICT_CLEAN (R116). -/
def execEvictClean (p : Packet) (s : State) : Host.Outcome State Fault Refusal := .next (s.memRow oEvictClean p)
/-- LINE_RECLAIM (R136). -/
def execLineReclaim (p : Packet) (s : State) : Host.Outcome State Fault Refusal := .next (s.memRow oReclaim p)

/-- ELDER_REQUEST (R98): a memory request, or any other request, of an EID that the Elder filter takes. (DEDUCED: log entry 33) -/
def execElderRequest (p : Packet) (s : State) : Host.Outcome State Fault Refusal :=
  if !s.filtered p.src || p.vc || !s.turn p then .next s
  else
    let (h, s) := s.take p
    if isMemOpc p.opc then .next (s.memArrive h)
    else if s.pairHeld p.src then .next { s with admHeld := s.admHeld ++ [h] }
    else .next (s.deliver (s.elderReq h) stLegacy 0 0 0 false)

/-! ### The directory's rows (R116, R123, R133) -/

/-- SNP_ACK (R116, R470, R553). -/
def execSnpAck (p : Packet) (s : State) : Host.Outcome State Fault Refusal :=
  if p.opc = oSnpAck && s.turn p then
    let (u, ok) := (s.take p).2.sessionIn p
    .next (if ok then u.snoopAnswer p none else u)
  else .next s

/-- SNP_ACK_DATA (R116, R470, R553). -/
def execSnpAckData (p : Packet) (s : State) : Host.Outcome State Fault Refusal :=
  if p.opc = oSnpAckData && s.turn p then
    let (u, ok) := (s.take p).2.sessionIn p
    .next (if ok then u.snoopAnswer p (some p.data) else u)
  else .next s

/-- GRANT_ACK (R116, R470, R553). -/
def execGrantAck (p : Packet) (s : State) : Host.Outcome State Fault Refusal :=
  if p.opc = oGrantAck && s.turn p then
    let (u, ok) := (s.take p).2.sessionIn p
    .next (if ok then u.grantAcked p else u)
  else .next s

/-- TRANSACTION_PAIR_TIMEOUT (R116). (DESIGN CHOICE: log entry 30) -/
def execTransactionPairTimeout (q : Fin 4) (txn : Fin 1024) (s : State) : Host.Outcome State Fault Refusal :=
  .next (s.txnTimeout q.val txn.val)

/-- RESERVATION_EXPIRE (R123): the reservation at the head of a line expires after 50 µs. (DESIGN CHOICE: log entry 30) -/
def execReservationExpire (q : Fin 4) (line : Nat) (s : State) : Host.Outcome State Fault Refusal :=
  match (s.slice q.val).resv.find? (·.line = line) with
  | some v =>
    if v.since + 50000 ≤ s.now then
      .next ((s.modSlice q.val fun x => { x with resv := resvDrop x.resv s.now (· = v) }).bump (sliceBlk q.val) 2)
    else .next s
  | none => .next s

/-- ORPHAN_SCAN_DONE (R133, R135). -/
def execOrphanScanDone (q : Fin 4) (s : State) : Host.Outcome State Fault Refusal := .next (s.scanDone q.val)

end Sys2Proof.Machine
end

