-- ==== Sys2Proof/Machine/Dram.lean ====
section
/-! DEFINITION. The stacks: admission (R276, R277), scheduling (R372, R373), the outcome of an access (R381 to R387), failed channels and
stacks (R390), refresh, calibration and rate changes (R374 to R379), and load and histogram samples (R284, R286). -/
namespace Sys2Proof.Machine

/-! ### Admission (R276, R277) -/

/-- UNIT of a channel of a stack (R495). -/
def chanUnit (n c : Nat) : Nat := 0x2100 + 16 * c + n

/-- Whether a channel controller can take one more request: 64 entries, of which 32 buffer writes (R372, R373). -/
def Chan.room (x : Chan) (r : Req) : Bool :=
  decide (x.entries.length < 64) && (!r.isWrite || decide ((x.entries.filter Req.isWrite).length < 32))

/-- The head of a flow, when it can be admitted now. -/
def State.flowHead (s : State) (n f : Nat) : Option Req :=
  let x := s.stack n
  match x.queue.find? (·.flow = f) with
  | some r => if !heldBack x.queue r && (x.chan (lineChan r.line)).room r then some r else none
  | none => none

/-- The flows of an arbiter that hold requests, in ascending order. -/
def Stack.flows (x : Stack) : List Nat := (List.range 67).filter fun f => x.queue.any (·.flow = f)

/-- The bandwidth of a stack in tenths of a byte per ns (R378). (DEDUCED: log entry 31) -/
def Stack.bandwidth (x : Stack) : Nat := match x.rate.toNat with | 0 => 9216 | 1 => 8192 | 2 => 6144 | _ => 4096

/-- Whether the throttle of R374 holds admission back now: above 95 °C at most half of the stack's bandwidth is admitted. (DEDUCED: log entry 31) -/
def Stack.slow (x : Stack) (now : Nat) : Bool := x.throttle && decide ((now + 1) * 1000 ≤ x.thrNext)

/-- When the throttle admits again after a request of a cost: the time that its bytes take at half of the bandwidth. (DEDUCED: log entry 31) -/
def Stack.slowNext (x : Stack) (now cost : Nat) : Nat :=
  if x.throttle then max x.thrNext (now * 1000) + cost * 20000 / x.bandwidth else 0

/-- The sixteenths of a stack's bandwidth that level 2 of the capper leaves to background and partition flows (R519). (DEDUCED: log entry 74) -/
def Pwr.share (p : Pwr) : Nat := if p.level.toNat < 2 then 16 else if p.level = 2 then 15 - p.step.toNat else 1

/-- Whether level 2 of the capper holds those flows of a stack back now (R519). (DEDUCED: log entry 74) -/
def State.capSlow (s : State) (x : Stack) : Bool := decide (s.pwr.share < 16) && decide ((s.now + 1) * 1000 ≤ x.capNext)

/-- When the capper lets those flows admit again after bytes admitted: the time that they take at the share left. (DEDUCED: log entry 74) -/
def State.capAfter (s : State) (x : Stack) (bytes : Nat) : Nat :=
  if s.pwr.share < 16 then max x.capNext (s.now * 1000) + bytes * 160000 / (max 1 s.pwr.share * x.bandwidth) else 0

/-! ### Background work (R57, R276) -/

/-- The ns that bytes of background work take on a stack at SCRUB_SHARE of its bandwidth, rounded up (R57, R276, R378).
(DESIGN CHOICE: log entry 83) -/
def State.paceNs (s : State) (n bytes : Nat) : Nat := bytes * 1000 / (max 1 s.mem.scrubShare * (s.stack n).bandwidth) + 1

/-- The bytes of a granule. -/
def granBytes : Nat := 2097152

/-- Whether the arbiter of a stack can admit background work apart from its pace: the stack admits, neither the throttle nor the capper holds it
back, and no request of a flow above it can be admitted (R276, R374, R379, R519). (DESIGN CHOICE: log entry 83) -/
def State.bgClear (s : State) (n : Nat) : Bool :=
  let x := s.stack n
  decide (x.state = 2) && !x.paused && !x.slow s.now && !s.capSlow x && (s.flowHead n 0).isNone && (s.flowHead n 1).isNone

/-- Whether the arbiter of a stack admits background work now: its pace is behind, and nothing else holds it back (R276).
(DESIGN CHOICE: log entry 83) -/
def State.paceOk (s : State) (n : Nat) : Bool := decide ((s.stack n).bgNext ≤ s.now) && s.bgClear n

/-- Whether background work on a granule can go on now: nothing is served on a FAILED stack, and otherwise the pace of the stack allows it and
none of the granule's channels is in blackout (R276, R376, R390). (DESIGN CHOICE: log entry 83) -/
def State.granOk (s : State) (g : Nat) : Bool :=
  let n := granStack g
  (s.stack n).state == 5 || (s.paceOk n && (List.range 4).all fun c => !((s.stack n).chan (4 * granGroup g + c)).blackout)

/-- Background work taken from the pace of a stack, from its throttle and from the capper's share (R374, R519). (DESIGN CHOICE: log entry 83) -/
def State.pace (s : State) (n bytes : Nat) : State :=
  s.modStack n fun x => { x with bgNext := max x.bgNext s.now + s.paceNs n bytes, capNext := s.capAfter x bytes, thrNext := x.slowNext s.now bytes }

/-- The activations that background work on a granule makes at least: one row of each of the 64 banks of its four channels (R370). -/
def granRows : Nat := 256

/-- The rows of a granule used by background work (R375): every activation draws, and how many of the draws are zero is a free value; the rows are
closed again (R372). (DESIGN CHOICE: log entry 12) -/
def State.useGran (s : State) (g : Nat) : State :=
  let n := granStack g
  let (k, s) := s.draw (granRows + 1)
  (s.bumpBy (stackBlk n + 8 + 8 * 4) k).each (List.range 4) fun s c => s.modChan n (4 * granGroup g + c) fun x => { x with openRow := [] }

/-- The stack of the granule that the background work of an extent comes to next, with whether it is on the arbiter's list: a scrub or a rebuild
that runs here (R57, R66). (DESIGN CHOICE: log entry 83) -/
def State.bgStack (s : State) (x : Ext) : Option Nat :=
  let p := s.prot x.protRef.toNat
  if x.state = 3 && x.scrub < x.localSize then some (granStack (s.extGran x x.scrub))
  else if x.state = 1 && (x.mirror || x.parity) && p.rstate = 1 && !p.target then
    some (granStack (s.extGran x (if x.parity then p.cursor.toNat / (if x.pwidth then 7 else 3) else p.cursor.toNat)))
  else none

/-- Whether background work of a stack is behind its pace, so that it is admitted ahead of the partition flows (R276).
(DESIGN CHOICE: log entry 83) -/
def State.bgBehind (s : State) (n : Nat) : Bool := s.paceOk n && s.exts.any fun e => s.bgStack e.2 == some n

/-- The flow that an arbiter admits from next: none while the throttle holds admission back, 0 and 1 strictly, none while background work is behind
its pace, partitions of weight 1 or more by their tags, then the partitions of weight 0 by least recent service (R276); flows 0 and 1 alone while
the capper holds the others back (R519). (DESIGN CHOICE: log entry 83) -/
def State.pickFlow (s : State) (n : Nat) : Option Nat :=
  let x := s.stack n
  let ok := fun (f : Nat) => (s.flowHead n f).isSome
  let w := fun (f : Nat) => (s.part (f - 3)).weight
  let parts := x.flows.filter fun f => decide (3 ≤ f) && ok f
  if x.slow s.now then none
  else if ok 0 then some 0 else if ok 1 then some 1 else if s.capSlow x || s.bgBehind n then none
  else match wfqPick x.tags (parts.filter fun f => decide (1 ≤ w f)) with
    | some f => some f
    | none => ((parts.filter fun f => w f = 0).map fun f => (tget 0 x.served0 f, f)).foldl
        (fun m e => match m with | none => some e | some b => if e.1 < b.1 then some e else m) none |>.map (·.2)

/-- An arbiter after its flow f has been served: virtual time and tags (R277), and the order of service of scavenger flows. -/
def State.afterServe (s : State) (x : Stack) (f : Nat) : Stack :=
  if f < 3 then x
  else if (s.part (f - 3)).weight = 0 then
    { x with served0 := tput 0 x.served0 f (x.served0.foldl (fun m e => max m e.2) 0 + 1) }
  else
    let q := tget {} x.tags f
    let next := (x.queue.find? (·.flow = f)).map s.charge
    let (v, tags) := wfqAfter q.start (tput {} x.tags f (q.served next)) fun k => x.queue.any (·.flow = k)
    { x with vtime := v, tags := tags }

/-- The next request admitted to its channel controller, its admission delay noted (R284); what waited for its entry takes it. -/
def State.admitNext (s : State) (n : Nat) : State :=
  let x := s.stack n
  if x.paused || x.state ≠ 2 then s
  else match s.pickFlow n with
  | none => s
  | some f =>
    match s.flowHead n f with
    | none => s
    | some r =>
      let c := lineChan r.line
      let y := { x with queue := x.queue.erase r, delaySum := x.delaySum + (s.now - r.arrived), delayCnt := x.delayCnt + 1
                        thrNext := x.slowNext s.now r.cost, capNext := if f < 3 then x.capNext else s.capAfter x r.cost
                        chans := tmod {} x.chans c fun z => { z with entries := z.entries ++ [{ r with admitted := s.now }] } }
      (s.setStack n (s.afterServe y f)).refill n y.wait

/-- ADMISSION_SELECT (R276). (DEDUCED: log entry 31; DESIGN CHOICE: log entry 15) -/
def execAdmissionSelect (stack : Fin 8) (s : State) : Host.Outcome State Fault Refusal := .next (s.admitNext stack.val)

/-! ### Scheduling (R372, R373, R375) -/

/-- The requests of a channel that may issue: bank timing permits, and no request to the same line is ahead. (DEDUCED: log entry 31) -/
def issuable (permit : BitVec 64) (issued : List Req) : List Req → List Req → List Req
  | _, [] => []
  | seen, r :: l =>
    let rest := issuable permit issued (r :: seen) l
    if permit.getLsbD (lineBankNo r.line) && !(issued ++ seen).any (·.line = r.line) then r :: rest else rest

/-- The request that a channel issues (R372): one that has waited 2 µs, then a hit of an open row, then the oldest, reads or writes as
R373 says. (DEDUCED: log entry 31) -/
def Chan.pick (x : Chan) (permit : BitVec 64) (drain : Bool) (now : Nat) : Option Req :=
  let can := issuable permit x.issued [] x.entries
  let hit := fun (r : Req) => tget none x.openRow (lineBankNo r.line) == some (lineRow r.line)
  let pool := can.filter fun r => r.isWrite == drain
  match can.find? fun r => decide (r.admitted + 2000 ≤ now) with
  | some r => some r
  | none => match pool.find? hit with
    | some r => some r
    | none => pool.head?

/-- Whether a channel drains writes (R373): from 24 buffered writes down to 8, and whenever no read waits. (DEDUCED: log entry 31) -/
def Chan.drains (x : Chan) : Bool :=
  let n := (x.entries.filter Req.isWrite).length
  decide (24 ≤ n) || (x.draining && decide (8 < n))

/-- A row of a bank used: a row that was not open is activated, and the activation draws for a refresh of its neighbours, which the remap table
names (R375); it stays open where `keep` says so (R372). (DESIGN CHOICE: log entry 12) -/
def State.openRow (s : State) (n c b row : Nat) (keep : Bool) : State :=
  let hit := tget none ((s.stack n).chan c).openRow b == some row
  let s := s.modChan n c fun x => { x with openRow := tput none x.openRow b (if keep then some row else none) }
  if hit then s
  else
    let s' := { s with fresh := s.fresh + 1 }
    if Config.rowDraw s.fresh then
      (s'.modChan n c fun x => { x with nref := some (b, s.nv.neighbours ((n * 16 + c) * 64 + b) row) }).bump (stackBlk n) 4
    else s'

/-- The row of a line used by an access that takes no entry of its channel: the patrol's and Steward's references (R375).
(DESIGN CHOICE: log entry 12) -/
def State.useRow (s : State) (l : Nat) : State :=
  let keep := ((s.stack (lineStack l)).chan (lineChan l)).entries.any fun q => lineBankNo q.line == lineBankNo l && lineRow q.line == lineRow l
  s.openRow (lineStack l) (lineChan l) (lineBankNo l) (lineRow l) keep

/-- Whether an access that takes no entry of a channel must wait: the line's stack admits nothing, its channel is in blackout, or a request to the
line that was admitted before has not taken effect yet (R372, R376, R379). (DESIGN CHOICE: log entry 15) -/
def State.lineWaits (s : State) (l : Nat) : Bool :=
  let x := s.stack (lineStack l)
  let c := x.chan (lineChan l)
  !s.lineFailed l && (decide (x.state ≠ 2) || x.paused || c.blackout || (c.entries ++ c.issued).any (·.line = l))

/-- DRAM_SCHEDULE (R372): the next request issues; a row that it opens draws for a neighbour refresh (R375); the row stays open while a
queued request hits it. (DEDUCED: log entry 31; DESIGN CHOICE: log entries 12, 15) -/
def execDramSchedule (stack : Fin 8) (ch : Fin 16) (permit : BitVec 64) (s : State) : Host.Outcome State Fault Refusal :=
  let n := stack.val
  let st := s.stack n
  let x := st.chan ch.val
  let dr := x.drains
  if x.blackout || (st.state ≠ 2 && st.state ≠ 3) then .next s
  else match x.pick permit (dr || x.entries.all Req.isWrite) s.now with
  | none => .next (s.modChan n ch.val fun x => { x with draining := dr })
  | some r =>
    let b := lineBankNo r.line
    let left := x.entries.erase r
    let keep := left.any fun q => lineBankNo q.line == b && lineRow q.line == lineRow r.line
    let s := s.modChan n ch.val fun x => { x with draining := dr, entries := left, issued := x.issued ++ [r] }
    .next (s.openRow n ch.val b (lineRow r.line) keep)

/-! ### Failed channels and stacks (R390) -/

/-- A request that a failed channel or stack held is redirected: a spill access to the new place, or the port goes down; a release step
to the next line; any other as R65 and R387 say. -/
def State.redirect (s : State) (r : Req) : State :=
  match r.org, r.act with
  | .spill p seq h w, _ =>
    match (s.port p).store.find? (·.seq = seq) with
    | some f => if w then s.spillHalf p f true h else s.linkDown p 4
    | none => s
  | _, .merge t w => s.mergeNext t w
  | _, _ => s.toDram r

/-- The ports that hold spilled flits on a stack. -/
def State.spillPorts (s : State) (n : Nat) : List Nat :=
  (List.range 16).filter fun p => (s.port p).spilling &&
    (List.range 4).any fun i => s.spillStack (p / 4) (4 * (p % 4) + i) == some n

/-- The extents with redundancy that have a granule on a stack. -/
def State.protOn (s : State) (n : Nat) : List Nat :=
  (s.exts.filter fun e => e.2.state == 1 && (e.2.mirror || e.2.parity)
    && (List.range e.2.localSize).any fun i => granStack (s.extGran e.2 i) == n).map (·.1)

/-- A stack of this member lost to its protected extents (R65). -/
def State.stackLost (s : State) (n : Nat) : State :=
  s.each (s.protOn n) fun s i =>
    let x := s.ext i
    let k := s.mySlot x
    (s.modProt x.protRef.toNat fun p =>
      { p with degraded := true, lost := p.lost ||| BitVec.ofNat 8 (1 <<< k), stackOut := p.stackOut || !p.lost.getLsbD k }).groupEvent i 1 k

/-- The next named stack of a rate change pauses, or the change ends and its command is answered (R379); in a takeover the new core goes on
with it (R398, R447). -/
def State.rateNext (s : State) : State :=
  if s.coreless then s
  else match (List.range 8).find? s.mem.rcMask.getLsbD with
  | some n =>
    if (s.stack n).state = 2 then s.modStack n fun x => { x with state := 3, paused := true }
    else { s with mem := { s.mem with rcMask := 0, rcOn := false, rcCapper := false } }.wake .rate
  | none => { s with mem := { s.mem with rcOn := false, rcCapper := false } }.wake .rate

/-- A named stack of a rate change taken out of it: when it is the one that changes, the next one starts (R379). -/
def State.rateDrop (s : State) (n : Nat) : State :=
  let now := (List.range 8).find? s.mem.rcMask.getLsbD == some n
  let s := { s with mem := { s.mem with rcMask := s.mem.rcMask &&& ~~~ (BitVec.ofNat 8 (1 <<< n)) } }
  if now then s.rateNext else s

/-- A rate change whose current stack ended while no core ran goes on with the new core (R398). -/
def State.rateResume (s : State) : State :=
  if !s.mem.rcOn then s
  else match (List.range 8).find? s.mem.rcMask.getLsbD with
    | some n => if (s.stack n).state = 3 then s else s.rateNext
    | none => s.rateNext

/-- Channels of a stack stop serving: their requests are redirected, the ports whose spilled flits lay there go down with SPILL_LOST; with
every channel failed, or its controller island failed, the stack is FAILED. -/
def State.chansFail (s0 : State) (n : Nat) (mask : BitVec 16) (dead : Bool) (rec : Option ErrRec) : State :=
  let x := s0.stack n
  let failed := x.failed ||| mask
  let all := dead || failed == 0xFFFF
  let gone := fun (c : Nat) => dead || mask.getLsbD c
  let ports := if dead || mask &&& 0x0F00 ≠ 0 then s0.spillPorts n else []
  let cs := (List.range 16).filter gone
  let hit := (cs.flatMap fun c => (x.chan c).issued ++ (x.chan c).entries) ++ (x.queue ++ x.wait).filter fun r => gone (lineChan r.line)
  let y := { x with failed := failed, queue := x.queue.filter (fun r => !gone (lineChan r.line))
                    wait := x.wait.filter (fun r => !gone (lineChan r.line)), state := if all then 5 else x.state
                    chans := cs.foldl (fun t c => tmod {} t c fun z => { z with entries := [], issued := [] }) x.chans }
  let s := s0.setStack n y
  let s := match rec with | some r => s.logErr r | none => s
  let s := if all then s.stackLost n else s
  let s := s.each ports fun s p => s.linkDown p 4
  let s := s.each hit fun s r => s.redirect r
  if all && s.mem.rcOn && s.mem.rcMask.getLsbD n then s.rateDrop n else s

/-- A channel fails, with the reason of its record: 1 PHY, 2 UE count (R390, R496). -/
def State.failChannel (s : State) (n c reason : Nat) : State :=
  if (s.stack n).failed.getLsbD c then s
  else s.chansFail n (BitVec.ofNat 16 (1 <<< c)) false
    (some (errRec 0x35 3 none (chanUnit n c) (packBytes [(0, 1, c), (1, 1, reason)])))

/-- STACK_CONTROLLER_FAILURE (R390). -/
def execStackControllerFailure (stack : Fin 8) (s : State) : Host.Outcome State Fault Refusal :=
  let n := stack.val
  if s.stackEn n && (s.stack n).state.toNat ≥ 2 && (s.stack n).state ≠ 5 then .next (s.chansFail n 0 true none) else .next s

/-! ### The outcome of a line (R383, R384, R387) -/

/-- The symbol that a decoder names in an uncorrectable codeword, 0xFF when it names none. -/
def symOf : RawEcc → Nat
  | .ue (some k) => k.val
  | _ => 0xFF

/-- DETAIL of MEM_UE and its relatives (R496): the place of the line, the codewords concerned, the reading operation and the outcome.
(DEDUCED: log entry 32) -/
def ueDetail (l : Nat) (bad0 bad1 : Bool) (c0 c1 : RawEcc) (source outcome : Nat) : Nat :=
  packBytes [(0, 1, lineChan l), (1, 1, lineBg l), (2, 1, lineBank l), (3, 1, if bad0 then 0 else b2n bad1), (4, 2, lineRow l),
    (6, 1, lineCol l), (7, 1, if bad0 then symOf c0 else if bad1 then symOf c1 else 0xFF), (8, 5, l * 128), (13, 1, source),
    (14, 1, outcome), (15, 1, b2n bad0 + 2 * b2n bad1)]

/-- The partition that owns the extent of a line, when an extent holds it. (DEDUCED: log entry 32) -/
def State.lineOwner (s : State) (l : Nat) : Option Nat :=
  let m := s.rmapE (l / 16384)
  if m.held then some (s.ext m.ext.toNat).owner.toNat else none

/-- SOURCE of a reading operation (R496): 0xF2 for a reference of a command, 0xF4 for what another member of the group asks for.
(DEDUCED: log entry 32) -/
def State.sourceOf (s : State) (r : Req) : Nat :=
  if r.steward then 0xF2
  else if r.org = .fab && s.fromPeer r.pkt (s.ext r.ext) then 0xF4
  else match r.org with
  | .engine _ _ _ => 0xF0
  | .sched _ => 0xF0
  | .walker _ => 0xF1
  | .crit => 0xF3
  | .spill _ _ _ _ => 0xF5
  | _ => r.pkt.opc.toNat

/-- A distinct line that decoded UE noted; more than 64 on a channel within 1 s fail the channel (R390). (DEDUCED: log entry 32) -/
def State.noteUe (s : State) (l : Nat) : State :=
  let n := lineStack l
  let c := lineChan l
  let ue := ((s.stack n).chan c).ue.filter fun e => e.1 ≠ l && decide (s.now < e.2 + 1000000000)
  let s := s.modChan n c fun x => { x with ue := ue ++ [(l, s.now)] }
  if 64 < ue.length + 1 then s.failChannel n c 2 else s

/-- A UE of a line: counted, recorded, and noted for its channel (R384). (DEDUCED: log entry 32) -/
def State.ueFound (s : State) (l : Nat) (a b : Cls) (c0 c1 : RawEcc) (source outcome : Nat) : State :=
  ((s.bump (stackBlk (lineStack l)) 1).logErr
    (errRec 0x30 2 (s.lineOwner l) (chanUnit (lineStack l) (lineChan l)) (ueDetail l (a == .ue) (b == .ue) c0 c1 source outcome))).noteUe l

/-- What a request reads of its line, or the status of R384, with what the controller does: a correction and a marked read are counted,
an uncorrectable line is poisoned and recorded; a line with redundancy is rebuilt (R387), with the other members' data a free value.
(DEDUCED: log entry 31; DESIGN CHOICE: log entry 9) -/
def State.readAt (s : State) (r : Req) (c0 c1 : RawEcc) : Except Status Line × State :=
  let l := r.line
  let x := s.ext r.ext
  let key := x.key
  let tw := s.reqTweak r
  let m := s.lineMeta l
  let a := clsOf m.mark c0
  let b := clsOf m.mark c1
  let blk := stackBlk (lineStack l)
  let off := r.pkt.offset.toNat
  let prot := x.mirror || x.parity
  let data := s.lineData r.ext l tw
  let ok := fun (s : State) =>
    if prot && s.standIn x off then (.ok (Config.stale s.fresh 2 l), { s with fresh := s.fresh + 1 }) else (.ok data, s)
  match lineCls a b with
  | .clean => ok s
  | .corrected => ok (s.bump blk 0)
  | .orphan => (.error stHostLost, s.bump blk 3)
  | .poison =>
    if !prot then (.error stPoisoned, s.bump blk 2)
    else if s.redundant x then
      let d := Config.stale s.fresh 3 l
      let s := ({ s with fresh := s.fresh + 1 }.storeLine l d key tw).bump blk 2
      (.ok d, s.logErr (errRec 0x30 2 (s.lineOwner l) (chanUnit (lineStack l) (lineChan l)) (ueDetail l false false c0 c1 (s.sourceOf r) 1)))
    else (.error stUncorrectable, (s.bump blk 2).dataLost r.ext 1 off)
  | .ue =>
    if prot && s.redundant x then
      let d := Config.stale s.fresh 3 l
      let s := { s with fresh := s.fresh + 1 }.storeLine l d key tw
      (.ok d, s.ueFound l a b c0 c1 (s.sourceOf r) 1)
    else
      let s := (s.markLine l .poison).ueFound l a b c0 c1 (s.sourceOf r) 0
      (.error stUncorrectable, if prot then s.dataLost r.ext 1 off else s)

/-! ### Atomics (R126) -/

/-- The value that an atomic writes, from the old value, the compare value and the operand, of w bits. -/
def atomicNew (aop w old cmp opd : Nat) : Nat :=
  let sg := intDec true w
  match aop with
  | 0 => (old + opd) % 2 ^ w
  | 1 => old &&& opd
  | 2 => old ||| opd
  | 3 => Nat.xor old opd
  | 4 => opd
  | 5 => if old = cmp then opd else old
  | 6 => if sg opd < sg old then opd else old
  | 7 => if sg old < sg opd then opd else old
  | 8 => min old opd
  | 9 => max old opd
  | _ => fpAdd (if w = 32 then fp32 else fp64) old opd

/-- A line with an atomic executed on it, and the old value. -/
def atomicLine (p : Packet) (d : Line) : Line × Nat :=
  let w := if p.wide then 64 else 32
  let lo := 8 * (p.offset.toNat % 128)
  let old := (d.toNat >>> lo) % 2 ^ w
  let new := atomicNew p.aop.toNat w old (bitsOf p.opnd.toNat 0 w) (bitsOf p.opnd.toNat 64 w)
  (mergeBytes (byteMask (p.offset.toNat % 128) (w / 8)) d (BitVec.ofNat 1024 (new <<< lo)), old)

/-! ### The effect of an access -/

/-- A line of a combining extent as a read returns it (R223): each word folded, with the window's word merged first when the chunk is
resident and the word is not consumed (R228). -/
def State.combView (s : State) (r : Req) (d : Line) : Line :=
  let c := s.comb (s.ext r.ext).protRef.toNat
  let a := c.anchor.toNat
  let off := r.pkt.offset.toNat
  let ws := lineWords a d false false
  let n := off % 262144 / 128
  let ws := match s.landOf r.ext (off / 262144) with
    | some (t, w) =>
      let y := s.tile t
      if tget 0 y.consumed w ≤ n then mergeWords a ws (y.winLine (s.land (16 * t + w)).anchor.toNat w n) else ws
    | none => ws
  wordsLine (ws.map Ofa.fold)

/-- The codewords of a combine line step taken as NaN, and what they bring about (R386). -/
def State.combRead (s : State) (r : Req) (c0 c1 : RawEcc) : Bool × Bool × State :=
  let l := r.line
  let m := s.lineMeta l
  let a := clsOf m.mark c0
  let b := clsOf m.mark c1
  let blk := stackBlk (lineStack l)
  let bad := fun (k : Cls) => k == .ue || k == .poison
  let s := match lineCls a b with
    | .corrected => s.bump blk 0
    | .poison => s.bump blk 2
    | .ue => s.bump blk 1
    | _ => s
  if bad a || bad b then
    let s := s.logErr (errRec 0x31 2 (s.lineOwner l) (chanUnit (lineStack l) (lineChan l))
      (ueDetail l (bad a) (bad b) c0 c1 0xF3 0 + packBytes [(16, 3, r.ext)]))
    (bad a, bad b, if a = .ue || b = .ue then s.noteUe l else s)
  else (false, false, s)

/-- The end of an access to a line of a spilled flit (R302, R384, R388): a written line is stored under the reserved region's key with PPA[39:7] as its tweak (R473); an uncorrectable
one that is read is counted, poisoned, recorded and noted. (DESIGN CHOICE: log entry 44) -/
def State.spillEnd (s : State) (r : Req) (p : Nat) (seq : BitVec 16) (half write : Bool) (c0 c1 : RawEcc) : State :=
  let l := r.line
  let m := s.lineMeta l
  let a := clsOf m.mark c0
  let b := clsOf m.mark c1
  let blk := stackBlk (lineStack l)
  let rec_ := errRec 0x32 2 none (chanUnit (lineStack l) (lineChan l)) (ueDetail l (a == .ue) (b == .ue) c0 c1 0xF5 0 + packBytes [(16, 1, 1)])
  match r.act with
  | .write d => (s.storeLine l d s.resvKey l).spillDone p seq half write (some d)
  | _ =>
    let d := some (s.readLine l s.resvKey l)
    match lineCls a b with
    | .clean => s.spillDone p seq half write d
    | .corrected => (s.bump blk 0).spillDone p seq half write d
    | .ue => ((((s.markLine l .poison).bump blk 1).logErr rec_).noteUe l).spillDone p seq half write none
    | _ => ((s.bump blk 2).logErr rec_).spillDone p seq half write none

/-- The effect of an access that completes at a line (R373, R384 to R387): each read, modify and rewrite is one step; an atomic executed here
counts COH_ATOMIC_HOME (R144). (DESIGN CHOICE: log entry 9) -/
def State.accessEnd (s : State) (r : Req) (c0 c1 : RawEcc) : State :=
  let l := r.line
  let x := s.ext r.ext
  let key := x.key
  let tw := s.reqTweak r
  if r.org ≠ .crit && s.stripeLost x r.pkt.offset.toNat then (s.dataLost r.ext 1 r.pkt.offset.toNat).endReq r stUncorrectable
  else match r.act with
  | .pass => s.endReq r stOk
  | .write d =>
    if x.parity && !s.isTarget x then
      let (o, s) := s.readAt r c0 c1
      let (old, s) := match o with
        | .ok old => (old, s)
        | .error _ => (Config.stale s.fresh 4 l, { s with fresh := s.fresh + 1 })
      let (new, s) := if s.standIn x r.pkt.offset.toNat then (Config.stale s.fresh 5 l, { s with fresh := s.fresh + 1 }) else (d, s)
      (s.storeLine l new key tw).endFwd r old d
    else
      let s := s.storeLine l d key tw
      s.endFwd r d d
  | .read =>
    match s.readAt r c0 c1 with
    | (.ok d, s) => s.endReq r stOk d
    | (.error st, s) => s.endReq r st
  | .part m n =>
    match s.readAt r c0 c1 with
    | (.ok d, s) =>
      let new := mergeBytes m d n
      let (st, s) := if x.parity && s.standIn x r.pkt.offset.toNat then (Config.stale s.fresh 5 l, { s with fresh := s.fresh + 1 }) else (new, s)
      let s := s.storeLine l st key tw
      s.endFwd r d new
    | (.error st, s) => s.endReq r st
  | .atom =>
    match s.readAt r c0 c1 with
    | (.ok d, s) =>
      let (new, old) := atomicLine r.pkt d
      let (st, s) := if x.parity && s.standIn x r.pkt.offset.toNat then (Config.stale s.fresh 5 l, { s with fresh := s.fresh + 1 }) else (new, s)
      let s := (s.storeLine l st key tw).bump (sliceBlk (lineQuad l)) 7
      s.endFwd r d new 0 old
    | (.error st, s) => s.endReq r st
  | .reclaim =>
    let m := s.lineMeta l
    if lineCls (clsOf m.mark c0) (clsOf m.mark c1) = .orphan then (s.setLineMeta l { m with mark := .none }).endReq r stOk
    else match s.readAt r c0 c1 with
      | (.ok _, s) => s.endReq r stOk
      | (.error st, s) => s.endReq r st
  | .contrib m d lo _ =>
    let (b0, b1, s) := s.combRead r c0 c1
    let c := s.comb x.protRef.toNat
    (s.storeLine l (combStep c (s.lineData r.ext l tw) b0 b1 m d lo) key tw).endReq r stOk
  | .combRead =>
    match s.readAt r c0 c1 with
    | (.ok d, s) => s.endReq r stOk (s.combView r d)
    | (.error st, s) => s.endReq r st
  | .merge t w =>
    let y := s.tile t
    let k := s.land (16 * t + w)
    let n := tget 0 y.consumed w
    if !(k.v && k.draining) then s
    else
      let (b0, b1, s) := s.combRead r c0 c1
      let a := (s.comb x.protRef.toNat).anchor.toNat
      let ws := mergeWords a (lineWords a (s.lineData r.ext l tw) b0 b1) ((y.winLine k.anchor.toNat w n).map Ofa.fold)
      let s := s.storeLine l (wordsLine ws) key tw
      (s.modTile t fun y => { y with consumed := tput 0 y.consumed w (n + 1) }).mergeNext t w

/-- An access completes: of a spilled flit, or of a request. (DESIGN CHOICE: log entry 9) -/
def State.accessDone (s : State) (r : Req) (c0 c1 : RawEcc) : State :=
  match r.org with
  | .spill p seq half w => s.spillEnd r p seq half w c0 c1
  | _ => s.accessEnd r c0 c1

/-- Whether a request only reads its line. -/
def Req.isRead (r : Req) : Bool := match r.act with | .read => true | _ => false

/-- The reads of a line that follow a write to it in a channel's queue, up to the next request that writes the line. -/
def Chan.followers (x : Chan) (l : Nat) : List Req := (x.entries.filter (·.line = l)).takeWhile Req.isRead

/-- A write that completes serves the reads that follow it to the line from its data (R372), whatever the DRAM pins would add. -/
def State.serveReads (s : State) (n c : Nat) (r : Req) : State :=
  let x := (s.stack n).chan c
  let fs := if r.isWrite then x.followers r.line else []
  if fs.isEmpty then s
  else
    let left := x.entries.filter fun q => !fs.contains q
    let b := lineBankNo r.line
    let keep := left.any fun q => lineBankNo q.line == b && lineRow q.line == lineRow r.line
    let shut := tget none x.openRow b == some (lineRow r.line) && !keep
    let s := s.modChan n c fun x => { x with entries := left, openRow := if shut then tput none x.openRow b none else x.openRow }
    s.each fs fun s q => s.accessDone q .clean .clean

/-- DRAM_ACCESS_DONE (R554): the access that a channel issued first completes; c0 and c1 are what the DRAM pins add to its codewords.
A channel in blackout serves nothing (R376).
(DESIGN CHOICE: log entries 15, 81) -/
def execDramAccessDone (stack : Fin 8) (ch : Fin 16) (c0 c1 : RawEcc) (s : State) : Host.Outcome State Fault Refusal :=
  let x := (s.stack stack.val).chan ch.val
  match x.issued with
  | [] => .next s
  | r :: rest =>
    if x.blackout then .next s
    else .next (((s.modChan stack.val ch.val fun x => { x with issued := rest }).accessDone r c0 c1).serveReads stack.val ch.val r)

/-! ### Refresh (R374) -/

/-- A stack temperature in units of 0.125 °C as MEM_STACK_STATUS.TEMP shows it: whole °C from 0 to 255 (R396). -/
def tempByte (v : Int) : Byte := BitVec.ofNat 8 (min 255 (v / 8).toNat)

/-- The temperature bits of a stack at a temperature in units of 0.125 °C (R374, R396, R507): refresh is doubled above 85 °C; admission is halved from above 95 °C until below 90 °C,
each entry counted and recorded. -/
def State.throttleAt (s : State) (n : Nat) (v : Int) : State :=
  let x := s.stack n
  let thr := if x.throttle then decide (720 ≤ v) else decide (760 < v)
  let s := s.setStack n { x with temp := tempByte v, hot := decide (680 < v), throttle := thr }
  if thr && !x.throttle then (s.bump (stackBlk n) 8).logErr (errRec 0x34 0 none (0x2000 + n) (tempByte v).toNat) else s

/-- The ns between two refreshes of a bank: 8,192 of them refresh every row once, in 32 ms, or in 16 ms above 85 °C (R374).
(PRESUMED: log entry 89) -/
def Stack.refreshNs (x : Stack) : Nat := (if x.hot then 16000000 else 32000000) / 8192

/-- REFRESH_DUE (R374): a refresh of a bank that has fallen due is issued, or, in a blackout or a rate change, postponed, up to 8 of a bank.
(PRESUMED: log entry 89) -/
def execRefreshDue (stack : Fin 8) (ch : Fin 16) (bank : Fin 64) (s : State) : Host.Outcome State Fault Refusal :=
  let n := stack.val
  let st := s.stack n
  let x := st.chan ch.val
  let late := tget 0 x.postponed bank.val
  if (st.state ≠ 2 && st.state ≠ 3) || s.now < tget 0 x.refreshed bank.val + (late + 1) * st.refreshNs then .next s
  else
    if x.blackout || st.state = 3 then
      .next (s.modChan n ch.val fun x => { x with postponed := tmod 0 x.postponed bank.val fun k => min 8 (k + 1) })
    else .next (s.modChan n ch.val fun x => { x with refreshed := tput 0 x.refreshed bank.val s.now, openRow := tput none x.openRow bank.val none })

/-- Postponed refreshes are issued (R374). -/
def Chan.catchUp (x : Chan) (now : Nat) : Chan :=
  { x with postponed := [], refreshed := x.postponed.foldl (fun t e => tput 0 t e.1 now) x.refreshed
           openRow := x.openRow.filter fun e => !x.postponed.any (·.1 = e.1) }

/-! ### Calibration (R376, R377) -/

/-- FT of the DRAM controllers' replica in ns. (DEDUCED: log entry 4) -/
def State.dramNs (s : State) : Nat := s.repl.dram.toNat / 65536

/-- Whether a scheduled entry falls due in the next ns nanoseconds of the running image. -/
def SEntry.dueWithin (e : SEntry) (im : Image) (start now ns : Nat) : Bool :=
  let cyc := 16 * max 1 im.cycle
  let k := (now - start) / cyc
  e.valid && (List.range (ns / cyc + 2)).any fun i =>
    let t := start + (k + i) * cyc + 16 * e.start
    (k + i) % max 1 e.every == e.phase && decide (now ≤ t) && decide (t < now + ns)

/-- Whether an entry of a list that opens TC7 begins before a time, from entry i that begins at t on, over at most n entries. -/
def opens7 (l : List GateEntry) (lim : Nat) : Nat → Nat → Nat → Bool
  | 0, _, _ => false
  | n + 1, i, t =>
    match l[i % l.length]? with
    | some e => if lim ≤ t then false else e.gate.getLsbD 7 || opens7 l lim n (i + 1) (t + 16 * e.dur)
    | none => false

/-- Whether a scheduled operation runs or waits on any tile. -/
def State.schedBusy (s : State) : Bool := s.tileList.any fun n => (s.tile n).srun.isSome || !(s.tile n).swait.isEmpty

/-- Whether an image leaves a time free from its entries and TC7 windows: it has run from `start`, and its lists are at the entries that `at_`
gives. (DEDUCED: log entry 31) -/
def State.imageQuiet (s : State) (im : Image) (sec : Tile → Section) (at_ : Nat → Nat × Nat) (start now lim : Nat) : Bool :=
  decide (lim ≤ now) ||
    (!(s.tileList.any fun n => (sec (s.tile n)).entries.any fun e => e.dueWithin im start now (lim - now))
      && !(im.lists.any fun e => opens7 e.2 lim (e.2.length + 1) (at_ e.1).1 (at_ e.1).2))

/-- Whether a quiet stretch of 1.2 µs begins now (R377): nothing of the running image until it ends, and nothing of the pending one from its
T_x on. (DEDUCED: log entry 31) -/
def State.quiet (s : State) : Bool :=
  let now := s.dramNs
  let lim := now + 1200
  let tx := if s.sched.pending then min lim s.sched.tx else lim
  !s.schedBusy
    && (match s.sched.running with
      | some im => s.imageQuiet im (·.armed) (fun p => ((s.port p).gateIdx, (s.port p).gateStart)) s.sched.runStart now tx
      | none => true)
    && (match s.sched.pending, s.sched.next with
      | true, some im => s.imageQuiet im (·.staged) (fun _ => (0, s.sched.tx)) s.sched.tx (max now s.sched.tx) lim
      | _, _ => true)

/-- A blackout begins on a channel. -/
def State.blackout (s : State) (n c : Nat) : State := s.modChan n c fun x => { x with blackout := true, calDue := false }
/-- Whether any channel of a stack is in blackout. -/
def Stack.dark (x : Stack) : Bool := x.chans.any (·.2.blackout)

/-- CALIBRATION_DUE (R376, R377): a blackout starts when what the channel has issued is complete, one channel of a stack at a time and, while a schedule is not IDLE, only in a quiet
stretch; otherwise the calibration stays due. -/
def execCalibrationDue (stack : Fin 8) (ch : Fin 16) (s : State) : Host.Outcome State Fault Refusal :=
  let n := stack.val
  let st := s.stack n
  if st.state ≠ 2 || st.failed.getLsbD ch.val then .next s
  else if !st.dark && (st.chan ch.val).issued.isEmpty && (s.schedState = 0 || s.quiet) then .next (s.blackout n ch.val)
  else .next (s.modChan n ch.val fun x => { x with calDue := !x.blackout })

/-- CALIBRATION_FORCED (R377): 200 ms after the last calibration, with no scheduled operation running. -/
def execCalibrationForced (stack : Fin 8) (ch : Fin 16) (s : State) : Host.Outcome State Fault Refusal :=
  let n := stack.val
  let st := s.stack n
  let x := st.chan ch.val
  if st.state = 2 && !st.failed.getLsbD ch.val && s.schedState ≠ 0 && !s.schedBusy && !st.dark && x.issued.isEmpty
      && decide (x.lastCal + 200000000 ≤ s.now) then
    .next (((s.blackout n ch.val).bump (stackBlk n) 6).logErr (errRec 0x33 0 none (chanUnit n ch.val) ch.val))
  else .next s

/-- CALIBRATION_DONE (R376, R390): the blackout ends and postponed refreshes are issued; the third failed retrain in succession fails the
channel. -/
def execCalibrationDone (stack : Fin 8) (ch : Fin 16) (phyOk : Bool) (s : State) : Host.Outcome State Fault Refusal :=
  let n := stack.val
  let x := (s.stack n).chan ch.val
  if !x.blackout then .next s
  else
    let fails := if phyOk then 0 else x.phyFails + 1
    let s := (s.modChan n ch.val fun x => { x.catchUp s.now with blackout := false, lastCal := s.now, phyFails := fails }).bump (stackBlk n) 5
    .next (if 3 ≤ fails then s.failChannel n ch.val 1 else s)

/-! ### Rate changes (R379) -/

/-- RATE_CHANGE_STACK_DONE (R379): with every queued request of the stack complete and no blackout, the stack runs at the new rate, one code lower
where the capper lowers it (R519), on its other timing set, which has taken the rate's parameters from module flash (R378); the retrain counts as each channel's calibration; admission resumes and the next named stack starts. (DEDUCED: log entry 31) -/
def execRateChangeStackDone (s : State) : Host.Outcome State Fault Refusal :=
  match (List.range 8).find? s.mem.rcMask.getLsbD with
  | none => .next s
  | some n =>
    let x := s.stack n
    let busy := x.chans.any fun c => !c.2.entries.isEmpty || !c.2.issued.isEmpty || c.2.blackout
    if !s.mem.rcOn || x.state ≠ 3 || busy then .next s
    else
      let cal := fun (c : Chan) => { c.catchUp s.now with lastCal := s.now, calDue := false, phyFails := 0 }
      let live := (List.range 16).filter fun c => !x.failed.getLsbD c
      let code := if s.mem.rcLower then x.rate + 1 else s.mem.rcCode
      let y := if x.tset then { x with timA := s.nv.timingOf n code } else { x with timB := s.nv.timingOf n code }
      let s := s.setStack n { y with rate := code, tset := !x.tset, state := 2, paused := false
                                     chans := live.foldl (fun t c => tmod {} t c cal) x.chans }
      let s := s.bumpBy (stackBlk n + 8 + 8 * 5) live.length
      .next (s.rateDrop n)

/-! ### Load and histograms (R284, R286) -/

/-- LOAD_INTERVAL (R284): each µs of FT every stack takes the mean admission delay of the interval. -/
def execLoadInterval (s : State) : Host.Outcome State Fault Refusal :=
  if s.hubNs % 1000 = 0 then
    .next (s.each s.stackList fun s n => s.modStack n fun x =>
      { x with lastMean := if x.delayCnt = 0 then 0 else x.delaySum / x.delayCnt, delaySum := 0, delayCnt := 0 })
  else .next s

/-- The age of the oldest of a list of arrival times, 0 when there is none. -/
def oldestAge (now : Nat) (l : List Nat) : Nat := l.foldl (fun m t => max m (now - t)) 0

/-- The samples of a port's queues (R286). -/
def State.samplePort (s : State) (p : Nat) : State :=
  s.each (List.range 8) fun s t =>
    let x := s.port p
    (s.bin (portBlk p) (32 * t + depthBin (x.occ t))).bin (portBlk p) (32 * t + 16 + delayBin (oldestAge s.now ((x.queue t).map (·.at_))))

/-- The samples of a stack's arbiter (R286). -/
def State.sampleStack (s : State) (n : Nat) : State :=
  let x := s.stack n
  (s.bin (stackBlk n) (depthBin x.queue.length)).bin (stackBlk n) (16 + delayBin (oldestAge s.now (x.queue.map (·.arrived))))

/-- Whether a queued request is one of a partition's: of its flow, or a TC7 or scheduled one that presents its CID (R276). -/
def Req.fromPart (r : Req) (p : Nat) : Bool := r.flow == 3 + p || (r.flow == 1 && cidPart r.pkt.cid == p)

/-- The sample of a partition's oldest request on any stack (R286); a confidential one is not sampled (R287). -/
def State.samplePart (s : State) (p : Nat) : State :=
  if (s.part p).conf then s
  else s.bin (partBlk p) (delayBin (oldestAge s.now (s.stackList.flatMap fun n =>
    ((s.stack n).queue.filter (·.fromPart p)).map (·.arrived))))

/-- HISTOGRAM_SAMPLE (R286, R287): the queues of every island whose replica stands at a multiple of 1,000 ns of FT are sampled, ports by that of
their link die, arbiters and partitions by that of the hub, in which the memory stages and their arbiters stand (R11). -/
def execHistogramSample (s : State) : Host.Outcome State Fault Refusal :=
  let hub := s.hubNs % 1000 = 0
  let s := s.each ((List.range 16).filter fun p => s.portEn p && s.dieNs (p / 4) % 1000 = 0) fun s p => s.samplePort p
  .next (if hub then (s.each s.stackList State.sampleStack).each (List.range 64) State.samplePart else s)

end Sys2Proof.Machine
end

