-- ==== Sys2Proof/Machine/Granules.lean ====
section
/-! DEFINITION. Granules: reserved DRAM (R27, R28, R371), the free pool (R53), background work by granules at the pace of SCRUB_SHARE (R57,
R226, R276), and pool groups (R59 to R66). -/
namespace Sys2Proof.Machine

/-! ### Reserved DRAM (R27, R28, R371) -/

/-- The port whose spill lies in a PPA granule now, if one does. (DESIGN CHOICE: log entry 44) -/
def State.spillPort (s : State) (g : Nat) : Option Nat := ((List.range 64).find? fun i => s.spillGran i == some g).map (· / 4)

/-- The region of the reserved layout that holds granule j of the 960 beyond the spill (R27), in the codes of MEM_RESERVED_UE. -/
def regionOf (j : Nat) : Nat := if j < 32 then 2 else if j < 40 then 3 else if j < 56 then 4 else if j < 72 then 5 else if j < 200 then 6 else 7

/-- What a PPA granule is reserved for, if it is: its region, and its number among the 960. The spec leaves open in which order reserved granules
take the places of a stack: the spill granules of start-up stand above the others, in die order, and the 960 go round the enabled stacks
from the lowest-numbered up. A moved spill granule lies in the scratch (R390). (DESIGN CHOICE: log entry 44) -/
def State.reserved (s : State) (g : Nat) : Option (Nat × Nat) :=
  let n := granStack g
  let i := 24575 - g % 32768
  if !s.stackEn n || g % 32768 > 24575 || i ≥ s.resvCount n then none
  else if (s.spillPort g).isSome || i < (s.spillGrans n).length then some (1, i)
  else
    let j := (i - (s.spillGrans n).length) * s.stackList.length + s.stackList.findIdx (· = n)
    some (regionOf j, j)

/-- Whether a PPA granule is free to be assigned (R53, R371, R390, R394). (DEDUCED: log entry 26) -/
def State.granFree (s : State) (g : Nat) : Bool :=
  let n := granStack g
  let x := s.stack n
  let grp := granGroup g
  s.stackEn n && x.state ≠ 5 && x.state ≠ 0 && !(s.rmapE g).held && (s.reserved g).isNone
    && (List.range 4).all (fun c => !x.failed.getLsbD (4 * grp + c)) && !(x.diag && grp == 3)

/-! ### Background work -/

/-- A granule overwritten under a key that nothing reads with: its rows are used and nothing of its former contents stays (R57, R375, R393).
(DESIGN CHOICE: log entry 83) -/
def State.wipe (s : State) (g : Nat) : State :=
  let s := s.useGran g
  { s with dram := s.dram.filter fun c => c.1 / 2097152 ≠ g, lines := s.lines.filter fun e => e.1 / 16384 ≠ g }

/-- The PPA granules of an extent on this member. -/
def State.extGrans (s : State) (x : Ext) : List Nat := (List.range x.localSize).map (s.extGran x)

/-- SCRUB_STEP (R57): the next granule of a SCRUBBING extent is overwritten, at the pace of its stack. (DESIGN CHOICE: log entry 83) -/
def execScrubStep (ext : Fin 262144) (s : State) : Host.Outcome State Fault Refusal :=
  let x := s.ext ext.val
  let g := s.extGran x x.scrub
  if x.state = 3 && x.scrub < x.localSize && s.granOk g then
    .next (((s.wipe g).pace (granStack g) granBytes).setExt ext.val { x with scrub := x.scrub + 1 })
  else .next s

/-- An extent that becomes FREE: its granules, map entries and records return to the pool; GEN stays (R43, R54 step 7, R56). -/
def State.freeExt (s : State) (idx : Nat) : State :=
  let x := s.ext idx
  let s := s.each (List.range x.localSize) fun s i =>
    (s.setRmapE (s.extGran x i) {}).setGranule ((x.mapBase.toNat + i) % 262144) 0
  let s := if x.mirror || x.parity then s.setProt x.protRef.toNat {} else s
  let s := if x.combine then s.setComb x.protRef.toNat {} else s
  let s := if x.shared then s.setShare x.shareRef.toNat {} else s
  s.setExt idx { gen := x.gen, freedAt := s.now + 1 }

/-- SCRUB_DONE (R57, R54 step 7). (DESIGN CHOICE: log entry 83) -/
def execScrubDone (ext : Fin 262144) (s : State) : Host.Outcome State Fault Refusal :=
  let x := s.ext ext.val
  if x.state = 3 && x.scrub = x.localSize then .next (s.freeExt ext.val) else .next s

/-- A zero-fill begins: its granules are taken from the pace of their stacks, and it can end no sooner than the pace allows (R226, R276).
(DESIGN CHOICE: log entry 83) -/
def State.fillStart (s : State) (idx : Nat) : State :=
  let x := s.ext idx
  let s := s.each (s.extGrans x) fun s g => s.pace (granStack g) granBytes
  s.modComb x.protRef.toNat fun c => { c with fillEnd := (s.extGrans x).foldl (fun m g => max m (s.stack (granStack g)).bgNext) 0 }

/-- ZERO_FILL_DONE (R226): when the pace and the flows above background work have let it end, all-zero words stand over the whole extent; VALID is set, CLEARING cleared, and the command replies.
(DESIGN CHOICE: log entry 83) -/
def execZeroFillDone (ext : Fin 262144) (s : State) : Host.Outcome State Fault Refusal :=
  let x := s.ext ext.val
  let c := s.comb x.protRef.toNat
  if x.combine && x.state = 1 && c.clearing && c.fillEnd ≤ s.now
      && (s.extGrans x).all (fun g => (s.stack (granStack g)).state == 5 || s.bgClear (granStack g)) then
    let s := ((s.noteFor (.zeroFill ext.val)).each (s.extGrans x) fun s g => s.wipe g).setExt ext.val { x with zero := true }
    .next ((s.setComb x.protRef.toNat { c with valid := true, clearing := false }).wake (.zeroFill ext.val))
  else .next s

/-! ### Pool groups (R63 to R66) -/

/-- A delta XORed into a parity line, with the status of its completion (R63): the line is read as every other (R384), with what the DRAM pins add
to it a free value; a line that is uncorrectable or carries the poison mark is rebuilt from the other members, whose data is a free value, while the
redundancy stands, and otherwise nothing is written and the completion says so; a parity line on a failed channel or stack is not there, and the
data members serve without it (R65, R387). (DESIGN CHOICE: log entries 9, 28) -/
def State.deltaIn (s : State) (idx : Nat) (x : Ext) (l tw : Nat) (delta : Line) : State × Status :=
  if s.lineFailed l then (s, stOk)
  else
    let c := Config.pins s.now l
    let a := clsOf (s.lineMeta l).mark c.1
    let b := clsOf (s.lineMeta l).mark c.2
    let s := s.useRow l
    let blk := stackBlk (lineStack l)
    let rebuilt := fun (s : State) => { s with fresh := s.fresh + 1 }.storeLine l (Config.stale s.fresh 6 l) x.key tw
    match lineCls a b with
    | .clean => (s.storeLine l (s.lineData idx l tw ^^^ delta) x.key tw, stOk)
    | .corrected => ((s.storeLine l (s.lineData idx l tw ^^^ delta) x.key tw).bump blk 0, stOk)
    | .ue =>
      if s.redundant x then ((rebuilt s).ueFound l a b c.1 c.2 0xF4 1, stOk)
      else ((s.markLine l .poison).ueFound l a b c.1 c.2 0xF4 0, stUncorrectable)
    | _ =>
      let s := s.bump blk 2
      if s.redundant x then
        ((rebuilt s).logErr (errRec 0x30 2 (s.lineOwner l) (chanUnit (lineStack l) (lineChan l)) (ueDetail l false false .clean .clean 0xF4 1)), stOk)
      else (s, stUncorrectable)

/-- A completion sent to another member of the group, with the load of the line's home stack, or of the device without one (R8, R284).
(DESIGN CHOICE: log entry 27) -/
def State.peerCmp (s : State) (home : Option Nat) (m : Nat) (tc : Fin 8) (cid : Cid) (rtag : BitVec 32) (st : Status) : State :=
  s.send [] { dst := tget 0 s.group.eids m, src := s.node.eid, cid := cid, vc := true, tc := tc, stat := st
              load := s.loadOf home, rtag := rtag, opc := oCmp, len := 32 }

/-- PARITY_DELTA (R63): the parity member of a line's stripe XORs a delta of another member into the parity line and completes it; a delta that
names no line whose parity this member holds completes with EXTENT_REVOKED. While the line's stack serves nothing, or its channel is in blackout,
the delta waits (R376, R379). (DESIGN CHOICE: log entries 27, 28) -/
def execParityDelta (xh : Xh) (offset : BitVec 40) (delta : DeltaIn) (s : State) : Host.Outcome State Fault Refusal :=
  let idx := (xh.extractLsb' 0 18).toNat
  let x := s.ext idx
  let off := offset.toNat
  let answer := fun (s : State) (home : Option Nat) (st : Status) => s.peerCmp home delta.src.val delta.tc delta.cid delta.rtag st
  if !s.group.on || !s.peers.contains delta.src.val then .next s
  else if x.state = 1 && x.gen = xh.extractLsb' 18 6 && s.standIn x off && off < x.size.toNat * 2 ^ 21 then
    let l := s.extLine x (x.local_ off)
    let tw := xtsTweak idx x.gen.toNat (s.lineNo x off)
    if s.lineWaits l then .next s
    else
      let (u, st) := s.deltaIn idx x l tw delta.data
      .next (answer u (some (lineStack l)) st)
  else .next (answer s none stRevoked)

/-- The loss of slots that this member has declared, acted on while it reaches a majority and has not done so yet (R64). -/
def Group.toAct (g : Group) : List Nat := (List.range 8).filter fun m => g.lost.getLsbD m && !g.acted.getLsbD m

/-- GROUP_HEARTBEAT_SEND (R64): every 1 ms of FT a heartbeat goes to every other member in TC6 (R272), and so does what another member must be
sent again. (DESIGN CHOICE: log entry 27) -/
def execGroupHeartbeatSend (s : State) : Host.Outcome State Fault Refusal :=
  if s.group.on && s.group.lastSent + 1000000 ≤ s.ftNs then
    let s := s.each s.peers fun s m => s.groupSend m (some 6) .heartbeat
    .next { s with group := { s.group with lastSent := s.ftNs } }.forwardAgain
  else .next s

/-- The lines of a PARITY extent whose data slot and a further slot of the stripe are lost: how many, and the lowest offset (R65). -/
def State.lostLines (s : State) (x : Ext) : Nat × Nat :=
  let p := s.prot x.protRef.toNat
  let n := if x.pwidth then 8 else 4
  let two := 2 ≤ ((List.range n).filter p.lost.getLsbD).length
  let bad := if two then (List.range x.size.toNat).filter fun g => p.lost.getLsbD (x.slotsAt (g * 2 ^ 21)).2 else []
  (bad.length * 16384, match bad with | g :: _ => g * 2 ^ 21 | [] => 0)

/-- The loss of a member as the protected extents of this member see it (R65): LOST and DEGRADED, GROUP_EVENT to the owner, promotion of a
secondary, and one record for data that a second loss destroys. (DESIGN CHOICE: log entry 27) -/
def State.lossAct (s : State) (m : Nat) : State :=
  s.each ((s.exts.filter fun e => e.2.state == 1 && (e.2.mirror || e.2.parity)).map (·.1)) fun s i =>
    let x := s.ext i
    let p := s.prot x.protRef.toNat
    let n := if x.mirror then 2 else if x.pwidth then 8 else 4
    match (List.range n).find? fun k => p.member k == m && !p.lost.getLsbD k with
    | none => s
    | some k =>
      let s := (s.setProt x.protRef.toNat { p with degraded := true, lost := p.lost ||| BitVec.ofNat 8 (1 <<< k) }).groupEvent i 1 k
      if x.mirror then (if k = 0 && s.mySlot x = 1 then s.groupEvent i 2 1 else s)
      else
        let (c, o) := s.lostLines x
        if c = 0 then s else s.dataLost i c o

/-- The losses that have been declared and not acted on yet are acted on while this member reaches a majority (R64, R65): what was on its way to
the lost members is waited for no longer. (DESIGN CHOICE: log entry 27) -/
def State.actLost (s : State) : State :=
  if s.majority then
    s.each s.group.toAct fun s m =>
      ({ s with group := { s.group with acted := s.group.acted ||| BitVec.ofNat 8 (1 <<< m) } }.lossAct m).forwardNot m
  else s

/-- GROUP_HEARTBEAT (R64): a member's silence ends, and a loss of it that has not been acted on is declared no longer; with the majority that it
may bring back, this member acts on the losses that are. GROUP_PROMOTE ends with the beat of a peer that is not lost.
(DESIGN CHOICE: log entry 27) -/
def execGroupHeartbeat (slot : Fin 8) (s : State) : Host.Outcome State Fault Refusal :=
  let m := slot.val
  if s.group.on && s.peers.contains m then
    let bit := BitVec.ofNat 8 (1 <<< m)
    let g := s.group
    let lost := if g.acted.getLsbD m then g.lost else g.lost &&& ~~~ bit
    .next ({ s with group := { g with lastHb := tput 0 g.lastHb m s.ftNs, lost := lost, promoted := g.promoted && lost.getLsbD m } }.actLost)
  else .next s

/-- GROUP_MEMBER_LOST (R64, R65): a member silent for 4 ms is declared lost; this member acts on it only while it reaches a majority.
(DESIGN CHOICE: log entry 27) -/
def execGroupMemberLost (slot : Fin 8) (s : State) : Host.Outcome State Fault Refusal :=
  let m := slot.val
  if s.group.on && s.peers.contains m && !s.group.lost.getLsbD m && s.silent m then
    .next ({ s with group := { s.group with lost := s.group.lost ||| BitVec.ofNat 8 (1 <<< m) } }.actLost)
  else .next s

/-- The lowest-numbered free granule on a stack that is not FAILED, for a rebuild on local spare granules (R66). (DEDUCED: log entry 26) -/
def State.spare (s : State) : Option Nat := (List.range 262144).find? s.granFree

/-- A granule of this member's own rebuilt on a spare one: the map entries are moved, and what it holds is rebuilt from the other
members, whose data is a free value. -/
def State.moveGran (s : State) (idx i g : Nat) : State :=
  let x := s.ext idx
  let e := (x.mapBase.toNat + i) % 262144
  let old := (s.granule e).toNat
  (((s.wipe g).setRmapE old {}).setRmapE g { ext := BitVec.ofNat 18 idx, pos := BitVec.ofNat 18 i, held := true }).setGranule e (BitVec.ofNat 19 g)

/-- A slot restored (R66): LOST and, with the last of them, DEGRADED clear. -/
def Prot.restored (p : Prot) (slot own : Nat) : Prot :=
  let lost := p.lost &&& ~~~ (BitVec.ofNat 8 (1 <<< slot))
  { p with lost := lost, degraded := lost != 0, stackOut := p.stackOut && lost.getLsbD own, reported := false }

/-- A rebuild that has reached SIZE (R66): CURSOR, of which the spec then says nothing, reads 0 again. (DESIGN CHOICE: log entry 83) -/
def State.rebuilt (s : State) (idx : Nat) : State :=
  let ref := (s.ext idx).protRef.toNat
  let p := s.prot ref
  (s.setProt ref { p.restored p.rslot.val (s.mySlot (s.ext idx)) with rstate := 0, cursor := 0 }).groupEvent idx 3 p.rslot.val

/-- The lines of a logical granule for a lost slot: a mirrored line is this member's own unless it is marked, and one of a stripe is formed with
lines that other members hold, so that it is a free value; a granule whose stripe slot is another carries none. (DESIGN CHOICE: log entry 83) -/
def State.rebuildLines (s : State) (idx g : Nat) : List (Nat × Line) :=
  let x := s.ext idx
  let slot := (s.prot x.protRef.toNat).rslot.val
  let (ps, d) := x.slotsAt (g * 2 ^ 21)
  let at_ := fun i => s.extLine x (x.local_ (g * 2 ^ 21) + 128 * i)
  if x.mirror then
    (List.range 16384).filterMap fun i =>
      let tw := xtsTweak idx x.gen.toNat ((x.local_ (g * 2 ^ 21) + 128 * i) / 128)
      if (s.lineMeta (at_ i)).mark = .none then some (i, s.lineData idx (at_ i) tw) else none
  else if slot = ps || slot = d then (List.range 16384).map fun i => (i, Config.stale s.fresh 7 (at_ i)) else []

/-- REBUILD_STEP on the member that serves the extent (R66): the next granule is restored to its target, a spare granule of this member or the
member that takes the slot, and CURSOR advances; at SIZE the slot is no longer lost. (DESIGN CHOICE: log entry 83) -/
def State.rebuildDue (s : State) (idx : Nat) : State :=
  let x := s.ext idx
  let p := s.prot x.protRef.toNat
  if !(x.state = 1 && (x.mirror || x.parity) && p.rstate = 1) then s
  else
    let g := p.cursor.toNat
    let i := if x.parity then g / (if x.pwidth then 7 else 3) else g
    let old := s.extGran x i
    let step := fun (s : State) =>
      let s := s.modProt x.protRef.toNat fun p => { p with cursor := p.cursor + 1 }
      if g + 1 = x.size.toNat then s.rebuilt idx else s
    if p.target then
      if (s.stack (granStack old)).state ≠ 5 then step s
      else match s.spare with
        | none => s
        | some n => if s.granOk n then step ((s.moveGran idx i n).pace (granStack n) granBytes) else s
    else if !s.granOk old then s
    else
      let msg := GroupMsg.rebuild (BitVec.ofNat 24 (idx + x.gen.toNat * 2 ^ 18)) g (s.rebuildLines idx g)
      step (({ s with fresh := s.fresh + 1 }.pace (granStack old) granBytes).useGran old |>.groupSend (p.member p.rslot.val) none msg)

/-- REBUILD_STEP on the target (R66): a granule that another member restored is written at the pace of its stack, for which it waits, and with the
last one the slot is this member's again. (DESIGN CHOICE: log entry 83) -/
def State.rebuildIn (s : State) (src : Nat) (xh : Xh) (g : Nat) (lines : List (Nat × Line)) : State :=
  let idx := (xh.extractLsb' 0 18).toNat
  let x := s.ext idx
  if s.group.on && s.peers.contains src && x.state = 1 && x.gen = xh.extractLsb' 18 6 && (x.mirror || x.parity) && s.isTarget x && g < x.size.toNat
      && s.granOk (s.extGran x (x.local_ (g * 2 ^ 21) / 2 ^ 21)) then
    let o := x.local_ (g * 2 ^ 21)
    let s := (s.pace (granStack (s.extGran x (o / 2 ^ 21))) granBytes).useGran (s.extGran x (o / 2 ^ 21))
    let s := s.each (lines.filter (·.1 < 16384)) fun s e =>
      s.storeLine (s.extLine x (o + 128 * e.1)) e.2 x.key (xtsTweak idx x.gen.toNat (s.lineNo x (g * 2 ^ 21 + 128 * e.1)))
    if g + 1 = x.size.toNat then s.modProt x.protRef.toNat fun p => p.restored (s.mySlot x) (s.mySlot x) else s
  else s

/-- REBUILD_STEP (R66). -/
def execRebuildStep (r : RebuildIn) (s : State) : Host.Outcome State Fault Refusal :=
  match r with
  | .due e => .next (s.rebuildDue e.val)
  | .received src xh g lines => .next (s.rebuildIn src.val xh g lines)

end Sys2Proof.Machine
end

