-- ==== Sys2Proof/Machine/Drains.lean ====
section
/-! DEFINITION. What ends in its own time: an abort (R417, R280), the drain of an extent's phase (R47, R50, R101), a revocation (R54), a
context that retires (R39), the steps of PARTITION_CLOSE (R437) and the partition that becomes FREE (R31), and the end of a session
(R466, R471). -/
namespace Sys2Proof.Machine

/-! ### Sessions (R466, R471, R475) -/

/-- Every extent key of a partition destroyed. -/
def State.dropKeys (s : State) (p : Nat) : State :=
  s.each ((s.exts.filter fun e => e.2.owner.toNat = p && e.2.key.isSome).map (·.1)) fun s i => s.modExt i fun x => { x with key := none }

/-- The records of a ring that are delivered after the session has ended (R471), those that wait for a place among them.
(DESIGN CHOICE: log entry 49) -/
def afterSession (g : Ring) : Ring :=
  let ok := fun (r : NtfRec) => r.kind = 2 || r.kind = 0x20
  { g with recs := g.recs.filter ok, waiting := g.waiting.filter fun e => ok e.1 }

/-- What a packet of a partition that waits to leave a link die becomes when the partition's session ends (R471): a completion leaves header only
with ABORTED, and of the records only those of R471 leave. A completion of a partition whose session a switchover commit ends is treated
alike. (DESIGN CHOICE: log entry 49) -/
def afterPacket (part : Nat) (p : Packet) : Option Packet :=
  if cidPart p.cid ≠ part || p.syn then some p
  else if p.opc = oNotify then (if bitsOf p.data.toNat 376 8 = 2 || bitsOf p.data.toNat 376 8 = 0x20 then some p else none)
  else if p.isCmp then some { p with stat := stAborted, opc := oCmp, len := 32, data := 0, opnd := 0 }
  else some p

/-- An established session ends: the link secret and what is derived of it are destroyed, the records staged before are discarded but for
those of R471, and SESSION_ENDED is staged. (DESIGN CHOICE: log entry 49) -/
def State.endSession (s : State) (p : Nat) (st : BitVec 2) (cause : Nat) : State :=
  let x := s.part p
  if x.sess = 1 then
    let s := s.setPart p { x with sess := st, ls := none }
    let s := { s with keys := s.keys.filter (fun e => e.1 / 16384 ≠ p), derived := s.derived.filter fun e => e.1 / 16384 ≠ p }
    let s := s.each s.dieList fun s d => s.modDie d fun x => { x with orig := x.orig.filterMap (afterPacket p) }
    (s.setRing p (afterSession (s.ring p))).event p
      { kind := 0x20, obj := x.sid, cid := BitVec.ofNat 16 (p * 1024), cause := BitVec.ofNat 8 cause }
  else s

/-! ### Aborts (R280, R417, R418) -/

/-- Whether a request presents a CID of a partition, or is an Elder request in its flow (R280); data that a snoop returned is written whatever
becomes of the partition (R140). -/
def Req.ofPart (r : Req) (p : Nat) : Bool :=
  match r.org with
  | .spill _ _ _ _ => false
  | .crit => !r.isWrite && cidPart r.pkt.cid == p
  | .elder => r.flow == 3 + p
  | _ => cidPart r.pkt.cid == p

/-- The queued requests of a partition end with ABORTED at every admission arbiter, and the tags of its flow are cleared (R280).
(DESIGN CHOICE: log entry 49) -/
def State.abortQueues (s : State) (p : Nat) : State :=
  s.each s.stackList fun s n =>
    let x := s.stack n
    let q := (x.queue ++ x.wait).filter (·.ofPart p)
    let keep := fun (l : List Req) => l.filter fun r => !r.ofPart p
    let s := s.setStack n { x with queue := keep x.queue, wait := keep x.wait, tags := tdel x.tags (3 + p) }
    s.each q fun s r => s.endReq r stAborted

/-- The requests of a partition that the limiter or an admission arbiter holds go on to the memory stage, which ends them (R46 check 1).
(DESIGN CHOICE: log entry 49) -/
def State.abortHeld (s : State) (p : Nat) : State :=
  let mine := fun (h : Held) => isMemOpc h.pkt.opc && (s.reqOf h).ofPart p
  let l := s.limHeld.filter mine
  let a := s.admHeld.filter mine
  ({ s with limHeld := s.limHeld.filter fun h => !mine h, admHeld := s.admHeld.filter fun h => !mine h }).each (a ++ l) fun s h => s.memGo h

/-- The requests of a partition that wait for other members end with ABORTED (R417). -/
def State.abortFwds (s : State) (p : Nat) : State :=
  let l := s.fwds.filter (·.req.ofPart p)
  let dead := l.flatMap fun w => w.fwds.map (·.rtag)
  { s with fwds := s.fwds.filter fun w => !w.req.ofPart p
           origs := s.origs.filter fun o => !(o.kind != OrigKind.sched && dead.contains o.rtag) : State }.each l fun s w => s.endReq w.req stAborted

/-- Whether the unit that issued a host-memory request still waits for it. -/
def State.hostOrgLives (s : State) : HostOrg → Bool
  | .walker n id => match (s.tile n).walk with | some w => w.waiting && w.rid == id | none => false
  | .engine n k inc _ => (s.job n k).st != .free && (s.job n k).inc.toNat == inc

/-- Host-memory requests whose unit no longer waits are given up; an answer that comes later finds no request (R417 step 5). -/
def State.dropHostReqs (s : State) : State :=
  let dead := (s.qor.reqs.filter fun q => !s.hostOrgLives q.org).map (·.tag)
  { s with qor := { s.qor with
      reqs := s.qor.reqs.filter fun q => !dead.contains q.tag
      walk := s.qor.walk.filter fun p => !dead.contains p.tag
      eng := s.qor.eng.filter fun e => !dead.contains e.2.tag } }

/-- Every command of a partition in progress ends with PARTITION_ABORTED, from whichever mailbox it came (R92, R418). (DESIGN CHOICE: log entry 49) -/
def State.abortCmds (s : State) (p : Nat) : State :=
  s.each (s.cmds.filter (s.endedBy p)) fun s c => s.failCmd c.token csAborted 0

/-- Whether a request of a partition, or data that a snoop for it returned, has still to take effect at a DRAM controller (R417, R483). -/
def State.abortBusy (s : State) (p : Nat) : Bool :=
  let mine := fun (r : Req) => r.ofPart p || (r.org == .crit && cidPart r.pkt.cid == p)
  s.stackList.any fun n =>
    let x := s.stack n
    (x.queue ++ x.wait).any mine || x.chans.any fun c => (c.2.entries ++ c.2.issued).any mine

/-- ABORT_COMPLETE (R417 steps 4 to 7, R418, R466): queued requests end; when every admitted one has taken effect, DONE is set and the keys are
destroyed (R483). PART_ABORTED is Steward's, and waits for a core that runs. (DESIGN CHOICE: log entry 49) -/
def execAbortComplete (part : Fin 64) (s : State) : Host.Outcome State Fault Refusal :=
  let p := part.val
  let x := s.part p
  if x.abortAt.isSome then
    let s := ((((s.abortQueues p).abortHeld p).abortTxns p).abortFwds p).dropHostReqs
    if s.abortBusy p then .next s
    else
    let s := if x.conf then (s.dropKeys p).endSession p 2 (if x.cause = 2 then 1 else 2) else s
    let s := s.modPart p fun x => { x with done := true, abortAt := none }
    let s := s.stewSend p { kind := 2, obj := BitVec.ofNat 32 p, cid := BitVec.ofNat 16 (p * 1024), cause := x.cause.setWidth 8 }
    .next (s.abortCmds p)
  else .next s

/-! ### The start of a drain and of a revocation (R47, R54) -/

/-- The counter of a phase. -/
def Ext.counter (x : Ext) (phase : Bool) : Nat := if phase then x.ctrB else x.ctrA

/-- A wait for every request admitted to an extent until now (R47): the phase flips, or, while an earlier phase drains, it flips when that
has ended; with no request in flight there is nothing to wait for. (DESIGN CHOICE: log entry 29) -/
def State.drainExt (s : State) (idx : Nat) : List Wait × State :=
  let x := s.ext idx
  if x.counter x.phase = 0 && x.counter (!x.phase) = 0 then ([], s)
  else if x.counter (!x.phase) = 0 then ([.phase idx x.phase], s.modExt idx fun x => { x with phase := !x.phase })
  else ([.phase idx x.phase], s)

/-- Drains of a list of extents. -/
def State.drainExts (s : State) : List Nat → List Wait × State
  | [] => ([], s)
  | i :: r =>
    let (a, s) := s.drainExt i
    let (b, s) := s.drainExts r
    (a ++ b, s)

/-- Every RPL entry that names an extent marked DEAD (R85). -/
def State.markDead (s : State) (idx : Nat) : State :=
  s.each s.tileList fun s n => s.each (s.tile n).slots fun s k => s.modJob n k fun j =>
    { j with rpl := j.rpl.map fun r => if r.tgt && r.xh.extractLsb' 0 18 = BitVec.ofNat 18 idx then { r with dead := true } else r }

/-- Steps 1 to 4 of a revocation begin (R54): REVOKING with the next GEN, the RPL entries DEAD, resident chunks discarded, and, for a
COHERENT extent, back-invalidations with discard. (DESIGN CHOICE: log entry 29) -/
def State.startRevoke (s : State) (idx : Nat) : State :=
  let s := (s.modExt idx fun x => { x with state := 2, gen := x.gen + 1 }).markDead idx
  let s := s.each ((s.lands.filter fun e => e.2.v && e.2.ext = idx).map (·.1)) fun s k => s.dropWin (k / 16) (k % 16)
  if (s.ext idx).coherent then s.sweepAll else s

/-- A create or revoke carried to another member, whose answer is waited for (R59). -/
def State.carry (s : State) (m : Nat) (xh : Xh) (create : Bool) (g : GroupMsg) : State :=
  let s := s.groupSend m none g
  { s with group := { s.group with calls := s.group.calls ++ [{ member := m, xh := xh, at_ := s.now, create := create }] } }

/-- The members that carried the revoke of an extent here are answered at its step 6 (R439). -/
def State.payOwed (s : State) (idx : Nat) : State :=
  let mine := fun (o : Nat × Xh) => (o.2.extractLsb' 0 18).toNat == idx
  let s' := { s with group := { s.group with owed := s.group.owed.filter fun o => !mine o } }
  s'.each (s.group.owed.filter mine) fun s o => s.groupSend o.1 none (.answer o.2 0)

/-- A revocation of a protected extent carried to the other members that are reached (R59, R439). (DESIGN CHOICE: log entry 29) -/
def State.carryRevoke (s : State) (idx : Nat) (xh : Xh) : State :=
  if (s.ext idx).mirror || (s.ext idx).parity then s.each (s.peers.filter fun m => !s.silent m) fun s m => s.carry m xh false (.revoke xh) else s

/-- The handle of an extent. -/
def Ext.handle (x : Ext) (idx : Nat) : Nat := idx + x.gen.toNat * 2 ^ 18

/-- An ACTIVE extent revoked, with the group when it is protected. -/
def State.revoke (s : State) (idx : Nat) : State :=
  (s.carryRevoke idx (BitVec.ofNat 24 ((s.ext idx).handle idx))).startRevoke idx

/-- EXTENT_REVOKED to each consenting member of a revoked shared extent, with the handle of before (R58, R414). -/
def State.tellMembers (s : State) (idx : Nat) : State :=
  let x := s.ext idx
  let old := { x with gen := x.gen - 1 }.handle idx
  if x.shared then
    s.each ((s.share x.shareRef.toNat).slots.filter fun e => e.2.valid && e.2.consent) fun s e =>
      s.event e.2.part.toNat { kind := 3, obj := BitVec.ofNat 32 old, cid := BitVec.ofNat 16 (e.2.part.toNat * 1024) }
  else s

/-! ### PARTITION_CLOSE step by step (R437) -/

/-- The contexts of a partition that are not FREE, and its extents in a state. -/
def State.ctxsOf (s : State) (p : Nat) : List Nat := (s.ctxs.filter fun e => e.1 / 1024 = p && e.2.state ≠ 0).map (·.1)
def State.extsOf (s : State) (p : Nat) (st : BitVec 2) : List Nat :=
  (s.exts.filter fun e => e.2.owner.toNat = p && e.2.state = st && !e.2.left).map (·.1)

/-- Entries of the walkers' table-entry caches removed (R78). -/
def State.purge (s : State) (out : PtCache → Bool) : State :=
  s.each (s.walkers.map (·.1)) fun s k => s.modWalker k fun w => { w with cache := w.cache.filter fun e => !out e }

/-- A context destroyed (R39): RETIRING, its jobs cancelled, and what the walkers hold of it removed (R78). -/
def State.retire (s : State) (cid : Nat) : State :=
  let s := s.modCtx cid fun c => { c with state := 3 }
  let s := s.purge fun e => e.cid.toNat == cid
  (s.each s.tileList fun s n => s.each ((s.tile n).slots.filter fun k => (s.job n k).cid.toNat = cid) fun s k =>
    s.cancelJob n k jcRetired).invalCheck

/-- Whether the close of a partition still waits for a drain, or, with `all`, for back-invalidations. (DESIGN CHOICE: log entry 29) -/
def State.closeDrains (s : State) (p : Nat) (all : Bool) : Bool :=
  s.cmds.any fun c => c.waits.contains (.partFree p) && c.waits.any fun w => match w with | .phase _ _ => true | .binv _ => all | _ => false

/-- The next step of the close of a CLOSING partition: when its member slots have drained its contexts are destroyed, and when they are FREE
its extents are revoked, 64 at a time. (DESIGN CHOICE: log entry 29) -/
def State.closeStep (s : State) (p : Nat) : State :=
  if (s.part p).state ≠ 3 || s.closeDrains p false then s
  else match s.ctxsOf p with
    | [] => if (s.extsOf p 2).isEmpty && !(s.extsOf p 1).isEmpty then
        (s.noteFor (.partFree p)).each ((s.extsOf p 1).take 64) fun s i => s.revoke i else s
    | l =>
      let l := l.filter fun c => (s.ctx c).state ≠ 3
      if l.isEmpty then s else (s.noteFor (.partFree p)).each l fun s c => s.retire c

/-- The close of each CLOSING partition goes on. (DESIGN CHOICE: log entry 29) -/
def State.closeAll (s : State) : State := s.each ((s.parts.filter (·.2.state = 3)).map (·.1)) fun s p => s.closeStep p

/-! ### The drains' ends -/

/-- PHASE_DRAIN_DONE (R47): the counter of the old phase is zero; a wait that came while it drained begins with the next flip. -/
def execPhaseDrainDone (ext : Fin 262144) (s : State) : Host.Outcome State Fault Refusal :=
  let i := ext.val
  let x := s.ext i
  if x.counter (!x.phase) = 0 then
    let s := s.wake (.phase i (!x.phase))
    .next (if s.cmds.any fun c => c.waits.contains (.phase i x.phase) then s.modExt i fun x => { x with phase := !x.phase }
      else s).closeAll
  else .next s

/-- REVOKE_DRAIN_DONE (R54 steps 5 and 6, R58): the key is destroyed, the extent is SCRUBBING, and the reply is posted. During a
switchover commit the session of an OPEN partition ends with its last extent (R466). -/
def execRevokeDrainDone (ext : Fin 262144) (s : State) : Host.Outcome State Fault Refusal :=
  let i := ext.val
  let x := s.ext i
  if x.state = 2 && x.ctrA = 0 && x.ctrB = 0 && !(x.coherent && s.tracks (s.wayExt i)) then
    let p := x.owner.toNat
    let s := s.noteFor (.revoke i)
    let s := (((s.setExt i { x with state := 3, key := none, scrub := 0 }).tellMembers i).payOwed i).wake (.revoke i)
    let s := if s.stew.commit && (s.part p).state = 1 && (s.part p).conf && (s.extsOf p 1).isEmpty && (s.extsOf p 2).isEmpty then
      s.endSession p 0 1 else s
    .next (s.closeStep p)
  else .next s

/-- CONTEXT_RETIRE_DONE (R39): no job of the context is left and every request that had passed the context check has completed. -/
def execContextRetireDone (cid : Cid) (s : State) : Host.Outcome State Fault Refusal :=
  let c := s.ctx cid.toNat
  let jobs := s.tileList.any fun n => (s.tile n).slots.any fun k => (s.job n k).cid = cid
  if c.state = 3 && c.inflight = 0 && !jobs then
    let p := cidPart cid
    let s := s.noteFor (.ctxFree cid.toNat)
    let s := (s.setCtx cid.toNat {}).modPart p fun x => { x with freedAt := tput 0 x.freedAt (cid.toNat % 1024) (s.ftNs + 1) }
    .next ((s.wake (.ctxFree cid.toNat)).closeStep p)
  else .next s

/-- The Elder window unbound when it is bound to a partition; FILTER stays (R101). -/
def State.elderClosed (s : State) (p : Nat) : State :=
  if s.elder.en && s.elder.part.toNat = p then { s with elder := { s.elder with en := false }, regions := [] } else s

/-- What stays of a partition that becomes FREE: PART_CFG, the last session's number and transcript, and when its context numbers were freed. -/
def Part.freed (x : Part) : Part := { cfg := x.cfg, sid := x.sid, th := x.th, freedAt := x.freedAt }

/-- PARTITION_FREE (R31, R33, R409, R437, R466, R493): the last owned extent has replied and the last context is FREE.
(DESIGN CHOICE: log entry 29) -/
def execPartitionFree (part : Fin 64) (s : State) : Host.Outcome State Fault Refusal :=
  let p := part.val
  let x := s.part p
  if x.state = 3 && x.abortAt.isNone && (s.ctxsOf p).isEmpty && (s.extsOf p 1).isEmpty && (s.extsOf p 2).isEmpty && !s.closeDrains p true
      && !s.group.calls.any fun c => !c.create && (s.ext (c.xh.extractLsb' 0 18).toNat).owner.toNat = p then
    let s := (((s.noteFor (.partFree p)).elderClosed p).dropKeys p).endSession p 0 3
    let s := s.each (s.extsOf p 3) fun s i => s.modExt i fun x => { x with left := true }
    let s := s.setPart p x.freed
    let s := s.each (List.range 4) fun s m => s.modMbox (4 + 4 * p + m) fun b => { mseq := b.mseq }
    .next (s.wake (.partFree p))
  else .next s

end Sys2Proof.Machine
end

