-- ==== Sys2Proof/Machine/Cmds.lean ====
section
/-! DEFINITION. How Steward takes and runs a command (R411, R418, R426, R428, R432 to R434, R454), and its reads and writes of referenced
bytes (R433). -/
namespace Sys2Proof.Machine

/-! ### The form of a command -/

/-- Whether a command that names a confidential partition is permitted (R434): from any permitted origin, only from that partition's own
mailboxes, or never; a command that names no partition is `any`. (DEDUCED: log entry 46) -/
inductive ConfRule where
  | any | own | never
  deriving DecidableEq, Repr

/-- What R436 and the command's row give: the opcode, the origins, the confidential rule, the offset just past the last field of ARGS (which a COUNT may set), the
fields that are not reserved as (bit offset, width), the objects that ARGS name, and whether the command only reads, so that it writes nothing
through Warden. (DEDUCED: log entry 46) -/
structure CmdForm where
  op : Nat := 0
  admin : Bool := true
  part : Bool := false
  conf : ConfRule := .any
  len : Nat → Nat := fun _ => 0
  fields : List (Nat × Nat) := []
  names : Nat → List (Nat × Nat) := fun _ => []
  query : Bool := false

/-- The kinds of the objects that a command may name (R454). -/
def oPart : Nat := 0
def oCtx : Nat := 1
def oExt : Nat := 2
def oJob : Nat := 3
def oTile : Nat := 4
def oPort : Nat := 5
def oDie : Nat := 6
def oStack : Nat := 7

/-- The fields of ARGS given by bytes. -/
def bytesOf (l : List (Nat × Nat)) : List (Nat × Nat) := l.map fun f => (8 * f.1, 8 * f.2)

/-- The bits that a list of fields covers. (DEDUCED: log entry 46) -/
def fieldMask (l : List (Nat × Nat)) : Nat := l.foldl (fun m f => Nat.lor m ((2 ^ f.2 - 1) <<< f.1)) 0

/-- Whether the reserved bits of ARGS, up to a length, are zero. (DEDUCED: log entry 46) -/
def reservedZero (a len : Nat) (l : List (Nat × Nat)) : Bool := Nat.lor (a % 2 ^ (8 * len)) (fieldMask l) == fieldMask l

/-- What a command answers: the state after its effect, STATUS, DETAIL and RESULT, and what it still waits for; `again` says that it has
not run yet, because a referenced line must first come back from its owner. -/
structure Answer where
  st : State
  status : Nat := 0
  detail : Nat := 0
  result : Nat := 0
  waits : List Wait := []
  again : Bool := false

/-- A command that fails without effect. -/
def fail (s : State) (status : Nat) : Answer := { st := s, status := status }
/-- A command that replies OK. -/
def done (s : State) (result : Nat := 0) : Answer := { st := s, result := result }
/-- A command that replies when what it waits for has come. -/
def await (s : State) (waits : List Wait) (result : Nat := 0) : Answer := { st := s, waits := waits, result := result }

/-- Warden refuses a write (R428): WARDEN_REFUSED counts, WARDEN_LAST records it, and the command fails with the code in DETAIL. The
configuration-port address is a free value. (DEDUCED: log entry 46) -/
def refuse (s : State) (c : Cmd) (code status : Nat) : Answer :=
  let (v, s) := s.draw (2 ^ 32)
  { st := { s with stew := { s.stew with wardenCode := BitVec.ofNat 8 code, wardenToken := BitVec.ofNat 6 c.token
                                         wardenAddr := BitVec.ofNat 32 v } }.bump devBlk 6
    status := status, detail := code }

/-! ### The objects that a command names -/

/-- The members of a share record that are VALID. -/
def State.members (s : State) (i : Nat) : List Nat :=
  let x := s.ext i
  if x.shared then ((s.share x.shareRef.toNat).slots.filter (·.2.valid)).map (·.2.part.toNat) else []

/-- Whether a partition mailbox's own partition is that of a named object (R432 check 6): an extent that is FREE belongs to none. -/
def State.ownsName (s : State) (p : Nat) (n : Nat × Nat) : Bool :=
  match n.1 with
  | 0 => n.2 == p
  | 1 => n.2 / 1024 == p
  | 2 => (s.ext n.2).state == 0 || (s.ext n.2).owner.toNat == p || (s.members n.2).contains p
  | _ => true

/-- The commands in progress that were taken before a command. (DEDUCED: log entry 47) -/
def State.earlier (s : State) (c : Cmd) : List Cmd := s.cmds.takeWhile (·.token ≠ c.token)

/-- Whether a command must wait for an earlier one (R411, R454): one that names the same object; PARTITION_CLOSE waits for every earlier
command of its partition, and CONTEXT_DESTROY waits for no INVALIDATE_RANGE (R92). (DEDUCED: log entry 47; DESIGN CHOICE: log entry 45) -/
def State.blocked (s : State) (c : Cmd) : Bool :=
  (s.earlier c).any fun e =>
    !(c.opcode == 0x0113 && e.opcode == 0x0401)
      && (e.names.any c.names.contains || (c.opcode == 0x0104 && c.names.any fun n => s.cmdOf n.2 e))

/-- Whether PARTITION_CLOSE of a partition was taken before a command, of its mailboxes or an administrative one that names what is the partition's
(R454). (DEDUCED: log entry 47) -/
def State.closing (s : State) (c : Cmd) : Bool :=
  (c.mb.part.any fun p => (s.part p.val).state == 3)
    || (s.earlier c).any fun e => e.opcode == 0x0104 && e.names.any fun n => n.1 == oPart && s.cmdOf n.2 c

/-! ### The checks of every command (R432) -/

/-- The status of the first check of R432 and R434 that a command fails, or none. (DEDUCED: log entry 46) -/
def State.common (s : State) (f : CmdForm) (c : Cmd) (arglen a : Nat) : Option Nat :=
  let own := c.mb.part.map (·.val)
  let names := f.names a
  let conf := names.filterMap fun n => (s.partOfName n).filter fun p => decide (p < 64) && (s.part p).conf
  if s.stew.commit && !c.carried then some csBusy
  else if (own.isNone && !f.admin) || (own.isSome && !f.part) || (f.conf = .never && !conf.isEmpty)
    || (f.conf = .own && conf.any (fun p => own ≠ some p)) then some csDenied
  else if own.any (fun p => (s.part p).state == 4) && f.op ≠ 0x0103 && f.op ≠ 0x0104 then some csAborted
  else if arglen ≠ f.len a || !reservedZero a (f.len a) f.fields then some csBadArg
  else if own.any (fun p => names.any fun n => !s.ownsName p n) then some csDenied
  else if s.closing c then some csBadState
  else none

/-! ### Taking and running (R409, R411) -/

/-- The mailbox that Steward serves next: the administrative ones in order, then the partitions' in round robin after the one served last.
(DESIGN CHOICE: log entry 45) -/
def State.nextMb (s : State) : Option Nat :=
  (List.range 4 ++ (List.range 256).map fun i => 4 + (s.stew.lastMb + 1 + i) % 256).find? fun i => (s.mbox i).posted

/-- The lowest token that no command in progress holds. (DESIGN CHOICE: log entries 45, 84) -/
def State.freeToken (s : State) : Nat := ((List.range 64).find? fun t => !s.cmds.any (·.token = t)).getD 0

/-- A request taken: the intent is in the journal (R420), the mailbox is RUNNING, and the command gets its token and origin (R409, R426).
(DESIGN CHOICE: log entry 45) -/
def State.takeCmd (s : State) (mb : MbId) (names : Nat → List (Nat × Nat)) : Cmd × State :=
  let i := mb.idx
  let x := s.mbox i
  let c : Cmd := { token := s.freeToken, mb := mb, mseq := x.mseq, opcode := x.opcode, eid := x.eid, names := names x.args, deferred := true }
  (c, { s.note c.token .take with cmds := s.cmds ++ [c], stew := { s.stew with lastMb := if i < 4 then s.stew.lastMb else i - 4 } }.setMbox i
        { x with running := true })

/-- The answer of a command: it is posted at once when it waits for nothing; back-invalidations that it waits for begin. -/
def Answer.post (r : Answer) (c : Cmd) : State :=
  if r.again then r.st
  else
    let upd := fun (e : Cmd) => if e.token = c.token then
      { e with deferred := false, waits := r.waits, status := BitVec.ofNat 16 r.status, detail := BitVec.ofNat 16 r.detail
               result := BitVec.ofNat 1920 r.result } else e
    let s := { r.st with cmds := r.st.cmds.map upd }.postReady
    if r.waits.any fun w => match w with | .binv _ => true | .agents _ => true | _ => false then s.sweepAll else s

/-- A command's row with the intent of its writes through Warden in the journal before them (R420): one that fails, is still to run or only reads
writes nothing, and one entry stands for all that it writes at once. (DESIGN CHOICE: log entry 88) -/
def State.runBody (s : State) (f : CmdForm) (c : Cmd) (body : State → Cmd → Nat → Answer) (a : Nat) : Answer :=
  let r := body s c a
  if r.status = csOk && !r.again && !f.query then body (s.note c.token .write) c a else r

/-- A command run: the checks of R432 in order, the wait behind earlier commands, then the command's own row. (DESIGN CHOICE: log entry 45) -/
def State.runCmd (s : State) (f : CmdForm) (c : Cmd) (body : State → Cmd → Nat → Answer) : State :=
  let x := s.mbox c.mb.idx
  match s.common f c x.arglen x.args with
  | some st => (fail s st).post c
  | none => if s.blocked c then s else (s.runBody f c body x.args).post c

/-- The row of a command: Steward takes the request when it is the next one and fewer than 64 commands are in progress, or goes on with a
command of this mailbox that has not run yet. (DESIGN CHOICE: log entry 45) -/
def State.command (s : State) (f : CmdForm) (mb : MbId) (body : State → Cmd → Nat → Answer) : State :=
  if !s.stewardUp then s
  else match s.cmds.find? fun c => c.mb == mb && c.deferred with
    | some c => if c.opcode.toNat = f.op && (!s.stew.commit || s.stew.step = .swCarry) then s.runCmd f c body else s
    | none =>
      if s.nextMb = some mb.idx && (s.mbox mb.idx).opcode.toNat = f.op && s.cmds.length < 64 && s.stew.step ≠ .swWait then
        let (c, s) := s.takeCmd mb f.names
        s.runCmd f c body
      else s

/-- The outcome of a command's row. -/
def State.ran (s : State) (f : CmdForm) (mb : MbId) (body : State → Cmd → Nat → Answer) : Host.Outcome State Fault Refusal :=
  .next (s.command f mb body)

/-- The opcodes of R436. -/
def opcodes : List Nat :=
  [0x0101, 0x0102, 0x0103, 0x0104, 0x0111, 0x0112, 0x0113, 0x0201, 0x0202, 0x0203, 0x0204, 0x0205, 0x0206, 0x0207, 0x0208,
   0x0301, 0x0302, 0x0303, 0x0304, 0x0305, 0x0401, 0x0402, 0x0403, 0x0501, 0x0502, 0x0601, 0x0602, 0x0701, 0x0702, 0x0703, 0x0704]
  ++ [0x0801, 0x0802, 0x0803, 0x0804, 0x0805, 0x0901, 0x0902, 0x0903, 0x0A01, 0x0A02, 0x0A03, 0x0A04, 0x0A11, 0x0A12, 0x0A13, 0x0A14,
      0x0B01, 0x0B02, 0x0B03, 0x0B04, 0x0B05, 0x0B06, 0x0C01, 0x0C02, 0x0C03, 0x0D01, 0x0D02, 0x0E01, 0x0E02, 0x0E03, 0x0E04, 0x0E05]
  ++ [0x0F01, 0x0F02, 0x0F03, 0x1001, 0x1002]

/-- UNDEFINED_OPCODE_COMMAND (R432 checks 1 and 2): a request whose opcode is not defined replies BUSY during a commit, else BAD_OPCODE. -/
def execUndefinedOpcodeCommand (mb : MbId) (s : State) : Host.Outcome State Fault Refusal :=
  let op := (s.mbox mb.idx).opcode.toNat
  if s.stewardUp && !opcodes.contains op && s.nextMb = some mb.idx && s.cmds.length < 64 && s.stew.step ≠ .swWait then
    let (c, s) := s.takeCmd mb fun _ => []
    .next ((fail s (if s.stew.commit then csBusy else csBadOpcode)).post c)
  else .next s

/-! ### References (R433) -/

/-- What an access to referenced bytes gives: the bytes read, the status of the first access that failed, or that a line must first come
back from a cache. -/
inductive Got where
  | ok (bytes : List Byte)
  | failed (st : Status)
  | later
  deriving DecidableEq, Repr

/-- Whether a reference may be used by a command of a partition: its REF_CID is of that partition or of one that is not confidential.
(DEDUCED: log entry 48) -/
def State.refOk (s : State) (part : Option Nat) (r : Ref) : Bool :=
  part == some (r.cid / 1024) || !(s.part (r.cid / 1024)).conf

/-- The request for n bytes at a byte offset of a reference's extent. (DEDUCED: log entry 48; DESIGN CHOICE: log entry 19) -/
def State.refReq (s : State) (e : Eid) (r : Ref) (opc : Byte) (pos n : Nat) (d : Line) : Req :=
  let p : Packet := { src := e, dst := s.node.eid, cid := BitVec.ofNat 16 r.cid, opc := opc, xh := BitVec.ofNat 24 r.xh
                      offset := BitVec.ofNat 40 (pos - (if opc = oWrPartial then pos % 128 else 0)), blen := BitVec.ofNat 7 (n - 1)
                      opnd := byteMask (pos % 128) n, data := d }
  { pkt := p, org := .crit, ext := pktExt p, line := s.locate p, flow := 3 + r.cid / 1024, steward := true }

/-- What the directory has of a line that a reference reads or writes. -/
inductive Held1 where
  | clear      -- no agent's copy stands in the way
  | orphan     -- ORPHANED (R134)
  | busy       -- a transaction is open on it, or it is reserved: RETRY (R119)
  | held       -- an agent must give its copy up first
  deriving DecidableEq, Repr

/-- Whether the directory must act before a line can be read (an owner holds it) or, for a write, before it can be written (any agent holds
it). (DEDUCED: log entry 48) -/
def State.lineHeld (s : State) (l : Nat) (write : Bool) : Held1 :=
  let x := s.slice (lineQuad l)
  if x.resv.any (·.line = l) then .busy
  else match x.find l with
  | none => .clear
  | some w =>
    let e := x.way w
    if e.opn then .busy
    else if e.state = 4 then .orphan
    else if e.state = 2 || e.state = 3 || (write && e.state = 1) then .held else .clear

/-- What a reference does about a line that is not clear: HOST_LOST for an ORPHANED line (R134), a RETRY that COH_NACK counts (R144), or a
transaction that fetches the copy back. (DEDUCED: log entry 48) -/
def State.unheld (s : State) (q : Req) (k : Held1) : Got × State :=
  match k with
  | .orphan => (.failed stHostLost, s)
  | .held => (.later, s.dirRequest q)
  | _ => (.later, s.bump (sliceBlk (lineQuad q.line)) 0)

/-- The bytes [lo, lo + n) of a line. -/
def cutLine (d : Line) (lo n : Nat) : List Byte := ((lineBytes d).drop lo).take n

/-- Up to one line of referenced bytes read at the memory stage, at once, when the line's stack and channel serve it; what the DRAM pins add is a
free value. A read that R223 denies is denied before a failed channel is looked at: the spec does not say which comes first.
(DEDUCED: log entry 48; DESIGN CHOICE: log entries 9, 15, 93) -/
def State.refRead1 (s : State) (e : Eid) (r : Ref) (pos n : Nat) : Got × State :=
  let q := s.refReq e r oRdOnce pos n 0
  let x := s.ext q.ext
  match (if 2 ^ 40 ≤ pos then some stDenied else s.msCheck q.pkt (some e) false) with
  | some st => (if st = stRetry then .later else .failed st, s)
  | none =>
    if x.combine && !s.combOk x q.pkt then (.failed stDenied, s)
    else if s.lineFailed q.line then
      if (x.mirror || x.parity) && s.redundant x then
        (.ok (cutLine (Config.stale s.fresh 4 q.line) (pos % 128) n), { s with fresh := s.fresh + 1 })
      else (.failed stUncorrectable, s)
    else if s.lineWaits q.line then (.later, s)
    else
      let s := if x.coherent then s.meetLine (lineQuad q.line) q.line else s
      let k := if x.coherent then s.lineHeld q.line false else .clear
      if k ≠ .clear then s.unheld q k
      else match (s.useRow q.line).readAt q (Config.pins s.now q.line).1 (Config.pins s.now q.line).2 with
        | (.ok d, s) => (.ok (cutLine (if x.combine then s.combView q d else d) (pos % 128) n), s)
        | (.error st, s) => (.failed st, s)

/-- Up to one line of referenced bytes written at the memory stage, when the line's stack and channel serve it; a contribution to a COMBINE extent
goes the way of every other, counted in flight (R47). (DEDUCED: log entry 48; DESIGN CHOICE: log entries 9, 15) -/
def State.refWrite1 (s : State) (e : Eid) (r : Ref) (pos : Nat) (bytes : List Byte) : Got × State :=
  let n := bytes.length
  let q := s.refReq e r oWrPartial pos n (BitVec.ofNat 1024 (ofLe bytes <<< (8 * (pos % 128))))
  let x := s.ext q.ext
  match (if 2 ^ 40 ≤ pos then some stDenied else s.msCheck q.pkt (some e) false) with
  | some st => (if st = stRetry then .later else .failed st, s)
  | none =>
    if x.combine then (if s.combOk x q.pkt then (.ok [], (s.enter q).2.combine (s.enter q).1) else (.failed stDenied, s))
    else if s.lineFailed q.line then
      if (x.mirror || x.parity) && s.redundant x then (.ok [], s.toDram { q with act := .part q.pkt.opnd q.pkt.data })
      else (.failed stUncorrectable, s)
    else if s.lineWaits q.line then (.later, s)
    else
      let s := if x.coherent then s.meetLine (lineQuad q.line) q.line else s
      let k := if x.coherent then s.lineHeld q.line true else .clear
      if k ≠ .clear then s.unheld { q with pkt := { q.pkt with opnd := 0 } } k
      else match (s.useRow q.line).readAt q (Config.pins s.now q.line).1 (Config.pins s.now q.line).2 with
        | (.ok old, s) =>
          let new := mergeBytes q.pkt.opnd old q.pkt.data
          (.ok [], (s.storeLine q.line new x.key (s.reqTweak q)).endFwd { q with org := .crit } old new)
        | (.error st, s) => (.failed st, s)

/-- How many bytes of `left` lie in the line of a position. -/
def inLine (pos left : Nat) : Nat := min left (128 - pos % 128)

/-- Referenced bytes read line by line: the number of lines, the position, and the bytes left. (DEDUCED: log entry 48) -/
def State.refRead (s : State) (e : Eid) (r : Ref) : Nat → Nat → Nat → Got × State
  | 0, _, _ => (.ok [], s)
  | k + 1, pos, left =>
    if left = 0 then (.ok [], s)
    else match s.refRead1 e r pos (inLine pos left) with
      | (.ok b, s) => match s.refRead e r k (pos + inLine pos left) (left - inLine pos left) with
        | (.ok l, s) => (.ok (b ++ l), s)
        | x => x
      | x => x

/-- Whether every line of referenced bytes could be written now: the first line that could not, with what its access brings about, none of the
others being touched, because a command that does not reply OK has no effect (R432). (DEDUCED: log entry 48) -/
def State.refPlan (s : State) (e : Eid) (r : Ref) : Nat → Nat → List Byte → Got × State
  | 0, _, _ => (.ok [], s)
  | k + 1, pos, l =>
    if l.isEmpty then (.ok [], s)
    else match s.refWrite1 e r pos (l.take (inLine pos l.length)) with
      | (.ok _, _) => s.refPlan e r k (pos + inLine pos l.length) (l.drop (inLine pos l.length))
      | x => x

/-- Referenced bytes written line by line. (DEDUCED: log entry 48) -/
def State.refWrite (s : State) (e : Eid) (r : Ref) : Nat → Nat → List Byte → Got × State
  | 0, _, _ => (.ok [], s)
  | k + 1, pos, l =>
    if l.isEmpty then (.ok [], s)
    else match s.refWrite1 e r pos (l.take (inLine pos l.length)) with
      | (.ok _, s) => s.refWrite e r k (pos + inLine pos l.length) (l.drop (inLine pos l.length))
      | x => x

/-- A command that goes on with the bytes of a reference: a REF_CID that is not allowed is refused by Warden (R427), and a failed access ends the command with
RANGE_READ_FAILED and the completion status. (DEDUCED: log entry 48) -/
def withRef (s : State) (c : Cmd) (part : Option Nat) (r : Ref) (len : Nat) (go : State → List Byte → Answer) : Answer :=
  if !s.refOk part r then refuse s c wConf csDenied
  else match s.refRead c.eid r (len / 128 + 2) r.off len with
    | (.ok b, s) => go s b
    | (.failed st, s) => { st := s, status := csRangeRead, detail := st.toNat }
    | (.later, s) => { st := s, again := true }

/-- A command that writes bytes at a reference and then replies; a REF_CID that is not allowed is refused by Warden (R427).
(DEDUCED: log entry 48) -/
def putRef (s : State) (c : Cmd) (part : Option Nat) (r : Ref) (bytes : List Byte) (go : State → Answer) : Answer :=
  if !s.refOk part r then refuse s c wConf csDenied
  else match s.refPlan c.eid r (bytes.length / 128 + 2) r.off bytes with
    | (.failed st, s) => { st := s, status := csRangeRead, detail := st.toNat }
    | (.later, s) => { st := s, again := true }
    | (.ok _, _) => go (s.refWrite c.eid r (bytes.length / 128 + 2) r.off bytes).2

/-- The partition of a command: that of its mailbox, or the one it names. -/
def Cmd.ofPart (c : Cmd) (named : Option Nat) : Option Nat := match c.mb.part with | some p => some p.val | none => named

end Sys2Proof.Machine
end

