-- ==== Sys2Proof/Machine/Parts.lean ====
section
/-! DEFINITION. The commands of partitions and contexts (R31 to R40, R437). -/
namespace Sys2Proof.Machine

/-! ### Register values -/

/-- Whether PART_CFG, PART_ADMIT and PART_SHAPE have values that Warden accepts (R34, R278, R406). -/
def cfgOk (v : Nat) : Bool := v < 2 ^ 32 && bitsOf v 2 11 ≤ 1024 && bitsOf v 13 19 ≤ 261120
def admitOk (v : Nat) : Bool := v < 2 ^ 25
def shapeOk (v : Nat) : Bool := v < 2 ^ 8
/-- Whether a notification target is accepted, its partition's CONF apart (R412). -/
def ntfOk (v : Nat) : Bool := v < 2 ^ 14 && (if v.testBit 1 then bitsOf v 2 12 ≠ 0 else bitsOf v 2 12 ≠ 0xFFF)

/-! ### Partitions -/

/-- PARTITION_CREATE. (DESIGN CHOICE: log entry 50) -/
def createForm : CmdForm :=
  { op := 0x0101, len := fun _ => 40, fields := bytesOf [(0, 1), (8, 8), (16, 8), (24, 8), (32, 8)], names := fun a => [(oPart, arg a 0 1)] }

/-- The partition that PARTITION_CREATE makes. -/
def Part.opened (x : Part) (cfg adm shape ntf : Nat) : Part :=
  { x with state := 1, cause := 0, done := false, cfg := BitVec.ofNat 64 cfg, admCfg := BitVec.ofNat 64 adm
           shape := BitVec.ofNat 64 shape, ntf := BitVec.ofNat 64 ntf }

/-- PARTITION_CREATE's row: PART is FREE; the four registers are written and the partition is OPEN. -/
def partitionCreate (s : State) (c : Cmd) (a : Nat) : Answer :=
  let p := arg a 0 1
  let cfg := arg a 8 8; let adm := arg a 16 8; let sh := arg a 24 8; let ntf := arg a 32 8
  if 64 ≤ p then fail s csBadArg
  else if (s.part p).state ≠ 0 then fail s csBadState
  else if !(cfgOk cfg && admitOk adm && shapeOk sh && ntfOk ntf) then refuse s c wStructure csBadArg
  else if cfg.testBit 0 && ntf.testBit 1 then refuse s c wConf csDenied
  else done (s.modPart p fun x => x.opened cfg adm sh ntf)

/-- PARTITION_CREATE (R437). -/
def execPartitionCreate (mb : MbId) (s : State) : Host.Outcome State Fault Refusal := s.ran createForm mb partitionCreate

/-- PARTITION_ARM. -/
def armForm : CmdForm :=
  { op := 0x0102, part := true, conf := .own, len := fun _ => 1, fields := bytesOf [(0, 1)], names := fun a => [(oPart, arg a 0 1)] }

/-- PARTITION_ARM's row: OPEN, and with CONF a session is established (R467); the partition is ARMED. -/
def partitionArm (s : State) (_ : Cmd) (a : Nat) : Answer :=
  let p := arg a 0 1
  let x := s.part p
  if 64 ≤ p then fail s csBadArg
  else if x.state ≠ 1 || (x.conf && x.sess ≠ 1) then fail s csBadState
  else done (s.setPart p { x with state := 2 })

/-- PARTITION_ARM (R437). -/
def execPartitionArm (mb : MbId) (s : State) : Host.Outcome State Fault Refusal := s.ran armForm mb partitionArm

/-- PARTITION_RECOVER. -/
def recoverForm : CmdForm :=
  { op := 0x0103, part := true, conf := .never, len := fun _ => 1, fields := bytesOf [(0, 1)], names := fun a => [(oPart, arg a 0 1)] }

/-- PARTITION_RECOVER's row: ABORTED; every context that is not FREE is IDLE, and the partition is OPEN. One that comes before DONE runs when
the abort has ended. (DESIGN CHOICE: log entry 49) -/
def partitionRecover (s : State) (_ : Cmd) (a : Nat) : Answer :=
  let p := arg a 0 1
  let x := s.part p
  if 64 ≤ p then fail s csBadArg
  else if x.state ≠ 4 then fail s csBadState
  else if !x.done then { st := s, again := true }
  else done ((s.each (s.ctxsOf p) fun s c => s.modCtx c fun e => { e with state := 1 }).setPart p { x with state := 1, cause := 0, done := false })

/-- PARTITION_RECOVER (R437). -/
def execPartitionRecover (mb : MbId) (s : State) : Host.Outcome State Fault Refusal := s.ran recoverForm mb partitionRecover

/-- The records of a partition that have not been posted are discarded (R168): parked engines unpark and ending jobs go on. -/
def State.dropRecords (s : State) (p : Nat) : State :=
  let s := s.modPart p fun x => { x with overflow := [], held := [] }
  s.each s.tileList fun s n =>
    let s := match (s.tile n).pend with
      | some (_, r) => if cidPart r.cid = p then s.unpark n else s
      | none => s
    s.each ((s.tile n).slots.filter fun k => (s.job n k).part = p && (s.job n k).frec.isSome && !(s.job n k).recPosted) fun s k =>
      (s.modJob n k fun j => { j with recPosted := true }).tryEnd n k

/-- A member slot of a share record cleared (R50, R139): the extent's phase drains, a COHERENT extent's lines are back-invalidated, and with the
last slot the record is freed. -/
def State.clearSlot (s : State) (i k : Nat) : List Wait × State :=
  let x := s.ext i
  let sh := s.share x.shareRef.toNat
  let slots := tput {} sh.slots k {}
  let s := if slots.any (·.2.valid) then s.setShare x.shareRef.toNat { sh with slots := slots }
    else (s.setShare x.shareRef.toNat {}).setExt i { x with shared := false, shareRef := 0 }
  let (w, s) := s.drainExt i
  (if x.coherent then .binv i :: w else w, s)

/-- The slots of other owners' share records that a partition is a member of. -/
def State.slotsOf (s : State) (p : Nat) : List (Nat × Nat) :=
  (s.exts.filter fun e => e.2.shared && e.2.owner.toNat ≠ p).flatMap fun e =>
    ((s.share e.2.shareRef.toNat).slots.filter fun k => k.2.valid && k.2.part.toNat = p).map fun k => (e.1, k.1)

/-- Each of a list of slots cleared. -/
def State.clearSlots (s : State) : List (Nat × Nat) → List Wait × State
  | [] => ([], s)
  | e :: r =>
    let (a, s) := s.clearSlot e.1 e.2
    let (b, s) := s.clearSlots r
    (a ++ b, s)

/-- PARTITION_CLOSE. -/
def closeForm : CmdForm :=
  { op := 0x0104, part := true, len := fun _ => 1, fields := bytesOf [(0, 1)], names := fun a => [(oPart, arg a 0 1)] }

/-- PARTITION_CLOSE's row: OPEN, ARMED or ABORTED; the partition is CLOSING, its unposted records are discarded and its member slots cleared;
the further steps follow as each ends (State.closeStep), and the reply comes when the partition is FREE.
(DEDUCED: log entry 47; DESIGN CHOICE: log entry 29) -/
def partitionClose (s : State) (_ : Cmd) (a : Nat) : Answer :=
  let p := arg a 0 1
  let st := (s.part p).state
  if 64 ≤ p then fail s csBadArg
  else if st = 0 || st = 3 then fail s csBadState
  else
    let s := (s.modPart p fun x => { x with state := 3 }).dropRecords p
    let n := (s.extsOf p 1).length
    let (w, s) := s.clearSlots (s.slotsOf p)
    let wait := w.any fun x => match x with | .phase _ _ => true | _ => false
    await (if wait then s else s.closeStep p) (.partFree p :: w) n

/-- PARTITION_CLOSE (R437). -/
def execPartitionClose (mb : MbId) (s : State) : Host.Outcome State Fault Refusal := s.ran closeForm mb partitionClose

/-! ### Contexts -/

/-- The fields of a context entry from ENTRY and PT_ROOT of the commands (R37). -/
def Ctx.write (x : Ctx) (entry root : Nat) (active : Bool) : Ctx :=
  { x with state := if active then 2 else 1, eidMatch := BitVec.ofNat 12 (bitsOf entry 18 12), eidMask := BitVec.ofNat 12 (bitsOf entry 30 12)
           cls := BitVec.ofNat 2 (bitsOf entry 42 2), hostPt := entry.testBit 44, ptRoot := BitVec.ofNat 48 root }

/-- Whether ENTRY is accepted: CID, STATE and the reserved bits are zero. -/
def entryOk (entry : Nat) : Bool := bitsOf entry 0 18 == 0 && entry < 2 ^ 45

/-- The least recently freed context number of a partition, the lowest of several (R40): the entry's number and when it became FREE. -/
def State.oldestCtx (s : State) (p : Nat) : Option (Nat × Nat) :=
  (List.range 1024).foldl (fun b k =>
    if (s.ctx (1024 * p + k)).state ≠ 0 then b
    else
      let t := tget 0 (s.part p).freedAt k
      match b with
      | none => some (k, t)
      | some (_, u) => if t < u then some (k, t) else b) none

/-- CONTEXT_CREATE. -/
def ctxCreateForm : CmdForm :=
  { op := 0x0111, part := true, conf := .own, len := fun _ => 24, fields := [(0, 8), (8, 1), (64, 64), (128, 48)]
    names := fun a => [(oPart, arg a 0 1)] }

/-- CONTEXT_CREATE's row (R36, R40, R74). -/
def contextCreate (s : State) (c : Cmd) (a : Nat) : Answer :=
  let p := arg a 0 1
  let x := s.part p
  let entry := arg a 8 8
  if 64 ≤ p then fail s csBadArg
  else if x.state ≠ 1 && x.state ≠ 2 then fail s csBadState
  else if !entryOk entry then refuse s c wStructure csBadArg
  else if x.conf && entry.testBit 44 then refuse s c wConf csDenied
  else if x.maxCtx ≤ s.partContexts p then refuse s c wQuota csQuota
  else if 8192 ≤ (s.ctxs.filter (·.2.state ≠ 0)).length then refuse s c wCapacity csTableFull
  else match s.oldestCtx p with
    | none => fail s csTableFull
    | some (k, t) =>
      if t ≠ 0 && s.ftNs + 1 < t + 10000000 then fail s csTableFull
      else done (s.setCtx (1024 * p + k) (({} : Ctx).write entry (arg a 16 6) ((arg a 1 1).testBit 0))) (1024 * p + k)

/-- CONTEXT_CREATE (R437). -/
def execContextCreate (mb : MbId) (s : State) : Host.Outcome State Fault Refusal := s.ran ctxCreateForm mb contextCreate

/-- CONTEXT_SET. -/
def ctxSetForm : CmdForm :=
  { op := 0x0112, part := true, conf := .own, len := fun _ => 24, fields := [(0, 16), (16, 1), (64, 64), (128, 48)]
    names := fun a => [(oCtx, arg a 0 2)] }

/-- Whether some job of a context is not FREE. -/
def State.ctxJobs (s : State) (cid : Nat) : Bool := s.tileList.any fun n => (s.tile n).slots.any fun k => (s.job n k).cid.toNat == cid

/-- CONTEXT_SET's row: IDLE or ACTIVE; a change to IDLE requires every job FREE; a change of PT_ROOT removes what the walkers hold (R78). A walk in
progress goes on: the spec does not say what becomes of it, and here it ends its page in the old table and caches what it still reads there.
(DESIGN CHOICE: log entry 93) -/
def contextSet (s : State) (c : Cmd) (a : Nat) : Answer :=
  let cid := arg a 0 2
  let x := s.ctx cid
  let entry := arg a 8 8
  let active := (arg a 2 1).testBit 0
  if x.state ≠ 1 && x.state ≠ 2 then fail s csBadState
  else if x.state = 2 && !active && s.ctxJobs cid then fail s csBadState
  else if !entryOk entry then refuse s c wStructure csBadArg
  else if (s.part (cid / 1024)).conf && entry.testBit 44 then refuse s c wConf csDenied
  else
    let y := x.write entry (arg a 16 6) active
    done (if y.ptRoot ≠ x.ptRoot || y.hostPt ≠ x.hostPt then (s.setCtx cid y).purge fun e => e.cid.toNat == cid else s.setCtx cid y)

/-- CONTEXT_SET (R437). -/
def execContextSet (mb : MbId) (s : State) : Host.Outcome State Fault Refusal := s.ran ctxSetForm mb contextSet

/-- CONTEXT_DESTROY. -/
def ctxDestroyForm : CmdForm :=
  { op := 0x0113, part := true, len := fun _ => 2, fields := bytesOf [(0, 2)], names := fun a => [(oCtx, arg a 0 2)] }

/-- CONTEXT_DESTROY's row: IDLE or ACTIVE; the reply comes when the entry is FREE (R39). (DEDUCED: log entry 47) -/
def contextDestroy (s : State) (_ : Cmd) (a : Nat) : Answer :=
  let cid := arg a 0 2
  let x := s.ctx cid
  if x.state ≠ 1 && x.state ≠ 2 then fail s csBadState
  else await (s.retire cid) [.ctxFree cid]

/-- CONTEXT_DESTROY (R437). -/
def execContextDestroy (mb : MbId) (s : State) : Host.Outcome State Fault Refusal := s.ran ctxDestroyForm mb contextDestroy

end Sys2Proof.Machine
end

