-- ==== Sys2Proof/Machine/Exts.lean ====
section
/-! DEFINITION. The commands of extents, sharing and pool groups (R43 to R67, R438, R439). -/
namespace Sys2Proof.Machine

/-! ### Allocation (R51 to R53, R56) -/

/-- The stack list of an extent (R52). -/
def State.stacksFor (s : State) (stripe homeq : Nat) : List Nat :=
  if stripe = 0 then s.stackList.filter fun n => n / 2 == homeq
  else if stripe = 1 then s.stackList.filter fun n => n / 4 == homeq % 2
  else s.stackList

/-- The free granules of a stack in the order in which they are taken: groups 0 to 2, then group 3 (R371). (DEDUCED: log entry 26) -/
def State.freeGrans (s : State) (n : Nat) : List Nat := ((List.range 32768).map fun i => n * 32768 + i).filter s.granFree

/-- How many granules of a stack extents hold. -/
def State.heldGrans (s : State) (n : Nat) : Nat := (s.rmap.filter fun e => e.2.held && granStack e.1 = n).length

/-- The positions in a stack list of the stacks with the fewest held granules: START is one of them (R52). (DESIGN CHOICE: log entry 50) -/
def State.startChoices (s : State) (l : List Nat) : List Nat :=
  let low := l.foldl (fun m n => min m (s.heldGrans n)) 262144
  (List.range l.length).filter fun i => s.heldGrans (l.getD i 0) == low

/-- The granules that an extent's stack at a position of the list takes: how many of `size` fall on it. -/
def shareOf (size n start pos : Nat) : Nat := ((List.range size).filter fun i => (start + i) % n = pos).length

/-- The granules of an extent in order: granule i is the next one of its stack (R52). (DEDUCED: log entry 26) -/
def placeGrans (lists : List (List Nat)) (n start : Nat) (size : Nat) : List Nat :=
  (List.range size).map fun i => (lists.getD ((start + i) % n) []).getD (i / n) 0

/-- The map entries that extents hold, as (base, count). -/
def State.mapUsed (s : State) : List (Nat × Nat) := (s.exts.filter (·.2.state ≠ 0)).map fun e => (e.2.mapBase.toNat, e.2.localSize)

/-- The lowest-numbered range of consecutive free map entries (R51): it begins at 0 or where a used range ends. -/
def State.mapFree (s : State) (size : Nat) : Option Nat :=
  let used := s.mapUsed
  ((0 :: used.map fun r => r.1 + r.2).filter fun b =>
    decide (b + size ≤ 262144) && used.all fun r => decide (b + size ≤ r.1) || decide (r.1 + r.2 ≤ b)).foldl
      (fun m b => match m with | none => some b | some c => some (min c b)) none

/-- Whether an extent index lies in the range of the pool group (R59). -/
def State.inGroup (s : State) (i : Nat) : Bool :=
  s.group.on && decide (s.group.xbase.toNat ≤ i) && decide (i < s.group.xbase.toNat + s.group.xcount)

/-- The least recently freed index, the lowest of several, of those that a test allows (R56). (DESIGN CHOICE: log entry 50) -/
def State.freeIdx (s : State) (ok : Nat → Bool) : Option Nat :=
  ((List.range 262144).foldl (fun (b : Option (Nat × Nat)) i =>
    if (s.ext i).state ≠ 0 || !ok i then b
    else match b with
      | none => some (i, (s.ext i).freedAt)
      | some (_, u) => if (s.ext i).freedAt < u then some (i, (s.ext i).freedAt) else b) none).map (·.1)

/-- The lowest-numbered free combine, protection and share records. -/
def State.freeComb (s : State) : Option Nat := (List.range 4096).find? fun i => !(s.comb i).used
def State.freeProt (s : State) : Option Nat := (List.range 16384).find? fun i => !(s.prot i).used
def State.freeShare (s : State) : Option Nat := (List.range 4096).find? fun i => !(s.share i).used

/-- The map and reverse map of an extent's granules written (R51). (DEDUCED: log entry 26) -/
def State.mapGrans (s : State) (idx base : Nat) : Nat → List Nat → State
  | _, [] => s
  | i, g :: r =>
    ((s.setGranule (base + i) (BitVec.ofNat 19 g)).setRmapE g
      { ext := BitVec.ofNat 18 idx, pos := BitVec.ofNat 18 i, held := true }).mapGrans idx base (i + 1) r

/-- The arguments of EXTENT_CREATE and GROUP_EXTENT_CREATE. -/
structure CreateArgs where
  part : Nat
  coherent : Bool := false
  combine : Bool := false
  mirror : Bool := false
  parity : Bool := false
  pwidth : Bool := false
  slots : Nat := 0
  rights : Nat
  stripe : Nat
  homeq : Nat
  size : Nat

/-- The extent entry that a create writes, without its place. -/
def CreateArgs.ext (v : CreateArgs) (conf : Bool) : Ext :=
  { state := 1, owner := BitVec.ofNat 6 v.part, conf := conf, coherent := v.coherent, combine := v.combine, mirror := v.mirror, parity := v.parity
    pwidth := v.pwidth, rights := BitVec.ofNat 12 v.rights, stripe := BitVec.ofNat 2 v.stripe, homeq := BitVec.ofNat 2 v.homeq
    size := BitVec.ofNat 18 v.size }

/-- The entry written with its key (R44) and record: the granule map first, then the entry (R425). -/
def State.writeExt (s : State) (idx base : Nat) (e : Ext) (grans : List Nat) (start : Nat) : State :=
  let old := s.ext idx
  let s := s.mapGrans idx base 0 grans
  let ref := (if e.combine then s.freeComb else if e.mirror || e.parity then s.freeProt else some 0).getD 0
  let s := if e.combine then s.setComb ref { used := true } else s
  { s with fresh := s.fresh + 1 }.setExt idx { e with
    gen := old.gen, start := BitVec.ofNat 3 start, mapBase := BitVec.ofNat 18 base, protRef := BitVec.ofNat 14 ref
    keyslot := BitVec.ofNat 18 idx, key := some s.fresh, freedAt := old.freedAt }

/-- The checks of R53 in order and the create, with Warden's refusal of a protected extent of a confidential partition (R45, R427): the answer's RESULT is the handle and, in byte 3, START. (DESIGN CHOICE: log entry 11) -/
def State.createExt (s : State) (c : Cmd) (v : CreateArgs) (ok : Nat → Bool) : Answer :=
  let x := s.part v.part
  let l := s.stacksFor v.stripe v.homeq
  let e := v.ext x.conf
  if 64 ≤ v.part then fail s csBadArg
  else if (x.state ≠ 1 && x.state ≠ 2) || (x.conf && x.sess ≠ 1) then fail s csBadState
  else if x.conf && (v.mirror || v.parity) then refuse s c wConf csDenied
  else if (v.coherent && v.combine) || v.stripe = 3 || v.size = 0 || 261120 < v.size then refuse s c wStructure csBadArg
  else if l.isEmpty then fail s csBadArg
  else if x.quota < s.partGranules v.part + e.localSize then refuse s c wQuota csQuota
  else
    let (k, s1) := s.draw (s.startChoices l).length
    let start := (s.startChoices l).getD k 0
    let n := l.length
    let lists := l.map s.freeGrans
    if (List.range n).any fun pos => decide ((lists.getD pos []).length < shareOf e.localSize n start pos) then fail s csNoMemory
    else match s.freeIdx ok, s.mapFree e.localSize with
      | some idx, some base =>
        if (v.combine && s.freeComb.isNone) || ((v.mirror || v.parity) && s.freeProt.isNone) then refuse s c wCapacity csTableFull
        else
          let s2 := s1.writeExt idx base e (placeGrans lists n start e.localSize) start
          done s2 ((s2.ext idx).handle idx + start * 2 ^ 24)
      | _, _ => refuse s c wCapacity csTableFull

/-- EXTENT_CREATE. -/
def extCreateForm : CmdForm :=
  { op := 0x0201, part := true, conf := .own, len := fun _ => 12, fields := [(0, 8), (8, 2), (16, 12), (32, 4), (64, 32)]
    names := fun a => [(oPart, arg a 0 1)] }

/-- EXTENT_CREATE's row (R53). (DESIGN CHOICE: log entry 50) -/
def extentCreate (s : State) (c : Cmd) (a : Nat) : Answer :=
  s.createExt c { part := arg a 0 1, coherent := (arg a 1 1).testBit 0, combine := (arg a 1 1).testBit 1, rights := bitsOf a 16 12
                  stripe := bitsOf a 32 2, homeq := bitsOf a 34 2, size := arg a 8 4 } fun i => !s.inGroup i

/-- EXTENT_CREATE (R438). -/
def execExtentCreate (mb : MbId) (s : State) : Host.Outcome State Fault Refusal := s.ran extCreateForm mb extentCreate

/-! ### Handles -/

/-- The extent index and generation of a handle in ARGS. -/
def xhIdx (xh : Nat) : Nat := xh % 262144
def xhGen (xh : Nat) : BitVec 6 := BitVec.ofNat 6 (xh / 262144)

/-- Whether a handle names an ACTIVE extent of its generation. -/
def State.live (s : State) (xh : Nat) : Bool := (s.ext (xhIdx xh)).state == 1 && (s.ext (xhIdx xh)).gen == xhGen xh

/-- Whether a command's origin is administrative or the owner's mailbox. -/
def State.byOwner (s : State) (c : Cmd) (idx : Nat) : Bool :=
  match c.mb.part with
  | none => true
  | some p => (s.ext idx).owner.toNat == p.val

/-- EXTENT_REVOKE. -/
def extRevokeForm : CmdForm :=
  { op := 0x0202, part := true, len := fun _ => 3, fields := bytesOf [(0, 3)], names := fun a => [(oExt, xhIdx (arg a 0 3))] }

/-- EXTENT_REVOKE's row (R54, R55). -/
def extentRevoke (s : State) (c : Cmd) (a : Nat) : Answer :=
  let xh := arg a 0 3
  let i := xhIdx xh
  let x := s.ext i
  if x.state ≠ 0 && !s.byOwner c i then fail s csDenied
  else if !s.live xh then fail s csBadState
  else if x.mirror || x.parity then fail s csBadArg
  else await (s.startRevoke i) [.revoke i]

/-- EXTENT_REVOKE (R54). -/
def execExtentRevoke (mb : MbId) (s : State) : Host.Outcome State Fault Refusal := s.ran extRevokeForm mb extentRevoke

/-! ### Sharing (R48 to R50) -/

/-- The member slot of a partition in an extent's share record, VALID. -/
def State.slotOf (s : State) (i p : Nat) : Option (Nat × ShareSlot) :=
  let x := s.ext i
  if x.shared then (s.share x.shareRef.toNat).slots.find? fun k => k.2.valid && k.2.part.toNat == p else none

/-- EXTENT_SHARE_OFFER. -/
def offerForm : CmdForm :=
  { op := 0x0203, admin := false, part := true, conf := .never, len := fun _ => 8, fields := [(0, 24), (32, 8), (48, 12)]
    names := fun a => [(oExt, xhIdx (arg a 0 3))] }

/-- EXTENT_SHARE_OFFER's row: the lowest free share record for a first offer, and the lowest free slot, without consent. -/
def extentShareOffer (s : State) (c : Cmd) (a : Nat) : Answer :=
  let xh := arg a 0 3
  let i := xhIdx xh
  let x := s.ext i
  let m := arg a 4 1
  let y := s.part m
  let slot : ShareSlot := { part := BitVec.ofNat 6 m, valid := true, rights := BitVec.ofNat 12 (arg a 6 2) }
  if x.state ≠ 0 && !s.byOwner c i then fail s csDenied
  else if 64 ≤ m then fail s csBadArg
  else if !s.live xh || x.mirror || x.parity then fail s csBadState
  else if y.conf && y.state ≠ 0 then refuse s c wOwnership csDenied
  else if (y.state ≠ 1 && y.state ≠ 2) || x.owner.toNat = m || (s.slotOf i m).isSome then fail s csBadState
  else if x.shared then
    let r := s.share x.shareRef.toNat
    match (List.range 7).find? fun k => !(tget {} r.slots k).valid with
    | some k => done (s.setShare x.shareRef.toNat { r with slots := tput {} r.slots k slot }) k
    | none => refuse s c wCapacity csTableFull
  else match s.freeShare with
    | some r => done ((s.setShare r { used := true, slots := tput {} [] 0 slot }).setExt i { x with shared := true, shareRef := BitVec.ofNat 12 r }) 0
    | none => refuse s c wCapacity csTableFull

/-- EXTENT_SHARE_OFFER (R438). -/
def execExtentShareOffer (mb : MbId) (s : State) : Host.Outcome State Fault Refusal := s.ran offerForm mb extentShareOffer

/-- The partition of a command's own mailbox. -/
def Cmd.own (c : Cmd) : Nat := (c.mb.part.map (·.val)).getD 64

/-- EXTENT_SHARE_ACCEPT. -/
def acceptForm : CmdForm :=
  { op := 0x0204, admin := false, part := true, conf := .never, len := fun _ => 3, fields := bytesOf [(0, 3)]
    names := fun a => [(oExt, xhIdx (arg a 0 3))] }

/-- EXTENT_SHARE_ACCEPT's row: Warden sets CONSENT of the member's own slot (R426). -/
def extentShareAccept (s : State) (c : Cmd) (a : Nat) : Answer :=
  let xh := arg a 0 3
  let i := xhIdx xh
  match (if s.live xh then s.slotOf i c.own else none) with
  | some (k, y) =>
    if y.consent then fail s csBadState
    else done (s.modShare (s.ext i).shareRef.toNat fun r => { r with slots := tput {} r.slots k { y with consent := true } })
  | none => fail s csBadState

/-- EXTENT_SHARE_ACCEPT (R438). -/
def execExtentShareAccept (mb : MbId) (s : State) : Host.Outcome State Fault Refusal := s.ran acceptForm mb extentShareAccept

/-- EXTENT_SHARE_WITHDRAW. -/
def withdrawForm : CmdForm :=
  { op := 0x0205, admin := false, part := true, conf := .never, len := fun _ => 3, fields := bytesOf [(0, 3)]
    names := fun a => [(oExt, xhIdx (arg a 0 3))] }

/-- A slot cleared for a command, which replies when the old phase and the back-invalidations have ended (R50, R139). -/
def unslot (s : State) (xh m : Nat) : Answer :=
  let i := xhIdx xh
  match (if s.live xh then s.slotOf i m else none) with
  | some (k, _) =>
    let (w, s) := s.clearSlot i k
    await s w
  | none => fail s csBadState

/-- EXTENT_SHARE_WITHDRAW's row. -/
def extentShareWithdraw (s : State) (c : Cmd) (a : Nat) : Answer := unslot s (arg a 0 3) c.own

/-- EXTENT_SHARE_WITHDRAW (R50). -/
def execExtentShareWithdraw (mb : MbId) (s : State) : Host.Outcome State Fault Refusal := s.ran withdrawForm mb extentShareWithdraw

/-- EXTENT_UNSHARE. -/
def unshareForm : CmdForm :=
  { op := 0x0206, part := true, conf := .never, len := fun _ => 5, fields := bytesOf [(0, 3), (4, 1)]
    names := fun a => [(oExt, xhIdx (arg a 0 3))] }

/-- EXTENT_UNSHARE's row: the owner's or an administrative command. -/
def extentUnshare (s : State) (c : Cmd) (a : Nat) : Answer :=
  let i := xhIdx (arg a 0 3)
  if (s.ext i).state ≠ 0 && !s.byOwner c i then fail s csDenied else unslot s (arg a 0 3) (arg a 4 1)

/-- EXTENT_UNSHARE (R50). -/
def execExtentUnshare (mb : MbId) (s : State) : Host.Outcome State Fault Refusal := s.ran unshareForm mb extentUnshare

/-! ### EXTENT_QUERY and DEVICE_SET_SCRUB -/

/-- An extent entry with KEYSLOT zero (R43). (DESIGN CHOICE: log entry 50) -/
def Ext.word (x : Ext) : Nat :=
  packBits [(0, 2, x.state.toNat), (2, 6, x.gen.toNat), (8, 6, x.owner.toNat), (14, 1, b2n x.conf), (15, 1, b2n x.coherent),
    (16, 1, b2n x.combine), (17, 1, b2n x.shared), (18, 1, b2n x.mirror), (19, 1, b2n x.parity), (20, 1, b2n x.pwidth), (21, 12, x.rights.toNat),
    (33, 2, x.stripe.toNat), (35, 2, x.homeq.toNat), (37, 3, x.start.toNat), (40, 18, x.mapBase.toNat), (58, 18, x.size.toNat),
    (76, 12, x.shareRef.toNat), (88, 14, x.protRef.toNat)]

/-- A protection record (R60) and a combine record (R221). -/
def Prot.word (p : Prot) : Nat :=
  packBits [(0, 1, b2n p.parity), (1, 1, b2n p.degraded), (2, 24, p.slots.toNat), (26, 8, p.lost.toNat), (34, 18, p.cursor.toNat),
    (52, 2, p.rstate.toNat)]
def Comb.word (c : Comb) : Nat :=
  packBits [(0, 5, c.fmt.toNat), (5, 7, c.anchor.toNat), (12, 1, b2n c.valid), (13, 1, b2n c.clearing), (32, 22, c.resident)]

/-- EXTENT_QUERY. -/
def queryForm : CmdForm :=
  { op := 0x0207, query := true, part := true, conf := .own, len := fun _ => 3, fields := bytesOf [(0, 3)], names := fun a => [(oExt, xhIdx (arg a 0 3))] }

/-- EXTENT_QUERY's row: from a partition mailbox, the owner's or a consenting member's. (DESIGN CHOICE: log entry 50) -/
def extentQuery (s : State) (c : Cmd) (a : Nat) : Answer :=
  let i := xhIdx (arg a 0 3)
  let x := s.ext i
  let allowed := s.byOwner c i || (s.slotOf i c.own).any (·.2.consent)
  let rec_ := if x.mirror || x.parity then (s.prot x.protRef.toNat).word else if x.combine then (s.comb x.protRef.toNat).word else 0
  if x.state = 0 then fail s csBadState
  else if !allowed then fail s csDenied
  else done s (x.word + rec_ * 2 ^ 256)

/-- EXTENT_QUERY (R438). -/
def execExtentQuery (mb : MbId) (s : State) : Host.Outcome State Fault Refusal := s.ran queryForm mb extentQuery

/-- DEVICE_SET_SCRUB. -/
def scrubForm : CmdForm := { op := 0x0208, len := fun _ => 1, fields := bytesOf [(0, 1)] }

/-- DEVICE_SET_SCRUB's row. -/
def deviceSetScrub (s : State) (_ : Cmd) (a : Nat) : Answer :=
  let v := arg a 0 1
  if v < 5 || 50 < v then fail s csBadArg else done { s with mem := { s.mem with scrubShare := v } }

/-- DEVICE_SET_SCRUB (R438). -/
def execDeviceSetScrub (mb : MbId) (s : State) : Host.Outcome State Fault Refusal := s.ran scrubForm mb deviceSetScrub

/-! ### Pool groups (R439) -/

/-- GROUP_CONFIG. -/
def groupForm : CmdForm :=
  { op := 0x0301, len := fun _ => 32, fields := [(0, 8), (8, 8), (16, 1), (32, 18), (64, 32), (128, 128)] }

/-- The EIDs of GROUP_CONFIG as a table. -/
def groupEids (a n : Nat) : Tbl Eid := (List.range n).foldl (fun t i => tput 0 t i (BitVec.ofNat 12 (arg a (16 + 2 * i) 2))) []

/-- GROUP_CONFIG's row: a new group, the LOST slots replaced, or a device that joins as the target of a rebuild (R67). A LOST slot whose EID stays
is one that its own device takes again. (DESIGN CHOICE: log entry 27) -/
def groupConfig (s : State) (_ : Cmd) (a : Nat) : Answer :=
  let n := arg a 0 1; let self := arg a 1 1; let xb := arg a 4 4; let xc := arg a 8 4
  let g := s.group
  let eids := groupEids a n
  let fresh := (List.range n).foldl (fun t m => tput 0 t m s.ftNs) []
  if n < 2 || 8 < n || n ≤ self || xc = 0 || 16384 < xc || 262144 < xb + xc || tget 0 eids self ≠ s.node.eid
    || (List.range n).any (fun i => decide (4096 ≤ arg a (16 + 2 * i) 2)) then fail s csBadArg
  else if !(arg a 2 1).testBit 0 || !g.on then
    if g.on || (s.exts.any fun e => e.2.state ≠ 0 && decide (xb ≤ e.1) && decide (e.1 < xb + xc)) then fail s csBadState
    else done { s with group := { on := true, nmemb := n, self := Fin.ofNat 8 self, xbase := BitVec.ofNat 18 xb, xcount := xc
                                  eids := eids, lastHb := fresh, lastSent := s.ftNs } }
  else
    let lost := (List.range n).filter g.lost.getLsbD
    if n ≠ g.nmemb || self ≠ g.self.val || xb ≠ g.xbase.toNat || xc ≠ g.xcount
      || (List.range n).any (fun m => tget 0 eids m ≠ tget 0 g.eids m && !g.lost.getLsbD m) then fail s csBadState
    else done { s with group := { g with eids := eids, lastHb := lost.foldl (fun t m => tput 0 t m s.ftNs) g.lastHb, lost := 0, acted := 0 } }

/-- GROUP_CONFIG (R439). -/
def execGroupConfig (mb : MbId) (s : State) : Host.Outcome State Fault Refusal := s.ran groupForm mb groupConfig

/-- GROUP_EXTENT_CREATE. -/
def groupCreateForm : CmdForm :=
  { op := 0x0302, part := true, conf := .never, len := fun _ => 16, fields := [(0, 8), (8, 2), (16, 12), (32, 4), (64, 32), (96, 24)]
    names := fun a => [(oPart, arg a 0 1)] }

/-- Whether SLOTS names distinct members of the group in the slots that a mode uses (R60 to R62). -/
def State.slotsOk (s : State) (slots n : Nat) : Bool :=
  let m := (List.range n).map fun i => bitsOf slots (3 * i) 3
  m.all (fun x => decide (x < s.group.nmemb)) && (List.range n).all fun i => !(m.drop (i + 1)).contains (m.getD i 0)

/-- A failure of a member: STATUS with FAILSLOT in RESULT. -/
def Answer.atSlot (r : Answer) (slot : Nat) : Answer := if r.status = csOk then r else { r with result := slot * 2 ^ 32 }

/-- What a create of a protected extent asks of each member. -/
def groupArgs (e : GroupExt) : CreateArgs :=
  { part := e.part.toNat, mirror := !e.parity, parity := e.parity, pwidth := e.wide, slots := e.slots.toNat, rights := e.rights.toNat
    stripe := e.stripe.toNat, homeq := e.homeq.toNat, size := e.size.toNat }

/-- The protection record of a new protected extent. -/
def groupProt (e : GroupExt) : Prot :=
  { used := true, parity := e.parity, slots := e.slots, lost := e.lost, degraded := e.lost != 0 }

/-- The protection record written after a create. -/
def State.withProt (s : State) (idx : Nat) (e : GroupExt) : State := s.setProt (s.ext idx).protRef.toNat (groupProt e)

/-- GROUP_EXTENT_CREATE's row: created here and carried to every other member, whose answers it waits for. -/
def groupExtentCreate (s : State) (c : Cmd) (a : Nat) : Answer :=
  let par := (arg a 1 1).testBit 0
  let wide := (arg a 1 1).testBit 1
  let slots := arg a 12 3
  let n := if par then (if wide then 8 else 4) else 2
  if !s.group.on then (fail s csBadState).atSlot s.group.self.val
  else if !s.majority then (fail s csNoMajority).atSlot s.group.self.val
  else if !s.slotsOk slots n then (fail s csBadArg).atSlot s.group.self.val
  else
    let v : CreateArgs := { part := arg a 0 1, mirror := !par, parity := par, pwidth := wide, slots := slots, rights := bitsOf a 16 12
                            stripe := bitsOf a 32 2, homeq := bitsOf a 34 2, size := arg a 8 4 }
    let r := s.createExt c v fun i => s.inGroup i
    if r.status ≠ csOk then r.atSlot s.group.self.val
    else
      let xh := BitVec.ofNat 24 (r.result % 2 ^ 24)
      let e : GroupExt := { part := BitVec.ofNat 6 v.part, parity := par, wide := wide, rights := BitVec.ofNat 12 v.rights
                            stripe := BitVec.ofNat 2 v.stripe, homeq := BitVec.ofNat 2 v.homeq, size := BitVec.ofNat 18 v.size
                            slots := BitVec.ofNat 24 slots }
      let s := r.st.withProt (xhIdx xh.toNat) e
      await (s.each s.peers fun s m => s.carry m xh true (.create xh e)) (s.peers.map fun m => .group m xh) xh.toNat

/-- A create carried here by another member (R59): made at the index and generation that its handle names, or, on the target of a rebuild that
holds the extent already, its slots marked lost; the member that carried it is answered. (DESIGN CHOICE: log entry 27) -/
def State.createIn (s : State) (src : Nat) (xh : Xh) (e : GroupExt) : State :=
  let idx := xhIdx xh.toNat
  let x := s.ext idx
  let answer := fun (s : State) (st : Nat) => s.groupSend src none (.answer xh (BitVec.ofNat 16 st))
  if s.live xh.toNat && e.lost ≠ 0 && (x.mirror || x.parity) then answer (s.withProt idx e) csOk
  else if !s.inGroup idx || x.state ≠ 0 then answer s csTableFull
  else
    let r := (s.setExt idx { x with gen := xhGen xh.toNat }).createExt {} (groupArgs e) fun i => i == idx
    if r.status = csOk then answer (r.st.withProt idx e) csOk else answer (r.st.modExt idx fun y => { y with gen := x.gen }) r.status

/-- The answer of a member to a create carried to it, kept until the last member has answered. -/
def State.createAnswer (s : State) (m : Nat) (xh : Xh) (st : BitVec 16) : State :=
  let f := fun (c : Carried) => if c.create && c.member = m && c.xh = xh && c.ans.isNone then { c with ans := some st } else c
  { s with group := { s.group with calls := s.group.calls.map f } }

/-- The end of a create carried to every member, after the last answer (R439): when a member failed, the members that made the extent revoke it
and the lowest such member's status is the reply's, with its slot in FAILSLOT. (DESIGN CHOICE: log entry 27) -/
def State.createSettle (s : State) (xh : Xh) : State :=
  let mine := fun (c : Carried) => c.create && c.xh == xh
  let l := s.group.calls.filter mine
  if l.isEmpty || l.any (·.ans.isNone) then s
  else
    let s := { s with group := { s.group with calls := s.group.calls.filter fun c => !mine c } }
    match l.find? fun c => c.ans ≠ some 0 with
    | none => s.each l fun s c => s.wake (.group c.member xh)
    | some f =>
      let s := if s.live xh.toNat then s.startRevoke (xhIdx xh.toNat) else s
      let s := s.each (l.filter (·.ans = some 0)) fun s c => s.carry c.member xh false (.revoke xh)
      s.each (s.cmds.filter fun c => c.waits.contains (.group f.member xh)) fun s c =>
        s.failCmd c.token (f.ans.getD 0).toNat 0 (BitVec.ofNat 1920 (f.member * 2 ^ 32))

/-- Whether a member that a command was carried to has not answered within 4 × PT (R433). -/
def State.noAnswer (s : State) (m : Nat) (xh : Xh) (create : Bool) : Bool :=
  s.group.calls.any fun c => c.create == create && c.member == m && c.xh == xh && c.ans.isNone && decide (c.at_ + 4 * s.pt ≤ s.now)

/-- GROUP_EXTENT_CREATE (R59, R439). A carried create and the answers wait for a Steward that runs. -/
def execGroupExtentCreate (c : CreateCall) (s : State) : Host.Outcome State Fault Refusal :=
  match c with
  | .mailbox mb => s.ran groupCreateForm mb groupExtentCreate
  | .carried m xh e => .next (if s.stewardUp && s.group.on && s.peers.contains m.val then s.createIn m.val xh e else s)
  | .answered m xh st => .next (if s.stewardUp then (s.createAnswer m.val xh st).createSettle xh else s)
  | .unanswered m xh =>
    .next (if s.stewardUp && s.noAnswer m.val xh true then (s.createAnswer m.val xh (BitVec.ofNat 16 csGroupUnreach)).createSettle xh else s)

/-- GROUP_EXTENT_REVOKE. -/
def groupRevokeForm : CmdForm :=
  { op := 0x0303, part := true, conf := .never, len := fun _ => 3, fields := bytesOf [(0, 3)], names := fun a => [(oExt, xhIdx (arg a 0 3))] }

/-- GROUP_EXTENT_REVOKE's row: R54 on every reachable member, the last of whose step 6 it waits for. -/
def groupExtentRevoke (s : State) (c : Cmd) (a : Nat) : Answer :=
  let xh := arg a 0 3
  let i := xhIdx xh
  let x := s.ext i
  if x.state ≠ 0 && !s.byOwner c i then fail s csDenied
  else if !s.live xh then fail s csBadState
  else if !(x.mirror || x.parity) then fail s csBadArg
  else if !s.majority then fail s csNoMajority
  else await (s.revoke i) (.revoke i :: (s.peers.filter fun m => !s.silent m).map fun m => .group m (BitVec.ofNat 24 xh))

/-- A revoke carried here by another member (R59): run under R54, and answered at step 6. (DESIGN CHOICE: log entry 27) -/
def State.revokeIn (s : State) (src : Nat) (xh : Xh) : State :=
  let i := xhIdx xh.toNat
  if s.live xh.toNat && ((s.ext i).mirror || (s.ext i).parity) then
    { s with group := { s.group with owed := s.group.owed ++ [(src, xh)] } }.startRevoke i
  else s.groupSend src none (.answer xh (BitVec.ofNat 16 csBadState))

/-- A member to which a revoke was carried has ended it, or cannot be reached. -/
def State.revokeAnswer (s : State) (m : Nat) (xh : Xh) : State :=
  { s with group := { s.group with calls := s.group.calls.filter fun c => c.create || c.member ≠ m || c.xh ≠ xh } }.wake (.group m xh)

/-- GROUP_EXTENT_REVOKE (R59, R439). -/
def execGroupExtentRevoke (c : RevokeCall) (s : State) : Host.Outcome State Fault Refusal :=
  match c with
  | .mailbox mb => s.ran groupRevokeForm mb groupExtentRevoke
  | .carried m xh => .next (if s.stewardUp && s.group.on && s.peers.contains m.val then s.revokeIn m.val xh else s)
  | .answered m xh _ => .next (if s.stewardUp then s.revokeAnswer m.val xh else s)
  | .unanswered m xh => .next (if s.stewardUp && s.noAnswer m.val xh false then s.revokeAnswer m.val xh else s)

/-- GROUP_PROMOTE. -/
def promoteForm : CmdForm := { op := 0x0304, len := fun _ => 1, fields := bytesOf [(0, 1)] }

/-- GROUP_PROMOTE's row: a two-member group whose peer has been silent for 4 ms; this member serves alone. -/
def groupPromote (s : State) (_ : Cmd) (a : Nat) : Answer :=
  let m := arg a 0 1
  if s.group.on && s.group.nmemb = 2 && s.peers.contains m && s.silent m then
    done ({ s with group := { s.group with promoted := true, lost := s.group.lost ||| BitVec.ofNat 8 (1 <<< m) } }.actLost)
  else fail s csBadState

/-- GROUP_PROMOTE (R439). -/
def execGroupPromote (mb : MbId) (s : State) : Host.Outcome State Fault Refusal := s.ran promoteForm mb groupPromote

/-- GROUP_REBUILD. -/
def rebuildForm : CmdForm :=
  { op := 0x0305, len := fun _ => 7, fields := bytesOf [(0, 3), (4, 1), (5, 1), (6, 1)]
    names := fun a => if arg a 0 3 = 0xFFFFFF then [] else [(oExt, xhIdx (arg a 0 3))] }

/-- Whether a rebuild of a slot of an extent can start, pause or resume (R66): on local spare granules only this member's own slot, lost with a stack
of its own, and on another device only a slot of another member. -/
def State.canRebuild (s : State) (slot action : Nat) (local_ : Bool) (i : Nat) : Bool :=
  let x := s.ext i
  let p := s.prot x.protRef.toNat
  x.state == 1 && (x.mirror || x.parity) &&
    (if action = 0 then p.rstate == 0 && p.lost.getLsbD slot
        && (if local_ then slot == s.mySlot x && p.stackOut else slot != s.mySlot x && !s.group.lost.getLsbD (p.member slot))
     else if action = 1 then p.rstate == 1 && p.rslot.val == slot else p.rstate == 2 && p.rslot.val == slot)

/-- The record of a rebuild that starts, pauses or resumes. -/
def Prot.rebuild (p : Prot) (slot action : Nat) (local_ : Bool) : Prot :=
  if action = 0 then { p with rstate := 1, cursor := 0, target := local_, rslot := Fin.ofNat 8 slot }
  else if action = 1 then { p with rstate := 2 } else { p with rstate := 1 }

/-- A protected extent described to the device that takes a slot of it, so that it can be restored there. (DESIGN CHOICE: log entry 83) -/
def State.tellTarget (s : State) (i slot : Nat) : State :=
  let x := s.ext i
  let p := s.prot x.protRef.toNat
  s.groupSend (p.member slot) none (.create (BitVec.ofNat 24 (x.handle i))
    { part := x.owner, parity := x.parity, wide := x.pwidth, rights := x.rights, stripe := x.stripe, homeq := x.homeq, size := x.size
      slots := p.slots, lost := p.lost })

/-- GROUP_REBUILD's row. -/
def groupRebuild (s : State) (_ : Cmd) (a : Nat) : Answer :=
  let xh := arg a 0 3; let slot := arg a 4 1; let tgt := arg a 5 1; let act := arg a 6 1
  let l := if xh = 0xFFFFFF then (s.exts.filter fun e => s.canRebuild slot act (tgt = 1) e.1).map (·.1) else [xhIdx xh]
  if 8 ≤ slot || 2 ≤ tgt || 3 ≤ act then fail s csBadArg
  else if l.isEmpty || (xh ≠ 0xFFFFFF && !s.live xh) || !l.all (s.canRebuild slot act (tgt = 1)) then fail s csBadState
  else if act = 0 && tgt = 1 && s.spare.isNone then fail s csNoMemory
  else
    let s := s.each l fun s i => s.modProt (s.ext i).protRef.toNat fun p => p.rebuild slot act (tgt = 1)
    done (if act = 0 && tgt = 0 then s.each l fun s i => s.tellTarget i slot else s)

/-- GROUP_REBUILD (R439). -/
def execGroupRebuild (mb : MbId) (s : State) : Host.Outcome State Fault Refusal := s.ran rebuildForm mb groupRebuild

end Sys2Proof.Machine
end

