-- ==== Sys2Proof/Machine/Engine.lean ====
section
/-! DEFINITION. The engine on one operation (R159, R162, R203, R212, R213): the stream buffers, the steps over units of elements, and the
pieces of its streams that it reads ahead and writes. -/
namespace Sys2Proof.Machine

/-- An operation in an engine: its block, stages, parameter block and seed, the windows of a SCATTER_ADD, and the window words that feed a
slot directly (R249). -/
structure OpX where
  o : Nat
  nst : Nat
  pm : Nat
  seed : Nat
  wins : List Nat
  feed : Nat → Option (Nat → Nat)

/-- The stages and slots of an operation. -/
def OpX.sts (x : OpX) : List Stage := (plan x.o x.nst x.pm).2
def OpX.us (x : OpX) : List SlotUse := (plan x.o x.nst x.pm).1
/-- The last stage. -/
def OpX.last (x : OpX) : Stage := x.sts.getLast?.getD ⟨0, 0, 0, false, [], []⟩
/-- Whether the last stage is SCATTER_ADD with VARIANT WINDOW, or DIRECT. -/
def OpX.windowed (x : OpX) : Bool := x.last.op == 0x09 && x.last.var == 0
def OpX.direct (x : OpX) : Bool := x.last.op == 0x09 && x.last.var == 1
/-- The stream of the destination, or of the output, and its format and slot. -/
def OpX.outFmt (x : OpX) : Nat := (x.last.outs.head?.map (·.fmt)).getD 6
def OpX.outSlot (x : OpX) : Nat := (x.last.outs.head?.bind (·.slot)).getD 0
/-- Elements of the destination of SCATTER_ADD. -/
def OpX.destElems (x : OpX) : Nat := pmRows x.pm * pmRowlen x.pm
/-- The index stream of GATHER or SCATTER_ADD: its stage, slot and format. -/
def OpX.idxStream (x : OpX) : Option (Nat × Nat × Nat) :=
  let at_ := fun (k : Nat) (st : Stage) => (st.ins.find? (·.kind = .idx)).map fun i => (k, i.slot.getD 0, i.fmt)
  if opcAt x.o 0 = 0x08 then at_ 0 (x.sts.headD ⟨0, 0, 0, false, [], []⟩) else if x.last.op = 0x09 then at_ (x.nst - 1) x.last else none
/-- The table stream of GATHER: its slot and format. -/
def OpX.tblStream (x : OpX) : Option (Nat × Nat) :=
  if opcAt x.o 0 = 0x08 then
    ((x.sts.headD ⟨0, 0, 0, false, [], []⟩).ins.find? (·.kind = .table)).map fun i => (i.slot.getD 0, i.fmt)
  else none
/-- Bits of an element of a format. -/
def fmtBits (f : Nat) : Nat := match elemOf f with | some e => e.bits | none => 8
/-- Bytes that the stream buffer keeps for one element of a gathered table. -/
def tblStride (f : Nat) : Nat := if mxFmt f then 2 else fmtBits f / 8

/-! ### The stream buffers -/

/-- The buffer index of a byte of a slot. -/
def bufKey (slot pos : Nat) : Nat := slot * 2 ^ 41 + pos
/-- n bytes of a slot's stream, when all are present. -/
def Eng.bytes (e : Eng) (slot pos : Nat) : Nat → Option Nat
  | 0 => some 0
  | n + 1 => match tget none e.buf (bufKey slot pos), e.bytes slot (pos + 1) n with
    | some b, some r => some (b.toNat + 256 * r)
    | _, _ => none
/-- Bytes put in the buffer. -/
def Eng.fill (e : Eng) (slot : Nat) : Nat → List Byte → Eng
  | _, [] => e
  | pos, b :: r => Eng.fill { e with buf := tput none e.buf (bufKey slot pos) (some b) } slot (pos + 1) r

/-- Element i of an element array with the scale array after it. -/
def Eng.elemAt (e : Eng) (slot fmt i : Nat) : Option (Nat × Nat) :=
  let w := fmtBits fmt
  let b := w * i / 8
  match e.bytes slot b ((w * i + w + 7) / 8 - b) with
  | none => none
  | some v =>
    let c := bitsOf v (w * i % 8) w
    if mxFmt fmt then (e.bytes (slot + 1) (i / 32) 1).map fun s => (s, c) else some (0, c)

/-- The index that row r names (R212, R213). -/
def Eng.rowIdx (x : OpX) (e : Eng) (r : Nat) : Option Int :=
  match x.idxStream with
  | none => some 0
  | some (_, slot, f) => (e.elemAt slot f r).map fun v => match elemOf f with | some (.int sg b) => intDec sg b v.2 | _ => 0
/-- Whether an index lies in the table or destination. -/
def idxOk (x : OpX) (n : Int) : Bool := decide (0 ≤ n) && decide (n < pmRows x.pm)
/-- The row and column of main element i. -/
def OpX.row (x : OpX) (i : Nat) : Nat := i / max 1 (pmRowlen x.pm)
def OpX.col (x : OpX) (i : Nat) : Nat := i % max 1 (pmRowlen x.pm)

/-- Element i of a slot: from a window, from the gathered table, or from the slot's stream. -/
def Eng.read (x : OpX) (e : Eng) (slot fmt i : Nat) : Option (Nat × Nat) :=
  match x.feed slot with
  | some f => some (0, f i)
  | none =>
    if x.tblStream = some (slot, fmt) then
      match Eng.rowIdx x e (x.row i) with
      | none => none
      | some n =>
        let t := n.toNat * pmRowlen x.pm + x.col i
        let w := fmtBits fmt
        let nb := (w * t + w + 7) / 8 - w * t / 8
        match e.bytes slot (i * tblStride fmt) nb with
        | none => none
        | some v =>
          let c := bitsOf v (w * t % 8) w
          if mxFmt fmt then (e.bytes (slot + 1) i 1).map fun s => (s, c) else some (0, c)
    else e.elemAt slot fmt i

/-- How far the engine has consumed a slot, in bytes of its buffer. -/
def Eng.consumed (x : OpX) (e : Eng) (u : SlotUse) : Nat :=
  let i := match u.kind with
    | .main => e.elem
    | .idx => x.row e.elem
    | .table => if opcAt x.o 0 = 0x08 then e.elem else if e.phase = 0 then e.row else u.elems
    | _ => 0
  if u.kind = .table && opcAt x.o 0 = 0x08 then (if u.scale then i else i * tblStride u.fmt)
  else if u.scale then i / 32 else fmtBits u.fmt * i / 8

/-- The buffer without what is consumed. -/
def Eng.trim (x : OpX) (e : Eng) : Eng :=
  let us := x.us.filter (·.io = 0)
  { e with buf := e.buf.filter fun b => us.any fun u => b.1 / 2 ^ 41 == u.slot && decide (e.consumed x u ≤ b.1 % 2 ^ 41) }

/-! ### Steps -/

/-- What a step of the engine does: nothing for want of data, an index out of range at a row, or progress with pieces to write, each with
its first output element. -/
inductive StepRes where
  | wait
  | bad (row : Nat)
  | went (e : Eng) (t : Tile) (out : List (Piece × Nat))

/-- The window word of a destination element. -/
def OpX.winAt (x : OpX) (i : Nat) : Nat × Nat := (x.wins.getD (i / 16384) 0, i % 16384)

/-- An element absorbed at a destination of WINDOW: in its window word, or in the integer destination. -/
def destAdd (x : OpX) (d : Rnd) (i : Nat) (v : Nat × (Nat × Nat)) (p : Eng × Tile) : Eng × Tile :=
  if intFmt x.outFmt then ({ p.1 with acc := tmod 0 p.1.acc i fun old => intAdd x.outFmt d old v }, p.2)
  else
    let (w, k) := x.winAt i
    let a := opAnchor x.o
    (p.1, p.2.setWord w k ((itemOf v.1 v.2).into a (p.2.winWord a w k)))

/-- The first output element of a piece. -/
def pieceElem (x : OpX) (p : Piece) : Nat :=
  match x.us.find? fun u => u.slot = p.1 && u.io = 2 with
  | none => 0
  | some u => match u.kind with
    | .record => 0
    | .crcWhole => 0
    | .crcBlock => p.2.1 / 4
    | _ => if u.scale then p.2.1 * 32 else p.2.1 * 8 / max 1 (fmtBits u.fmt)

/-- The phase that follows when a phase has run to its end. -/
def Eng.advance (x : OpX) (e : Eng) : Eng :=
  match e.phase with
  | 0 => if x.destElems ≤ e.row then { e with phase := 1, row := 0 } else e
  | 1 => if opCount x.o ≤ e.elem then (if x.windowed then { e with phase := 2, row := 0 } else { e with finished := true }) else e
  | _ => if x.destElems ≤ e.row then { e with finished := true } else e

/-- The next unit of D_in (R213). -/
def stepIn (x : OpX) (e : Eng) (t : Tile) : StepRes :=
  let u := min (unitOf x.us) (x.destElems - e.row)
  let src := (x.last.ins.getLast?.map fun i => (i.slot.getD 0, i.fmt)).getD (0, 6)
  match (List.range u).mapM fun i => Eng.read x e src.1 src.2 (e.row + i) with
  | none => .wait
  | some vs =>
    let p := (vs.mapIdx fun i v => (i, v)).foldl (fun p v =>
      destAdd x (x.last.round x.seed (x.nst - 1) (e.row + v.1)) (e.row + v.1) (src.2, v.2) p) (e, t)
    .went (({ p.1 with row := e.row + u }.trim x).advance x) p.2 []

/-- The next unit of the main stream. Where a destination of WINDOW is an integer one, a value that rounds by SR draws at the index of its element of
the main stream, and in `stepIn` an element of D_in at its own index in D: the spec names no index there. (DESIGN CHOICE: log entry 92) -/
def stepMain (x : OpX) (e : Eng) (t : Tile) : StepRes :=
  let u := min (unitOf x.us) (opCount x.o - e.elem)
  let rows := if x.idxStream.isSome then (List.range (x.row (e.elem + u - 1) - x.row e.elem + 1)).map (x.row e.elem + ·) else []
  match rows.mapM fun r => (Eng.rowIdx x e r).map fun v => (r, v) with
  | none => .wait
  | some ix => match ix.find? fun v => !idxOk x v.2 with
    | some v => .bad v.1
    | none =>
      let row := fun (i : Nat) => ((Eng.rowIdx x e (x.row i)).getD 0).toNat
      match runUnit x.o x.nst x.pm x.seed (Eng.read x e) row e.elem u e.last with
      | none => .wait
      | some r =>
        let e' : Eng := { e with elem := e.elem + u, last := r.st }
        if x.windowed then
          let p := (r.adds.mapIdx fun i a => (i, a)).foldl (fun p a =>
            destAdd x (x.last.round x.seed (x.nst - 1) (e.elem + a.1)) a.2.1 a.2.2 p) (e', t)
          .went ((p.1.trim x).advance x) p.2 []
        else if x.direct then
          .went ((e'.trim x).advance x) t
            ((directPieces x.o x.pm x.seed (x.nst - 1) e.elem x.last r.adds).map fun p => (p, e.elem))
        else .went ((e'.trim x).advance x) t (r.writes.map fun p => (p, pieceElem x p))

/-- The next unit of D (R213). -/
def stepOut (x : OpX) (e : Eng) (t : Tile) : StepRes :=
  let u := min (unitOf x.us) (x.destElems - e.row)
  let a := opAnchor x.o
  let f := x.outFmt
  let enc := if intFmt f then (List.range u).map fun i => (0, tget 0 e.acc (e.row + i))
    else encItems a f (fun i => x.last.round x.seed (x.nst - 1) (e.row + i))
      ((List.range u).map fun i => let (w, k) := x.winAt (e.row + i); .word (t.winWord a w k).fold)
  .went (Eng.advance x { e with row := e.row + u }) t ((outPieces x.outSlot f e.row enc).map fun p => (p, e.row))

/-- One step. (DESIGN CHOICE: log entry 53) -/
def opStep (x : OpX) (e : Eng) (t : Tile) : StepRes :=
  if e.finished then .wait else match e.phase with
    | 0 => stepIn x e t
    | 1 => stepMain x e t
    | _ => stepOut x e t

/-- Steps until an element count is reached, data is missing or the operation is done: the engine, the tile, what is to be written, and the
row of an index out of range. (DESIGN CHOICE: log entry 53) -/
def opRun (x : OpX) : Nat → Eng → Tile → List (Piece × Nat) → Eng × Tile × List (Piece × Nat) × Option Nat
  | 0, e, t, out => (e, t, out, none)
  | n + 1, e, t, out => match opStep x e t with
    | .wait => (e, t, out, none)
    | .bad r => (e, t, out, some r)
    | .went e' t' o => opRun x n e' t' (out ++ o)

/-- The steps of a block: as many units as the elements given, at most those of R159, and one where a unit is longer than that. (DESIGN CHOICE: log entry 53) -/
def blockSteps (x : OpX) (elems : Nat) : Nat := min elems (max (blockMax x.o x.nst x.pm) (unitOf x.us)) / unitOf x.us

/-! ### Pieces of the streams -/

/-- Adjacent pieces of a slot joined. -/
def joinPieces : List (Piece × Nat) → List (Piece × Nat) → List (Piece × Nat)
  | acc, [] => acc.reverse
  | acc, p :: r =>
    match acc.findIdx? fun q => q.1.1 = p.1.1 && q.1.2.1 + q.1.2.2.length = p.1.2.1 with
    | some i => joinPieces (acc.modify i fun q => ((q.1.1, q.1.2.1, q.1.2.2 ++ p.1.2.2), min q.2 p.2)) r
    | none => joinPieces (p :: acc) r

/-- A place to read next: the slot, its stream position, the buffer position, and the bytes wanted. -/
abbrev Want := Nat × Nat × Nat × Nat

/-- What a slot should read next, at most 16 KiB ahead of what is consumed. -/
def wantOf (x : OpX) (e : Eng) (u : SlotUse) : Option Want :=
  let at_ := max (tget 0 e.asked u.slot) (e.consumed x u)
  if (x.feed u.slot).isSome || e.consumed x u + 16384 ≤ at_ then none
  else if u.kind = .table && opcAt x.o 0 = 0x08 then
    if e.phase ≠ 1 then none
    else
      let st := if u.scale then 1 else tblStride u.fmt
      let i := at_ / st
      let sub := at_ % st
      if opCount x.o ≤ i then none
      else match Eng.rowIdx x e (x.row i) with
        | none => none
        | some n =>
          if !idxOk x n then none
          else
            let tf := (x.tblStream.map (·.2)).getD 6
            let t := n.toNat * pmRowlen x.pm + x.col i
            let w := fmtBits tf
            if u.scale then some (u.slot, t / 32, at_, 1)
            else if mxFmt tf then some (u.slot, w * t / 8 + sub, at_, (w * t + w + 7) / 8 - w * t / 8 - sub)
            else some (u.slot, w / 8 * t + sub, at_, w / 8 * (pmRowlen x.pm - x.col i) - sub)
  else if (u.kind = .table) = (e.phase = 0) && e.phase ≤ 1 && at_ < u.bytes then some (u.slot, at_, at_, u.bytes - at_)
  else none

/-- How far a slot has been asked for, after m bytes at a place were. -/
def Eng.ask (x : OpX) (e : Eng) (w : Want) (m : Nat) : Eng :=
  let next := match x.tblStream with
    | some (slot, f) => if slot = w.1 && mxFmt f && m = w.2.2.2 then (w.2.2.1 / 2 + 1) * 2 else w.2.2.1 + m
    | none => w.2.2.1 + m
  { e with asked := tput 0 e.asked w.1 next }

/-- The slot that is furthest behind, as a share of its length. (DESIGN CHOICE: log entry 53) -/
def nextWant (x : OpX) (e : Eng) : Option Want :=
  let c := (x.us.filter (·.io = 0)).filterMap fun u => (wantOf x e u).map fun w => (w, (w.2.2.1 * 2 ^ 32) / max 1 (max u.bytes w.2.2.1))
  (c.foldl (fun (b : Option (Want × Nat)) w => match b with
    | none => some w
    | some v => if w.2 < v.2 then some w else some v) none).map (·.1)

/-- A line with bytes placed from byte lo on. -/
def placeBytes (lo : Nat) (bs : List Byte) : Line := BitVec.ofNat 1024 (ofLe bs * 2 ^ (8 * lo))

/-- Bytes lo to lo + n − 1 of a line. -/
def cutBytes (d : Line) (lo n : Nat) : List Byte := leBytes n (d.toNat / 2 ^ (8 * lo))

end Sys2Proof.Machine
end

