-- ==== Sys2Proof/Machine/Tiles.lean ====
section
/-! DEFINITION. The tiles at work: accesses of a job or a scheduled operation (R82 to R85, R161, R165, R249), the blocks of an operation
(R159), completions, and the end of an operation (R166, R260 to R263). -/
namespace Sys2Proof.Machine

/-! ### The operations in hand -/

/-- The windows that a job holds, ascending. -/
def Tile.jobWins (t : Tile) (k : Nat) : List Nat := (List.range 16).filter fun w => tget WState.free t.wins w == .job k
/-- A dynamic job's operation. -/
def Job.opx (t : Tile) (k : Nat) (j : Job) : OpX :=
  { o := j.op, nst := j.nstage, pm := j.pm, seed := j.seed.toNat, wins := t.jobWins k, feed := fun _ => none }

/-- The parameter block of an entry (R247, R249). -/
def Section.pm (x : Section) (e : SEntry) : BitVec 2048 := if e.paramIdx = 0xFFFF then 0 else (x.params[e.paramIdx]?).getD 0
/-- A scheduled operation (R249): windows feed their slots with folded words (R198). -/
def State.schedOpx (s : State) (n : Nat) (e : SEntry) (pm : BitVec 2048) : OpX :=
  let t := s.tile n
  { o := e.opblk.toNat, nst := stagesOf e.opblk.toNat, pm := pm.toNat, seed := e.seed.toNat, wins := []
    feed := fun slot => (e.desc.find? fun d => d.kind = 2 && d.slotIn.toNat = slot).map fun d i =>
      let w := d.win.toNat + i / 16384
      ((t.winWord (s.land (16 * n + w)).anchor.toNat w (i % 16384)).fold).bits }

/-! ### Where a byte of a stream lies -/

/-- The PVA of a position of a slot's stream, how far its range goes on, and its access type (R203). -/
def rangePlace : List Rng → Nat → Nat → Option (Nat × Nat)
  | [], _, _ => none
  | r :: rest, slot, pos =>
    if r.slot.toNat ≠ slot then rangePlace rest slot pos
    else if pos < r.len.toNat then some (r.pva.toNat + pos, r.len.toNat - pos)
    else rangePlace rest slot (pos - r.len.toNat)

/-- The descriptor of a scheduled operation that feeds or takes a slot. -/
def SEntry.descOf (e : SEntry) (slot : Nat) (write : Bool) : Option Desc :=
  e.desc.find? fun d => d.kind ≠ 0 && (if write then d.slotOut else d.slotIn).toNat = slot

/-- The address (PVA, or extent offset) of a stream position, and how far it goes on in one line. -/
def jobPlace (j : Job) (slot pos : Nat) : Option (Nat × Nat) :=
  (rangePlace j.ranges slot pos).map fun x => (x.1, min x.2 (128 - x.1 % 128))
def schedPlace (e : SEntry) (write : Bool) (slot pos : Nat) : Option (Nat × Nat) :=
  (e.descOf slot write).map fun d => let a := d.offset.toNat + pos; (a, 128 - a % 128)

/-- The accesses that write bytes of a slot: split at ranges and lines. -/
def writesOf (place : Nat → Nat → Option (Nat × Nat)) (slot elem stage : Nat) : Nat → Nat → List Byte → List EAcc
  | 0, _, _ => []
  | _, _, [] => []
  | fuel + 1, pos, bs =>
    match place slot pos with
    | none => []
    | some (a, rem) =>
      let m := min rem bs.length
      { write := true, slot := slot, pos := pos, len := m, elem := elem, stage := stage, pva := BitVec.ofNat 48 a
        data := placeBytes (a % 128) (bs.take m), mask := byteMask (a % 128) m }
        :: writesOf place slot elem stage fuel (pos + m) (bs.drop m)

/-- The stage of a slot. -/
def OpX.stageOf (x : OpX) (slot : Nat) : Nat := ((x.us.find? (·.slot = slot)).map (·.stage)).getD 0

/-! ### A job's accesses (R82 to R85) -/

/-- The packet of an access. -/
def EAcc.packet (a : EAcc) (cid : Cid) (xh : Xh) (off : Nat) : Packet :=
  let p : Packet := { cid := cid, xh := xh, offset := BitVec.ofNat 40 off, ctl := BitVec.ofNat 4 a.attempt }
  if !a.write then { p with opc := oRdOnce, blen := BitVec.ofNat 7 (a.len - 1) }
  else if a.len = 128 then { p with opc := oWrLine, data := a.data, offset := BitVec.ofNat 40 (off / 128 * 128), len := 160 }
  else { p with opc := oWrPartial, data := a.data, opnd := a.mask, offset := BitVec.ofNat 40 (off / 128 * 128), len := 160 }

/-- A host page's access. -/
def EAcc.hostPacket (a : EAcc) (hpa : Nat) : Packet :=
  let p : Packet := { hpa := BitVec.ofNat 64 (hpa / 128 * 128) }
  if !a.write then { p with opc := oMrd } else if a.len = 128 then { p with opc := oMwr, data := a.data, len := 160 }
  else { p with opc := oMwrp, data := a.data, opnd := a.mask, len := 160 }

/-- What became of an access that was to be issued: issued, waiting for room, or the end of its operation. -/
inductive Issue where
  | sent (s : State)
  | stall (s : State)
  | ended (s : State)

/-- An access of a running job issued through its RPL entry (R82): without the rights it ends the job with TR_RIGHTS (R84), through a DEAD
entry it completes with EXTENT_REVOKED (R85). (DESIGN CHOICE: log entry 53) -/
def State.issueJob (s : State) (n k : Nat) (a0 : EAcc) : Issue :=
  let j := s.job n k
  let pva := a0.pva.toNat
  match j.entry pva with
  | none => .stall s
  | some r =>
    let need : BitVec 3 := if a0.write then 2 else 1
    let a := { a0 with id := j.eng.nextId }
    let out := fun (s : State) (f : Eng → Eng) =>
      s.modJob n k fun j => { j with eng := f { j.eng with out := j.eng.out ++ [a], nextId := a.id + 1 } }
    let inPage := pva % 2 ^ (12 + 9 * r.size.toNat)
    if r.rights &&& need ≠ need then
      let f := s.transFault n k 0x11 pva 0xF (b2n a.write) 0 0 2
      let s := s.modJob n k fun j => { j with eng := { j.eng with retry := j.eng.retry ++ (if a.write then [a] else []) } }
      .ended (s.endRun n k jcTranslation 0 a.stage a.pva (some f))
    else if r.dead then
      let s := s.modJob n k fun j => { j with eng := { j.eng with retry := j.eng.retry ++ (if a.write then [a] else []) } }
      .ended (s.failJob n k stRevoked a.stage a.pva)
    else if r.tgt then
      let q := s.unitMk (.engine n k j.inc.toNat) a.id (a.packet j.cid r.xh (r.offset.toNat * 4096 + inPage))
      if s.roomFor q then .sent ((out s fun e => { e with held := false }).unitReq q)
      else .stall (if j.eng.held then s else (s.unitStall q).modJob n k fun j => { j with eng := { j.eng with held := true } })
    else if s.hostRoom then
      .sent ((out s fun e => { e with heldHost := false }).hostSend (.engine n k j.inc.toNat a.id) (a.hostPacket (r.hpa.toNat * 4096 + inPage)))
    else .stall (if j.eng.heldHost then s else (s.bump (portBlk 16) 15).modJob n k fun j => { j with eng := { j.eng with heldHost := true } })

/-- The writes of an engine that wait to be issued for the first time, in order. -/
def Eng.unsent (e : Eng) : Option EAcc := e.retry.find? (·.attempt = 0)

/-- An access that found no room goes back to its place among those that wait. -/
def State.putBack (s : State) (n k : Nat) (l : List EAcc) : State := s.modJob n k fun j => { j with eng := { j.eng with retry := l } }

/-- Waiting writes of a job issued in order, until one finds no room. -/
def State.pumpJob (s : State) (n k : Nat) : Nat → State
  | 0 => s
  | m + 1 =>
    match (s.job n k).eng.unsent with
    | none => s
    | some a => match (s.modJob n k fun j => { j with eng := { j.eng with retry := j.eng.retry.erase a } }).issueJob n k a with
      | .sent s' => s'.pumpJob n k m
      | .stall s' => s'.putBack n k (s.job n k).eng.retry
      | .ended s' => s'

/-- Writes of a job issued in order; those that find no room wait to be issued. -/
def State.issueWrites (s : State) (n k : Nat) (l : List EAcc) : State :=
  let s := s.modJob n k fun j => { j with eng := { j.eng with retry := j.eng.retry ++ l } }
  s.pumpJob n k l.length

/-- Reads ahead, at most a number of accesses, until one finds no room. (DESIGN CHOICE: log entry 53) -/
def State.prefetchJob (s : State) (n k : Nat) : Nat → State
  | 0 => s
  | m + 1 =>
    let j := s.job n k
    let x := j.opx (s.tile n) k
    match nextWant x j.eng with
    | none => s
    | some w => match jobPlace j w.1 w.2.1 with
      | none => s
      | some (a, rem) =>
        let len := min rem w.2.2.2
        match s.issueJob n k { slot := w.1, pos := w.2.2.1, len := len, pva := BitVec.ofNat 48 a, stage := x.stageOf w.1 } with
        | .sent s => (s.modJob n k fun j => { j with eng := j.eng.ask x w len }).prefetchJob n k m
        | .stall s => s
        | .ended s => s

/-- The engine time of the block counted, that against BUDGET in FT (R149). (DESIGN CHOICE: log entry 53) -/
def State.countBlock (s : State) (n k : Nat) : State :=
  let d := s.blockNs (s.job n k).eng
  let f := s.blockFtNs (s.job n k).eng
  (s.time (tileBlk n) 0 d).modJob n k fun j =>
    { j with engNs := j.engNs + f, quantNs := j.quantNs + d, eng := { j.eng with blockAt := s.now, blockFt := s.hubNs } }

/-- A running job whose output is all written ends with DONE (R153). -/
def State.tryDone (s : State) (n k : Nat) : State :=
  let e := (s.job n k).eng
  if (s.job n k).st = .running && e.finished && e.quietNow && e.retry.isEmpty then s.endJob n k jcDone 0 0 0 none else s

/-- The address of the index element of a row. -/
def Job.idxPva (j : Job) (x : OpX) (row : Nat) : BitVec 48 :=
  match x.idxStream with
  | none => 0
  | some (_, slot, f) => BitVec.ofNat 48 (((rangePlace j.ranges slot (fmtBits f / 8 * row)).map (·.1)).getD 0)

/-- A block of the running job (R159): its steps, its writes, its reads ahead, which wait while a write of the tile has found no room (R279); at
a safe point with a stop request the job stops, and with an exhausted BUDGET it ends (R164). (DESIGN CHOICE: log entry 53) -/
def State.jobBlock (s : State) (n k elems pre : Nat) : State :=
  let j := s.job n k
  if j.st = .stopping then s.safePoint n k
  else if j.mark = some jcBudget then s.endRun n k jcBudget 0 0 0 none
  else
    let x := j.opx (s.tile n) k
    let (e, t, out, bad) := opRun x (blockSteps x elems) j.eng (s.tile n) []
    let s := (s.setTile n (t.setJob k { j with eng := e })).countBlock n k
    let ws := (joinPieces [] out).flatMap fun p =>
      writesOf (jobPlace j) p.1.1 p.2 (x.stageOf p.1.1) (p.1.2.2.length + 1) p.1.2.1 p.1.2.2
    let s := s.issueWrites n k ws
    if (s.job n k).st ≠ .running then s
    else match bad with
      | some r => s.failJob n k stDenied ((x.idxStream.map (·.1)).getD 0) (j.idxPva x r)
      | none => (if (s.job n k).eng.unsent.isSome then s else s.prefetchJob n k pre).tryDone n k

/-! ### A scheduled operation's accesses (R249) -/

/-- The engine of a tile's scheduled operation changed. -/
def State.modRun (s : State) (n : Nat) (f : Eng → Eng) : State :=
  s.modTile n fun t => { t with srun := t.srun.map fun r => { r with eng := f r.eng } }

/-- The WR_LINE that a write to another device leaves as (R249). Of a line that the output covers only in part the spec does not say what the
other bytes are: they are free. (DESIGN CHOICE: log entry 62) -/
def EAcc.wholeLine (a : EAcc) (fill : Nat) : EAcc :=
  { a with pva := BitVec.ofNat 48 (a.pva.toNat / 128 * 128), len := 128, mask := BitVec.allOnes 128
           data := mergeBytes a.mask (BitVec.ofNat 1024 fill) a.data }

/-- An access of a scheduled operation issued: a request under R46, or a TC7 WR_LINE to another device (R249), which leaves by the die that serves
the tile's quadrant while it is usable (R29, R30, R336). Whether it was. -/
def State.issueSched (s : State) (n : Nat) (r : SRun) (d : Desc) (a0 : EAcc) : State × Bool :=
  let e := ((s.tile n).srun.map (·.eng)).getD r.eng
  let (g, s) := if d.kind = 3 && a0.len < 128 then s.draw (2 ^ 1024) else (0, s)
  let a1 := if d.kind = 3 && a0.len < 128 then a0.wholeLine g else a0
  let a := { a1 with id := e.nextId, xh := d.xh, cid := d.cid }
  let out := fun (s : State) => s.modRun n fun e => { e with out := e.out ++ [a], nextId := a.id + 1, held := false }
  let p := a.packet d.cid d.xh a.pva.toNat
  if d.kind = 3 then
    let q : Packet := { p with dst := d.eid, src := s.node.eid, tc := 7, rtag := s.nextRtag }
    let s := out { s with origs := s.origs ++ [{ rtag := q.rtag, pkt := q, sentAt := s.now, tile := n, id := a.id }], nextRtag := s.nextRtag + 1 }
    (s.send (s.dieServing (n / 8)).toList q, true)
  else
    let q := s.unitMk (.sched n) a.id p
    if s.roomFor q then ((out s).unitReq q, true)
    else (if e.held then s else (s.unitStall q).modRun n fun e => { e with held := true }, false)

/-- Writes to another device that wait and lie side by side in one line joined, so that a line leaves as one WR_LINE (R249).
(DESIGN CHOICE: log entry 62) -/
def joinLines (far : EAcc → Bool) : List EAcc → List EAcc
  | [] => []
  | a :: r =>
    match joinLines far r with
    | [] => [a]
    | b :: r =>
      if far a && far b && a.attempt = 0 && b.attempt = 0 && a.slot = b.slot && a.pva.toNat + a.len = b.pva.toNat
          && a.pva.toNat / 128 = b.pva.toNat / 128 then
        { a with len := a.len + b.len, data := a.data ||| b.data, mask := a.mask ||| b.mask, elem := min a.elem b.elem } :: r
      else a :: b :: r

/-- Whether a write of a scheduled operation goes to another device. -/
def SEntry.far (en : SEntry) (a : EAcc) : Bool := a.write && (match en.descOf a.slot true with | some d => d.kind == 3 | none => false)

/-- Whether an access that waits may be issued: a write to another device waits until its line is whole or the output has ended, so that each line
leaves once. (DESIGN CHOICE: log entry 62) -/
def SRun.mayIssue (r : SRun) (a : EAcc) : Bool :=
  a.attempt ≠ 0 || !r.ent.far a || decide ((a.pva.toNat + a.len) % 128 = 0) || r.eng.finished

/-- The next waiting write of a scheduled operation that may be issued for the first time. -/
def SRun.unsent (r : SRun) : Option EAcc := r.eng.retry.find? fun a => a.attempt = 0 && r.mayIssue a

/-- Waiting writes of a scheduled operation issued in order, until one finds no room. -/
def State.pumpRun (s : State) (n : Nat) (en : SEntry) : Nat → State
  | 0 => s
  | m + 1 =>
    match (s.tile n).srun with
    | none => s
    | some r => match r.unsent with
      | none => s
      | some a => match en.descOf a.slot true with
        | none => s
        | some d =>
          let (s', ok) := (s.modRun n fun e => { e with retry := e.retry.erase a }).issueSched n r d a
          if ok then s'.pumpRun n en m else s'.modRun n fun e => { e with retry := r.eng.retry }

/-- Writes of a scheduled operation issued in order; those that find no room wait. -/
def State.issueRun (s : State) (n : Nat) (en : SEntry) (l : List EAcc) : State :=
  (s.modRun n fun e => { e with retry := joinLines en.far (e.retry ++ l) }).pumpRun n en (l.length + 1)

/-- Reads ahead of a scheduled operation. -/
def State.prefetchRun (s : State) (n : Nat) (en : SEntry) : Nat → State
  | 0 => s
  | m + 1 =>
    match (s.tile n).srun with
    | none => s
    | some r =>
      let x := s.schedOpx n en r.pm
      match nextWant x r.eng with
      | none => s
      | some w => match schedPlace en false w.1 w.2.1, en.descOf w.1 false with
        | some (a, rem), some d =>
          let len := min rem w.2.2.2
          let (s, ok) := s.issueSched n r d { slot := w.1, pos := w.2.2.1, len := len, pva := BitVec.ofNat 48 a }
          if ok then (s.modRun n fun e => e.ask x w len).prefetchRun n en m else s
        | _, _ => s

/-- Result words of a piece merged into the window words of a slot (R249). -/
def mergeOut (anchor : Nat → Nat) (d : Desc) (p : Piece) (t : Tile) : Tile :=
  (List.range (p.2.2.length / 16)).foldl (fun t j =>
    let i := p.2.1 / 16 + j
    let w := d.win.toNat + i / 16384
    let a := anchor w
    t.setWord w (i % 16384) ((t.winWord a w (i % 16384)).merge a (.ofBits (ofLe ((p.2.2.drop (16 * j)).take 16))))) t

/-- Result pieces of an operation merged into the windows that its descriptors name. -/
def State.mergeWins (s : State) (n : Nat) (en : SEntry) (l : List Piece) : State :=
  s.modTile n fun t => l.foldl (fun t p => match en.descOf p.1 true with
    | some d => mergeOut (fun w => (s.land (16 * n + w)).anchor.toNat) d p t
    | none => t) t

/-- Whether a result piece goes to one of some windows. -/
def Piece.touches (p : Piece) (en : SEntry) (ws : List Nat) : Bool :=
  match en.descOf p.1 true with
  | some d => (List.range (p.2.2.length / 16)).any fun j => ws.contains (d.win.toNat + (p.2.1 / 16 + j) / 16384)
  | none => false

/-- The landing windows that an operation with CLEAR_IN reads. -/
def SEntry.clears (e : SEntry) (x : OpX) : List Nat :=
  if !e.clearIn then []
  else e.desc.flatMap fun d => if d.kind = 2 && d.slotIn ≠ 15 then
      let words := ((x.us.find? fun u => u.slot = d.slotIn.toNat && u.io = 0).map (·.elems)).getD 0
      (List.range ((words + 16383) / 16384)).map (d.win.toNat + ·)
    else []

/-- The landing windows of a tile that an entry of its table will empty. -/
def State.clearsOf (s : State) (n : Nat) (en : SEntry) : List Nat := en.clears (s.schedOpx n en ((s.tile n).armed.pm en))

/-- The landing windows of a tile that an entry will empty closed to contributions, from START on (R262). -/
def State.setLate (s : State) (n : Nat) (en : SEntry) : State :=
  s.each (s.clearsOf n en) fun s w => s.modLand (16 * n + w) fun l => { l with late := l.sched }

/-- Windows opened to contributions again, but for those that an entry whose START has passed, and which waits for the engine, will empty
(R262). -/
def State.reopen (s : State) (n : Nat) (ws : List Nat) : State :=
  let due := (s.tile n).swait.flatMap fun x => s.clearsOf n ((s.tile n).armed.entries[x.1]?.getD {})
  s.each ws fun s w => s.modLand (16 * n + w) fun l => { l with late := due.contains w && l.sched }

/-- Every contribution that was routed to some windows of a tile before START absorbed, in order, ahead of the operation that reads them.
(DESIGN CHOICE: log entry 62) -/
def State.absorbAll (s : State) (n : Nat) (ws : List Nat) : State :=
  let l := (s.tile n).lands
  let s := s.modTile n fun t => { t with lands := l.filter fun x => !ws.contains x.win }
  s.each (l.filter fun x => ws.contains x.win) fun s x => s.absorbOne n x.win x.req

/-- A scheduled operation starts (R260): counted. Contributions to the landing windows that it will empty have taken the DRAM path since its
START; those routed before are absorbed now, before it reads (R262). On a disabled tile the firing fails without an access (R504).
(DESIGN CHOICE: log entry 62) -/
def State.startOp (s : State) (n entry cycle : Nat) : State :=
  let s := s.bump (tileBlk n) 9
  let en := (s.tile n).armed.entries[entry]?.getD {}
  if (s.tile n).kat.health = 2 then (s.reopen n (s.clearsOf n en)).schedFailed n entry cycle stAborted
  else
    let pm := (s.tile n).armed.pm en
    let x := s.schedOpx n en pm
    let cyc := 16 * max 1 ((s.sched.running.map (·.cycle)).getD 1)
    let dl := s.sched.runStart + cycle * cyc + 16 * (en.start + en.deadline)
    let s := (s.setLate n en).absorbAll n (en.clears x)
    s.modTile n fun t => { t with srun := some { entry := entry, ent := en, pm := pm, cycle := cycle, deadline := dl, firedAt := s.now
                                                 eng := { nextId := t.nextId, blockAt := s.now, blockFt := s.hubNs, phase := if x.windowed then 0 else 1 } } }

/-- Whether the engine of a tile can start a scheduled operation: no job holds it, and no test segment runs (R499). -/
def State.canStart (s : State) (n : Nat) : Bool := (s.tile n).running.isNone && (s.tile n).srun.isNone && !((s.tile n).kat.running && !(s.tile n).kat.paused)

/-- The due entry that waits longest starts when the engine is free (R260). -/
def State.startDue (s : State) (n : Nat) : State :=
  match (s.tile n).swait with
  | [] => s
  | (e, c) :: rest => if s.canStart n then (s.modTile n fun t => { t with swait := rest }).startOp n e c else s

/-- A scheduled operation ends (R262, R263): its windows to be cleared are emptied and then take its results (R247), its time is counted, the
next due one starts, and jobs that it stopped are READY. (DESIGN CHOICE: log entry 62) -/
def State.endOp (s : State) (n : Nat) : State :=
  match (s.tile n).srun with
  | none => s
  | some r =>
    let en := r.ent
    let ws := en.clears (s.schedOpx n en r.pm)
    let s := s.time (tileBlk n) 1 (s.now - r.firedAt)
    let s := s.modTile n fun t => { ws.foldl (fun t w => t.clearWin w) t with srun := none, nextId := r.eng.nextId }
    let s := ((s.mergeWins n en r.after).reopen n ws).startDue n
    let s := if (s.tile n).srun.isNone then s.modTile n fun t => { t with kat := { t.kat with paused := false, segAt := s.now } } else s
    s.rouse n

/-- A scheduled operation ends when its output is written, or after a failure, once no access is outstanding. -/
def State.tryEndOp (s : State) (n : Nat) : State :=
  match (s.tile n).srun with
  | none => s
  | some r => if r.eng.quietNow && (r.eng.failed || (r.eng.finished && r.eng.retry.isEmpty)) then s.endOp n else s

/-- An access, or an index, of a scheduled operation fails (R263): it ends for that cycle, and issues nothing further. -/
def State.failOp (s : State) (n : Nat) (st : Status) : State :=
  match (s.tile n).srun with
  | none => s
  | some r =>
    if r.eng.failed then s.tryEndOp n
    else ((s.modRun n fun e => { e with failed := true }).schedFailed n r.entry r.cycle st).tryEndOp n

/-- A block of the scheduled operation of a tile: result words of a window that CLEAR_IN empties are kept until it is empty (R247), and reads
ahead wait while a write has found no room (R279). (DESIGN CHOICE: log entries 53, 62) -/
def State.schedBlock (s : State) (n elems pre : Nat) : State :=
  match (s.tile n).srun with
  | none => s
  | some r =>
    if r.eng.failed then s.tryEndOp n
    else
      let en := r.ent
      let x := s.schedOpx n en r.pm
      let (e, t, out, bad) := opRun x (blockSteps x elems) r.eng (s.tile n) []
      let s := s.setTile n { t with srun := some { r with eng := { e with blockAt := s.now } } }
      let ps := joinPieces [] out
      let toWin := fun (p : Piece × Nat) => match en.descOf p.1.1 true with | some d => d.kind = 2 | none => false
      let wins := (ps.filter toWin).map (·.1)
      let waits := fun (p : Piece) => p.touches en (en.clears x)
      let s := s.mergeWins n en (wins.filter fun p => !waits p)
      let s := s.modTile n fun t => { t with srun := t.srun.map fun r => { r with after := r.after ++ wins.filter waits } }
      let ws := (ps.filter fun p => !toWin p).flatMap fun p =>
        writesOf (schedPlace en true) p.1.1 p.2 0 (p.1.2.2.length + 1) p.1.2.1 p.1.2.2
      let s := s.issueRun n en ws
      match bad with
      | some _ => s.failOp n stDenied
      | none => (if ((s.tile n).srun.bind (·.unsent)).isSome then s else s.prefetchRun n en pre).tryEndOp n

/-! ### The rows -/

/-- What the capper lets issue of a block's elements or reads ahead (R519): nothing once level 1 has taken dynamic issue, or that of scheduled
operations, down to zero; the steps before that change times only. (DEDUCED: log entry 74) -/
def Pwr.issue (p : Pwr) (sched : Bool) (m : Nat) : Nat :=
  let zero := if sched then p.schedThr = 16 else p.schedThr ≠ 0 || (p.level = 1 && p.step = 15)
  if zero then 0 else m

/-- BLOCK_END (R159): a block of the scheduled operation, or else of the dynamic job, ends; `elems` elements are processed at most, and
`prefetch` reads are sent ahead. (DESIGN CHOICE: log entry 53) -/
def execBlockEnd (tile : Fin 32) (elems prefetch : Nat) (s : State) : Host.Outcome State Fault Refusal :=
  let n := tile.val
  if (s.tile n).srun.isSome then .next (s.schedBlock n (s.pwr.issue true elems) (s.pwr.issue true prefetch))
  else match (s.tile n).running with
    | some k => .next (((s.jobBlock n k (s.pwr.issue false elems) (s.pwr.issue false prefetch)).startDue n).invalCheck)
    | none => .next (s.startDue n)

/-- A completed read's bytes put in the stream buffer. -/
def Eng.take (e : Eng) (a : EAcc) (d : Line) : Eng := e.fill a.slot a.pos (cutBytes d (a.pva.toNat % 128) a.len)

/-- An access to be sent again after a RETRY (R120, R121, R161). -/
def EAcc.again (a : EAcc) (d : EDone) : EAcc := { a with attempt := min 15 (a.attempt + 1), readyAt := d.at_ + 64 * 2 ^ d.backoff.toNat }

/-- The completion catcher takes a completion of a job (R159, R161, R165). -/
def State.jobDone (s : State) (n k : Nat) (d : EDone) : State :=
  let j := s.job n k
  let e := { j.eng with done := j.eng.done.drop 1 }
  match e.out.find? (·.id = d.id) with
  | none => s.modJob n k fun j => { j with eng := e }
  | some a =>
    let e := { e with out := e.out.filter (·.id ≠ d.id) }
    let on := (s.tile n).running = some k
    let e := if d.status = stRetry then { e with retry := e.retry ++ [a.again d] }
      else if d.status = stOk then (if a.write || !on then e else e.take a d.data)
      else if a.write then { e with retry := e.retry ++ [a] } else e
    let s := s.modJob n k fun j => { j with eng := e }
    let s := if d.status = stRetry || d.status = stOk then s else s.failJob n k d.status a.stage a.pva
    ((((s.tryDone n k).tryStop n k).tryEnd n k).startDue n).invalCheck

/-- The completion catcher takes a completion of a scheduled operation (R263). -/
def State.opDone (s : State) (n : Nat) (r : SRun) (d : EDone) : State :=
  let e := { r.eng with done := r.eng.done.drop 1 }
  let put := fun (e : Eng) => s.modTile n fun t => { t with srun := some { r with eng := e } }
  match e.out.find? (·.id = d.id) with
  | none => put e
  | some a =>
    let e := { e with out := e.out.filter (·.id ≠ d.id) }
    if d.status = stRetry then (put { e with retry := e.retry ++ [a.again d] }).tryEndOp n
    else if d.status = stOk then (put (if a.write then e else e.take a d.data)).tryEndOp n
    else (put e).failOp n d.status

/-- ENGINE_ACCESS_COMPLETE (R165): the next completion of the tile's scheduled operation, or else of its jobs in slot order, is taken.
(DESIGN CHOICE: log entry 53) -/
def execEngineAccessComplete (tile : Fin 32) (s : State) : Host.Outcome State Fault Refusal :=
  let n := tile.val
  let t := s.tile n
  match t.srun.bind fun r => r.eng.done.head?.map fun d => (r, d) with
  | some (r, d) => .next (s.opDone n r d)
  | none => match t.slots.find? fun k => !(t.job k).eng.done.isEmpty with
    | some k => match (t.job k).eng.done.head? with
      | some d => .next (s.jobDone n k d)
      | none => .next s
    | none => .next s

/-- ENGINE_RETRY_REISSUE (R161): the first access of the operation in the engine whose wait is over is issued again, unless the capper has taken
its issue down to zero (R519). -/
def execEngineRetryReissue (tile : Fin 32) (s : State) : Host.Outcome State Fault Refusal :=
  let n := tile.val
  let due := fun (e : Eng) (may : EAcc → Bool) => e.retry.find? fun a => decide (a.readyAt ≤ s.now) && may a
  if s.pwr.issue (s.tile n).srun.isSome 1 = 0 then .next s else
  match (s.tile n).srun, (s.tile n).running with
  | some r, _ =>
    if r.eng.failed then .next s
    else match due r.eng r.mayIssue with
      | none => .next s
      | some a => match r.ent.descOf a.slot a.write with
        | none => .next s
        | some d =>
          let (s', ok) := (s.modRun n fun e => { e with retry := e.retry.erase a }).issueSched n r d a
          .next (if ok then s' else s'.modRun n fun e => { e with retry := r.eng.retry })
  | none, some k =>
    if (s.job n k).st ≠ .running then .next s
    else match due (s.job n k).eng fun _ => true with
      | none => .next s
      | some a =>
        match (s.modJob n k fun j => { j with eng := { j.eng with retry := j.eng.retry.erase a } }).issueJob n k a with
        | .sent s => .next s
        | .stall s' => .next (s'.putBack n k (s.job n k).eng.retry)
        | .ended s => .next s.invalCheck
  | none, none => .next s

end Sys2Proof.Machine
end

