-- ==== Sys2Proof/Machine/Kat.lean ====
section
/-! DEFINITION. Known-answer tests and the health of tiles (R499 to R504), and engine faults (R164). -/
namespace Sys2Proof.Machine

/-- FT between periodic tests, and between tests of a suspect tile, in ns (R500, R502). -/
def katPeriod : Nat := 600000000000
/-- (DEDUCED: log entry 67) -/
def katSuspect : Nat := 1000000000

/-- A test falls due. -/
def State.katSetDue (s : State) (n : Nat) (trigger : Byte) : State :=
  s.modTile n fun t => { t with kat := { t.kat with due := true, trigger := trigger } }

/-- KAT_DUE (R500): 256 jobs have ended on the tile since its last test, or 10 minutes of FT have passed. (DEDUCED: log entry 67) -/
def execKatDue (tile : Fin 32) (s : State) : Host.Outcome State Fault Refusal :=
  let n := tile.val
  let k := (s.tile n).kat
  if s.stew.released && !s.tileDead n && !k.due && !k.running && (k.jobs = 256 || k.lastNs + katPeriod ≤ s.ftNs) then .next (s.katSetDue n 0)
  else .next s

/-- SUSPECT_TEST_DUE (R502): 1 s has passed since the last test of a suspect tile. (DEDUCED: log entry 67) -/
def execSuspectTestDue (tile : Fin 32) (s : State) : Host.Outcome State Fault Refusal :=
  let n := tile.val
  let k := (s.tile n).kat
  if s.tileEn n && k.health = 1 && !k.due && !k.running && k.lastNs + katSuspect ≤ s.ftNs then .next (s.katSetDue n 1) else .next s

/-- The ended jobs of a tile whose completions are held for the test that follows them (R503). -/
def Tile.heldJobs (t : Tile) : List (Nat × BitVec 21) :=
  (t.slots.filter fun k => (t.job k).st == .ending && (t.job k).heldKat && !(t.job k).handed).map fun k => (k, (t.job k).inc)

/-- The march pattern over the tile's FREE windows (R499): nothing of what they held stays. (DESIGN CHOICE: log entry 91) -/
def State.march (s : State) (n : Nat) : State := s.each (s.freeWins n) fun s w => s.modTile n fun t => t.clearWin w

/-- KAT_START (R499, R500, R229): a due test on an engine without a running job or scheduled operation. The tile's landing chunks are released
first, and noted to be placed again after the test; the test starts when none is left. (DEDUCED: log entry 67; DESIGN CHOICE: log entry 91) -/
def execKatStart (tile : Fin 32) (s : State) : Host.Outcome State Fault Refusal :=
  let n := tile.val
  let t := s.tile n
  if t.kat.due && !t.kat.running && !s.tileDead n && t.running.isNone && t.srun.isNone && t.swait.isEmpty && !t.gated then
    let l := s.chunksOf n false
    if !l.isEmpty then
      let s := s.modTile n fun t => { t with kat := { t.kat with replace := t.kat.replace ++ l.map (·.2) } }
      .next (s.each l fun s x => s.releaseWin n x.1)
    else if (List.range 16).any fun w => (s.land (16 * n + w)).v && !(s.land (16 * n + w)).sched then .next s
    else
      let s := s.modTile n fun t =>
        { t with kat := { t.kat with due := false, running := true, paused := false, began := s.ftNs, segAt := s.now, covers := t.heldJobs } }
      .next ((s.march n).bump (tileBlk n) 14)
  else .next s

/-- The engine time of a segment counted. -/
def State.katTime (s : State) (n : Nat) : State :=
  if (s.tile n).kat.paused then s else s.time (tileBlk n) 2 (s.now - (s.tile n).kat.segAt)

/-- KAT_SEGMENT_END (R499): a due scheduled operation runs, and the test goes on after it; otherwise the next segment begins.
(DEDUCED: log entry 67; DESIGN CHOICE: log entry 81) -/
def execKatSegmentEnd (tile : Fin 32) (s : State) : Host.Outcome State Fault Refusal :=
  let n := tile.val
  let k := (s.tile n).kat
  if k.running && !k.paused then
    let s := ((s.katTime n).modTile n fun t => { t with kat := { t.kat with paused := true } }).startDue n
    .next (if (s.tile n).srun.isSome then s else s.modTile n fun t => { t with kat := { t.kat with paused := false, segAt := s.now } })
  else .next s

/-- A chunk placed in a window of its quadrant after a test (R226, R229), when its extent still combines and it is resident nowhere. -/
def State.placeAgain (s : State) (q : Nat) (x : Nat × Nat) : State :=
  let e := s.ext x.1
  let c := s.comb e.protRef.toNat
  if e.state = 1 && e.combine && c.valid && !c.clearing && (s.landOf x.1 x.2).isNone then
    match s.tileFor q fun m => s.tileDead m with
    | some m => match s.freeWins m with
      | w :: _ => s.placeChunk m w x.1 x.2
      | [] => s
    | none => s
  else s

/-- The completions that a test covers are handed off (R503): unchanged after a pass, and with ENGINE_FAULT after a failure. Those of jobs that
ended after the test began wait for the next one. -/
def State.katRelease (s : State) (n : Nat) (pass : Bool) (covers : List (Nat × BitVec 21)) : State :=
  let held := ((s.tile n).heldJobs.filter covers.contains).map (·.1)
  s.each held fun s k => (if pass then s.modJob n k fun j => { j with heldKat := false }
    else s.modJob n k fun j => { j with cause := jcEngine }).handOff n k

/-- What waits for a test is answered with its result (R449). (DEDUCED: log entry 67) -/
def State.katReply (s : State) (n : Nat) (pass : Bool) : State :=
  let g := fun (c : Cmd) => if c.waits.contains (.test n) then { c with result := BitVec.ofNat 1920 (b2n pass) } else c
  ({ s with cmds := s.cmds.map g }).wake (.test n)

/-- A pass in a suspect episode (R502): counted; 64 passes and 10 minutes since the last failure make the tile NORMAL. (DEDUCED: log entry 67) -/
def State.katPass (s : State) (n : Nat) : State :=
  let k := (s.tile n).kat
  if k.health ≠ 1 then s
  else
    let p := min 64 (k.passes + 1)
    if p = 64 && k.lastFail + katPeriod ≤ s.now then
      (s.modTile n fun t => { t with kat := { k with health := 0, fails := 0, passes := p } }).logErr
        (errRec 0x43 0 none (0x1000 + n) (packBytes [(0, 1, p)]))
    else s.modTile n fun t => { t with kat := { k with passes := p } }

/-- A test ends (R499 to R504): its result is kept, the health of the tile follows, held completions are handed off, jobs that the test stopped
are READY, and its landing chunks are placed again. `rec` is the record of a failed vector. (DEDUCED: log entries 54, 67) -/
def State.katFinish (s : State) (n : Nat) (pass : Bool) (rec : Nat → Option ErrRec) : State :=
  let k0 := (s.tile n).kat
  let s := s.katTime n
  let s := s.modTile n fun t =>
    { t with kat := { t.kat with running := false, paused := false, force := false, lastPass := pass, jobs := 0, replace := [], covers := []
                                 lastMs := BitVec.ofNat 32 (s.ftNs / 1000000), lastNs := s.ftNs } }
  let s := if pass then s.katPass n else s
  let (s, dead) := if pass then (s, false) else s.tileFails n
  let s := if pass then s else s.bump (tileBlk n) 15
  let s := match rec (s.tile n).kat.fails with | some r => s.logErr r | none => s
  let s := (s.katRelease n pass k0.covers).katReply n pass
  let s := if dead then s.disableTile n else s
  let s := (s.startDue n).rouse n
  s.each k0.replace fun s x => s.placeAgain (n / 8) x

/-- The CRC-32C of the output that each vector has left in the tile's part of the scratch (R499), after a test with a result.
(DESIGN CHOICE: log entry 91) -/
def State.katOuts (s : State) (r : KatResult) : Tbl (BitVec 32) :=
  let good := s.vectors.mapIdx fun i v => (i, v.crc)
  match r with
  | .pass => good
  | .fail _ elem _ actual => tput 0 good elem.toNat (actual.setWidth 32)

/-- Whether a test can end with a result (R499): a vector fails when the CRC-32C of its output differs from the one that the flash holds for it.
(DESIGN CHOICE: log entry 91) -/
def State.katFails (s : State) (elem : BitVec 32) (expected actual : BitVec 64) : Bool :=
  expected.setWidth 32 != actual.setWidth 32 && (s.vectors[elem.toNat]?).all fun v => v.crc == expected.setWidth 32

/-- KAT_END (R499, R502). (DEDUCED: log entry 67) -/
def execKatEnd (tile : Fin 32) (r : KatResult) (s : State) : Host.Outcome State Fault Refusal :=
  let n := tile.val
  let k := (s.tile n).kat
  let ran := s.modTile n fun t => { t with kat := { t.kat with outs := s.katOuts r } }
  if !k.running then .next s
  else match r with
    | .pass => .next (ran.katFinish n true fun _ => none)
    | .fail test elem expected actual => if !s.katFails elem expected actual then .next s else .next (ran.katFinish n false fun fails =>
        some (errRec 0x41 2 none (0x1000 + n) (packBytes [(0, 2, elem.toNat), (2, 1, test.toNat), (3, 1, k.trigger.toNat), (4, 1, fails),
          (8, 4, expected.toNat), (12, 4, actual.toNat)])))

/-- ENGINE_FAULT (R164, R502): the checking logic detects an error while a job or a scheduled operation runs, or during a test, of which it is
the failure (R514). A job that is already marked to end with another cause keeps it; the spec is silent on the two together (DESIGN CHOICE:
log entry 53). (DEDUCED: log entry 54) -/
def execEngineFault (tile : Fin 32) (checker : Byte) (s : State) : Host.Outcome State Fault Refusal :=
  let n := tile.val
  let t := s.tile n
  match t.running, t.srun with
  | some k, _ =>
    let j := s.job n k
    let st := j.nstage - 1
    let s := s.logErr (engineFaultRec n (jobId n k j) (opcAt j.op st) st checker.toNat j.eng.elem j.part)
    let s := s.bump (tileBlk n) 16
    let (s, dead) := s.tileFails n
    let s := if j.mark.isSome then s.safePoint n k else s.endRun n k jcEngine 0 st 0 none
    .next ((if dead then s.disableTile n else s).startDue n)
  | none, some r =>
    let s := s.logErr { engineFaultRec n 0xFFFFFFFF (opcAt r.ent.opblk.toNat 0) 0 checker.toNat r.eng.elem 0 with part := none }
    let s := s.bump (tileBlk n) 16
    let (s, dead) := s.tileFails n
    let s := s.failOp n stAborted
    .next (if dead then s.disableTile n else s)
  | none, none =>
    if t.kat.running && !t.kat.paused then
      let s := s.logErr { engineFaultRec n 0xFFFFFFFF 0 0 checker.toNat 0 0 with part := none }
      .next ((s.bump (tileBlk n) 16).katFinish n false fun _ => none)
    else .next s

end Sys2Proof.Machine
end

