-- ==== Sys2Proof/Machine/Combs.lean ====
section
/-! DEFINITION. The commands of combining extents (R221, R226 to R231, R443). -/
namespace Sys2Proof.Machine

/-- The combine record of an extent, and a change of it. -/
def State.combOf (s : State) (i : Nat) : Comb := s.comb (s.ext i).protRef.toNat

/-- Whether a session that the extent's partition needs is established (R467). (DESIGN CHOICE: log entry 49) -/
def State.sessOk (s : State) (i : Nat) : Bool := !(s.ext i).conf || (s.part (s.ext i).owner.toNat).sess == 1

/-- Whether FMT is a contribution format (R221). -/
def combFmt (f : Nat) : Bool := match elemOf f with | some e => !e.isMx | none => false

/-- COMBINE_SETUP. (DESIGN CHOICE: log entry 51) -/
def setupForm : CmdForm :=
  { op := 0x0701, part := true, conf := .own, len := fun _ => 6, fields := bytesOf [(0, 3), (4, 1), (5, 1)]
    names := fun a => [(oExt, xhIdx (arg a 0 3))] }

/-- A zero-fill of a combining extent begins (R226). (DESIGN CHOICE: log entry 51) -/
def State.zeroFill (s : State) (i : Nat) (f : Comb → Comb) : Answer :=
  await ((s.modComb (s.ext i).protRef.toNat fun c => { f c with clearing := true }).fillStart i) [.zeroFill i]

/-- COMBINE_SETUP's row. (DESIGN CHOICE: log entry 51) -/
def combineSetup (s : State) (c : Cmd) (a : Nat) : Answer :=
  let i := xhIdx (arg a 0 3)
  let fmt := arg a 4 1; let anchor := arg a 5 1
  let r := s.combOf i
  if !s.live (arg a 0 3) || !(s.ext i).combine || r.resident ≠ 0 || r.clearing || !s.sessOk i then fail s csBadState
  else if !combFmt fmt || 0x7F ≤ anchor then refuse s c wStructure csBadArg
  else s.zeroFill i fun r => { r with fmt := BitVec.ofNat 5 fmt, anchor := BitVec.ofNat 7 anchor, valid := false }

/-- COMBINE_SETUP (R226). -/
def execCombineSetup (mb : MbId) (s : State) : Host.Outcome State Fault Refusal := s.ran setupForm mb combineSetup

/-- COMBINE_CLEAR. -/
def clearForm : CmdForm :=
  { op := 0x0702, part := true, conf := .own, len := fun _ => 3, fields := bytesOf [(0, 3)], names := fun a => [(oExt, xhIdx (arg a 0 3))] }

/-- COMBINE_CLEAR's row: VALID = 1 and RESIDENT = 0; FMT and ANCHOR stay. -/
def combineClear (s : State) (_ : Cmd) (a : Nat) : Answer :=
  let i := xhIdx (arg a 0 3)
  let r := s.combOf i
  if !s.live (arg a 0 3) || !(s.ext i).combine || !r.valid || r.clearing || r.resident ≠ 0 then fail s csBadState
  else s.zeroFill i fun r => r

/-- COMBINE_CLEAR (R226). -/
def execCombineClear (mb : MbId) (s : State) : Host.Outcome State Fault Refusal := s.ran clearForm mb combineClear

/-- The home quadrant of a chunk. (DESIGN CHOICE: log entry 51) -/
def State.chunkQuad (s : State) (i chunk : Nat) : Nat := granStack (s.extGran (s.ext i) (chunk / 8)) / 2

/-- Whether the armed image holds a chunk (R262). -/
def State.imageHolds (s : State) (i chunk : Nat) : Bool := s.lands.any fun e => e.2.sched && e.2.v && e.2.ext == i && e.2.chunk == chunk

/-- Whether a window of the armed image waits for a chunk of a range: what the window held is still draining (R262). -/
def Land.awaits (l : Land) (i first n : Nat) : Bool :=
  match l.due with
  | some (true, e, c, _) => e == i && decide (first ≤ c) && decide (c < first + n)
  | _ => false

/-- Whether a chunk is resident or DRAINING, or the armed image holds it (R226, R262). -/
def State.isResident (s : State) (i chunk : Nat) : Bool :=
  s.lands.any fun e => (e.2.v && e.2.ext == i && e.2.chunk == chunk) || e.2.awaits i chunk 1

/-- The chunks of a list placed in ascending order, or none when one finds no FREE window (R226). (DESIGN CHOICE: log entry 51) -/
def State.placeChunks (s : State) (i : Nat) : List Nat → Option State
  | [] => some s
  | c :: r => match s.tileFor (s.chunkQuad i c) s.tileDead with
    | none => none
    | some n => match s.freeWins n with
      | [] => none
      | w :: _ => (s.placeChunk n w i c).placeChunks i r

/-- COMBINE_RESIDE. -/
def resideForm : CmdForm :=
  { op := 0x0703, part := true, conf := .own, len := fun _ => 12, fields := bytesOf [(0, 3), (4, 4), (8, 4)]
    names := fun a => [(oExt, xhIdx (arg a 0 3))] }

/-- Whether a chunk range is not empty, at most 512 chunks, and inside the extent. -/
def State.chunksOk (s : State) (i first n : Nat) : Bool :=
  decide (1 ≤ n) && decide (n ≤ 512) && decide (first + n ≤ 8 * (s.ext i).size.toNat)

/-- COMBINE_RESIDE's row: VALID = 1 and CLEARING = 0, no chunk resident; all or nothing. -/
def combineReside (s : State) (_ : Cmd) (a : Nat) : Answer :=
  let i := xhIdx (arg a 0 3)
  let r := s.combOf i
  let first := arg a 4 4; let n := arg a 8 4
  if !s.live (arg a 0 3) || !(s.ext i).combine || !r.valid || r.clearing then fail s csBadState
  else if !s.chunksOk i first n then fail s csBadArg
  else
    let l := (List.range n).map (first + ·)
    if l.any (s.isResident i) then fail s csBadState
    else match s.placeChunks i l with
      | some s => done s
      | none => fail s csNoResource

/-- COMBINE_RESIDE (R226). -/
def execCombineReside (mb : MbId) (s : State) : Host.Outcome State Fault Refusal := s.ran resideForm mb combineReside

/-- COMBINE_RELEASE. -/
def releaseForm : CmdForm := { resideForm with op := 0x0704 }

/-- The windows that hold chunks of a range of an extent. -/
def State.winsOf (s : State) (i first n : Nat) : List Nat :=
  (s.lands.filter fun e => e.2.v && e.2.ext = i && decide (first ≤ e.2.chunk) && decide (e.2.chunk < first + n)).map (·.1)

/-- COMBINE_RELEASE's row: each resident chunk of the range drains; chunks that are not resident are skipped. -/
def combineRelease (s : State) (_ : Cmd) (a : Nat) : Answer :=
  let i := xhIdx (arg a 0 3)
  let first := arg a 4 4; let n := arg a 8 4
  if !s.live (arg a 0 3) || !(s.ext i).combine then fail s csBadState
  else if !s.chunksOk i first n then fail s csBadArg
  else
    let l := s.winsOf i first n
    if (l.any fun k => (s.land k).sched) || s.lands.any (fun e => e.2.awaits i first n) then fail s csBadState
    else
      let s := s.each l fun s k => s.releaseWin (k / 16) (k % 16)
      await s ((l.filter fun k => (s.land k).v && (s.land k).ext == i).map fun k => .window (k / 16) (k % 16))

/-- COMBINE_RELEASE (R228). -/
def execCombineRelease (mb : MbId) (s : State) : Host.Outcome State Fault Refusal := s.ran releaseForm mb combineRelease

end Sys2Proof.Machine
end

