-- ==== Sys2Proof/Machine/Inval.lean ====
section
/-! DEFINITION. Steps 1 and 2 of INVALIDATE_RANGE (R89 to R92). -/
namespace Sys2Proof.Machine

/-- The first byte of an entry's page and the page's size. -/
def Rpl.page (r : Rpl) : Nat × Nat := (r.pva.toNat * 4096, 2 ^ (12 + 9 * r.size.toNat))

/-- Whether a page overlaps [lo, hi). -/
def Rpl.overlaps (r : Rpl) (lo hi : Nat) : Bool := decide (r.page.1 < hi) && decide (lo < r.page.1 + r.page.2)

/-- The parts of a job's ranges that lie in a page. (DEDUCED: log entry 55) -/
def Job.redo (j : Job) (r : Rpl) : List (BitVec 48 × Nat × BitVec 2) :=
  j.ranges.filterMap fun g =>
    let lo := max g.pva.toNat r.page.1
    let hi := min (g.pva.toNat + g.len.toNat) (r.page.1 + r.page.2)
    if lo < hi then some (BitVec.ofNat 48 lo, hi - lo, g.acc) else none

/-- A job whose affected entries are to be resolved again. -/
def Job.unresolve (j : Job) (lo hi : Nat) : Job :=
  let hit := j.rpl.filter fun r => r.overlaps lo hi
  { j with rpl := j.rpl.filter fun r => !r.overlaps lo hi, todo := j.todo ++ hit.flatMap j.redo }

/-- A walk that starts its page again from the root. (DEDUCED: log entry 55) -/
def Walk.again (w : Walk) (c : Ctx) : Walk :=
  if w.waiting || w.ready.isSome then { w with restart := true } else w.root c

/-- Steps 1 and 2 of R89 at a job: a resolving job walks the affected pages again, a running one is stopped, and what has started is
re-resolved before it goes on; an ending one only completes its accesses (R92). A READY job counts as SUSPENDED while its entries are
re-resolved, without having run: R92 only says that they are, and R153 names no state for it (DESIGN CHOICE: log entry 53). -/
def State.invalJob (s : State) (n k lo hi : Nat) : State :=
  let j := s.job n k
  let c := s.ctx j.cid.toNat
  let walking := (s.tile n).walk.any (·.slot = k)
  let s := if walking && j.st ≠ .ending then
    s.modTile n fun t => { t with walk := t.walk.map fun w => w.again c } else s
  if !j.rpl.any (fun r => r.overlaps lo hi) then s
  else match j.st with
    | .resolving => s.modJob n k fun j => j.unresolve lo hi
    | .ready => s.modJob n k fun j => { j.unresolve lo hi with st := .suspended, stop := j.lastStop, reres := true }
    | .running => (s.modJob n k fun j => { j.unresolve lo hi with reres := true }).askStop n .inval
    | .stopping => s.modJob n k fun j => { j.unresolve lo hi with reres := true }
    | .suspended => s.modJob n k fun j => { j.unresolve lo hi with reres := true }
    | .ending => if j.eng.quietNow then s else s.modJob n k fun j => { j with reres := true }
    | _ => s

/-- Steps 1 and 2 of R89 for the contexts that INVALIDATE_RANGE names: the range is widened to 4 KiB boundaries, what the walkers cache of it
is removed, and their jobs are re-resolved. -/
def State.invalRange (s : State) (p cid : Nat) (all : Bool) (base len : Nat) : State :=
  let lo := base / 4096 * 4096
  let hi := (base + len + 4095) / 4096 * 4096
  let mine := fun (c : Cid) => if all then cidPart c == p else c.toNat == cid
  let s := s.purge fun e => mine e.cid && decide (e.pfx * 2 ^ spanBits e.level < hi) && decide (lo < (e.pfx + 1) * 2 ^ spanBits e.level)
  s.each s.tileList fun s n => s.each ((s.tile n).slots.filter fun k => mine (s.job n k).cid) fun s k => s.invalJob n k lo hi

end Sys2Proof.Machine
end

