-- ==== Sys2Proof/Machine/Takeover.lean ====
section
/-! DEFINITION. The management cores: the heartbeat, takeovers (R419 to R424, R435) and the switchover commit (R453, R466, R479, R480). -/
namespace Sys2Proof.Machine

/-! ### Triggers -/

/-- NO_FIRMWARE set, with its fatal record: reason 1 the claim is exhausted, 2 no standby, 3 both cores failed (R421, R424, R429, R496).
(DESIGN CHOICE: log entry 68) -/
def State.setNoFw (s : State) (reason : Nat) : State :=
  { s with stew := { s.stew with noFw := true, step := .none } }.logErr (errRec 0x61 3 none 0 reason)

/-- The largest claim number. -/
def maxClaim : BitVec 32 := 0xFFFFFFFF

/-- A trigger of R419 with a cause: the standby is released and boots, or no takeover can start (R421, R424). (DESIGN CHOICE: log entry 68) -/
def State.coreTrigger (s : State) (cause : BitVec 3) : State :=
  let w := s.stew
  if !w.released || w.noFw || 2 ≤ s.pwr.state.toNat then s
  else if w.standby ≠ 0 then s.setNoFw 2
  else if w.claim = maxClaim then s.setNoFw 1
  else { s with stew := { w with standby := 1, lastCause := cause, step := .booting, heartbeat := s.now } }

/-- HEARTBEAT_WRITE (R419). -/
def execHeartbeatWrite (s : State) : Host.Outcome State Fault Refusal :=
  if s.stew.released && !s.stew.noFw then .next { s with stew := { s.stew with heartbeat := s.now } } else .next s

/-- HEARTBEAT_WATCHDOG (R419): 20 ms without a heartbeat, outside the boot of a takeover that has already been triggered.
(DESIGN CHOICE: log entry 68) -/
def execHeartbeatWatchdog (s : State) : Host.Outcome State Fault Refusal :=
  if s.stew.step ≠ .booting && s.stew.heartbeat + 20000000 ≤ s.now then .next (s.coreTrigger 1) else .next s

/-- CORE_FAULT (R419). (DESIGN CHOICE: log entry 68) -/
def execCoreFault (s : State) : Host.Outcome State Fault Refusal := .next (s.coreTrigger 2)

/-! ### A takeover -/

/-- The claim that an output stage holds (R421). -/
def Stew.held (w : Stew) : OutStage → BitVec 32
  | .warden => w.claim
  | .reply => w.claimReply
  | .link => w.claimLink

/-- An output stage holds a claim. -/
def Stew.hold (w : Stew) (g : OutStage) (c : BitVec 32) : Stew :=
  match g with
  | .warden => { w with claim := c }
  | .reply => { w with claimReply := c }
  | .link => { w with claimLink := c }

/-- A core presents a claim with a write to an output stage (R421): a lower one than the stage holds is refused with CLAIM, counted in
MC_CLAIM_REFUSED and, at Warden's port, as its refusals are (R428); the presenting core halts. Which write it was the spec does not say,
so its token and address are free values. (DESIGN CHOICE: log entry 68) -/
def State.present (s : State) (g : OutStage) (c : BitVec 32) : State :=
  if (s.stew.held g).toNat ≤ c.toNat then { s with stew := s.stew.hold g c }
  else
    let s := s.bump devBlk 7
    if g = .warden then
      let (t, s) := s.draw 64
      let (v, s) := s.draw (2 ^ 32)
      { s with stew := { s.stew with wardenCode := BitVec.ofNat 8 wClaim, wardenToken := BitVec.ofNat 6 t, wardenAddr := BitVec.ofNat 32 v } }.bump devBlk 6
    else s

/-- The standby presents claim + 1 to the three output stages, which accept it because it is higher, becomes active and holds the old core in
reset (R421, R423). -/
def Stew.claimed (w : Stew) (next : CoreStep) (at_ : Nat) : Stew :=
  let c := w.claim + 1
  { ((w.hold .warden c).hold .reply c).hold .link c with active := !w.active, step := next, heartbeat := at_ }

/-- TAKEOVERS after a takeover. -/
def Stew.counted (w : Stew) : Stew := { w with takeovers := if w.takeovers = 0xFFFF then w.takeovers else w.takeovers + 1 }

/-- STANDBY_BOOT_DONE (R421, R423): the new core's claim is held by the output stages; the old core, before it is held in reset, may come out of a
stall and write to one of them, which refuses the write. A standby that does not boot leaves no core. (DESIGN CHOICE: log entries 68, 81) -/
def execStandbyBootDone (boot : StandbyBoot) (s : State) : Host.Outcome State Fault Refusal :=
  if s.stew.step = .booting then
    match boot with
    | .booted late =>
      let t := { s with stew := (s.stew.claimed .replay s.now).counted }
      .next (match late with | some g => t.present g s.stew.claim | none => t)
    | .failed => .next ({ s with stew := { s.stew with standby := 2 } }.setNoFw 2)
  else .next s

/-- An arm that the new core cannot resume, because the copy of the armed image is invalid, fails (R253, R268, R388).
(DESIGN CHOICE: log entries 63, 68) -/
def State.replayArm (s : State) : State :=
  match s.sched.next with
  | some im =>
    if s.sched.running.isSome && s.sched.armedImg.isEmpty then
      let s := s.abandonArm csArmLate
      (s.each s.tileList fun s n => s.modTile n fun t => { t with staged := {} }).schedEvent 2 im.id 0 s.cycleNo
    else s
  | none => s

/-- An entry to a power state that has not passed AP4 is abandoned at its next abort point (R531). (DESIGN CHOICE: log entry 68) -/
def State.replayEntry (s : State) : State :=
  if s.pwr.pstep = .s1 || s.pwr.pstep = .s2 || s.pwr.pstep = .s3 || s.pwr.pstep = .s4 then
    { s with pwr := { s.pwr with refuse := some (0, 9) } }
  else s

/-- The INVALIDATE_RANGE commands in progress run again from step 1 (R92). -/
def State.replayInval (s : State) : State :=
  (s.each ((s.cmds.filter fun c => s.journal.isOpen c.token).flatMap (·.waits)) fun s w => match w with
    | .inval p cid all base len => s.invalRange p cid all base len
    | _ => s).invalCheck

/-- The commands in progress under their takeover classes (R435): SESSION_OPEN fails, INVALIDATE_RANGE and FW_STAGE run again from the start, the others go
on with what they wait for, and one that has not run yet runs when its row comes. (DESIGN CHOICE: log entry 68) -/
def State.replayCmds (s : State) : State :=
  let s := { s with stew := { s.stew with flashing := none } }
  (s.each (s.cmds.filter fun c => c.opcode = 0x0E03 && s.journal.isOpen c.token) fun s c => s.failCmd c.token csBadState 0).replayInval

/-- An FW_COMMIT that was still waiting (R453) fails at a takeover, because STANDBY is not READY then (R479). (DESIGN CHOICE: log entry 68) -/
def State.replayCommit (s : State) : State :=
  match s.stew.commitToken with
  | some t => { s with stew := { s.stew with commitToken := none } }.failCmd t csBadState 0
  | none => s

/-- JOURNAL_REPLAY_DONE (R423): mailbox service resumes, and TAKEOVER goes to the device target. (DESIGN CHOICE: log entry 68) -/
def execJournalReplayDone (s : State) : Host.Outcome State Fault Refusal :=
  if s.stew.step = .replay then
    let s := { s with stew := { s.stew with step := .oldCheck }, journal := s.journal.loaded }
    let claim := s.stew.claim
    let g := fun (c : Cmd) => if c.waits.contains .takeover then { c with result := BitVec.ofNat 1920 claim.toNat } else c
    let s := ({ s with cmds := s.cmds.map g }).wake .takeover
    let s := s.replayCmds.replayCommit.replayArm.replayEntry.postReady
    let s := s.lateEvents.rateResume
    .next (s.event devTarget { kind := 10, obj := claim, cause := s.stew.lastCause.setWidth 8, spec := BitVec.ofNat 160 (b2n s.stew.active) })
  else .next s

/-- OLD_CORE_CHECK_DONE (R423, R479): the old core becomes the standby, or FAILED. (DESIGN CHOICE: log entry 68) -/
def execOldCoreCheckDone (ok : Bool) (s : State) : Host.Outcome State Fault Refusal :=
  if s.stew.step = .oldCheck then .next { s with stew := { s.stew with step := .none, standby := if ok then 0 else 2 } } else .next s

/-! ### The switchover commit -/

/-- FW_EVENT (R475). -/
def State.fwEvent (s : State) (cause : Nat) (f : FwSlot) : State :=
  s.event devTarget { kind := 0x21, obj := f.version, cause := BitVec.ofNat 8 cause, spec := BitVec.ofNat 160 f.svn.toNat }

/-- The firmware slot that is not running, replaced. (DESIGN CHOICE: log entry 69) -/
def Nv.setOther (n : Nv) (f : FwSlot) : Nv := if n.slot then { n with fw0 := f } else { n with fw1 := f }

/-- Step 2 of R479 for one partition: an ARMED confidential one is aborted with ABORT_CAUSE 2, and the session of an OPEN one ends when every
extent that it owns is revoked (R466). (DESIGN CHOICE: log entry 69) -/
def State.commitPart (s : State) (p : Nat) : State :=
  let x := s.part p
  if !x.conf then s
  else if x.state = 2 then s.abortStart p 2
  else if x.state = 1 && x.sess = 1 then
    let l := s.extsOf p 1
    let s := s.each l fun s i => s.revoke i
    if l.isEmpty && (s.extsOf p 2).isEmpty then s.endSession p 0 1 else s
  else s

/-- Whether FW_COMMIT need not wait any longer for the commands in progress (R453). (DESIGN CHOICE: log entry 69) -/
def State.commitReady (s : State) : Bool := s.cmds.all (fun c => s.stew.commitToken == some c.token) || decide (s.stew.swAt + 100000000 ≤ s.now)

/-- SWITCHOVER_START (R453, R479 steps 1 and 2): STATE becomes COMMITTING, and the standby begins to boot the staged image.
(DESIGN CHOICE: log entry 69) -/
def execSwitchoverStart (s : State) : Host.Outcome State Fault Refusal :=
  if s.stew.step = .swWait && s.commitReady then
    let mark := fun (c : Cmd) => { c with carried := s.stew.commitToken != some c.token }
    let s := { s with stew := { s.stew with commit := true, step := .swBoot, standby := 1 }, cmds := s.cmds.map mark }
    .next ((s.each (List.range 64) fun s p => s.commitPart p).sweepAll)
  else .next s

/-- Whether every confidential partition of step 2 has lost its session. -/
def State.sessionsOver (s : State) : Bool :=
  (List.range 64).all fun p => !(s.part p).conf || (s.part p).sess ≠ 1 || (s.part p).state = 3

/-- The commit over: what FW_COMMIT waits for, and whether it fails. -/
def State.endCommit (s : State) (next : CoreStep) (standby : BitVec 2) : State :=
  { s with stew := { s.stew with commit := false, commitToken := none, step := next, standby := standby }
           cmds := s.cmds.map fun c => { c with carried := false } }

/-- SWITCHOVER_BOOT_DONE (R479 steps 3 and 4, R480). (DESIGN CHOICE: log entry 69) -/
def execSwitchoverBootDone (ok : Bool) (s : State) : Host.Outcome State Fault Refusal :=
  if s.stew.step = .swBoot && s.sessionsOver then
    if ok then
      if s.stew.claim = maxClaim then .next (s.setNoFw 1) else .next { s with stew := s.stew.claimed .swLoad s.now }
    else
      let f := s.nv.otherSlot
      let tok := s.stew.commitToken
      let s := ({ s with nv := s.nv.setOther {} }.endCommit .none 0).fwEvent 3 f
      .next (match tok with | some t => s.failCmd t csBadState 0 | none => s)
  else .next s

/-- The flash and fuses after step 6 of R479: SLOT names the new image, the old one is no longer staged, and ADVANCE raises MIN_SVN.
(DESIGN CHOICE: log entry 69) -/
def Nv.switched (n : Nv) : Nv :=
  let f := n.otherSlot
  let old := { n.runSlot with valid := false }
  let m := if f.advance then (if n.minSvn.toNat < f.svn.toNat then f.svn else n.minSvn) else n.minSvn
  { n with slot := !n.slot, minSvn := m, fw0 := if n.slot then f else old, fw1 := if n.slot then old else f }

/-- Step 7 of R479: the commit is over, its reply carries the version of the image that now runs, and FW_EVENT says COMMITTED. -/
def State.commitDone (s : State) : State :=
  let f := s.nv.runSlot
  let s := s.endCommit .oldCheck 1
  let g := fun (c : Cmd) => if c.waits.contains .commit then { c with result := BitVec.ofNat 1920 f.version.toNat } else c
  ((({ s with cmds := s.cmds.map g }).wake .commit).postReady).fwEvent 2 f

/-- SWITCHOVER_COMPLETE (R453, R479 steps 5 to 7): the new core loads the journal, the carried commands go on under their takeover classes, and SLOT
switches; when no carried command is left, the reply and FW_EVENT are posted and BUSY ends. (DESIGN CHOICE: log entry 69) -/
def execSwitchoverComplete (s : State) : Host.Outcome State Fault Refusal :=
  let s := if s.stew.step = .swLoad then
      (({ s with nv := s.nv.switched, stew := { s.stew with step := .swCarry }, journal := s.journal.loaded }).replayCmds.replayArm).postReady
    else s
  if s.stew.step = .swCarry && !s.cmds.any (·.carried) then .next s.commitDone else .next s

end Sys2Proof.Machine
end

