-- ==== Sys2Proof/Machine/CtlCmds.lean ====
section
/-! DEFINITION. The commands of control, telemetry, tests, the power cap, reset and debug (R448, R449, R451, R452; R405, R412, R423, R512,
R513, R520), and the snapshot latch. -/
namespace Sys2Proof.Machine

/-! ### Control (R448) -/

def adminForm : CmdForm := { op := 0x0C01, len := fun _ => 8, fields := bytesOf [(0, 8)] }

/-- ADMIN_SET's row. -/
def adminSet (s : State) (c : Cmd) (a : Nat) : Answer :=
  let v := arg a 0 8
  if !admitOk v then refuse s c wStructure csBadArg else done { s with stew := { s.stew with admin := BitVec.ofNat 64 v } }

/-- ADMIN_SET (R405, R448). -/
def execAdminSet (mb : MbId) (s : State) : Host.Outcome State Fault Refusal := s.ran adminForm mb adminSet

def notifyForm : CmdForm :=
  { op := 0x0C02, part := true, conf := .own, len := fun _ => 16, fields := bytesOf [(0, 1), (8, 8)]
    names := fun a => if arg a 0 1 < 64 then [(oPart, arg a 0 1)] else [] }

/-- NOTIFY_SET's row: the device target is written only for an administrative mailbox (R426). -/
def notifySet (s : State) (c : Cmd) (a : Nat) : Answer :=
  let t := arg a 0 1; let v := arg a 8 8
  if 64 ≤ t && t ≠ 0xFF then fail s csBadArg
  else if t = 0xFF && c.mb.part.isSome then fail s csDenied
  else if !ntfOk v then refuse s c wStructure csBadArg
  else if t < 64 && (s.part t).conf && v.testBit 1 then refuse s c wConf csDenied
  else if t = 0xFF then done { s with stew := { s.stew with devNtf := BitVec.ofNat 64 v } }
  else done (s.modPart t fun x => { x with ntf := BitVec.ofNat 64 v })

/-- NOTIFY_SET (R412, R426, R448). -/
def execNotifySet (mb : MbId) (s : State) : Host.Outcome State Fault Refusal := s.ran notifyForm mb notifySet

def mcTakeoverForm : CmdForm := { op := 0x0C03 }

/-- MC_TAKEOVER's row: the new core replies with the new claim. -/
def mcTakeover (s : State) (_ : Cmd) (_ : Nat) : Answer :=
  if s.stew.standby ≠ 0 then fail s csBadState else await (s.coreTrigger 4) [.takeover]

/-- MC_TAKEOVER (R419, R423, R448). -/
def execMcTakeover (mb : MbId) (s : State) : Host.Outcome State Fault Refusal := s.ran mcTakeoverForm mb mcTakeover

/-! ### Telemetry and tests (R449) -/

/-- What the replica of a counter block's island reads (R11, R511): the keeper's FT for the device, and the hub's for slices, memory stages and the
partitions that the stages serve; Qoreus is on L0. (DEDUCED: log entry 71) -/
def State.unitNs (s : State) (b : Nat) : Nat :=
  if b = 0 then s.ftNs
  else if b < 0x21 then s.tileNs else if b < 0x29 then s.dramNs else if b < 0x39 then s.dieNs ((b - 0x29) / 4)
  else if b = 0x39 then s.dieNs 0 else if b < 0x3E then s.dieNs (b - 0x3A) else s.hubNs

/-- The blocks of the units that are there (R510). -/
def State.unitBlocks (s : State) : List Nat := (List.range 0xC0).filter s.blkOn

def snapshotForm : CmdForm := { op := 0x0D01, len := fun _ => 8, fields := bytesOf [(0, 8)] }

/-- COUNTER_SNAPSHOT's row. (DEDUCED: log entry 71) -/
def counterSnapshot (s : State) (_ : Cmd) (a : Nat) : Answer :=
  let t := arg a 0 8
  if t < s.ftNs + 20000 || s.ftNs + 10000000000 < t then fail s csBadArg
  else if s.cnt.pending then fail s csBadState
  else await { s with cnt := { s.cnt with pending := true, snapFt := BitVec.ofNat 64 t, todo := s.unitBlocks } } [.snapshot]

/-- COUNTER_SNAPSHOT (R449, R512, R513). -/
def execCounterSnapshot (mb : MbId) (s : State) : Host.Outcome State Fault Refusal := s.ran snapshotForm mb counterSnapshot

/-- The live view with the time counters that it computes: SNAP_FT and UP_NS (R511). (DEDUCED: log entry 71) -/
def State.latched (s : State) : Tbl Nat := tput 0 (tput 0 s.cnt.live 0x400 s.ftNs) 0x408 s.now

/-- Some blocks latched: each holds its counters as they are now and the number of the snapshot, and the other blocks keep what they hold (R512). -/
def State.latch (s : State) (bs : List Nat) : State :=
  let here := fun (e : Nat × Nat) => bs.contains (e.1 / 0x1000)
  { s with cnt := { s.cnt with
      snap := (s.latched.filter here).foldl (fun t e => tput 0 t e.1 e.2) (s.cnt.snap.filter fun e => !here e)
      hdr := bs.foldl (fun h b => tput 0 h b (s.cnt.seq + 1)) s.cnt.hdr
      todo := s.cnt.todo.filter fun b => !bs.contains b } }

/-- SNAPSHOT_LATCH (R512, R513): every unit whose island's replica reads T or later, and which has not latched yet, copies its counters; with the last
one the snapshot counts, and its command is answered. (DEDUCED: log entry 71) -/
def execSnapshotLatch (s : State) : Host.Outcome State Fault Refusal :=
  if !s.cnt.pending then .next s
  else
    let s := s.latch (s.cnt.todo.filter fun b => decide (s.cnt.snapFt.toNat ≤ s.unitNs b))
    if s.cnt.todo.isEmpty then
      let synced := s.keeper.state = 2 || s.keeper.state = 3
      .next ({ s with cnt := { s.cnt with pending := false, seq := s.cnt.seq + 1, synced := synced } }.wake .snapshot)
    else .next s

def testForm : CmdForm := { op := 0x0D02, len := fun _ => 2, fields := [(0, 8), (8, 1)], names := fun a => [(oTile, arg a 0 1)] }

/-- TEST_RUN's row: a due test serves the command; with FORCE the running job stops for it. (DEDUCED: log entry 67) -/
def testRun (s : State) (_ : Cmd) (a : Nat) : Answer :=
  let n := arg a 0 1
  if 31 < n then fail s csBadArg
  else if s.tileDead n || (s.tile n).kat.running then fail s csBadState
  else
    let s := if (s.tile n).kat.due then s else s.katSetDue n 2
    let force := (arg a 1 1).testBit 0
    let s := if force then s.modTile n fun t => { t with kat := { t.kat with force := true } } else s
    await (if force then s.askStop n .kat else s) [.test n]

/-- TEST_RUN (R171, R449, R500). -/
def execTestRun (mb : MbId) (s : State) : Host.Outcome State Fault Refusal := s.ran testForm mb testRun

/-! ### The power cap and reset (R451) -/

def capForm : CmdForm := { op := 0x0F01, len := fun _ => 2, fields := bytesOf [(0, 2)] }

/-- POWER_CAP_SET's row. -/
def powerCapSet (s : State) (c : Cmd) (a : Nat) : Answer :=
  let w := arg a 0 2
  if w < s.pwr.floor.toNat || s.pwr.ceiling.toNat < w then refuse s c wPower csBadArg
  else done { s with pwr := { s.pwr with cap := BitVec.ofNat 10 w } }

/-- POWER_CAP_SET (R427, R451, R520). -/
def execPowerCapSet (mb : MbId) (s : State) : Host.Outcome State Fault Refusal := s.ran capForm mb powerCapSet

def resetForm : CmdForm := { op := 0x0F03, len := fun _ => 1, fields := [(0, 1)] }

/-- DEVICE_RESET's row: the whole-chip reset starts 1 ms after the reply. -/
def deviceReset (s : State) (_ : Cmd) (a : Nat) : Answer :=
  if !(arg a 0 1).testBit 0 && !s.stew.withdrawn then fail s csBadState
  else done { s with stew := { s.stew with resetAt := some (s.now + 1000000) } }

/-- DEVICE_RESET (R451). -/
def execDeviceReset (mb : MbId) (s : State) : Host.Outcome State Fault Refusal := s.ran resetForm mb deviceReset

/-! ### Debug (R452) -/

/-- The confidential partitions that are not FREE. (DESIGN CHOICE: log entry 13) -/
def State.confParts (s : State) : List Nat := (List.range 64).filter fun p => (s.part p).conf && (s.part p).state ≠ 0

/-- Whether a stack holds an extent of a confidential partition. -/
def State.stackConf (s : State) (n : Nat) : Bool :=
  s.rmap.any fun e => e.2.held && e.1 / 32768 == n && s.confParts.contains (s.ext e.2.ext.toNat).owner.toNat

/-- Whether a unit (R495) serves a confidential partition (R427): a tile with a job of it, a stack or quadrant unit that holds an extent of it,
and every other unit while one is not FREE. (DESIGN CHOICE: log entry 13) -/
def State.unitConf (s : State) (u : Nat) : Bool :=
  let i := u % 4096
  match u / 4096 with
  | 1 => (s.tile i).slots.any fun k => (s.job i k).st ≠ .free && s.confParts.contains (cidPart (s.job i k).cid)
  | 2 => s.stackConf (i % 16)
  | 6 | 7 => s.stackConf (2 * i) || s.stackConf (2 * i + 1)
  | _ => !s.confParts.isEmpty

/-- The checks of a debug command: a refusal by Warden, or its own. (DESIGN CHOICE: log entry 13) -/
def debugOk (s : State) (c : Cmd) (unit count : Nat) (go : State → Answer) : Answer :=
  if s.dbgdis || s.unitConf unit then refuse s c wDebug csDenied
  else if 0xB000 ≤ unit || count = 0 || 28 < count then fail s csBadArg
  else go s

def dbgReadForm : CmdForm := { op := 0x1001, query := true, len := fun _ => 9, fields := bytesOf [(0, 2), (4, 4), (8, 1)] }

/-- DBG_READ's row: the words of a register map that is no binding interface are free values. (DESIGN CHOICE: log entry 13) -/
def dbgRead (s : State) (c : Cmd) (a : Nat) : Answer :=
  debugOk s c (arg a 0 2) (arg a 8 1) fun s =>
    let w := fun (i : Nat) => (Config.debugWord s.fresh (arg a 0 2) (arg a 4 4 + 8 * i)).toNat
    done { s with fresh := s.fresh + 1 } (packBytes ((List.range (arg a 8 1)).map fun i => (8 * i, 8, w i)))

/-- DBG_READ (R427, R452, R482). -/
def execDbgRead (mb : MbId) (s : State) : Host.Outcome State Fault Refusal := s.ran dbgReadForm mb dbgRead

def dbgWriteForm : CmdForm :=
  { op := 0x1002, len := fun a => 16 + 8 * arg a 8 1, fields := [(0, 16), (32, 32), (64, 8), (128, 1792)] }

/-- DBG_WRITE's row: it answers; what the words do in a unit's debug registers the spec leaves to each firmware image.
(DESIGN CHOICE: log entry 13) -/
def dbgWrite (s : State) (c : Cmd) (a : Nat) : Answer := debugOk s c (arg a 0 2) (arg a 8 1) fun s => done s

/-- DBG_WRITE (R427, R452, R482). -/
def execDbgWrite (mb : MbId) (s : State) : Host.Outcome State Fault Refusal := s.ran dbgWriteForm mb dbgWrite

end Sys2Proof.Machine
end

