-- ==== Sys2Proof/Machine/LinkCmds.lean ====
section
/-! DEFINITION. The commands of links and routing (R446; R296, R307, R311, R320, R328 to R331, R347, R355, R541). -/
namespace Sys2Proof.Machine

/-! ### Links -/

/-- The names of a command whose first byte is a port. -/
def portName (a : Nat) : List (Nat × Nat) := [(oPort, arg a 0 1)]

def enableForm : CmdForm := { op := 0x0A01, len := fun _ => 2, fields := [(0, 8), (8, 2)], names := portName }

/-- LINK_ENABLE's row: EN and AUTO are set, and HOST_AGENT for Qoreus; a DISABLED port becomes DOWN. -/
def linkEnable (s : State) (c : Cmd) (a : Nat) : Answer :=
  let p := arg a 0 1; let f := arg a 1 1
  if 16 < p || !s.portEn p || (f.testBit 1 && p ≠ 16) then refuse s c wStructure csBadArg
  else
    let s := s.modPort p fun x =>
      { x with en := true, auto := f.testBit 0, state := if x.state = 0 then 1 else x.state, downAt := if x.state = 0 then s.now else x.downAt
               lctl := if x.state = 0 then [] else x.lctl }
    let s := { s with stew := { s.stew with withdrawn := false } }
    done (if p = 16 then { s with qor := { s.qor with hostAgent := f.testBit 1 } } else s)

/-- LINK_ENABLE (R296, R320, R355, R446). -/
def execLinkEnable (mb : MbId) (s : State) : Host.Outcome State Fault Refusal := s.ran enableForm mb linkEnable

/-- A port with EN cleared (R296): in UP it sends DOWN with a reason and takes the link-down actions with cause DISABLED.
(DESIGN CHOICE: log entry 41) -/
def State.disablePort (s : State) (p reason : Nat) : State :=
  let x := s.port p
  let s := s.setPort p { x with en := false }
  if x.state = 3 then s.sendDown p reason
  else if x.state = 4 then s.linkDown p 6
  else s.setPort p { x with en := false, state := 0, train := {}, lctl := [] }

def disableForm : CmdForm := { op := 0x0A02, len := fun _ => 1, fields := bytesOf [(0, 1)], names := portName }

/-- LINK_DISABLE's row. -/
def linkDisable (s : State) (_ : Cmd) (a : Nat) : Answer :=
  let p := arg a 0 1
  if 16 < p then fail s csBadArg else done (if s.portEn p then s.disablePort p 1 else s)

/-- LINK_DISABLE (R296, R310, R311, R446). -/
def execLinkDisable (mb : MbId) (s : State) : Host.Outcome State Fault Refusal := s.ran disableForm mb linkDisable

def retrainForm : CmdForm := { op := 0x0A03, len := fun _ => 1, fields := bytesOf [(0, 1)], names := portName }

/-- LINK_RETRAIN's row: the reply waits for the end of the retrain, whose RESULT is the state then. -/
def linkRetrain (s : State) (_ : Cmd) (a : Nat) : Answer :=
  let p := arg a 0 1
  if 16 < p then fail s csBadArg
  else if (s.port p).state ≠ 3 then fail s csBadState
  else
    let s := s.retrain p 7
    if (s.port p).state = 4 then await s [.retrain p] else done s (s.port p).state.toNat

/-- LINK_RETRAIN (R307, R308, R446). -/
def execLinkRetrain (mb : MbId) (s : State) : Host.Outcome State Fault Refusal := s.ran retrainForm mb linkRetrain

def tuneForm : CmdForm := { op := 0x0A04, len := fun _ => 4, fields := bytesOf [(0, 1), (1, 1), (2, 1), (3, 1)], names := portName }

/-- LINK_TUNE's row: the starting point of the next training, within the fused limit of the port. (DESIGN CHOICE: log entry 6) -/
def linkTune (s : State) (c : Cmd) (a : Nat) : Answer :=
  let p := arg a 0 1; let am := arg a 2 1; let pre := arg a 3 1
  if 16 < p || !s.portEn p then fail s csBadArg
  else if (s.port p).state ≠ 0 && (s.port p).state ≠ 1 then fail s csBadState
  else if (tget 15 s.nv.amplMax p).toNat < am || 7 < pre then refuse s c wElectrical csBadArg
  else done (s.modPort p fun x => { x with lanes := BitVec.ofNat 8 (arg a 1 1), ampl := BitVec.ofNat 8 am, preset := BitVec.ofNat 8 pre })

/-- LINK_TUNE (R427, R446, R541). -/
def execLinkTune (mb : MbId) (s : State) : Host.Outcome State Fault Refusal := s.ran tuneForm mb linkTune

/-! ### RT_NODE and the route tables -/

/-- The structure that Warden holds RT_NODE to (R330). -/
def nodeOk (v : Nat) : Bool :=
  v < 2 ^ 48 && bitsOf v 0 12 < 0xFFE && 32 ≤ bitsOf v 16 8 && 10 ≤ bitsOf v 24 14 && bitsOf v 24 14 ≤ 10000
    && 1 ≤ bitsOf v 38 10 && bitsOf v 38 10 ≤ 1000

/-- RT_NODE written; BOARD keeps its value. -/
def Node.write (n : Node) (v : Nat) : Node :=
  { n with eid := BitVec.ofNat 12 (bitsOf v 0 12), hopLimit := BitVec.ofNat 8 (bitsOf v 16 8)
           pairTimeout := BitVec.ofNat 14 (bitsOf v 24 14), restampDelay := BitVec.ofNat 10 (bitsOf v 38 10) }

/-- Whether any Svaop port is TRAINING, UP or RETRAIN. -/
def State.anyLive (s : State) : Bool := (List.range 16).any fun p => decide (2 ≤ (s.port p).state.toNat)

def fabricForm : CmdForm := { op := 0x0A11, len := fun _ => 8, fields := bytesOf [(0, 8)] }

/-- FABRIC_CONFIG's row. -/
def fabricConfig (s : State) (c : Cmd) (a : Nat) : Answer :=
  let v := arg a 0 8
  if !nodeOk v then refuse s c wStructure csBadArg
  else if BitVec.ofNat 12 (bitsOf v 0 12) ≠ s.node.eid && s.anyLive then refuse s c wState csBadState
  else done { s with node := s.node.write v }

/-- FABRIC_CONFIG (R330, R446). -/
def execFabricConfig (mb : MbId) (s : State) : Host.Outcome State Fault Refusal := s.ran fabricForm mb fabricConfig

/-- A route entry from its word (R328). -/
def routeOf (w : Nat) : Route :=
  { v := w.testBit 0, local_ := w.testBit 1, order := BitVec.ofNat 8 (bitsOf w 2 8), nprod := BitVec.ofNat 3 (bitsOf w 10 3)
    dist := BitVec.ofNat 8 (bitsOf w 13 8) }

/-- Whether Warden takes a route entry: its reserved bits are zero and NPROD is at most 4. The four ports that ORDER can name are those of
the entry's own link die, which are enabled with it (R4). -/
def routeOk (w : Nat) : Bool := w < 2 ^ 21 && bitsOf w 10 3 ≤ 4

/-- A table of route entries, by EID; an entry of zeros is not listed. -/
def routeTable (ws : List Nat) : Tbl Route :=
  ((List.range ws.length).zip ws).filterMap fun e => if routeOf e.2 = {} then none else some (e.1, routeOf e.2)

/-- A table and XMASK in a slot, which becomes LOADED (R331). -/
def Die.load (x : Die) (slot : Nat) (xmask : BitVec 4) (t : Tbl Route) : Die :=
  if slot = 0 then { x with slot0 := t, s0 := 1, xmask0 := xmask } else { x with slot1 := t, s1 := 1, xmask1 := xmask }

def routeForm : CmdForm :=
  { op := 0x0A12, len := fun _ => 18, fields := [(0, 8), (8, 8), (16, 4), (64, 64), (128, 16)], names := fun a => [(oDie, arg a 0 1)] }

/-- ROUTE_LOAD's row; a LOADED slot is not loaded again while a flip is pending (R454). (DESIGN CHOICE: log entry 38) -/
def routeLoad (s : State) (c : Cmd) (a : Nat) : Answer :=
  let d := arg a 0 1; let k := arg a 1 1
  if !s.dieEn d || 1 < k then fail s csBadArg
  else if 2 ≤ ((s.die d).slotState (k == 1)).toNat || (s.node.flip.isSome && (s.die d).slotState (k == 1) = 1) then fail s csBadState
  else withRef s c none (argRef a 8 16) 16384 fun s b =>
    let ws := (List.range 4096).map fun e => fieldLe b (4 * e) 4
    if !ws.all routeOk then refuse s c wStructure csBadArg
    else done (s.modDie d fun x => x.load k (BitVec.ofNat 4 (arg a 2 1)) (routeTable ws))

/-- ROUTE_LOAD (R328, R331, R446). -/
def execRouteLoad (mb : MbId) (s : State) : Host.Outcome State Fault Refusal := s.ran routeForm mb routeLoad

def flipForm : CmdForm := { op := 0x0A13, len := fun _ => 8, fields := bytesOf [(0, 8)] }

/-- Whether a link die has a LOADED slot and no DRAINING slot (R331). -/
def Die.canFlip (x : Die) : Bool := (x.s0 = 1 || x.s1 = 1) && x.s0 ≠ 3 && x.s1 ≠ 3

/-- ROUTE_FLIP's row. -/
def routeFlip (s : State) (_ : Cmd) (a : Nat) : Answer :=
  let tf := arg a 0 8
  if tf < s.ftNs + 1000000 then fail s csBadArg
  else if s.node.flip.isSome || !(s.dieList.all fun d => (s.die d).canFlip) then fail s csBadState
  else done { s with node := { s.node with flip := some tf } }

/-- ROUTE_FLIP (R331, R446). -/
def execRouteFlip (mb : MbId) (s : State) : Host.Outcome State Fault Refusal := s.ran flipForm mb routeFlip

/-! ### NODE_WITHDRAW -/

/-- Whether the requests this GP8 sent over Svaop have ended and its Svaop queues are empty (R347 step 4). (DEDUCED: log entry 39) -/
def State.quietNode (s : State) : Bool :=
  s.origs.isEmpty
    && (List.range 16).all (fun p => (s.port p).store.isEmpty && (List.range 9).all fun t => ((s.port p).queue t).isEmpty)
    && (List.range 4).all fun d => (s.die d).transit.isEmpty && (s.die d).arrived.isEmpty && (s.die d).orig.isEmpty

def withdrawNodeForm : CmdForm := { op := 0x0A14 }

/-- NODE_WITHDRAW's row: it waits, and runs again, until the node is quiet; then every UP port sends DOWN with REASON 0, and every port is
DISABLED. (DEDUCED: log entry 39) -/
def nodeWithdraw (s : State) (_ : Cmd) (_ : Nat) : Answer :=
  if s.quietNode then
    done (({ s with stew := { s.stew with withdrawn := true } }).each ((List.range 16).filter s.portEn) fun s p => s.disablePort p 0)
  else { st := s, again := true }

/-- NODE_WITHDRAW (R347, R446). (DEDUCED: log entry 39) -/
def execNodeWithdraw (mb : MbId) (s : State) : Host.Outcome State Fault Refusal := s.ran withdrawNodeForm mb nodeWithdraw

end Sys2Proof.Machine
end

