-- ==== Sys2Proof/Machine/Images.lean ====
section
/-! DEFINITION. Schedule images: their layout (R242 to R248), the takeover FT (R251), and the checks of SCHED_ARM (R252). -/
namespace Sys2Proof.Machine

/-! ### Layout -/

/-- MAGIC of an image, and the number of entries and the byte offset of its parts (R242). -/
def imgMagic : Nat := 0x43524F43
def imgLength (b : List Byte) : Nat := fieldLe b 24 4
def imgPort (b : List Byte) (p : Nat) : Nat × Nat := (fieldLe b (32 + 8 * p) 4, fieldLe b (36 + 8 * p) 2)
/-- A tile's section: byte offset, NENT, NPARAM and RESV. -/
def imgTile (b : List Byte) (n : Nat) : Nat × Nat × Nat × Nat :=
  let d := fieldLe b (160 + 8 * n) 8
  (bitsOf d 0 18 * 128, bitsOf d 18 10, bitsOf d 28 9, bitsOf d 48 16)
def imgRoutes (b : List Byte) : Nat × Nat := (fieldLe b 416 4, fieldLe b 420 4)
def imgWinmap (b : List Byte) : Nat × Nat := (fieldLe b 424 4, fieldLe b 428 4)

/-- A Crocus list entry (R244). -/
def gateOf (d : Nat) : GateEntry := { dur := bitsOf d 0 16, gate := BitVec.ofNat 8 (bitsOf d 16 8), alt := BitVec.ofNat 5 (bitsOf d 24 5) }

/-- The n entries of a size at a byte offset, as numbers. -/
def imgEntries (b : List Byte) (off n size : Nat) : List Nat := (List.range n).map fun i => fieldLe b (off + size * i) size

/-- An operand descriptor (R248). -/
def descOf (d : Nat) : Desc :=
  { kind := BitVec.ofNat 2 (bitsOf d 0 2), slotIn := BitVec.ofNat 4 (bitsOf d 2 4), slotOut := BitVec.ofNat 4 (bitsOf d 6 4)
    eid := BitVec.ofNat 12 (bitsOf d 10 12), win := BitVec.ofNat 4 (bitsOf d 22 4), xh := BitVec.ofNat 24 (bitsOf d 32 24)
    offset := BitVec.ofNat 40 (bitsOf d 56 40), cid := BitVec.ofNat 16 (bitsOf d 96 16) }

/-- A scheduled-operation entry (R247). -/
def sentryOf (d : Nat) : SEntry :=
  { start := bitsOf d 0 32, deadline := bitsOf d 32 32, every := bitsOf d 64 16, phase := bitsOf d 80 16, valid := bitsOf d 96 1 = 1
    clearIn := bitsOf d 97 1 = 1, ndesc := bitsOf d 104 8, paramIdx := bitsOf d 112 16, seed := BitVec.ofNat 64 (bitsOf d 128 64)
    opblk := BitVec.ofNat 256 (bitsOf d 192 256)
    desc := (List.range (min 4 (bitsOf d 104 8))).map fun i => descOf (bitsOf d (448 + 128 * i) 128) }

/-- A tile's section of an image. -/
def sectionOf (b : List Byte) (n : Nat) : Section :=
  let (off, ne, np, resv) := imgTile b n
  { entries := (imgEntries b off ne 128).map sentryOf, params := (imgEntries b (off + 128 * ne) np 256).map (BitVec.ofNat 2048)
    resv := BitVec.ofNat 16 resv }

/-- The image that bytes hold. -/
def imageOf (b : List Byte) : Image :=
  let ro := imgRoutes b; let wm := imgWinmap b
  { mode := fieldLe b 6 1 = 1, id := BitVec.ofNat 64 (fieldLe b 8 8), cycle := fieldLe b 16 4
    lists := ((List.range 16).filter fun p => (imgPort b p).2 ≠ 0).map fun p =>
      (p, (imgEntries b (imgPort b p).1 (imgPort b p).2 8).map gateOf)
    routes := (imgEntries b ro.1 ro.2 4).map fun d => (bitsOf d 0 12, some (bitsOf d 12 5))
    wins := (imgEntries b wm.1 wm.2 8).map (BitVec.ofNat 64) }

/-- Fields of a window-map entry (R246). -/
def wmTile (e : BitVec 64) : Nat := (e.extractLsb' 0 5).toNat
def wmWin (e : BitVec 64) : Nat := (e.extractLsb' 5 4).toNat
def wmLand (e : BitVec 64) : Bool := e.getLsbD 9
def wmAnchor (e : BitVec 64) : BitVec 7 := e.extractLsb' 10 7
def wmIndex (e : BitVec 64) : Nat := (e.extractLsb' 17 18).toNat
def wmChunk (e : BitVec 64) : Nat := (e.extractLsb' 35 21).toNat

/-! ### The takeover FT (R251) -/

/-- T_x of an arming in mode `f`, given the image to come's cycle in ns. A JOIN takes the first boundary of the new image at least 5 ms after
the command. -/
def State.takeoverAt (s : State) (f join : Bool) (cyc ts : Nat) : Nat :=
  if join then
    let low := s.ftNs + 5000000
    if low ≤ ts then ts else ts + (low - ts + cyc - 1) / cyc * cyc
  else if f then
    match s.sched.running with
    | some im =>
      let b := s.sched.runStart; let c := 16 * max 1 im.cycle
      if ts < b then b else b + ((ts - b) / c + 1) * c
    | none => ts
  else ts

/-! ### The checks of R252 -/

/-- Check 1: MAGIC, VERSION, LENGTH, CRC and MODE, and every offset and count inside LENGTH (R270). (DEDUCED: log entry 60) -/
def imgCheck1 (b : List Byte) : Bool :=
  let len := imgLength b
  let inside := fun (o n size : Nat) => decide (o + n * size ≤ len)
  decide (512 ≤ b.length) && fieldLe b 0 4 == imgMagic && fieldLe b 4 2 == 1 && decide (512 ≤ len) && decide (len ≤ 33554432)
    && decide (len ≤ b.length) && decide (fieldLe b 6 1 ≤ 1)
    && (crc32c (b.take 28 ++ [0, 0, 0, 0] ++ (b.drop 32).take (len - 32))).toNat == fieldLe b 28 4
    && (List.range 16).all (fun p => inside (imgPort b p).1 (imgPort b p).2 8)
    && (List.range 32).all (fun n => let t := imgTile b n; inside (t.1 + 128 * t.2.1 + 256 * t.2.2.1) 0 1)
    && decide ((imgRoutes b).2 ≤ 4096) && inside (imgRoutes b).1 (imgRoutes b).2 4
    && decide ((imgWinmap b).2 ≤ 512) && inside (imgWinmap b).1 (imgWinmap b).2 8

/-- Check 2: ESYNC. (DEDUCED: log entry 60) -/
def State.imgCheck2 (s : State) (b : List Byte) : Bool :=
  let e := s.keeper.esync.toNat
  decide (e ≠ 0) && decide (e ≤ fieldLe b 20 4) && (fieldLe b 6 1 == 1 || decide (e ≤ 50))

/-- Check 3: the cycle and the lists. (DEDUCED: log entry 60) -/
def State.imgCheck3 (s : State) (im : Image) : Bool :=
  decide (64 ≤ im.cycle) && decide (im.cycle ≤ 67107840)
    && im.lists.all fun e => s.portEn e.1 && decide (e.2.length ≤ 1024) && e.2.all (fun g => decide (1 ≤ g.dur))
      && (e.2.map (·.dur)).sum == im.cycle

/-- Check 4: the alternate ports. (DEDUCED: log entry 60) -/
def State.imgCheck4 (s : State) (im : Image) : Bool :=
  im.lists.all fun e => e.2.all fun g => g.alt == 31 || (decide (g.alt.toNat < 16) && s.portEn g.alt.toNat && g.alt.toNat != e.1)

/-- Check 5: in mode F every run of entries that opens TC7 lasts at least ESYNC + 11.52 ns, in whole units of 16 ns. (DEDUCED: log entry 60) -/
def State.imgCheck5 (s : State) (im : Image) : Bool :=
  let need := (s.keeper.esync.toNat * 100 + 1152 + 1599) / 1600
  !im.mode || im.lists.all fun e =>
    let l := e.2; let n := l.length
    let opn := fun i => (l[i % n]?).any fun g => g.gate.getLsbD 7
    (List.range n).all fun i => !(opn i && !opn (i + n - 1)) || decide (need ≤ runLen l 7 n i)

/-- Whether the descriptors of an entry feed each slot exactly once (R249): windows hold OFA words, remote operands are written only. -/
def descsOk (us : List SlotUse) (ds : List Desc) : Bool :=
  let used := ds.filter fun d => d.kind ≠ 0
  let need := us.filter fun u => u.io ≠ 1
  let side := fun (d : Desc) (u : SlotUse) => (if u.io = 0 then d.slotIn else d.slotOut).toNat == u.slot
  need.all (fun u => (used.filter fun d => side d u).length == 1
      && used.all fun d => !side d u || ((d.kind ≠ 2 || u.fmt == 0x1F) && (d.kind ≠ 3 || u.io == 2)))
    && used.all fun d => (d.slotIn == 15 || need.any fun u => u.io == 0 && u.slot == d.slotIn.toNat)
      && (d.slotOut == 15 || need.any fun u => u.io == 2 && u.slot == d.slotOut.toNat)

/-- Whether a VALID entry satisfies check 6. -/
def Section.entryOk (x : Section) (cycle : Nat) (e : SEntry) : Bool :=
  let o := e.opblk.toNat; let nst := stagesOf o
  let pm := if e.paramIdx = 0xFFFF then 0 else ((x.params[e.paramIdx]?).getD 0).toNat
  decide (1 ≤ e.every) && decide (e.phase < e.every) && decide (1 ≤ e.deadline) && decide (e.start + e.deadline ≤ cycle)
    && decide (1 ≤ e.ndesc) && decide (e.ndesc ≤ 4) && (e.paramIdx == 0xFFFF || decide (e.paramIdx < x.params.length))
    && opNwin o == 0 && bitsOf o 192 64 == 0 && blockOk o nst pm && (!needsParam o nst || e.paramIdx != 0xFFFF)
    && descsOk (plan o nst pm).1 e.desc

/-- Check 6: the sections. (DEDUCED: log entry 60) -/
def State.imgCheck6 (s : State) (b : List Byte) (im : Image) : Bool :=
  (List.range 32).all fun n =>
    let (_, ne, np, _) := imgTile b n
    let x := sectionOf b n
    ne == 0 || (!s.tileDead n && decide (ne ≤ 512) && decide (np ≤ 256) && decide (128 * ne + 256 * np ≤ 65536)
      && x.entries.all fun e => !e.valid || x.entryOk im.cycle e)

/-- Check 7: no two entries of a tile overlap in a cycle in which both can fire. (DEDUCED: log entry 60) -/
def imgCheck7 (b : List Byte) : Bool :=
  (List.range 32).all fun n =>
    let l := ((sectionOf b n).entries.filter (·.valid)).zipIdx
    l.all fun x => l.all fun y => decide (y.2 ≤ x.2)
      || x.1.phase % Nat.gcd x.1.every y.1.every != y.1.phase % Nat.gcd x.1.every y.1.every
      || decide (x.1.start + x.1.deadline ≤ y.1.start) || decide (y.1.start + y.1.deadline ≤ x.1.start)

/-- The windows that an entry names: each KIND 2 operand spans consecutive windows of the tile. -/
def Section.winsOf (x : Section) (e : SEntry) : List Nat :=
  let o := e.opblk.toNat; let nst := stagesOf o
  let us := (plan o nst (if e.paramIdx = 0xFFFF then 0 else ((x.params[e.paramIdx]?).getD 0).toNat)).1
  (e.desc.filter fun d => d.kind = 2).flatMap fun d =>
    let n := (us.filter fun u => u.io ≠ 1 && (u.slot == d.slotIn.toNat || u.slot == d.slotOut.toNat)).foldl (fun m u => max m u.elems) 0
    (List.range (max 1 ((n + 16383) / 16384))).map (d.win.toNat + ·)

/-- Check 8: no descriptor of any entry, VALID or not, presents a confidential partition's CID, and every window is reserved. (DEDUCED: log entry 60) -/
def State.imgCheck8 (s : State) (b : List Byte) : Bool :=
  (List.range 32).all fun n =>
    let x := sectionOf b n
    x.entries.all fun e =>
      (e.desc.filter fun d => d.kind = 1 || d.kind = 3).all (fun d => !(s.part (cidPart d.cid)).conf)
        && (x.winsOf e).all fun w => decide (w < 16) && x.resv.getLsbD w

/-- Whether a landing target is valid (R246, R221, R222): an ACTIVE combining extent of that anchor, a chunk of it whose home quadrant is the
tile's, resident in no window but a reserved one. (DESIGN CHOICE: log entry 62) -/
def State.landTarget (s : State) (b : List Byte) (e : BitVec 64) : Bool :=
  let x := s.ext (wmIndex e)
  let c := s.comb x.protRef.toNat
  x.state == 1 && x.combine && c.valid && c.anchor == wmAnchor e && decide (wmChunk e < 8 * x.size.toNat)
    && granStack (s.extGran x (wmChunk e / 8)) / 2 == wmTile e / 8
    && (match s.landOf (wmIndex e) (wmChunk e) with
      | none => true
      | some (t, w) => (s.land (16 * t + w)).sched || (sectionOf b t).resv.getLsbD w)

/-- Whether numbers rise strictly. -/
def rising : List Nat → Bool
  | a :: b :: r => decide (a < b) && rising (b :: r)
  | _ => true

/-- Check 9: the routes and the window map. (DEDUCED: log entry 60) -/
def State.imgCheck9 (s : State) (b : List Byte) (im : Image) : Bool :=
  rising (im.routes.map (·.1)) && im.routes.all (fun r => r.2.any fun p => decide (p < 16) && s.portEn p)
    && im.wins.all (fun e => (sectionOf b (wmTile e)).resv.getLsbD (wmWin e) && decide ((wmAnchor e).toNat ≤ 0x7E)
      && (!wmLand e || s.landTarget b e))
    && (im.wins.map fun e => 16 * wmTile e + wmWin e).Nodup
    && ((im.wins.filter wmLand).map fun e => 2 ^ 21 * wmIndex e + wmChunk e).Nodup

/-- The number of the first check of R252 that an image fails, or 0; check 10 with the T_x that results. (DEDUCED: log entry 60) -/
def State.imgCheck (s : State) (b : List Byte) (ts : Nat) (join : Bool) : Nat × Nat :=
  let im := imageOf b
  let tx := s.takeoverAt im.mode join (16 * max 1 im.cycle) ts
  (if !imgCheck1 b then 1 else if !s.imgCheck2 b then 2 else if !s.imgCheck3 im then 3 else if !s.imgCheck4 im then 4
    else if !s.imgCheck5 im then 5 else if !s.imgCheck6 b im then 6 else if !imgCheck7 b then 7 else if !s.imgCheck8 b then 8
    else if !s.imgCheck9 b im then 9
    else if s.ftNs + 5000000 ≤ tx && (im.mode || ts % 16 == 0) then 0 else 10, tx)

end Sys2Proof.Machine
end

