-- ==== Sys2Proof/Machine/Routing.lean ====
section
/-! DEFINITION. Routing (R326 to R337), route flips and drains (R331, R332), pair breaks (R344) and the completions of requests that this
GP8 originated (R313, R345). -/
namespace Sys2Proof.Machine

/-! ### Originated packets (R338, R339) -/

/-- How far behind a PSEQ the oldest open packet of a pair lies, among requests sent that wait for their completion and packets that expect
none and were sent less than PAIR_TIMEOUT ago (R339). -/
def State.oldestOpen (s : State) (dst : Eid) (vc : Bool) (next : BitVec 16) : Option Int :=
  let tx := s.pairTx (pairIdx dst vc)
  let a := if vc then [] else (s.origs.filter fun o => o.sent && o.kind ≠ .delta && o.pkt.dst = dst).map fun o => o.pkt.pseq
  let b := (tx.openNone.filter fun o => decide (s.now < o.2 + s.pt)).map (·.1)
  ((a ++ b).map fun q => seqDiff next q).foldl (fun m d => match m with | none => some d | some e => some (max e d)) none

/-- An originated packet given its place in its pair (R338): the next PSEQ, or RESYNC with the other PINC at any PSEQ in the first packet of
an incarnation; none while 8,192 packets would be open (R339). (DESIGN CHOICE: log entries 11, 38) -/
def State.sequence (s : State) (p : Packet) : Option (Packet × State) :=
  if p.syn then some (p, s)
  else
    let k := pairIdx p.dst p.vc
    let x := s.pairTx k
    let (start, s1) := if x.started then (0, s) else s.draw 65536
    let seq := if x.started then x.pseq else BitVec.ofNat 16 start
    if x.started && (s.oldestOpen p.dst p.vc seq).any (8192 ≤ ·) then none
    else
      let q := { p with pseq := seq, pinc := if x.started then x.pinc else !x.pinc, resync := !x.started }
      let none_ := (x.openNone.filter fun o => decide (s.now < o.2 + s.pt)) ++ if p.expects then [] else [(seq, s.now)]
      let s := s1.setPairTx k { pseq := seq + 1, pinc := q.pinc, started := true, openNone := none_ }
      let s := { s with origs := s.origs.map fun o => if p.expects && o.rtag = p.rtag then { o with sent := true, sentAt := s.now, pkt := { o.pkt with pseq := seq } } else o }
      some (q, s)

/-! ### Route selection (R334 to R336) -/

/-- A packet is sent on a port of its die: one more hop, into its class's queue. -/
def State.sendOn (s : State) (port : Nat) (p : Packet) (demoted : Bool) (inp : Option (Fin 4)) : State :=
  s.queueOn port p.tcn { p with hops := p.hops + 1 } demoted inp

/-- A packet discarded by its link die: a request that this GP8 originated ends at its unit with LINK_LOST (R336). -/
def State.discard (s : State) (d : Nat) (inp : Option (Fin 4)) (p : Packet) (counter : Nat) : State :=
  let s := s.bump (dieBlk d) counter
  if inp.isNone then s.lostAtUnit p stLinkLost else s

/-- The first port among candidates (indices within a die) that an XMASK does not exclude, that is UP and that is not busy. -/
def State.freePort (s : State) (d : Nat) (xmask : BitVec 4) (p : Packet) (l : List Nat) : Option Nat :=
  l.find? fun i => !xmask.getLsbD i && (s.port (4 * d + i)).state = 3 && !(s.port (4 * d + i)).busy p.tcn p

/-- The entry of a list that would let a TC7 frame of n flits in (R258): the first from entry i on, which begins at FT t, in which the frame
could start inside the entry and end in the entry's window. -/
def State.letsIn (s : State) (q : Nat) (l : List GateEntry) (n : Nat) : Nat → Nat → Nat → Option GateEntry
  | 0, _, _ => none
  | k + 1, i, t =>
    match l[i % l.length]? with
    | none => none
    | some e =>
      let at_ := max ((tget 0 s.repl.die (q / 4)).toNat * 100) (t * 6553600)
      let fits := e.gate.getLsbD 7 && decide (at_ < (t + 16 * e.dur) * 6553600)
        && fitsBy (runEnd l 7 (i % l.length) t) (at_ + n * 128 * 65536 + s.guard * 6553600)
      if fits then some e else s.letsIn q l n k (i + 1) (t + 16 * e.dur)

/-- The ports that XMASK of the ACTIVE slot of their link die excludes (R347). (DEDUCED: log entry 61) -/
def State.xmasked (s : State) : BitVec 16 :=
  (List.range 16).foldl (fun m p => let d := s.die (p / 4)
    if d.slotState d.cur = 2 && (d.xmask d.cur).getLsbD (p % 4) then m ||| BitVec.ofNat 16 (1 <<< p) else m) 0

/-- Whether a scheduled port cannot take TC7 frames now: it is lost or withdrawn (R258). -/
def State.schedGone (s : State) (q : Nat) : Bool := s.sched.lost.getLsbD q || s.sched.withdrawn.getLsbD q

/-- The scheduled port of a TC7 packet (R245, R258): the route table's port when it is scheduled and neither lost nor withdrawn, the
ALT_PORT of the entry that would take the frame when the port uses its alternate column, unless that port is lost itself. -/
def State.schedPort (s : State) (p : Packet) : Option Nat :=
  match s.sched.running with
  | none => none
  | some im =>
    match (tget none im.routes p.dst.toNat) with
    | none => none
    | some q =>
      match s.gateList q with
      | none => none
      | some l =>
        if s.sched.alt.getLsbD q then
          match s.letsIn q l (flitsOf p.len.toNat) (l.length + 1) (s.port q).gateIdx (s.port q).gateStart with
          | some e => if e.alt.toNat < 16 && !s.schedGone e.alt.toNat then some e.alt.toNat else none
          | none => none
        else if s.schedGone q then none
        else some q

/-- Whether DRAINED is set for the port that a packet arrived on. -/
def Die.drainedFor (x : Die) (t : Transit) : Bool := match t.inp with | some i => x.drained.getLsbD i.val | none => false

/-- The slot that a packet's EPOCH names, or CUR when that slot is FREE. -/
def Die.ownSlot (x : Die) (t : Transit) : Bool := if x.slotState t.pkt.epoch = 0 then x.cur else t.pkt.epoch

/-- Whether a packet of a DRAINING slot goes over to CUR (R332, R334). -/
def Die.late (x : Die) (t : Transit) : Bool := x.slotState (x.ownSlot t) = 3 && (x.restamped || x.drainedFor t)

/-- The slot by which a packet is routed (R334). -/
def Die.outSlot (x : Die) (t : Transit) : Bool := if x.late t then x.cur else x.ownSlot t

/-- A packet as a link die forwards it without choosing a slot for it: from step 2 of a drain on every old EPOCH is rewritten (R332). -/
def Die.restamp (x : Die) (p : Packet) : Packet := if x.restamped then { p with epoch := x.cur } else p

/-- Route selection for a packet of another EID after the TC7 rule (R334). (DESIGN CHOICE: log entry 38) -/
def State.routeOut (s : State) (d : Nat) (t : Transit) : State :=
  let x := s.die d
  let s := if x.slotState t.pkt.epoch = 0 then s.bump (dieBlk d) 4 else s
  let s := if x.late t && x.drainedFor t then s.bump (dieBlk d) 5 else s
  let sl := x.outSlot t
  let p := { t.pkt with epoch := sl }
  let e := s.route d sl p.dst
  if !e.v then s.discard d t.inp p 3
  else if s.node.hopLimit.toNat ≤ p.hops.toNat then s.discard d t.inp p 2
  else match s.freePort d (x.xmask sl) p e.ports with
    | some i =>
      let s := s.sendOn (4 * d + i) p t.demoted t.inp
      if (e.ports.take e.nprod.toNat).contains i then s else s.bump (dieBlk d) 1
    | none => if t.inp.isNone && !s.dieUsable d p.dst then s.lostAtUnit p stLinkLost else s.hold d { t with pkt := p }

/-- The ports that a packet of this GP8's own EID may be deflected to (R334). -/
def State.ejectPort (s : State) (d : Nat) (p : Packet) : Option Nat := s.freePort d ((s.die d).xmask (s.die d).cur) p [0, 1, 2, 3]

/-- Whether a packet of this GP8's own EID can be ejected now (R340, R342). -/
def State.ejects (s : State) (p : Packet) : Bool := if p.syn then !(p.fill && !s.fillRoom p) else s.reorderRoom p

/-- The scheduled port of this link die that takes a TC7 packet (R245). -/
def State.schedHere (s : State) (d : Nat) (p : Packet) : Option Nat :=
  if p.tc ≠ 7 then none else (s.schedPort p).filter fun q => q / 4 = d && (s.port q).room 7 (flitsOf p.len.toNat)

/-- A packet as it is routed outside the schedule: TC7 counts as TC6 (R245). -/
def Transit.lowered (t : Transit) : Transit := if t.pkt.tc = 7 then { t with pkt := { t.pkt with tc := 6 }, demoted := true } else t

/-- The port that a packet would leave by if it were routed now (R334), if any. -/
def State.outPort (s : State) (d : Nat) (t : Transit) : Option Nat :=
  let x := s.die d
  let high := s.node.hopLimit.toNat ≤ t.pkt.hops.toNat
  if t.pkt.dst = s.node.eid then (if s.ejects t.pkt || high then none else (s.ejectPort d t.pkt).map (4 * d + ·))
  else match s.schedHere d t.pkt with
    | some q => some q
    | none =>
      let e := s.route d (x.outSlot t) t.pkt.dst
      if !e.v || high then none else (s.freePort d (x.xmask (x.outSlot t)) t.lowered.pkt e.ports).map (4 * d + ·)

/-- The rank of a packet among those that compete for a port (R335): the most hops first, then the lower input port, originated packets last. -/
def Transit.rank (t : Transit) : Nat := (255 - t.pkt.hops.toNat) * 8 + (match t.inp with | some i => i.val | none => 4)

/-- Routing of a packet at a link die (R334). (DESIGN CHOICE: log entry 38) -/
def State.routePkt (s : State) (d : Nat) (t : Transit) : State :=
  let x := s.die d
  let p := t.pkt
  if p.dst = s.node.eid then
    if s.ejects p then (if p.syn then s.synIn p d else s.pairIn p d)
    else
      let s := s.bump devBlk 0
      if s.node.hopLimit.toNat ≤ p.hops.toNat then s.discard d t.inp p 2
      else match s.ejectPort d p with
        | some i => (s.sendOn (4 * d + i) (x.restamp p) false t.inp).bump (dieBlk d) 1
        | none => s.hold d t
  else match s.schedHere d p with
    | some q => s.queueOn q 7 (x.restamp p) false t.inp
    | none => s.routeOut d t.lowered

/-- Whether a header is to be discarded (R326): a reserved TYPE, DST 0xFFE, or DST 0xFFF in a packet that is not DRAIN. -/
def badHeader (p : Packet) : Bool := decide (2 ≤ p.typ.toNat) || p.dst == hostEid || (p.dst == 0xFFF && p.typ != 1)

/-- A DRAIN received on a port (R332): DRAINED is set; the slot is freed when every port has drained. -/
def State.drainIn (s : State) (d i : Nat) : State :=
  (s.modDie d fun x => { x with drained := x.drained ||| BitVec.ofNat 4 (1 <<< i) }).drainCheck d

/-- Whether a packet is the next that a port of a link die has handed to its router: a port's packets come in order (R12). -/
def Die.nextOn (x : Die) (i : Fin 4) (p : Packet) : Bool := x.arrived.find? (·.1 = i) == some (i, p)

/-- Whether a packet is the next of its pair that this GP8 originates on a link die: the packets of a pair leave in order, and a synthetic one
stands outside its pair (R12, R338, R343). (DESIGN CHOICE: log entry 15) -/
def Die.nextOrig (x : Die) (p : Packet) : Bool :=
  if p.syn then x.orig.contains p
  else x.orig.find? (fun q => !q.syn && q.dst == p.dst && q.vc == p.vc) == some p

/-- Whether the transit buffer of a link die holds a packet that s did not hold there, beyond what originated packets may take (R335). -/
def State.overHeld (s t : State) (d n : Nat) : Bool :=
  let x := s.die d
  decide (x.transit.length < (t.die d).transit.length) && (decide (2048 < x.transitFlits true + n) || decide (4096 < x.transitFlits false + n))

/-- The packets that wait at a link die for a port: the next of each of its ports, and those of the transit buffer. -/
def Die.waiting (x : Die) : List Transit :=
  (([0, 1, 2, 3] : List (Fin 4)).filterMap fun i => (x.arrived.find? (·.1 = i)).map fun e => { pkt := e.2, inp := some i }).filter
    (fun t => t.pkt.typ == 0 && !badHeader t.pkt) ++ x.transit

/-- Whether a packet that waits for the port which a packet would leave by ranks ahead of it (R335). -/
def State.outranked (s : State) (d : Nat) (t : Transit) : Bool :=
  (s.outPort d t).isSome && (s.die d).waiting.any fun u => decide (u.rank < t.rank) && s.outPort d u == s.outPort d t

/-- ROUTE_PACKET (R334): the next packet that arrived on a port of a link die, or the next of a pair that this GP8 originates there, which
carries the EPOCH of CUR (R332). It waits while a packet that ranks ahead of it waits for the same port (R335). Its unit keeps it while originated packets hold their 2,048 flits of the transit buffer, when no port can
take it and the buffer has no room for it (R335), or while the pair's window is full (R339). (DESIGN CHOICE: log entries 15, 38) -/
def execRoutePacket (die : Fin 4) (inp : Option (Fin 4)) (p : Packet) (s : State) : Host.Outcome State Fault Refusal :=
  let d := die.val
  if !s.dieEn d then .next s
  else match inp with
  | some i =>
    if !(s.die d).nextOn i p || (!badHeader p && p.typ = 0 && s.outranked d { pkt := p, inp := some i }) then .next s else
    let s := s.modDie d fun x => { x with arrived := x.arrived.erase (i, p) }
    if badHeader p then .next (s.bump (dieBlk d) 0)
    else if p.typ = 1 then .next (s.drainIn d i.val)
    else .next (s.routePkt d { pkt := p, inp := some i, at_ := s.now })
  | none =>
    let n := flitsOf p.len.toNat
    let x := s.die d
    if !x.nextOrig p || 2048 ≤ x.transitFlits true || s.outranked d { pkt := { p with epoch := x.cur } } then .next s
    else match (s.setDie d { x with orig := x.orig.erase p }).sequence { p with epoch := x.cur } with
      | none => .next s
      | some (q, u) =>
        let (q, u) := u.protect q
        let t := u.routePkt d { pkt := q, at_ := u.now }
        .next (if s.overHeld t d n then s else t)

/-- Packets of a transit buffer in the order of R335: the most hops first, then the lower input port, originated packets last. -/
def Die.transitOrder (x : Die) : List Transit :=
  x.transit.mergeSort fun a b => a.rank ≤ b.rank

/-- TRANSIT_REEVALUATE (R334): every packet that a link die holds is offered again. (DESIGN CHOICE: log entry 38) -/
def execTransitReevaluate (die : Fin 4) (s : State) : Host.Outcome State Fault Refusal :=
  let d := die.val
  if !s.dieEn d then .next s
  else .next (s.each (s.die d).transitOrder fun s t =>
    (s.modDie d fun x => { x with transit := x.transit.erase t }).routePkt d t)

/-! ### Flips and drains (R331, R332) -/

/-- An ACTIVE slot state becomes DRAINING. -/
def slotOld (st : BitVec 2) : BitVec 2 := if st = 2 then 3 else st

/-- A link die at T_f: its LOADED slot becomes ACTIVE, the ACTIVE one DRAINING, DRAINED is cleared, and the packets that this GP8 originated
and that wait in the transit buffer carry the new EPOCH (R332 step 1). (DESIGN CHOICE: log entry 41) -/
def Die.flip (x : Die) (tf : Nat) : Die :=
  let x := { x with transit := x.transit.map fun t => if t.inp.isNone then { t with pkt := { t.pkt with epoch := x.s1 == 1 } } else t }
  if x.s1 = 1 then { x with cur := true, s0 := slotOld x.s0, s1 := 2, drained := 0, flipAt := tf, restamped := false }
  else if x.s0 = 1 then { x with cur := false, s0 := 2, s1 := slotOld x.s1, drained := 0, flipAt := tf, restamped := false }
  else x

/-- ROUTE_FLIP_AT_TF (R331): at T_f by every link die's replica every link die flips; scheduled ports that the new XMASK excludes take no
further TC7 frames from then on (R258). -/
def execRouteFlipAtTf (s : State) : Host.Outcome State Fault Refusal :=
  match s.node.flip with
  | none => .next s
  | some tf =>
    let early := s.dieList.any fun d => decide (s.dieNs d < tf)
    if early then .next s
    else
      let s := ({ s with node := { s.node with flip := none } }).each s.dieList fun s d => s.modDie d fun x => x.flip tf
      .next { s with sched := { s.sched with withdrawn := s.xmasked } }

/-- The DRAIN packet (R332 step 3). -/
def State.drainPkt (s : State) : Packet := { dst := 0xFFF, src := s.node.eid, typ := 1, len := 0, tc := 6 }

/-- A packet re-stamped. -/
def stamp (e : Bool) (p : Packet) : Packet := { p with epoch := e }
/-- The queued packets of a port re-stamped. -/
def Port.stamp (y : Port) (e : Bool) : Port :=
  { y with queues := y.queues.map fun k => (k.1, k.2.map fun (q : QPkt) => { q with pkt := Machine.stamp e q.pkt }) }
/-- The packets that a link die holds re-stamped (R332 step 2). -/
def Die.stamp (x : Die) : Die :=
  { x with restamped := true, transit := x.transit.map (fun t => { t with pkt := Machine.stamp x.cur t.pkt })
           orig := x.orig.map (Machine.stamp x.cur) }
/-- Whether re-stamping is due at a link die: RESTAMP_DELAY after T_f. -/
def State.restampDue (s : State) (d : Nat) : Bool :=
  let x := s.die d
  x.flipAt ≠ 0 && !x.restamped && decide (x.flipAt + s.node.restampDelay.toNat * 1000 ≤ s.dieNs d)

/-- RESTAMP (R332 steps 2 and 3): RESTAMP_DELAY after T_f every queued packet carries CUR, and each UP port sends DRAIN ahead of every
queued frame. -/
def execRestamp (die : Fin 4) (s : State) : Host.Outcome State Fault Refusal :=
  let d := die.val
  if s.restampDue d then
    .next ((s.modDie d Die.stamp).each [0, 1, 2, 3] fun s i => s.modPort (4 * d + i) fun y =>
      let z := y.stamp (s.die d).cur
      if y.state = 3 then z.setQueue 8 (y.queue 8 ++ [{ pkt := s.drainPkt, at_ := s.now }]) else z)
  else .next s

/-- DRAIN (R332 step 4): the next packet of a port is a DRAIN, which follows every packet that its sender sent before it (R12); one with DST 0xFFE
is discarded (R326). -/
def execDrain (die port : Fin 4) (s : State) : Host.Outcome State Fault Refusal :=
  match (s.die die.val).arrived.find? (·.1 = port) with
  | some e =>
    if e.2.typ = 1 && s.dieEn die.val then
      let s := s.modDie die.val fun x => { x with arrived := x.arrived.erase e }
      .next (if badHeader e.2 then s.bump (dieBlk die.val) 0 else s.drainIn die.val port.val)
    else .next s
  | none => .next s

/-- DRAIN_TIMEOUT (R332): 10 ms after T_f the missing DRAINED bits are set and counted, one record is written and the slot is freed. -/
def execDrainTimeout (die : Fin 4) (s : State) : Host.Outcome State Fault Refusal :=
  let d := die.val
  let x := s.die d
  if (x.s0 = 3 || x.s1 = 3) && decide (x.flipAt + 10000000 ≤ s.dieNs d) then
    let miss := (~~~ x.drained)
    let n := ([0, 1, 2, 3].filter fun i => miss.getLsbD i).length
    let s := s.setDie d { x with drained := 15, s0 := if x.s0 = 3 then 0 else x.s0, s1 := if x.s1 = 3 then 0 else x.s1 }
    let s := s.bumpBy (dieBlk d + 8 + 8 * 7) n
    let s := s.logErr (errRec 0x11 0 none (0x5000 + d) miss.toNat)
    .next (s.stewEvent { kind := 7, obj := BitVec.ofNat 32 d, cause := 2 })
  else .next s

/-! ### Pair breaks (R344) -/

/-- The break of a REQ pair: a TIMEOUT for each held request that expects a completion, then one break notice. -/
def State.breakReq (s : State) (src : Eid) : State :=
  let k := pairIdx src false
  let x := s.pairRx k
  let own := s.node.eid
  let die := match x.held with | (_, d) :: _ => d | [] => 0
  let s1 := s.each (x.held.filter fun h => h.1.expects) fun s h => s.synth h.2 (s.synthFor h.1 own src stTimeout false)
  let note := { s1.synthFor {} own src stTimeout false with pseq := x.e, rtag := 0, brk := true, pinc := x.inc }
  let inc := if x.synced then x.inc else match x.held with | (p, _) :: _ => p.pinc | [] => x.inc
  (s1.synth die note).setPairRx k { x with held := [], synced := false, timer := none, inc := inc, dead := true }

/-- Packets released in PSEQ order after an expected sequence, and the PSEQ after the last. -/
def State.releaseAll (s : State) (e : BitVec 16) (l : List (Packet × Nat)) : State × BitVec 16 :=
  let l := l.mergeSort fun a b => seqDiff a.1.pseq e ≤ seqDiff b.1.pseq e
  let last := match l.getLast? with | some h => h.1.pseq + 1 | none => e
  (s.each l fun s h => s.releasePkt h.1 h.2, last)

/-- The break of an RSP pair: the held completions are released, first those of the incarnation when synchronised (R344). -/
def State.breakRsp (s : State) (src : Eid) : State :=
  let k := pairIdx src true
  let x := s.pairRx k
  let mine := x.held.filter fun h => x.synced && h.1.pinc == x.inc
  let other := x.held.filter fun h => !(x.synced && h.1.pinc == x.inc)
  let s := s.setPairRx k { x with held := [], timer := none }
  let (s, e) := s.releaseAll x.e mine
  match other with
  | [] => s.modPairRx k fun x => { x with e := e }
  | (p, _) :: _ =>
    let base := other.foldl (fun m h => if seqDiff h.1.pseq m < 0 then h.1.pseq else m) p.pseq
    let s := s.modPairRx k fun x => { x with inc := p.pinc, synced := true }
    let (s, e) := s.releaseAll base other
    s.modPairRx k fun x => { x with e := e }

/-- PAIR_GAP_TIMEOUT (R344): the gap timer of a pair has run for PAIR_TIMEOUT. -/
def execPairGapTimeout (src : Eid) (rsp : Bool) (s : State) : Host.Outcome State Fault Refusal :=
  match (s.pairRx (pairIdx src rsp)).timer with
  | some t =>
    if t + s.pt ≤ s.now then
      let s := s.bump devBlk 1
      .next (if rsp then s.breakRsp src else s.breakReq src)
    else .next s
  | none => .next s

/-- BREAK_NOTICE (R344): open requests of the pair at or beyond the PSEQ end with TIMEOUT; the next packet begins a new incarnation. -/
def execBreakNotice (p : Packet) (s : State) : Host.Outcome State Fault Refusal :=
  if !s.turn p || !p.brk then .next s else
  let s := (s.take p).2
  let hit := s.origs.filter fun o => o.sent && o.kind ≠ .delta && o.pkt.dst = p.src && decide (0 ≤ seqDiff o.pkt.pseq p.pseq)
  let s := s.each hit fun s o => s.origDone o.rtag stTimeout 0 0
  .next (s.modPairTx (pairIdx p.src false) fun x => { x with started := false, openNone := [] })

/-! ### Completions of originated requests -/

/-- ORIGINATED_COMPLETION (R313): the first completion of a request that this GP8 originated is accepted, any later one discarded; a reserved
status counts as UNCORRECTABLE (R7); one that fails its session is discarded (R470). -/
def execOriginatedCompletion (p : Packet) (s : State) : Host.Outcome State Fault Refusal :=
  if !s.turn p || p.brk then .next s else
  let (u, ok) := (s.take p).2.sessionIn p
  .next (if ok then (u.origDone p.rtag (readStatus p.stat) p.ctl p.data p.opnd.toNat).forwarded else u)

/-- REQUEST_TIMEOUT (R345): no completion 4 × PAIR_TIMEOUT after the request was sent. -/
def execRequestTimeout (rtag : BitVec 32) (s : State) : Host.Outcome State Fault Refusal :=
  match s.origs.find? (·.rtag = rtag) with
  | some o => if o.sent && o.sentAt + 4 * s.pt ≤ s.now then .next (s.origDone rtag stTimeout 0 0).forwarded else .next s
  | none => .next s

end Sys2Proof.Machine
end

