-- ==== Sys2Proof/Machine/Schedules.lean ====
section
/-! DEFINITION. Schedules at run time: gates and list switches (R243, R255, R258, R259), takeovers (R253), the end of the sync-loss rule (R240),
scheduled operations falling due (R260, R261), the release of a chunk (R228, R504), and the FTS pulse (R546). -/
namespace Sys2Proof.Machine

/-! ### Gates -/

/-- GATE_ENTRY_BOUNDARY (R255): within a cycle a gate unit moves to the next entry when the entry's duration has passed by the replica.
(DEDUCED: log entry 43) -/
def execGateEntryBoundary (port : Fin 17) (s : State) : Host.Outcome State Fault Refusal :=
  let p := port.val
  let x := s.port p
  match s.gateList p with
  | none => .next s
  | some l =>
    match l[x.gateIdx]? with
    | none => .next s
    | some e =>
      let t := x.gateStart + 16 * e.dur
      if t ≤ s.dieNs (p / 4) && x.gateIdx + 1 < l.length then .next (s.gateMove p l (x.gateIdx + 1) t) else .next s

/-- Whether the replicas of every enabled link die have reached an FT. -/
def State.diesAt (s : State) (t : Nat) : Bool := s.dieList.all fun d => decide (t ≤ s.dieNs d)

/-- Whether a lost port returns to its primary column (R259): its link is up and its neighbour runs the same image. -/
def State.portBack (s : State) (id : Word) (p : Nat) : Bool :=
  let x := s.port p
  x.state == 3 && x.peerImage == id && (x.peerKstate.toNat / 8 % 4 == 2 || x.peerKstate.toNat / 8 % 4 == 3)

/-- The bits of the ports of a list. -/
def portBits (l : List Nat) : BitVec 16 := l.foldl (fun m p => m ||| BitVec.ofNat 16 (1 <<< p)) 0

/-- Whether the loss of a port was detected before a list switch at FT b: one detected at the switch or after it counts from the following
switch (R258). -/
def State.lostBy (s : State) (b p : Nat) : Bool := s.sched.lost.getLsbD p && decide (tget 0 s.sched.lostAt p < b)

/-- Whether a port was withdrawn before a list switch at FT b: an XMASK that came with a flip at the switch or after it counts from the following
switch (R258, R268). -/
def State.withdrawnBy (s : State) (wd : BitVec 16) (b p : Nat) : Bool :=
  wd.getLsbD p && (decide ((s.die (p / 4)).flipAt < b) || s.sched.alt.getLsbD p)

/-- Columns fixed at a list switch at FT b (R258, R259, R347): a port lost or withdrawn before it uses its alternate column, until its link is
up, its neighbour runs the same image, and no XMASK excludes it; changes are reported. (DEDUCED: log entry 61) -/
def State.columns (s : State) (im : Image) (k b : Nat) : State :=
  let old := s.sched.alt
  let wd := s.xmasked
  let ports := im.lists.map (·.1)
  let lost := ports.filter fun p => s.withdrawnBy wd b p || ((s.lostBy b p || old.getLsbD p) && !s.portBack im.id p)
  let alt := portBits lost
  let fresh := portBits (ports.filter fun p => s.sched.lost.getLsbD p && !s.lostBy b p)
  let s := { s with sched := { s.sched with alt := alt, lost := alt ||| fresh, withdrawn := wd } }
  s.each ports fun s p =>
    if alt.getLsbD p && !old.getLsbD p then s.schedEvent 7 im.id p k
    else if !alt.getLsbD p && old.getLsbD p then s.schedEvent 8 im.id p k
    else s

/-- LIST_SWITCH (R243): when the replicas have reached the next cycle start, every gate unit begins its list again and fixes its column.
(DEDUCED: log entry 61) -/
def execListSwitch (s : State) : Host.Outcome State Fault Refusal :=
  match s.sched.running with
  | none => .next s
  | some im =>
    let b := s.sched.lastSwitch + 16 * max 1 im.cycle
    if s.diesAt b then
      let s := { s with sched := { s.sched with lastSwitch := b } }
      let s := s.each im.lists fun s e => s.gateMove e.1 e.2 0 b
      .next (s.columns im s.cycleNo b)
    else .next s

/-! ### Takeover (R253) -/

/-- A window's map entry takes effect when what the window held is drained: scratch takes its anchor, a landing window takes its chunk when
the chunk is resident nowhere else (R227, R246). -/
def State.placeLand (s : State) (k : Nat) : State :=
  let l := s.land k
  match l.due with
  | some (true, e, c, a) =>
    if l.v || (s.landOf e c).isSome then s
    else
      let s := s.modComb (s.ext e).protRef.toNat fun x => { x with resident := x.resident + 1 }
      (s.setLand k { v := true, ext := e, chunk := c, anchor := a, sched := true }).modTile (k / 16) fun t => t.clearWin (k % 16)
  | some (false, _, _, a) => if l.v then s else s.setLand k { anchor := a }
  | none => s

/-- Every map entry that waits is tried. (DESIGN CHOICE: log entry 62) -/
def State.placeLands (s : State) : State := s.each ((s.lands.filter (·.2.due.isSome)).map (·.1)) fun s k => s.placeLand k

/-- What the old image held is given back at a takeover (R444, R253): its landing windows are released, its other windows are FREE, and its due
entries that still wait for the engine are dropped, of which R260 says nothing. (DESIGN CHOICE: log entry 62) -/
def State.leaveImage (s : State) : State :=
  let s := s.endLands.freeSched
  let s := s.each ((s.lands.filter fun e => !e.2.v).map (·.1)) fun s k => s.setLand k {}
  s.each s.tileList fun s n => s.modTile n fun t => { t with armed := {}, swait := [], fired := [] }

/-- The staged copies of an image become the armed ones at T_x (R253 step 5). (DEDUCED: log entry 61) -/
def State.takeover (s : State) (im : Image) : State :=
  let tx := s.sched.tx
  let down := portBits ((im.lists.map (·.1)).filter fun p => (s.port p).state ≠ 3 && (s.port p).state ≠ 4)
  let s := s.leaveImage
  let s := { s with sched := { s.sched with running := some im, runStart := tx, lastTx := tx, lastSwitch := tx, pending := false, next := none, loaded := false
                                            armedImg := s.sched.stagedImg, stagedImg := [], staged := false, armToken := none, events := []
                                            lost := s.sched.lost ||| down } }
  let s := s.each s.tileList fun s n => s.modTile n fun t =>
    let held := (List.range 16).filter fun w => t.staged.resv.getLsbD w
    held.foldl (fun t w =>
      if tget WState.free t.wins w = .landing then t else { t.clearWin w with wins := tput .free t.wins w .sched })
      { t with armed := t.staged, staged := {} }
  let s := s.each im.wins fun s e =>
    s.modLand (16 * wmTile e + wmWin e) fun l => { l with due := some (wmLand e, wmIndex e, wmChunk e, wmAnchor e) }
  let s := s.placeLands
  let s := s.each (List.range 16) fun s p => match (im.lists.find? (·.1 = p)).map (·.2) with
    | some l => s.gateMove p l 0 tx
    | none => s.gateMove p [] 0 tx
  let s := (s.columns im 0 tx).schedEvent 1 im.id 0 0
  s.each s.tileList fun s n => s.rouse n

/-- The no-image state takes over at T_x (R269, R444). -/
def State.disarm (s : State) : State :=
  let s := { s with sched := { s.sched with running := none, pending := false, disarm := false, alt := 0, lost := 0, events := []
                                            lastTx := s.sched.tx } }
  let s := s.leaveImage.gatesOpen
  s.each s.tileList fun s n => s.rouse n

/-- Whether every replica reads T_x or later. (DEDUCED: log entry 61) -/
def State.atTx (s : State) : Bool :=
  let t := s.sched.tx
  decide (t ≤ s.tileNs) && decide (t ≤ s.hubNs) && s.diesAt t

/-- SCHED_TAKEOVER (R253 step 5). (DEDUCED: log entry 61) -/
def execSchedTakeover (s : State) : Host.Outcome State Fault Refusal :=
  if s.sched.pending && s.atTx then
    match s.sched.next with
    | some im => .next (s.takeover im)
    | none => .next (if s.sched.disarm then s.disarm else s)
  else .next s

/-- ARM_LATE_DEADLINE (R253): an arming that is not complete at T_x − 100 µs fails, and the running image goes on. -/
def execArmLateDeadline (s : State) : Host.Outcome State Fault Refusal :=
  match s.sched.next with
  | some im =>
    if !s.sched.pending && s.sched.tx ≤ s.ftNs + 100000 then
      let s := s.abandonArm csArmLate
      let s := s.each s.tileList fun s n => s.modTile n fun t => { t with staged := {} }
      .next (s.schedEvent 2 im.id 0 s.cycleNo)
    else .next s
  | none => .next s

/-- Whether the windows that the image being armed reserves are free for it (R253 step 3): FREE, or held for the running image. -/
def State.winsFreed (s : State) : Bool :=
  s.tileList.all fun n => (List.range 16).all fun w =>
    !(s.tile n).staged.resv.getLsbD w || (match tget WState.free (s.tile n).wins w with | .free => true | .sched => true | _ => false)

/-- ARM_STEPS_DONE (R253 steps 2 to 4): with everything loaded and the windows freed before T_x − 100 µs, the takeover is pending and the
command replies. -/
def execArmStepsDone (s : State) : Host.Outcome State Fault Refusal :=
  if s.sched.next.isSome && !s.sched.pending && s.winsFreed && s.ftNs + 100000 < s.sched.tx then
    .next ({ s with sched := { s.sched with pending := true, loaded := true, armToken := none } }.wake .arm)
  else .next s

/-- Whether a window that the armed image reserves still drains the chunk that it landed (R240 step 4). -/
def State.landsDrain (s : State) : Bool :=
  s.lands.any fun e => e.2.v && e.2.draining && (s.tile (e.1 / 16)).armed.resv.getLsbD (e.1 % 16)

/-- SCHED_IDLE_AFTER_LOSS (R240 step 6): when the last scheduled operation has ended after the loss and no landing window drains, the reserved
windows are FREE, STATE is IDLE, and the image is staged again unless one is staged. -/
def execSchedIdleAfterLoss (s : State) : Host.Outcome State Fault Refusal :=
  if s.sched.syncLost && !s.landsDrain && s.tileList.all fun n => (s.tile n).srun.isNone then
    let s := { s with sched := { s.sched with syncLost := false } }.leaveImage
    let s := if s.sched.staged then s else { s with sched := { s.sched with stagedImg := s.sched.armedImg, staged := true } }
    .next (s.each s.tileList fun s n => s.rouse n)
  else .next s

/-! ### Scheduled operations (R260, R261) -/

/-- SCHED_OP_DUE (R260): an entry of the running image falls due by the tile's replica; it is skipped when the same entry still runs, and
otherwise waits for the engine, from which a dynamic job is stopped; from now, its START, the windows that it will empty are closed to
contributions (R262). (DESIGN CHOICE: log entry 62) -/
def execSchedOpDue (tile : Fin 32) (entry : Fin 512) (s : State) : Host.Outcome State Fault Refusal :=
  let n := tile.val; let i := entry.val
  let t := s.tile n
  match s.sched.running, t.armed.entries[i]? with
  | some im, some e =>
    let cyc := 16 * max 1 im.cycle
    let k := (s.tileNs - s.sched.runStart) / cyc
    let due := s.sched.runStart + k * cyc + 16 * e.start
    if !e.valid || s.tileNs < due || k % max 1 e.every ≠ e.phase || tget 0 t.fired i = k + 1 || (s.sched.pending && s.sched.tx ≤ due) then
      .next s
    else
      let s := s.modTile n fun t => { t with fired := tput 0 t.fired i (k + 1) }
      if t.swait.any (·.1 = i) || (t.srun.any fun r => r.entry == i && r.ent == e) then
        .next ((s.bump (tileBlk n) 11).schedEvent 4 im.id n k)
      else
        let s := (s.modTile n fun t => { t with swait := t.swait ++ [(i, k)] }).setLate n e
        .next ((s.askStop n .sched).startDue n)
  | _, _ => .next s

/-- SCHED_OP_DEADLINE (R261): an operation that runs past START + DEADLINE is counted once and reported; it runs to its end. -/
def execSchedOpDeadline (tile : Fin 32) (s : State) : Host.Outcome State Fault Refusal :=
  let n := tile.val
  match (s.tile n).srun with
  | some r =>
    if !r.overrun && r.deadline ≤ s.tileNs then
      let s := s.modTile n fun t => { t with srun := some { r with overrun := true } }
      .next ((s.bump (tileBlk n) 10).schedEvent 3 s.imageId n s.cycleNo)
    else .next s
  | none => .next s

/-! ### The release of a chunk, and the FTS pulse -/

/-- CHUNK_RELEASE_DONE (R228 step 4): every line of the chunk is merged; the window is given up, and what waits for it is placed. -/
def execChunkReleaseDone (tile : Fin 32) (win : Fin 16) (s : State) : Host.Outcome State Fault Refusal :=
  let n := tile.val; let w := win.val
  let l := s.land (16 * n + w)
  if l.v && l.draining && tget 0 (s.tile n).consumed w = 2048 then
    let s := (s.bump (stageBlk (n / 8)) 1).dropWin n w
    .next ((s.replaceChunk n l.ext l.chunk).placeLands)
  else .next s

/-- FTS_PULSE (R546): FT has reached a further multiple of 1 ms while STATE reads D0 or D1, which it does from the start of FT on. -/
def execFtsPulse (s : State) : Host.Outcome State Fault Refusal :=
  let m := s.ftNs / 1000000
  if s.pwr.running && (s.pwr.state = 0 || s.pwr.state = 1) && s.pwr.fts < m then .next { s with pwr := { s.pwr with fts := m } }
  else .next s

end Sys2Proof.Machine
end

