-- ==== Sys2Proof/Machine/SchedCmds.lean ====
section
/-! DEFINITION. The commands of fabric time and schedules (R444; R235, R239, R250 to R254, R257, R268) and of shaping and limits (R445;
R275, R278, R281). -/
namespace Sys2Proof.Machine

/-! ### FT_CONFIG -/

/-- Whether a port number of FT_CFG is a port or names none. -/
def ftPort (p : Nat) : Bool := p < 16 || p == 31

/-- The structure that Warden holds FT_CFG to (R235). (DESIGN CHOICE: log entry 35) -/
def ftCfgOk (v : Nat) : Bool :=
  v < 2 ^ 27 && ftPort (bitsOf v 0 5) && ftPort (bitsOf v 5 5) && !(v.testBit 10 && bitsOf v 0 5 ≠ 31) && bitsOf v 19 8 ≠ 0

/-- FT_CFG written. -/
def Keeper.configure (k : Keeper) (v : Nat) : Keeper :=
  { k with parent := BitVec.ofNat 5 (bitsOf v 0 5), alt := BitVec.ofNat 5 (bitsOf v 5 5), root := v.testBit 10
           esync := BitVec.ofNat 8 (bitsOf v 11 8), holdMax := BitVec.ofNat 8 (bitsOf v 19 8) }

/-- The keeper in the state that FT_CONFIG puts it in (R239). (DESIGN CHOICE: log entry 35) -/
def Keeper.enter (k : Keeper) (st : BitVec 3) : Keeper :=
  { k with state := st, good := 0, bad := 0, followAlt := false, stepped := false, slew := 0, freqAdj := 0, holdSince := 0 }

/-- What FT_CONFIG does to the keeper (R239, R240, R444): `moved` says that PARENT or ROOT changed. (DESIGN CHOICE: log entry 35) -/
def Keeper.config (k : Keeper) (v : Nat) : Keeper :=
  let moved := bitsOf v 0 5 ≠ k.parent.toNat || v.testBit 10 ≠ k.root
  let x := k.configure v
  if x.root then (if moved || k.state ≠ 2 then x.enter 2 else x)
  else if x.parent ≠ 31 then (if moved || k.state = 0 || k.state = 4 then x.enter 1 else x)
  else if moved then x.enter 0
  else x

/-- Whether an image runs, a takeover is pending or a command arms one. (DESIGN CHOICE: log entry 35) -/
def State.schedBusyCmd (s : State) : Bool := s.schedState ≠ 0 || s.sched.next.isSome || s.sched.pending

def ftForm : CmdForm := { op := 0x0801, len := fun _ => 8, fields := bytesOf [(0, 8)] }

/-- FT_CONFIG's row: a change of ESYNC while an image is present is refused by Warden; a change of PARENT or ROOT, or a return from LOST,
then fails at Steward. (DESIGN CHOICE: log entry 35) -/
def ftConfig (s : State) (c : Cmd) (a : Nat) : Answer :=
  let v := arg a 0 8
  let k := s.keeper
  if !ftCfgOk v then refuse s c wStructure csBadArg
  else if s.schedBusyCmd && bitsOf v 11 8 ≠ k.esync.toNat then refuse s c wState csBadState
  else if s.schedBusyCmd && (k.state = 4 || bitsOf v 0 5 ≠ k.parent.toNat || v.testBit 10 ≠ k.root) then fail s csBadState
  else done { s with keeper := k.config v }

/-- FT_CONFIG (R235, R239, R257, R444). -/
def execFtConfig (mb : MbId) (s : State) : Host.Outcome State Fault Refusal := s.ran ftForm mb ftConfig

/-! ### Images -/

def stageForm : CmdForm := { op := 0x0802, len := fun _ => 16, fields := bytesOf [(0, 8), (8, 2), (12, 4)] }

/-- SCHED_STAGE's row: the image is copied into the staged slot when its MAGIC and LENGTH are those of an image. (DESIGN CHOICE: log entry 63) -/
def schedStage (s : State) (c : Cmd) (a : Nat) : Answer :=
  let n := arg a 12 4
  if n < 512 || 33554432 < n then fail s csBadArg
  else if s.sched.next.isSome then fail s csBadState
  else withRef s c none (argRef a 0 8) n fun s b =>
    let len := imgLength b
    if fieldLe b 0 4 ≠ imgMagic || len < 512 || n < len then { st := s, status := csBadImage, detail := 1 }
    else done { s with sched := { s.sched with stagedImg := b.take len, staged := true } }

/-- SCHED_STAGE (R250, R268, R444). -/
def execSchedStage (mb : MbId) (s : State) : Host.Outcome State Fault Refusal := s.ran stageForm mb schedStage

/-- A landing window that an image being armed reserves gives its chunk up (R229, R253 step 3). -/
def State.armWins (s : State) : State :=
  s.each ((s.lands.filter fun e => e.2.v && !e.2.sched && (s.tile (e.1 / 16)).staged.resv.getLsbD (e.1 % 16)).map (·.1)) fun s k =>
    s.releaseWin (k / 16) (k % 16)

/-- A refusal of SCHED_ARM or SCHED_DISARM by Warden, with the number of the check in DETAIL (R252). -/
def badImage (s : State) (c : Cmd) (n : Nat) : Answer := { refuse s c wSchedule csBadImage with detail := n }

def armImgForm : CmdForm := { op := 0x0803, len := fun _ => 9, fields := [(0, 64), (64, 1)] }

/-- SCHED_ARM's row: the checks, then the lists and sections in the staged copies and the reserved windows on their way to FREE. -/
def schedArm (s : State) (c : Cmd) (a : Nat) : Answer :=
  let ts := arg a 0 8
  if !s.sched.staged || s.keeper.state ≠ 2 || s.sched.pending || s.sched.next.isSome || s.sched.syncLost then fail s csBadState
  else
    let b := s.sched.stagedImg
    let (n, tx) := s.imgCheck b ts ((arg a 8 1).testBit 0)
    if n ≠ 0 then badImage s c n
    else
      let s := { s with sched := { s.sched with next := some (imageOf b), tx := tx, armToken := some c.token, loaded := false } }
      let s := s.each s.tileList fun s n => s.modTile n fun t => { t with staged := sectionOf b n }
      await s.armWins [.arm] tx

/-- SCHED_ARM (R250 to R253, R268, R444). -/
def execSchedArm (mb : MbId) (s : State) : Host.Outcome State Fault Refusal := s.ran armImgForm mb schedArm

def disarmForm : CmdForm := { op := 0x0804, len := fun _ => 8, fields := bytesOf [(0, 8)] }

/-- SCHED_DISARM's row: the takeover of the no-image state becomes pending. (DESIGN CHOICE: log entry 63) -/
def schedDisarm (s : State) (c : Cmd) (a : Nat) : Answer :=
  let ts := arg a 0 8
  match s.sched.running with
  | none => fail s csBadState
  | some im =>
    let tx := s.takeoverAt im.mode false (16 * max 1 im.cycle) ts
    if s.schedState ≠ 2 || s.sched.next.isSome then fail s csBadState
    else if !(s.ftNs + 5000000 ≤ tx && (im.mode || ts % 16 == 0)) then badImage s c 10
    else done { s with sched := { s.sched with pending := true, disarm := true, tx := tx } } tx

/-- SCHED_DISARM (R251, R252, R268, R269, R444). -/
def execSchedDisarm (mb : MbId) (s : State) : Host.Outcome State Fault Refusal := s.ran disarmForm mb schedDisarm

def cancelImgForm : CmdForm := { op := 0x0805 }

/-- SCHED_CANCEL's row: the staged copies of the gate units and tiles are discarded. (DESIGN CHOICE: log entry 63) -/
def schedCancel (s : State) (_ : Cmd) (_ : Nat) : Answer :=
  if !(s.sched.pending && s.ftNs + 100000 < s.sched.tx) then fail s csBadState
  else
    let s := { s with sched := { s.sched with pending := false, disarm := false, next := none, loaded := false } }
    done (s.each s.tileList fun s n => s.modTile n fun t => { t with staged := {} })

/-- SCHED_CANCEL (R250, R268, R444). -/
def execSchedCancel (mb : MbId) (s : State) : Host.Outcome State Fault Refusal := s.ran cancelImgForm mb schedCancel

/-! ### Shaping and limits -/

/-- PORT_TCW written (R275): existing tags stand; a class whose weight was 0 and whose queue holds frames gets its tags.
(DESIGN CHOICE: log entry 59) -/
def Port.shape (x : Port) (v : Nat) : Port :=
  let y := { x with tcw := BitVec.ofNat 64 v }
  let fresh := (List.range 7).filter fun t => x.tcWeight t = 0 && y.tcWeight t ≠ 0
  { y with tags := fresh.foldl (fun m t => match (x.queue t).head? with
      | some h => tput ({} : Wfq) m t ((tget ({} : Wfq) m t).arrive x.vtime (y.charge t h.flits))
      | none => m) y.tags }

def shapePortForm : CmdForm :=
  { op := 0x0901, len := fun _ => 16, fields := bytesOf [(0, 1), (8, 8)], names := fun a => [(oPort, arg a 0 1)] }

/-- SHAPE_PORT_SET's row. (DESIGN CHOICE: log entry 59) -/
def shapePortSet (s : State) (c : Cmd) (a : Nat) : Answer :=
  let p := arg a 0 1; let v := arg a 8 8
  if 15 < p || !s.portEn p || 2 ^ 56 ≤ v then refuse s c wStructure csBadArg
  else done (s.modPort p fun x => x.shape v)

/-- SHAPE_PORT_SET (R275, R445). -/
def execShapePortSet (mb : MbId) (s : State) : Host.Outcome State Fault Refusal := s.ran shapePortForm mb shapePortSet

/-- The tags of a partition's flow at a stack when its weight rises from 0 while requests of it wait. (DESIGN CHOICE: log entry 59) -/
def State.flowTags (s : State) (f n : Nat) : State :=
  s.modStack n fun x => match x.queue.find? (·.flow = f) with
    | some h => { x with tags := tput {} x.tags f ((tget {} x.tags f).arrive x.vtime (s.charge h)) }
    | none => x

def shapePartForm : CmdForm :=
  { op := 0x0902, len := fun _ => 16, fields := bytesOf [(0, 1), (8, 8)], names := fun a => [(oPart, arg a 0 1)] }

/-- SHAPE_PART_SET's row. (DESIGN CHOICE: log entry 59) -/
def shapePartSet (s : State) (c : Cmd) (a : Nat) : Answer :=
  let p := arg a 0 1; let v := arg a 8 8
  if 64 ≤ p then fail s csBadArg
  else if !shapeOk v then refuse s c wStructure csBadArg
  else if (s.part p).state = 0 then fail s csBadState
  else
    let w := (s.part p).weight
    let s := s.modPart p fun x => { x with shape := BitVec.ofNat 64 v }
    done (if w = 0 && v ≠ 0 then s.each s.stackList fun s n => s.flowTags (3 + p) n else s)

/-- SHAPE_PART_SET (R278, R445). -/
def execShapePartSet (mb : MbId) (s : State) : Host.Outcome State Fault Refusal := s.ran shapePartForm mb shapePartSet

/-- An EID_LIMIT entry written (R281): from RATE 0 the bucket starts full, and a lower BURST clamps it. (DESIGN CHOICE: log entry 59) -/
def EidLimit.write (x : EidLimit) (rate burst ft : Nat) : EidLimit :=
  let y := if x.rate = 0 then x else x.refill ft
  let top : Int := burst * 4096
  { rate := BitVec.ofNat 12 rate, burst := BitVec.ofNat 12 burst, last := if rate = 0 then y.last else ft
    tokens := if x.rate = 0 && rate ≠ 0 then top else min y.tokens top }

def limitForm : CmdForm := { op := 0x0903, len := fun _ => 8, fields := bytesOf [(0, 2), (2, 2), (4, 2), (6, 2)] }

/-- LIMIT_SET's row. (DESIGN CHOICE: log entry 59) -/
def limitSet (s : State) (c : Cmd) (a : Nat) : Answer :=
  let first := arg a 0 2; let n := arg a 2 2; let rate := arg a 4 2; let burst := arg a 6 2
  if n = 0 || 4096 < n || 4095 < first + n || 4095 < rate || 4095 < burst || (rate ≠ 0 && burst = 0) then refuse s c wStructure csBadArg
  else done (s.each ((List.range n).map (first + ·)) fun s e => s.modLimit e fun x => x.write rate burst s.hubNs)

/-- LIMIT_SET (R281, R445). -/
def execLimitSet (mb : MbId) (s : State) : Host.Outcome State Fault Refusal := s.ran limitForm mb limitSet

end Sys2Proof.Machine
end

