-- ==== Sys2Proof/Machine/MemCmds.lean ====
section
/-! DEFINITION. The memory commands (R447; R378 to R380, R394, R395, R397). -/
namespace Sys2Proof.Machine

/-- The names of a command whose first byte is a stack mask. -/
def stackNames (a : Nat) : List (Nat × Nat) := ((List.range 8).filter fun n => (arg a 0 1).testBit n).map fun n => (oStack, n)
/-- The names of a command whose first byte is a stack. -/
def stackName (a : Nat) : List (Nat × Nat) := [(oStack, arg a 0 1)]

def rateForm : CmdForm := { op := 0x0B01, len := fun _ => 2, fields := bytesOf [(0, 1), (1, 1)], names := stackNames }

/-- MEM_SET_RATE's row: the named stacks change one at a time, in ascending order. -/
def memSetRate (s : State) (c : Cmd) (a : Nat) : Answer :=
  let m := arg a 0 1
  let l := (List.range 8).filter m.testBit
  if !l.all s.stackEn then fail s csBadArg
  else if 3 < arg a 1 1 then refuse s c wStructure csBadArg
  else if s.schedBusyCmd || s.mem.rcOn || !(l.all fun n => (s.stack n).state = 2 && !(s.stack n).diag) then fail s csBadState
  else if l.isEmpty then done s
  else
    let s := { s with mem := { s.mem with rcMask := BitVec.ofNat 8 m, rcCode := BitVec.ofNat 2 (arg a 1 1), rcOn := true, rcCapper := false, rcLower := false } }
    await s.rateNext [.rate]

/-- MEM_SET_RATE (R379, R380, R447). -/
def execMemSetRate (mb : MbId) (s : State) : Host.Outcome State Fault Refusal := s.ran rateForm mb memSetRate

def memCfgForm : CmdForm := { op := 0x0B02, len := fun _ => 8, fields := bytesOf [(0, 8)] }

/-- MEM_CONFIG's row. -/
def memConfig (s : State) (c : Cmd) (a : Nat) : Answer :=
  let v := arg a 0 8
  if v = 0 || 24 < v then refuse s c wStructure csBadArg else done { s with mem := { s.mem with patrolH := BitVec.ofNat 5 v } }

/-- MEM_CONFIG (R397, R447). -/
def execMemConfig (mb : MbId) (s : State) : Host.Outcome State Fault Refusal := s.ran memCfgForm mb memConfig

/-! ### Diagnostic split writes -/

/-- Whether a granule lies in channel group 3 of a stack. -/
def inGroup3 (n g : Nat) : Bool := g / 32768 == n && granGroup g == 3

def diagOpenForm : CmdForm := { op := 0x0B03, len := fun _ => 1, fields := bytesOf [(0, 1)], names := stackName }

/-- MEM_DIAG_OPEN's row: an extent that is scrubbed or rebuilt holds its granules in the reverse map; reserved DRAM lies in group 2 (R28).
(DESIGN CHOICE: log entry 70) -/
def memDiagOpen (s : State) (c : Cmd) (a : Nat) : Answer :=
  let n := arg a 0 1
  if 7 < n then fail s csBadArg
  else if (s.stack n).state ≠ 2 || (s.stack n).diag || s.rmap.any (fun e => e.2.held && inGroup3 n e.1) then refuse s c wState csBadState
  else done (s.modStack n fun x => { x with diag := true })

/-- MEM_DIAG_OPEN (R394, R447). -/
def execMemDiagOpen (mb : MbId) (s : State) : Host.Outcome State Fault Refusal := s.ran diagOpenForm mb memDiagOpen

/-- Whether a PPA decodes to C15 of a stack; bit 39 of a PPA is always 0 (R370). (DESIGN CHOICE: log entry 70) -/
def ppaC15 (n ppa : Nat) : Bool := ppa < 2 ^ 39 && lineStack (ppa / 128) == n && lineChan (ppa / 128) == 15

/-- A line stored raw with its check symbols. (DESIGN CHOICE: log entry 70) -/
def State.storeRaw (s : State) (l : Nat) (d : Line) (chk : BitVec 128) : State :=
  { s with dram := cellsPut s.dram (l * 128) (lineBytes d) }.setLineMeta l { raw := some chk }

def diagWriteForm : CmdForm :=
  { op := 0x0B04, len := fun _ => 160, fields := bytesOf [(0, 1), (8, 8), (16, 128), (144, 16)], names := stackName }

/-- MEM_DIAG_WRITE's row: the write waits while the channel is in blackout or the stack admits nothing, and its row draws as every activation does
(R375, R376, R379). (DESIGN CHOICE: log entries 12, 15, 70) -/
def memDiagWrite (s : State) (_ : Cmd) (a : Nat) : Answer :=
  let n := arg a 0 1; let ppa := arg a 8 8
  if 7 < n then fail s csBadArg
  else if !(s.stack n).diag then fail s csBadState
  else if !ppaC15 n ppa then fail s csBadArg
  else if s.lineWaits (ppa / 128) then { st := s, again := true }
  else done ((s.useRow (ppa / 128)).storeRaw (ppa / 128) (BitVec.ofNat 1024 (arg a 16 128)) (BitVec.ofNat 128 (arg a 144 16)))

/-- MEM_DIAG_WRITE (R395, R447). -/
def execMemDiagWrite (mb : MbId) (s : State) : Host.Outcome State Fault Refusal := s.ran diagWriteForm mb memDiagWrite

/-- A line of C15 as its raw bytes: what a diagnostic write left there, or otherwise the ciphertext of the fill, a free value that stays.
(DESIGN CHOICE: log entry 70) -/
def State.rawC15 (s : State) (l : Nat) : State :=
  match (s.lineMeta l).raw with
  | some _ => s
  | none =>
    let d := Config.stale s.fresh 5 l
    let k := match (s.lineMeta l).mark with | .none => [0, 0, 0, 0] | .poison => poisonConst | .orphan => orphanConst
    { s with fresh := s.fresh + 1 }.storeRaw l d
      (cleanChecks d ^^^ BitVec.ofNat 128 (packBytes ((List.range 8).map fun i => (2 * i, 2, k.getD (i % 4) 0))))

def diagReadForm : CmdForm := { op := 0x0B05, query := true, len := fun _ => 16, fields := bytesOf [(0, 1), (8, 8)], names := stackName }

/-- MEM_DIAG_READ's row: the raw data, the raw check symbols and the class of each codeword; it waits and its row
draws as for a write. (DESIGN CHOICE: log entries 12, 15, 70) -/
def memDiagRead (s : State) (_ : Cmd) (a : Nat) : Answer :=
  let n := arg a 0 1; let ppa := arg a 8 8
  if 7 < n then fail s csBadArg
  else if !(s.stack n).diag then fail s csBadState
  else if !ppaC15 n ppa then fail s csBadArg
  else if s.lineWaits (ppa / 128) then { st := s, again := true }
  else
    let s := (s.useRow (ppa / 128)).rawC15 (ppa / 128)
    let d := s.rawLine (ppa / 128)
    let k := s.storedChecks (ppa / 128)
    let cls := fun (i : Nat) => (rsClass (dataSyms d i) (checkSyms k i)).code
    done s (packBytes [(0, 128, d.toNat), (128, 16, k.toNat), (144, 1, cls 0), (145, 1, cls 1)])

/-- MEM_DIAG_READ (R381 to R383, R395, R447). -/
def execMemDiagRead (mb : MbId) (s : State) : Host.Outcome State Fault Refusal := s.ran diagReadForm mb memDiagRead

/-- Whether channel group 3 of a stack serves nothing now: a blackout of one of its channels, or a rate change (R376, R379).
(DESIGN CHOICE: log entry 15) -/
def State.group3Waits (s : State) (n : Nat) : Bool :=
  let x := s.stack n
  decide (x.state = 3) || x.paused || (List.range 4).any fun c => (x.chan (12 + c)).blackout

/-- Every line of channel group 3 of a stack filled (R393, R395): the rows of its 8,192 granules are activated, and how many of their draws are zero
is a free value (R375). (DESIGN CHOICE: log entries 12, 70) -/
def State.fillGroup3 (s : State) (n : Nat) : State :=
  let (k, s) := s.draw (8192 * granRows + 1)
  let s := (s.bumpBy (stackBlk n + 8 + 8 * 4) k).each (List.range 4) fun s c => s.modChan n (12 + c) fun x => { x with openRow := [] }
  { s with dram := s.dram.filter fun c => !inGroup3 n (c.1 / 2097152), lines := s.lines.filter fun e => !inGroup3 n (e.1 / 16384) }

def diagCloseForm : CmdForm := { op := 0x0B06, len := fun _ => 1, fields := bytesOf [(0, 1)], names := stackName }

/-- MEM_DIAG_CLOSE's row. (DESIGN CHOICE: log entry 70) -/
def memDiagClose (s : State) (_ : Cmd) (a : Nat) : Answer :=
  let n := arg a 0 1
  if 7 < n then fail s csBadArg
  else if !(s.stack n).diag then fail s csBadState
  else if s.group3Waits n then { st := s, again := true }
  else done ((s.fillGroup3 n).modStack n fun x => { x with diag := false })

/-- MEM_DIAG_CLOSE (R393, R395, R447). -/
def execMemDiagClose (mb : MbId) (s : State) : Host.Outcome State Fault Refusal := s.ran diagCloseForm mb memDiagClose

end Sys2Proof.Machine
end

