-- ==== Sys2Proof/Machine/Notify.lean ====
section
/-! DEFINITION. The notification engine and the staging rings (R413, R415), host-memory completions (R358 to R360), and the greeting of Qoreus
(R363, R366). -/
namespace Sys2Proof.Machine

/-- The 48 B of a notification record (R413). (DEDUCED: log entry 65) -/
def NtfRec.bits (r : NtfRec) : Nat :=
  packBytes [(0, 4, r.obj.toNat), (4, 4, r.tag.toNat), (8, 2, r.cid.toNat), (10, 1, r.status.toNat), (11, 1, r.cause.toNat),
    (12, 20, r.spec.toNat), (32, 8, r.ft.toNat), (40, 2, r.dropped.toNat), (47, 1, r.kind.toNat)]

/-- A VEC with a record (R358). (DEDUCED: log entry 66) -/
def State.vecPkt (s : State) (vector : Nat) (r : NtfRec) : Packet :=
  { src := s.node.eid, dst := hostEid, tc := 6, opc := oVec, hpa := BitVec.ofNat 64 vector, data := BitVec.ofNat 1024 r.bits, len := 160 }

/-- A NOTIFY with a record of a target (R413). (DEDUCED: log entry 65; DESIGN CHOICE: log entry 19) -/
def State.notifyPkt (s : State) (target : Nat) (e : Eid) (r : NtfRec) : Packet :=
  { src := s.node.eid, dst := e, tc := 6, opc := oNotify, cid := if target < 64 then BitVec.ofNat 16 (1024 * target) else 0
    data := BitVec.ofNat 1024 r.bits, len := 160, dev := decide (64 ≤ target) }

/-- NOTIFY_SEND (R413): the next staged record of a target leaves, and its place frees; DROPPED tells the next record other than a JOB_DONE
what was discarded. (DEDUCED: log entry 65) -/
def execNotifySend (target : Fin 65) (s : State) : Host.Outcome State Fault Refusal :=
  let t := target.val
  let w := s.ntfReg t
  let g := s.ring t
  match g.recs with
  | [] => .next s
  | r :: rest =>
    if !ntfEn w || !s.inService then .next s
    else
      let r := if r.kind = 0 then r else { r with dropped := g.dropped }
      let s := s.setRing t { g with recs := rest, dropped := if r.kind = 0 then g.dropped else 0 }
      .next (if ntfHost w then s.toHost (s.vecPkt (ntfTarget w).toNat r) else s.send [] (s.notifyPkt t (ntfTarget w) r))

/-- A record as it is staged at a place that has become free: FAULT carries the COUNT of this moment (R490). -/
def State.staged (s : State) (r : NtfRec) : NtfRec :=
  if r.kind = 8 then { r with spec := BitVec.ofNat 160 (s.part (r.obj.toNat % 64)).fq.length } else r

/-- STAGING_PLACE_FREE (R415): the record that has waited longest takes a free place; a job whose completion waited is FREE.
(DEDUCED: log entry 65) -/
def execStagingPlaceFree (target : Fin 65) (s : State) : Host.Outcome State Fault Refusal :=
  let t := target.val
  let g := s.ring t
  match g.waiting with
  | [] => .next s
  | (r, job) :: rest =>
    if g.recs.length < 1024 then
      let s := s.setRing t { g with recs := g.recs ++ [s.staged r], waiting := rest }
      match job with
      | some (n, k) => .next ((s.slotFree n k).invalCheck)
      | none => .next s
    else .next s

/-! ### Host memory (R358 to R360) -/

/-- The status of a host-memory completion (R359). -/
def hostStatus (st : Status) : Status :=
  if st = stOk || st = stUncorrectable || st = stPoisoned || st = stDenied then st else stUncorrectable

/-- The host's answer to the request of its TAG: writes are completed by MCMP, reads by MCMP_DATA. -/
def State.hostAnswer (s0 : State) (p : Packet) (write : Bool) (data : Line) : State :=
  if !s0.turn p then s0 else
  let (h, s) := s0.take p
  match s.qor.reqs.find? fun q => q.tag = h.pkt.tag && q.write = write with
  | some q => s.hostReqDone q (hostStatus h.pkt.stat) data
  | none => s

/-- MCMP (R358). -/
def execMcmp (p : Packet) (s : State) : Host.Outcome State Fault Refusal := .next (s.hostAnswer p true 0)

/-- MCMP_DATA (R358). -/
def execMcmpData (p : Packet) (s : State) : Host.Outcome State Fault Refusal := .next (s.hostAnswer p false p.data)

/-- HOST_MEMORY_TIMEOUT (R359): no answer within 4 × PAIR_TIMEOUT. -/
def execHostMemoryTimeout (tag : BitVec 16) (s : State) : Host.Outcome State Fault Refusal :=
  match s.qor.reqs.find? (·.tag = tag) with
  | some q => if q.sentAt + 4 * s.pt ≤ s.now then .next (s.hostReqDone q stTimeout 0) else .next s
  | none => .next s

/-- QOREUS_LINK_UP (R363, R366): with Qoreus UP and no orphan scan, one VEC on vector 0 carries QOR_VEC_DROP and LAST_DOWN, and the host
becomes an agent when HOST_AGENT and CACHING are set; otherwise it is none, and one that was is back-invalidated before its bit is cleared (R109).
(DEDUCED: log entry 66) -/
def execQoreusLinkUp (s : State) : Host.Outcome State Fault Refusal :=
  let x := s.port 16
  if x.state = 3 && !s.qor.linkUp && !s.orphanScan && s.stewardUp then
    let drops := tget 0 s.cnt.live (portBlk 16 + 8 + 8 * 16)
    let r : NtfRec := { kind := 9, ft := s.stamp, spec := BitVec.ofNat 160 (packBytes [(0, 6, drops), (6, 1, x.lastDown.toNat)]) }
    let s := { s with qor := { s.qor with linkUp := true } }
    let s := s.toHost (s.vecPkt 0 r)
    .next (if s.qor.hostAgent && s.qor.caching then { s.setAgent 0xFFE true with qor := { s.qor with leaving := false } }
      else if s.agent 0xFFE then ({ s with qor := { s.qor with leaving := true } }).sweepAll else s)
  else .next s

end Sys2Proof.Machine
end

