-- ==== Sys2Proof/Machine/Patrol.lean ====
section
/-! DEFINITION. The patrol scrub (R389) and uncorrectable lines of reserved DRAM (R388). -/
namespace Sys2Proof.Machine

/-! ### Records destroyed in reserved DRAM (R388, R489) -/

/-- A record that the reserved region of records holds: a fault queue, an overflow list, the error log, or a staging ring.
(DESIGN CHOICE: log entry 76) -/
inductive RecAt where
  | fq (part i : Nat)
  | over (part i : Nat)
  | log (i : Nat)
  | ring (target i : Nat)
  deriving DecidableEq, Repr

/-- The record that shares a 128 B line with a record of 64 B. (DESIGN CHOICE: log entry 76) -/
def RecAt.mate : RecAt → RecAt
  | .fq p i => .fq p (i ^^^ 1)
  | .over p i => .over p (i ^^^ 1)
  | .log i => .log (i ^^^ 1)
  | .ring t i => .ring t (i ^^^ 1)

/-- Every record that the region holds. (DESIGN CHOICE: log entry 76) -/
def State.recPlaces (s : State) : List RecAt :=
  (s.parts.flatMap fun e => (List.range e.2.fq.length).map (.fq e.1) ++ (List.range e.2.overflow.length).map (.over e.1))
    ++ (List.range s.elog.recs.length).map .log ++ s.rings.flatMap fun e => (List.range e.2.recs.length).map (.ring e.1)

/-- The placeholder of a fault record. (DESIGN CHOICE: log entry 76) -/
def lostFault : FaultRec := { cause := 0x3F }

/-- A record replaced by a placeholder with cause RECORD_LOST; SEQ is that of the lost record. (DESIGN CHOICE: log entries 11, 76) -/
def State.loseRec (s : State) : RecAt → State
  | .fq p i => s.modPart p fun x => { x with fq := x.fq.modify i fun e => (e.1, lostFault) }
  | .over p i => s.modPart p fun x => { x with overflow := x.overflow.modify i fun _ => lostFault }
  | .log i => { s with elog := { s.elog with recs := s.elog.recs.modify i fun r => { cause := 1, sev := 2, seq := r.seq } } }
  | .ring t i => s.modRing t fun g => { g with recs := g.recs.modify i fun r => { kind := r.kind, cause := 0x3F } }

/-- The job slots of a tile whose context the save area holds (R157). (DESIGN CHOICE: log entry 76) -/
def Tile.saved (t : Tile) : List Nat :=
  t.slots.filter fun k => (t.job k).st = .suspended || ((t.job k).st = .ready && (t.job k).lastStop ≠ .none)

/-- One of a list by a free value, when there is any. (DESIGN CHOICE: log entries 11, 76, 84) -/
def State.oneOf {α : Type} (s : State) (l : List α) (f : State → α → State) : State :=
  if l.isEmpty then s
  else
    let (k, s) := s.draw l.length
    match l[k]? with
    | some x => f s x
    | none => s

/-- The saved job whose 16 KiB of the save area hold a line: tile QTn from 0x1100_0000 + n × 8 MiB on, slot s at s × 16 KiB (R162).
(DEDUCED: log entry 75) -/
def saveSlot (l j : Nat) : Nat × Nat := ((j - 72) / 4, ((j - 72) % 4 * 16384 + l % 16384) / 128)

/-- What an uncorrectable line of a reserved region does (R388): the region's code, and the granule's number in its part of the layout.
The spec does not say where a record lies in region 3: which two records of 64 B the line holds, or none, is a free value. (DEDUCED: log entry 75) -/
def State.reservedLost (s : State) (l region j : Nat) : State :=
  match region with
  | 1 => match s.spillPort (l / 16384) with
    | some p => if (s.port p).spilling then s.linkDown p 4 else s
    | none => s
  | 2 =>
    if s.stewardUp then { s with journal := { s.journal with mirror := s.journal.ring } }
    else s.oneOf (none :: (List.range s.journal.mirror.length).map some) fun s i => match i with
      | some i => { s with journal := { s.journal with mirror := s.journal.mirror.modify i fun e => { e with good := false } } }
      | none => s
  | 3 => s.oneOf (none :: s.recPlaces.map some) fun s r => match r with | some r => (s.loseRec r).loseRec r.mate | none => s
  | 4 => { s with sched := { s.sched with armedImg := [] } }
  | 5 => { s with sched := { s.sched with stagedImg := [] } }
  | 6 =>
    let (n, k) := saveSlot l j
    if (s.tile n).saved.contains k then s.endJob n k jcMemory stUncorrectable 0 0 none else s
  | _ => s.coreTrigger 3

/-- An uncorrectable line found by the patrol in reserved DRAM: MEM_UE counts it, one record is written, and the region's effect follows; the
journal's line is rewritten, every other carries the poison mark; while no core runs Steward, the journal's copy in retained SRAM stands for an
entry whose mirror is bad until the next core loads it (R420). (DEDUCED: log entry 75) -/
def State.reservedUe (s : State) (l region j : Nat) (a b : Cls) (c0 c1 : RawEcc) : State :=
  let n := lineStack l
  let s := if region = 2 then s.setLineMeta l {} else s.markLine l .poison
  let d := Nat.lor (ueDetail l (a == .ue) (b == .ue) c0 c1 0xFF 2) (region <<< 128)
  let s := (s.bump (stackBlk n) 1).logErr (errRec 0x32 (if region = 7 then 3 else 2) none (chanUnit n (lineChan l)) d)
  (s.noteUe l).reservedLost l region j

/-! ### The patrol -/

/-- The lines of a stack. (DEDUCED: log entry 75) -/
def stackLines : Nat := 2 ^ 29

/-- The ns between two lines of a pass of PATROL_H hours. (DEDUCED: log entry 75) -/
def State.patrolNs (s : State) : Nat := s.mem.patrolH.toNat * 6705

/-- What the patrol does with a line (R384, R389). (DEDUCED: log entry 75) -/
def State.patrolLine (s : State) (l : Nat) (c0 c1 : RawEcc) : State :=
  let m := s.lineMeta l
  let a := clsOf m.mark c0
  let b := clsOf m.mark c1
  match lineCls a b with
  | .clean => s
  | .corrected => s.bump (stackBlk (lineStack l)) 0
  | .poison => s.bump (stackBlk (lineStack l)) 2
  | .orphan => s
  | .ue => match s.reserved (l / 16384) with
    | some (r, j) => s.reservedUe l r j a b c0 c1
    | none => (s.markLine l .poison).ueFound l a b c0 c1 0xFF 2

/-- The patrol's position on to the next line; MEM_PATROL_PASS counts a complete pass. (DEDUCED: log entry 75) -/
def State.patrolOn (s : State) (n : Nat) : State :=
  let x := s.stack n
  let last := x.patrol + 1 = stackLines
  let s := s.setStack n { x with patrol := if last then 0 else x.patrol + 1, patrolAt := s.now }
  if last then s.bump (stackBlk n) 7 else s

/-- PATROL_STEP (R389): the next line of a stack, at the pace of PATROL_H and within that of background work (R276), from a channel that is not in
blackout; C15 in diagnostic use and failed channels are passed over.
(DEDUCED: log entry 75) -/
def execPatrolStep (stack : Fin 8) (c0 c1 : RawEcc) (s : State) : Host.Outcome State Fault Refusal :=
  let n := stack.val
  let x := s.stack n
  let l := n * stackLines + x.patrol
  let skip := (x.diag && lineChan l = 15) || x.failed.getLsbD (lineChan l)
  if !(s.stackEn n && x.state = 2 && x.patrolAt + s.patrolNs ≤ s.now) then .next s
  else if skip then .next (s.patrolOn n)
  else if (x.chan (lineChan l)).blackout || !s.paceOk n then .next s
  else .next ((((s.patrolOn n).pace n 128).useRow l).patrolLine l c0 c1)

end Sys2Proof.Machine
end

