-- ==== Sys2Proof/Machine/Startup.lean ====
section
/-! DEFINITION. Power-on, rails, start-up, whole-chip reset and the I3C port (R1, R3, R4, R391 to R393, R429, R517, R518, R522, R532 to R539,
R545). -/
namespace Sys2Proof.Machine

/-! ### Whole-chip reset (R535, R536) -/

/-- The rails that are up in a phase, in the order in which they rise: VMGT, VCORE_H0, VCORE_H1, VSERDES, VQT, VMEM (R518, R522). -/
def Phase.railsUp : Phase → Nat
  | .off | .rails | .retryWait | .dead => 0
  | .tripped => 1
  | _ => 6

/-- Everything volatile lost: what is left is the fuses, straps and flash; the queue of commands and the index of free values are the model's
own. (DEDUCED: log entry 22; DESIGN CHOICE: log entry 3; PRESUMED: log entry 23) -/
def State.restart (s : State) (nv : Nv) (phase : Phase) : State :=
  { pending := s.pending, fresh := s.fresh, nv := nv, pwr := { phase := phase, rail := phase.railsUp } }

/-- Everything volatile lost but for the I3C port, while the rails that the port lives on stay up: VMGT after a thermal trip and in D3, or the rails
that have risen so far (R518, R522, R523, R537). (DEDUCED: log entry 22) -/
def State.restartOn (s : State) (nv : Nv) (phase : Phase) (rail : Nat) : State :=
  let r := s.restart nv phase
  { r with pwr := { r.pwr with rail := rail, railFails := s.pwr.railFails, i3cAddr := s.pwr.i3cAddr, addrS := s.pwr.addrS } }

/-- The full complement of a build (R3, R4, R5): the stacks and link dies that it has. -/
def buildStacks (b : BitVec 4) : BitVec 8 := if b.toNat < 2 then 0xFF else 0x55
def buildDies (b : BitVec 4) : BitVec 4 := if b.toNat % 2 = 0 then 0xF else 3

/-- The fused unit map, of the units that the build has. -/
def Nv.fused (n : Nv) : UnitMap := { n.units with stks := n.units.stks &&& buildStacks n.build, linkdies := n.units.linkdies &&& buildDies n.build }

/-- The flash at a start-up: the sticky fatal log moves (R498), and the start-up is counted (R535). (DESIGN CHOICE: log entry 3) -/
def Nv.started (n : Nv) : Nv :=
  { n with fatalPrev := n.fatal, fatal := [], caused := false, resets := if n.resets = 0xFFFFFFFF then n.resets else n.resets + 1 }

/-- The identity that the key unit derives from the fused seed (R456): the Ed25519 private key, the ML-DSA-65 private key, and IDHASH.
(DESIGN CHOICE: log entry 10) -/
def identity (seed : BitVec 256) : BitVec 256 × List Byte × BitVec 384 :=
  let prk := Config.hkdfExtract (ascii "GP8 identity v1") (leBytes 32 seed.toNat)
  let skE := Config.hkdfExpand 256 prk (ascii "ed25519")
  let m := Config.mlDsaKeyGen (Config.hkdfExpand 256 prk (ascii "ml-dsa-65"))
  (skE, m.2, Config.sha384 (leBytes 32 (Config.ed25519Pub skE).toNat ++ leBytes 1952 m.1.toNat))

/-- Steps 3 and 4b of R532: the management island reads the fuses and straps, the fatal log moves, the identity is derived and the
reserved-region key generated; a strapped EID of 0xFFE or 0xFFF is replaced by 0, and ADDR_S is latched (R548). (DESIGN CHOICE: log entry 3) -/
def State.readFuses (s : State) : State :=
  let n := s.nv
  { s with
    fresh := s.fresh + 1
    nv := n.started
    node := { eid := if n.eidS.toNat < 0xFFE then n.eidS else 0, board := if n.build.toNat % 2 = 1 then 0 else n.boardS }
    pwr := { s.pwr with phase := .selftest, fusedAt := some s.now, addrS := some n.addrS, fused := n.fused, cap := n.ceiling, ceiling := n.ceiling, floor := n.floor
                        skE := (identity n.seed).1, skM := (identity n.seed).2.1, idhash := (identity n.seed).2.2, reservedKey := some s.fresh } }

/-- A whole-chip reset with a cause that starts again at step 3 (R532). (DESIGN CHOICE: log entry 3) -/
def State.wholeReset (s : State) (cause : BitVec 3) : State := (s.restart { s.nv with cause := cause } .selftest).readFuses

/-! ### VIN and the rails (R517, R518) -/

/-- POWER_ON (R517, R532): the cause that the flash holds since an input fault or a trip stands; otherwise it is POWER_ON.
(DEDUCED: log entry 22; DESIGN CHOICE: log entry 3) -/
def execPowerOn (s : State) : Host.Outcome State Fault Refusal :=
  match s.pwr.phase with
  | .off | .dead | .tripped => .next (s.restart { s.nv with cause := if s.nv.caused then s.nv.cause else 1 } .rails)
  | _ => .next s

/-- The rails of R518 in the order in which they rise: VMGT, VCORE_H0, VCORE_H1, VSERDES, VQT, VMEM. -/
def railCount : Nat := 6

/-- Whether rails that fell for D2 or D2R are to rise again (R528 step 1). -/
def Pwr.rising (p : Pwr) : Bool := p.pstep == .w1 && !p.fallen.isEmpty

/-- RAIL_POWER_GOOD (R518): the next rail in the order has risen, at a start-up or in step 1 of a wake (R528). -/
def execRailPowerGood (s : State) : Host.Outcome State Fault Refusal :=
  if s.pwr.phase = .rails then
    .next { s with pwr := { s.pwr with rail := s.pwr.rail + 1, railAt := s.now, phase := if s.pwr.rail + 1 = railCount then .osc else .rails } }
  else if s.pwr.rising then .next { s with pwr := { s.pwr with fallen := s.pwr.fallen.tail, railAt := s.now } }
  else .next s

/-- RAIL_POWER_GOOD_TIMEOUT (R518): after 2 ms every rail stops; a second failure is final. In a wake every rail stops too, with which everything
volatile is lost, and the retry is a start-up from step 1 with cause POWER_ON. (DEDUCED: log entry 22) -/
def execRailPowerGoodTimeout (s : State) : Host.Outcome State Fault Refusal :=
  if s.pwr.phase = .rails && s.pwr.railAt + 2000000 ≤ s.now then
    .next { s with pwr := { s.pwr with rail := 0, railAt := s.now, railFails := s.pwr.railFails + 1
                                       phase := if s.pwr.railFails = 0 then .retryWait else .dead } }
  else if s.pwr.rising && s.pwr.railAt + 2000000 ≤ s.now then
    let r := s.restart { s.nv with cause := 1 } .retryWait
    .next { r with pwr := { r.pwr with railFails := 1 } }
  else .next s

/-- RAIL_RETRY_TIMER (R518). -/
def execRailRetryTimer (s : State) : Host.Outcome State Fault Refusal :=
  if s.pwr.phase = .retryWait && s.pwr.railAt + 100000000 ≤ s.now then
    .next { s with pwr := { s.pwr with phase := .rails, rail := 0, railAt := s.now } }
  else .next s

/-- OSCILLATOR_STABLE (R532 steps 2 and 3). -/
def execOscillatorStable (s : State) : Host.Outcome State Fault Refusal :=
  if s.pwr.phase = .osc then .next s.readFuses else .next s

/-- INPUT_FAULT (R517): VIN in mV for a time in µs. Above 64 V for 1 ms or below 38 V for 100 µs the converter stops and everything volatile
is lost; beyond the ratings of R539 the module may be damaged. (DESIGN CHOICE: log entries 1, 3) -/
def execInputFault (mv us : Nat) (s : State) : Host.Outcome State Fault Refusal :=
  if 80000 < mv || (66000 < mv && 100000 < us) then .fault .overstress
  else if (64000 < mv && 1000 ≤ us) || (mv < 38000 && 100 ≤ us) then
    if s.pwr.phase = .off then .next s else .next (s.restart { s.nv with cause := 5, caused := true } .off)
  else .next s

/-! ### Self-tests and memory start-up (R391 to R393, R532) -/

/-- LOGIC_SELFTEST_DONE (R532 step 4a): the units that passed, of those that the fuses hold good. (DEDUCED: log entry 21) -/
def execLogicSelftestDone (passed : UnitMap) (s : State) : Host.Outcome State Fault Refusal :=
  if s.pwr.phase = .selftest && !s.pwr.logicDone then
    let f := s.pwr.fused
    .next { s with pwr := { s.pwr with logicDone := true
                                       tested := { s.pwr.tested with linkdies := f.linkdies &&& passed.linkdies, tiles := f.tiles &&& passed.tiles
                                                                     quads := f.quads &&& passed.quads, hubs := f.hubs &&& passed.hubs } } }
  else .next s

/-- MEM_PHY_TRAINING_DONE (R391 step 1): at rate code 0 with shadow set A. -/
def execMemPhyTrainingDone (s : State) : Host.Outcome State Fault Refusal :=
  if s.pwr.phase = .selftest && !s.pwr.phyDone then
    .next (({ s with pwr := { s.pwr with phyDone := true } }).each ((List.range 8).filter s.pwr.fused.stks.getLsbD) fun s n =>
      s.modStack n fun x => { x with state := 1, timA := s.nv.timingOf n 0 })
  else .next s

/-- The index of a bank among all of the device's banks. -/
def bankOfRow (f : RowFail) : Nat := (f.stack.val * 16 + f.ch.val) * 64 + f.bank.val

/-- A failing row replaced from its bank's spare rows and tested again, until a spare passes or the bank's four are used up: the remap table, which
names for each spare of a bank the row that it stands for, or none where the spare failed too, and the stacks that fail. A replaced row stays
replaced through every reset (R536). (DESIGN CHOICE: log entry 87) -/
def repairRow (acc : Tbl (List (Option Nat)) × BitVec 8) (f : RowFail) : Tbl (List (Option Nat)) × BitVec 8 :=
  let l := tget [] acc.1 (bankOfRow f)
  if l.length + f.bad + 1 ≤ 4 then (tput [] acc.1 (bankOfRow f) (l ++ List.replicate f.bad none ++ [some f.row.val]), acc.2)
  else (tput [] acc.1 (bankOfRow f) ((l ++ List.replicate 4 none).take 4), acc.2 ||| BitVec.twoPow 8 f.stack.val)

/-- MEM_SELFTEST_DONE (R391 step 2, R392): the rows of tested stacks that failed are repaired in turn; a stack with an unrepaired row fails. -/
def execMemSelftestDone (rows : List RowFail) (s : State) : Host.Outcome State Fault Refusal :=
  if s.pwr.phase = .selftest && s.pwr.phyDone && !s.pwr.memDone then
    let r := (rows.filter fun f => s.pwr.fused.stks.getLsbD f.stack.val).foldl repairRow (s.nv.remap, 0)
    .next { s with nv := { s.nv with remap := r.1 }
                   pwr := { s.pwr with memDone := true, tested := { s.pwr.tested with stks := s.pwr.fused.stks &&& ~~~r.2 } } }
  else .next s

/-! ### Reconciliation and release (R4, R429, R533) -/

/-- BUILD_INFO (R3, R4, R533) of a build from the units tested good. -/
def buildInfo (build : BitVec 4) (m : UnitMap) (dbgdis : Bool) : Nat :=
  let st := mapBits 0 8 fun n => m.stks.getLsbD n && quadOk m (n / 2)
  let ld := mapBits 0 4 fun n => m.linkdies.getLsbD n && quadOk m (quadOfDie n)
  let tl := mapBits 0 32 fun n => m.tiles.getLsbD n && quadOk m (n / 8)
  let full := st = (buildStacks build).toNat && ld = (buildDies build).toNat && tl = 2 ^ 32 - 1 && m.hubs = 3
  packBits [(0, 4, build.toNat), (4, 1, b2n !full), (5, 8, st), (13, 4, ld), (17, 32, tl), (49, 1, b2n dbgdis)]

/-- A stack ON at the end of its fill (R391 step 4), with its refresh, calibration and patrol timers started. -/
def Stack.start (x : Stack) (now ft : Nat) : Stack :=
  { x with state := 2, patrolAt := ft, chans := (List.range 16).foldl (fun t c => tmod {} t c fun z => { z with lastCal := now }) x.chans }

/-- The management cores released (R429): MC0 with claim 1, or MC1 when MC0 is bad or fails its boot check. -/
def State.releaseCores (s : State) (ok0 ok1 : Bool) : State :=
  let w : Stew := { released := true, active := !ok0, standby := if ok0 && ok1 then 0 else 2, heartbeat := s.now }
  let s := { s with stew := w }
  if ok0 || ok1 then s else s.setNoFw 3

/-- A port at start-up (R321, R369): EN and AUTO set, DOWN. (DEDUCED: log entry 21) -/
def Port.start (x : Port) (now : Nat) : Port := { x with state := 1, en := true, auto := true, downAt := now }

/-- Steps 5 and 6 of R532. (DEDUCED: log entry 21) -/
def State.reconcile (s : State) (mc0 mc1 : Bool) : State :=
  let f := s.pwr.fused
  let ok0 := f.cores.getLsbD 0 && mc0
  let ok1 := f.cores.getLsbD 1 && mc1
  let m := { s.pwr.tested with cores := BitVec.ofNat 2 (b2n ok0 + 2 * b2n ok1) }
  let s := { s with pwr := { s.pwr with fillDone := true } }
  if !m.hubs.getLsbD 0 then
    { s with pwr := { s.pwr with phase := .failed, tested := { m with cores := 0 }, elapsed := BitVec.ofNat 16 (s.now / 1000000)
                                 build := BitVec.ofNat 64 (buildInfo s.nv.build m s.nv.dbgdis) } }
  else
    let s := { s with pwr := { s.pwr with phase := .boot, tested := m, build := BitVec.ofNat 64 (buildInfo s.nv.build m s.nv.dbgdis)
                                          releasedAt := s.now } }
    let s := s.each (List.range 8) fun s n => if s.stackEn n then s.modStack n fun x => x.start s.now s.hubNs else s.setStack n {}
    let s := s.each ((List.range 17).filter s.portEn) fun s p => s.modPort p fun x => x.start s.now
    let s := s.each s.tileList fun s n => s.modTile n fun t => { t with kat := { t.kat with lastNs := s.ftNs } }
    ({ s with qor := { s.qor with hostAgent := true } }).releaseCores ok0 ok1

/-- MEM_FILL_DONE (R391 steps 3 and 4, R393, R532 steps 5 and 6): with the logic self-test done too, the units are reconciled and the cores
released; `mc0` and `mc1` are the boot checks. -/
def execMemFillDone (mc0 mc1 : Bool) (s : State) : Host.Outcome State Fault Refusal :=
  if s.pwr.phase = .selftest && s.pwr.memDone && s.pwr.logicDone then .next (s.reconcile mc0 mc1) else .next s

/-! ### Steward boots (R532 steps 7 and 8) -/

/-- The start-up known-answer test of a tile (trigger 3): the values of a failed vector are free. (DEDUCED: log entry 21) -/
def State.bootTest (s : State) (n : Nat) (pass : Bool) : State :=
  let s := (s.modTile n fun t => { t with kat := { t.kat with running := true, trigger := 3, began := s.ftNs, segAt := s.now } }).bump (tileBlk n) 14
  if pass then s.katFinish n true fun _ => none
  else
    let (v, s) := s.draw (2 ^ 24)
    let (crcs, s) := s.draw (2 ^ 64)
    s.katFinish n false fun fails =>
      some (errRec 0x41 2 none (0x1000 + n) (packBytes [(0, 3, v), (3, 1, 3), (4, 1, fails), (8, 8, crcs)]))

/-- The units that the fuses hold good and the start-up test failed (R495, R533). -/
def Pwr.mismatches (p : Pwr) : List Nat :=
  let f := p.fused; let m := p.tested
  let of := fun (kind n : Nat) (a b : Nat) => ((List.range n).filter fun i => a.testBit i && !b.testBit i).map (kind * 4096 + ·)
  of 1 32 f.tiles.toNat m.tiles.toNat ++ of 2 8 f.stks.toNat m.stks.toNat ++ of 5 4 f.linkdies.toNat m.linkdies.toNat
    ++ of 7 4 f.quads.toNat m.quads.toNat ++ of 8 2 f.hubs.toNat m.hubs.toNat ++ of 9 2 f.cores.toNat m.cores.toNat

/-- The records of a start-up (R530): UNIT_MISMATCH for each unit that failed, the record of the entry to D3 after a wake from it, and
RESET_DONE. (DEDUCED: log entry 21; DESIGN CHOICE: log entry 11) -/
def State.bootRecords (s : State) : State :=
  let s := s.each s.pwr.mismatches fun s u => s.event devTarget { kind := 0x30, obj := BitVec.ofNat 32 u, cause := 1 }
  let s := if s.nv.cause = 6 then s.event devTarget { kind := 0x31, obj := 4, cause := 1 } else s
  s.event devTarget { kind := 0x33, obj := BitVec.ofNat 32 s.nv.cause.toNat, spec := BitVec.ofNat 160 s.nv.resets.toNat }

/-- STARTUP_STATUS.ELAPSED is final, and mailbox service begins (R532 step 8, R538). -/
def State.bootServe (s : State) : State :=
  { s with pwr := { s.pwr with phase := .ready, elapsed := BitVec.ofNat 16 (s.now / 1000000) }
           stew := { s.stew with heartbeat := s.now } }

/-- Steward copies the vectors of the known-answer test from the module's flash to the scratch (R499). -/
def State.copyVectors (s : State) : State := { s with vectors := s.nv.vectors }

/-- STEWARD_BOOT_DONE (R499, R530, R532 steps 7 and 8, R484): the start-up tests, the records of the start-up, and mailbox service; `staged` says
that the staged firmware slot verifies again. -/
def execStewardBootDone (kat : BitVec 32) (staged : Bool) (s : State) : Host.Outcome State Fault Refusal :=
  if s.pwr.phase = .boot && s.stew.released && !s.stew.noFw then
    let s := { s with nv := s.nv.setOther { s.nv.otherSlot with valid := s.nv.otherSlot.valid && staged } }
    .next ((s.copyVectors.each s.tileList fun s n => s.bootTest n (kat.getLsbD n)).bootRecords.bootServe)
  else .next s

/-- STARTUP_STATUS (R538), which the I3C port reads. PHASE shows FUSE in the nanosecond in which step 3 of R532 runs; in D3 it stays READY.
(DEDUCED: log entry 21) -/
def State.startupWord (s : State) : Nat :=
  let p := s.pwr
  let phase := match p.phase with
    | .selftest => if p.fusedAt = some s.now && !p.logicDone && !p.phyDone then 1 else if p.memDone then 3 else 2
    | .boot => 4 | .ready => 5 | .failed => 6 | _ => 0
  let ms := if p.phase = .ready || p.phase = .failed then p.elapsed.toNat else s.now / 1000000
  packBits [(0, 3, phase), (3, 1, b2n (p.build.getLsbD 4)), (4, 16, ms)]

/-- The I3C port is powered: it lives on VMGT, the first rail to rise, and answers in every state in which that rail is up (R518, R537). -/
def Pwr.i3cUp (p : Pwr) : Bool := decide (1 ≤ p.rail)

/-- The static address of the I3C port, once the straps are read (R545, R548). -/
def Pwr.i3cStatic (p : Pwr) : Option (BitVec 7) := p.addrS.map fun a => 0x58 + a.setWidth 7

/-- What the I3C port reads at an index (R537): STARTUP_STATUS, PWR_STATUS, RESET_CAUSE, BUILD_INFO, and the sensors; nothing at another index,
or while the port has no power. -/
def State.i3cRead (s : State) (index : Nat) : Option Nat :=
  if !s.pwr.i3cUp then none
  else if index = 0 then some s.startupWord
  else if index = 1 then some s.pwr.statusWord
  else if index = 2 then some (packBits [(0, 3, s.nv.cause.toNat), (3, 32, s.nv.resets.toNat)])
  else if index = 3 then some s.pwr.build.toNat
  else if 0x10 ≤ index ∧ index < 0x30 then some (s.sensor (index - 0x10)).word
  else none

/-! ### Resets (R482, R522, R535, R537, R545) -/

/-- A whole-chip reset while the rails rise or the oscillator starts: the start-up begins again with the rails that are up (R532, R535).
(DEDUCED: log entry 22) -/
def State.earlyReset (s : State) (cause : BitVec 3) : State :=
  match s.pwr.phase with
  | .rails => if s.pwr.i3cUp then s.restartOn { s.nv with cause := cause } .rails s.pwr.rail else s
  | .osc => s.restartOn { s.nv with cause := cause } .osc s.pwr.rail
  | _ => s

/-- RESET_PIN (R535): RESET_N low for at least 10 µs. In D3, where the rails have fallen, the start-up begins at step 1.
(DEDUCED: log entry 22; DESIGN CHOICE: log entry 3) -/
def execResetPin (us : Nat) (s : State) : Host.Outcome State Fault Refusal :=
  if us < 10 then .next s
  else if !s.pwr.running then .next (s.earlyReset 2)
  else if s.pwr.state = 4 then .next (s.restartOn { s.nv with cause := 2 } .rails 1)
  else .next (s.wholeReset 2)

/-- DEVICE_RESET_START (R451): 1 ms after the reply. (DEDUCED: log entry 22; DESIGN CHOICE: log entry 3) -/
def execDeviceResetStart (s : State) : Host.Outcome State Fault Refusal :=
  match s.stew.resetAt with
  | some t => if t ≤ s.now then .next (s.wholeReset 3) else .next s
  | none => .next s

/-- I3C_RESET (R522, R535, R537): 0x5A then 0xA5 within 1 ms. After a thermal trip the start-up begins at step 1, with the cause that the trip
recorded; in D3, where the rails have fallen, it begins at step 1 too. While every rail has stopped the port has no power and hears nothing.
(DEDUCED: log entry 22; DESIGN CHOICE: log entry 3) -/
def execI3cReset (b0 b1 : Byte) (gapUs : Nat) (s : State) : Host.Outcome State Fault Refusal :=
  if b0 ≠ 0x5A || b1 ≠ 0xA5 || 1000 < gapUs then .next s
  else if s.pwr.phase = .tripped then .next (s.restartOn s.nv .rails 1)
  else if s.pwr.running && s.pwr.state = 4 then .next (s.restartOn { s.nv with cause := 3 } .rails 1)
  else if s.pwr.running then .next (s.wholeReset 3)
  else .next (s.earlyReset 3)

/-- Whether a sensor has read its trip limit or more on three consecutive samples (R522). -/
def State.trips (s : State) : Bool := s.sensors.any fun e => decide (3 ≤ e.2.trip)

/-- THERMAL_TRIP (R522): ports stop, every rail but VMGT falls, and RESET_CAUSE records THERMAL. (DESIGN CHOICE: log entry 3) -/
def execThermalTrip (s : State) : Host.Outcome State Fault Refusal :=
  if s.pwr.running && s.trips then .next (s.restartOn { s.nv with cause := 4, caused := true } .tripped 1) else .next s

/-- DEBUG_DISABLE_FUSE_BLOW (R482): through the test port, which answers while the fuse is intact. (DESIGN CHOICE: log entry 3) -/
def execDebugDisableFuseBlow (s : State) : Host.Outcome State Fault Refusal :=
  if s.pwr.running && !s.nv.dbgdis then .next ({ s with nv := { s.nv with dbgdis := true } }.wholeReset 3) else .next s

/-- I3C_DYNAMIC_ADDRESS_ASSIGN (R545): ENTDAA and SETDASA reach a port that has no dynamic address yet; SETDASA names it by its static address,
which it has once the straps are read. (PRESUMED: log entry 23) -/
def execI3cDynamicAddressAssign (setdasa : Bool) (addr : BitVec 7) (s : State) : Host.Outcome State Fault Refusal :=
  if s.pwr.i3cUp && s.pwr.i3cAddr.isNone && (!setdasa || s.pwr.i3cStatic.isSome) then .next { s with pwr := { s.pwr with i3cAddr := some addr } } else .next s

end Sys2Proof.Machine
end

