-- ==== Sys2Proof/Machine/Power.lean ====
section
/-! DEFINITION. Power states: entry, abandonment and wake (R523 to R531), POWER_STATE_SET (R451). -/
namespace Sys2Proof.Machine

/-! ### Reasons and units (R495, R525, R526) -/

def prImage : Byte := 1
def prTest : Byte := 2
def prJob : Byte := 3
def prChunk : Byte := 4
def prNotWithdrawn : Byte := 5
def prMemory : Byte := 6
def prBackground : Byte := 7
def prPartition : Byte := 8
def prDelay : Byte := 9
def prWake : Byte := 10

/-- The enabled units that answer the handshake (R527), as UNIT values (R495): tiles, stacks, link dies, slices and stages of the enabled
quadrants, hub dies. (DESIGN CHOICE: log entry 77) -/
def State.powerUnits (s : State) : List Nat :=
  let m := s.pwr.tested
  let quads := (List.range 4).filter (quadOk m)
  s.tileList.map (0x1000 + ·) ++ s.stackList.map (0x2000 + ·) ++ s.dieList.map (0x5000 + ·) ++ quads.map (0x6000 + ·)
    ++ quads.map (0x7000 + ·) ++ ((List.range 2).filter m.hubs.getLsbD).map (0x8000 + ·)

/-- The first unit of a kind that satisfies a test. (DESIGN CHOICE: log entry 84) -/
def firstUnit (kind n : Nat) (f : Nat → Bool) : Option Nat := ((List.range n).find? f).map (kind * 4096 + ·)

/-- Whether a tile holds a job. -/
def Tile.holdsJob (t : Tile) : Bool := t.slots.any fun k => (t.job k).st != .free

/-- How long the background work that State holds of a stack runs at its pace, in ns: the granules still to be scrubbed or rebuilt there, and the
zero-fills under way (R57, R66, R226, R276, R525). (DESIGN CHOICE: log entry 77) -/
def State.bgLeft (s : State) (n : Nat) : Nat :=
  let left := fun (x : Ext) => match s.bgStack x with
    | none => 0
    | some _ =>
      let p := s.prot x.protRef.toNat
      let at_ := if x.state = 3 then x.scrub else if x.parity then p.cursor.toNat / (if x.pwidth then 7 else 3) else p.cursor.toNat
      ((List.range x.localSize).filter fun i => at_ ≤ i && granStack (s.extGran x i) = n).length
  let g := (s.exts.map fun e => left e.2).sum
  let fill := s.exts.foldl (fun m e =>
    let c := s.comb e.2.protRef.toNat
    if e.2.combine && c.clearing && (s.extGrans e.2).any (fun g => granStack g = n) then max m (c.fillEnd - s.now) else m) 0
  max fill (if g = 0 then 0 else s.paceNs n (g * granBytes))

/-- The conditions of R525 that Steward reads itself, in the table's order: the first that a target does not meet, with its unit. How long background
work runs is what its pace gives for the bytes that are left. (DESIGN CHOICE: log entry 77) -/
def State.entryRefusal (s : State) (target : Nat) : Option (BitVec 16 × Byte) :=
  let low := 2 ≤ target
  let gone := target = 2 || target = 4
  let checks : List (Option Nat × Byte) :=
    [ (if s.schedState ≠ 0 then some 0 else none, prImage),
      (firstUnit 1 32 fun n => (s.tile n).kat.running, prTest),
      (if gone then firstUnit 1 32 fun n => (s.tile n).holdsJob else none, prJob),
      (if gone && s.combs.any (fun e => e.2.resident ≠ 0) then some 0 else none, prChunk),
      (if low && !s.stew.withdrawn then some 0 else none, prNotWithdrawn),
      (if low then (firstUnit 2 8 fun n => (s.stack n).diag || s.mem.rcMask.getLsbD n).or (if s.mem.rcOn then some 0 else none) else none, prMemory),
      (if low then firstUnit 2 8 fun n => decide (1000000 < s.bgLeft n) else none, prBackground),
      (if target = 4 && s.parts.any (fun e => e.2.state ≠ 0) then some 0 else none, prPartition) ]
  checks.findSome? fun c => c.1.map fun u => (BitVec.ofNat 16 u, c.2)

/-! ### Notifications (R530) -/

/-- POWER_EVENT with a target state and a cause. -/
def State.powerEvent (s : State) (target : BitVec 3) (cause spec : Nat) : State :=
  s.event devTarget { kind := 0x31, obj := BitVec.ofNat 32 target.toNat, cause := BitVec.ofNat 8 cause, spec := BitVec.ofNat 160 spec }

/-! ### Gates -/

/-- Every engine gated or ungated (R524); jobs that a power state stops are READY as on quantum expiry, and go on when the gate opens. -/
def State.gateTiles (s : State) (g : Bool) : State :=
  s.each s.tileList fun s n =>
    let s := s.modTile n fun t => { t with gated := g }
    if g then s.askStop n .power else s.rouse n

/-- Admission stopped or resumed at every arbiter (R527 step 4). (DESIGN CHOICE: log entry 77) -/
def State.pauseAll (s : State) (b : Bool) : State :=
  s.each s.stackList fun s n => s.modStack n fun x => { x with paused := b || x.state == 3 }

/-- The host's AGENT bit set again, when R363 allows it. -/
def State.hostAgain (s : State) : State :=
  if (s.port 16).state = 3 && s.qor.hostAgent && s.qor.caching && !s.orphanScan then s.setAgent 0xFFE true else s

/-! ### Ends of an entry -/

/-- The entry in progress ended. -/
def Pwr.ended (p : Pwr) : Pwr := { p with pstep := .none, entering := false, answers := [], delays := [], refuse := none, wake := false, token := none }

/-- What ends an entry at an abort point, if anything: a wake event first, then a refusal (R527). -/
def Pwr.abort (p : Pwr) : Option (BitVec 16 × Byte) := if p.wake then some (0, prWake) else p.refuse

/-- Wake from D1 (R528): the engines are ungated. (DEDUCED: log entry 79) -/
def State.wakeD1 (s : State) : State := ((({ s with pwr := { s.pwr with state := 0 } }).gateTiles false).powerEvent 0 3 1)

/-- An entry abandoned (R521, R527, R530): the device goes on as before, and the command replies REFUSED. A wake event that ended an entry from D1
wakes the device from there (R528). -/
def State.abandonEntry (s : State) (ap : Nat) (u : BitVec 16 × Byte) : State :=
  let p := s.pwr
  let s := { s with pwr := { p.ended with lastAp := BitVec.ofNat 3 ap, lastUnit := u.1, lastReason := u.2 } }
  let s := if ap = 4 then s.gateTiles (p.state == 1) else s
  let s := if 3 ≤ ap then s.hostAgain else s
  let s := if p.wake then s.powerEvent p.target 2 ap else s.powerEvent p.target 4 (packBytes [(0, 2, u.1.toNat), (2, 1, u.2.toNat)])
  let s := match p.token with
    | some t => s.failCmd t csRefused 0 (BitVec.ofNat 1920 (u.1.toNat + u.2.toNat * 65536))
    | none => s
  if p.wake && p.state = 1 then s.wakeD1 else s

/-- An abort point: the entry is abandoned, or goes on. (DESIGN CHOICE: log entry 77) -/
def State.abortPoint (s : State) (ap : Nat) (go : State → State) : State :=
  match s.pwr.abort with
  | some u => s.abandonEntry ap u
  | none => go s

/-! ### The steps of an entry (R527) -/

/-- The handshake begins: every enabled unit is asked. (DESIGN CHOICE: log entry 77) -/
def State.askUnits (s : State) : State := { s with pwr := { s.pwr with pstep := .s2, askAt := s.now, answers := [], delays := [] } }

/-- Whether the handshake has ended: every unit answered ACCEPT, or an abort is pending. -/
def State.handshaken (s : State) : Bool := s.pwr.abort.isSome || s.powerUnits.all fun u => tget false s.pwr.answers u

/-- D1 entered: the engines are gated (R524). -/
def State.enterD1 (s : State) : State :=
  let s := (({ s with pwr := { s.pwr.ended with state := 1 } }).gateTiles true)
  (s.wake .power).powerEvent 1 1 0

/-- Step 3 begins: the lines that step 3 concerns are back-invalidated while the host still counts as an agent (R109), and its AGENT bit is cleared
once no line lists it (`State.hostLeaves`). -/
def State.flushStart (s : State) : State := ({ s with pwr := { s.pwr with pstep := .s3 } }).sweepAll

/-- Whether a line of a slice lists the host, or waits for its answer. -/
def State.hostListed (s : State) : Bool := s.tracks fun q w => s.wayLists 0xFFE q w || ((s.slice q).way w).opn

/-- The host's AGENT bit cleared at the end of step 3 (R109, R527). -/
def State.hostLeaves (s : State) : State := s.setAgent 0xFFE false

/-- Whether step 3 has ended: for D2 and D3 the directory is empty, for D2R no entry lists the host. -/
def State.flushed (s : State) : Bool :=
  if s.pwr.target = 3 then !s.hostListed else !s.tracks fun _ _ => true

/-- Step 4 begins: admission stops (`State.admitOff`), and the engines are gated. -/
def State.drainStart (s : State) : State := ({ s with pwr := { s.pwr with pstep := .s4 } }).gateTiles true

/-- Whether a record for a target can leave: its register is enabled, and Qoreus is UP or a link die can reach its EID.
(DESIGN CHOICE: log entry 77) -/
def State.targetReached (s : State) (t : Nat) : Bool :=
  let w := s.ntfReg t
  ntfEn w && if ntfHost w then (s.port 16).state == 3 else (s.pickDie [] (ntfTarget w)).isSome

/-- Whether step 4 has ended: no request is queued, at the arbiters or before them, walkers and engines are idle, and no record is staged, or waits
for a place in its ring, for a target that can be reached. (DESIGN CHOICE: log entry 77) -/
def State.drained (s : State) : Bool :=
  s.admHeld.isEmpty && s.limHeld.isEmpty && s.fwds.isEmpty
    && (s.stackList.all fun n => (s.stack n).wait.isEmpty && (s.stack n).queue.isEmpty && (s.stack n).chans.all fun c => c.2.entries.isEmpty && c.2.issued.isEmpty)
    && (s.tileList.all fun n => let t := s.tile n
      t.running.isNone && t.walk.isNone && t.slots.all fun k => (t.job k).st != .stopping && (t.job k).st != .running)
    && (List.range 65).all fun t => ((s.ring t).recs.isEmpty && (s.ring t).waiting.isEmpty) || !s.targetReached t

/-- AP4 passed: the arbiters admit nothing more, OK is posted, and step 5 begins. -/
def State.leaveService (s : State) : State :=
  let s := (s.pauseAll true).wake .power
  { s with pwr := { s.pwr with pstep := .s5 } }

/-- A port stops for a power state (R524, R527, R529): from UP it sends DOWN with REASON 0; it keeps what short training needs.
(DESIGN CHOICE: log entry 77) -/
def State.stopPort (s : State) (p : Nat) : State :=
  match (s.port p).state.toNat with
  | 3 => (s.sendDown p 0).modPort p fun x => { x with shortOk := true }
  | 4 => (s.linkDown p 6).modPort p fun x => { x with shortOk := true }
  | 2 => s.modPort p fun x => { x with state := 1, train := {}, lctl := [], downAt := s.now }
  | _ => s

/-- Step 5: every port and Qoreus DOWN, and the record of the entry staged (R530). -/
def State.stopPorts (s : State) : State :=
  let s := (s.each ((List.range 17).filter s.portEn) State.stopPort).powerEvent s.pwr.target 1 0
  { s with pwr := { s.pwr with pstep := .s6 } }

/-- The rails that fall for D2 and D2R, in the order in which they rise: those of the link dies and of the tiles, whose units keep nothing or hold
it in retention flip-flops (R523, R527). Which rails they are the spec does not say. (DESIGN CHOICE: log entry 78) -/
def sleepRails : List Nat := [3, 4]

/-- D2 or D2R reached: the stacks in self-refresh, the keeper stopped, the rails of units that keep nothing fallen, in the reverse of the order in
which `fallen` will raise them (R518). -/
def State.sleepNow (s : State) : State :=
  let s := s.each s.stackList fun s n => s.modStack n fun x => if x.state = 2 then { x with state := 4 } else x
  { s with keeper := { s.keeper with stopped := true }, pwr := { s.pwr.ended with state := s.pwr.target, fallen := sleepRails } }

/-- The wake sequence of D2 and D2R begins (R528). (DEDUCED: log entry 79) -/
def State.wakeStart (s : State) : State := { s with pwr := { s.pwr with wakeFrom := s.pwr.state, pstep := .w1, railAt := s.now } }

/-- D3 (R523): everything but fuses, flash and what the I3C port shows is gone, and every rail but VMGT has fallen (R537, R538). -/
def State.enterD3 (s : State) : State :=
  let r := s.restartOn s.nv .ready 1
  { r with pwr := { r.pwr with state := 4, elapsed := s.pwr.elapsed, build := s.pwr.build } }

/-- Wake from D3 (R528): a whole-chip reset with cause D3_WAKE, from the rails. (DEDUCED: log entry 79) -/
def State.wakeD3 (s : State) : State := s.restartOn { s.nv with cause := 6 } .rails 1

/-- The end of step 6: the target state is reached, and a wake event that came after AP4 starts the wake sequence. -/
def State.entered (s : State) : State :=
  let w := s.pwr.wake
  if s.pwr.target = 4 then (if w then s.enterD3.wakeD3 else s.enterD3)
  else if w then s.sleepNow.wakeStart else s.sleepNow

/-- Whether a management core runs, whatever the step of an entry. -/
def State.coreUp (s : State) : Bool := s.stew.released && !s.stew.noFw && !(s.stew.step == .booting || s.stew.step == .replay)

/-- The end of a step of an entry (R527): its event has come, the abort point after it is checked, and the next step begins. -/
def State.entryStep (s : State) : State :=
  match s.pwr.pstep with
  | .s1 =>
    let s := { s with pwr := { s.pwr with refuse := s.pwr.refuse.or (s.entryRefusal s.pwr.target.toNat) } }
    s.abortPoint 1 State.askUnits
  | .s2 => if s.handshaken then s.abortPoint 2 fun s => if s.pwr.target = 1 then s.enterD1 else s.flushStart else s
  | .s3 => if s.flushed then s.hostLeaves.abortPoint 3 State.drainStart else s
  | .s4 => if s.drained then s.abortPoint 4 State.leaveService else s
  | .s5 => s.stopPorts
  | .s6 => s.entered
  | _ => s

/-- POWER_ENTRY_STEP_DONE (R527, R531). (DESIGN CHOICE: log entry 77) -/
def execPowerEntryStepDone (s : State) : Host.Outcome State Fault Refusal := .next (if s.coreUp then s.entryStep else s)

/-! ### The handshake (R527) -/

/-- Whether a unit is still to accept. (DESIGN CHOICE: log entry 77) -/
def State.unitAsked (s : State) (u : Nat) : Bool := s.pwr.pstep == .s2 && s.powerUnits.contains u && !tget false s.pwr.answers u

/-- Whether a value is a REASON that a unit can give (R526). -/
def reasonOk (r : Byte) : Bool := decide (1 ≤ r.toNat) && decide (r.toNat ≤ 10)

/-- POWER_UNIT_ANSWER (R527): a refusal names one of the reasons of R526. (DESIGN CHOICE: log entry 77) -/
def execPowerUnitAnswer (unit : BitVec 16) (a : UnitAnswer) (s : State) : Host.Outcome State Fault Refusal :=
  let u := unit.toNat
  if !s.unitAsked u then .next s
  else match a with
    | .accept => .next { s with pwr := { s.pwr with answers := tput false s.pwr.answers u true, delays := tput 0 s.pwr.delays u 0 } }
    | .delay us => .next { s with pwr := { s.pwr with delays := tput 0 s.pwr.delays u (s.now + 1000 * us) } }
    | .refuse r => if !reasonOk r then .next s else .next { s with pwr := { s.pwr with refuse := s.pwr.refuse.or (some (unit, r)) } }

/-- POWER_DELAY_REASK (R527): after the interval that a unit named, it is asked again. (DESIGN CHOICE: log entry 77) -/
def execPowerDelayReask (unit : BitVec 16) (s : State) : Host.Outcome State Fault Refusal :=
  let u := unit.toNat
  if s.unitAsked u && tget 0 s.pwr.delays u ≠ 0 && tget 0 s.pwr.delays u ≤ s.now then
    .next { s with pwr := { s.pwr with delays := tput 0 s.pwr.delays u 0 } }
  else .next s

/-- POWER_DELAY_EXPIRED (R527): 1 ms after the first request, a unit that has not accepted counts as having refused. (DESIGN CHOICE: log entry 77) -/
def execPowerDelayExpired (unit : BitVec 16) (s : State) : Host.Outcome State Fault Refusal :=
  if s.unitAsked unit.toNat && s.pwr.askAt + 1000000 ≤ s.now then
    .next { s with pwr := { s.pwr with refuse := s.pwr.refuse.or (some (unit, prDelay)) } }
  else .next s

/-! ### Wake (R528, R529) -/

/-- A wake event (R528): pending during an entry, otherwise acted on from the state that the device is in. (DEDUCED: log entry 79) -/
def State.wakeEvent (s : State) : State :=
  match s.pwr.pstep with
  | .none => match s.pwr.state.toNat with
    | 1 => s.wakeD1
    | 2 => s.wakeStart
    | 3 => s.wakeStart
    | 4 => s.wakeD3
    | _ => s
  | .s1 | .s2 | .s3 | .s4 | .s5 | .s6 => { s with pwr := { s.pwr with wake := true } }
  | _ => s

/-- I3C_WAKE (R528). (DEDUCED: log entry 79) -/
def execI3cWake (s : State) : Host.Outcome State Fault Refusal := if s.pwr.phase = .ready then .next s.wakeEvent else .next s

/-- Step 3 of a wake: every stack leaves self-refresh; the retrain counts as each channel's calibration (R376, R379). (DEDUCED: log entry 79) -/
def State.wakeStacks (s : State) : State :=
  s.each s.stackList fun s n =>
    let x := s.stack n
    if x.state = 4 then
      let live := (List.range 16).filter fun c => !x.failed.getLsbD c
      let cal := fun (c : Chan) => { c with lastCal := s.now, calDue := false, phyFails := 0, postponed := [], refreshed := [] }
      (s.setStack n { x with state := 2, paused := false, chans := live.foldl (fun t c => tmod {} t c cal) x.chans }).bumpBy
        (stackBlk n + 8 + 8 * 5) live.length
    else s.modStack n fun x => { x with paused := false }

/-- What a tile is after D2: its windows, words and sections are lost; its known-answer results are among the restored registers.
(DESIGN CHOICE: log entry 78) -/
def Tile.afterD2 (t : Tile) : Tile := { kat := t.kat, nextOrder := t.nextOrder, nextId := t.nextId }

/-- The SRAMs that D2 does not keep at their start-up state (R523, R528): directory slices, walker caches, tile windows, landing entries,
route tables and transit buffers, the state of pairs. The images stand in reserved DRAM, which D2 keeps. (DESIGN CHOICE: log entry 78) -/
def State.lostInD2 (s : State) : State :=
  let s := s.each s.tileList fun s n => s.modTile n Tile.afterD2
  { s with slices := [], orphanScan := false, walkers := [], lands := [], dies := [], rx := [], tx := [], origs := [], released := [],
           limHeld := [], admHeld := [], splits := [], fwds := [] }

/-- Step 4 of a wake: the engines are ungated and the keeper runs again, in ACQUIRING. (DESIGN CHOICE: log entry 78) -/
def State.wakeLogic (s : State) : State :=
  let s := (if s.pwr.wakeFrom = 2 then s.lostInD2 else s).gateTiles false
  { s with keeper := { s.keeper with stopped := false, state := 1, followAlt := false, good := 0, bad := 0, slew := 0, freqAdj := 0, holdSince := 0 } }

/-- WAKE_STEP_DONE (R528): step 1 ends when the fallen rails have risen. (DESIGN CHOICE: log entry 78) -/
def execWakeStepDone (s : State) : Host.Outcome State Fault Refusal :=
  let to_ := fun (s : State) (p : PwrStep) => { s with pwr := { s.pwr with pstep := p } }
  match s.pwr.pstep with
  | .w1 => .next (if s.pwr.fallen.isEmpty then to_ s .w2 else s)
  | .w2 => .next (to_ s .w3)
  | .w3 => .next (to_ s.wakeStacks .w4)
  | .w4 => .next (to_ s.wakeLogic .w5)
  | .w5 => .next (to_ s .w6)
  | .w6 =>
    let s := { s with pwr := { s.pwr with pstep := .none, state := 0 }, stew := { s.stew with heartbeat := s.now } }
    .next ((s.powerEvent 0 3 s.pwr.wakeFrom.toNat).postReady)
  | _ => .next s

/-! ### The command (R451) -/

def powerForm : CmdForm := { op := 0x0F02, len := fun _ => 1, fields := bytesOf [(0, 1)] }

/-- POWER_STATE_SET's row: D0 wakes from D1; another state starts an entry. (DESIGN CHOICE: log entry 77) -/
def powerStateSet (s : State) (c : Cmd) (a : Nat) : Answer :=
  let t := arg a 0 1
  let p := s.pwr
  if 4 < t then fail s csBadArg
  else if p.pstep ≠ .none then
    if t = 0 && p.state = 1 then done { s with pwr := { p with wake := true } } else fail s csBadState
  else if t = p.state.toNat then done s
  else if t = 0 then done s.wakeD1
  else await { s with pwr := { p.ended with pstep := .s1, entering := true, target := BitVec.ofNat 3 t, token := some c.token } } [.power]

/-- POWER_STATE_SET (R141, R451, R525, R527, R528). -/
def execPowerStateSet (mb : MbId) (s : State) : Host.Outcome State Fault Refusal := s.ran powerForm mb powerStateSet

end Sys2Proof.Machine
end

