-- ==== Sys2Proof/Machine/SecCmds.lean ====
section
/-! DEFINITION. The commands of certificates, reports, sessions and firmware (R450; R457, R459, R460, R462 to R466, R476, R477, R479). -/
namespace Sys2Proof.Machine

/-! ### Certificates -/

def certForm : CmdForm := { op := 0x0E01, query := true, part := true, len := fun _ => 24, fields := bytesOf [(0, 1), (8, 8), (16, 2), (20, 4)] }

/-- CERT_READ's row: LENGTH is returned also when it exceeds MAX. (DESIGN CHOICE: log entry 72) -/
def certRead (s : State) (c : Cmd) (a : Nat) : Answer :=
  let i := arg a 0 1
  if 2 < i then fail s csBadArg
  else
    let b := Config.cert i
    if arg a 20 4 < b.length then { st := s, status := csBadArg, result := b.length }
    else putRef s c (c.ofPart none) (argRef a 8 16) b fun s => done s b.length

/-- CERT_READ (R433, R450, R457). -/
def execCertRead (mb : MbId) (s : State) : Host.Outcome State Fault Refusal := s.ran certForm mb certRead

/-! ### Reports -/

/-- The length of a report (R459). -/
def reportLen : Nat := 3661

/-- A report body (R459): for a partition, or for the device. (DESIGN CHOICE: log entry 72) -/
def State.reportBody (s : State) (part : Option Nat) (nonce binding : Nat) (sid : Nat) : List Byte :=
  let x := match part with | some p => s.part p | none => {}
  let run := s.nv.runSlot
  let pend := s.fwState = 1
  let f := s.nv.otherSlot
  let flags := b2n pend + 2 * b2n s.dbgdis + 4 * b2n (x.sess = 1)
  leBytes 288 (packBytes
    [(0, 4, 0x47505231), (4, 2, 1), (6, 1, b2n part.isSome), (7, 1, part.getD 0xFF), (8, 8, s.ftNs), (16, 32, nonce), (48, 48, binding),
     (96, 48, s.pwr.idhash.toNat), (144, 8, s.pwr.build.toNat), (152, 4, run.version.toNat), (156, 1, run.svn.toNat),
     (157, 1, s.nv.minSvn.toNat), (158, 1, flags), (160, 48, run.digest.toNat), (208, 48, if pend then f.digest.toNat else 0),
     (256, 4, if pend then f.version.toNat else 0), (260, 1, if pend then f.svn.toNat else 0), (264, 8, x.cfg.toNat), (272, 4, sid)])

/-- A report: the body with the signatures of M by both identity keys (R459, R460). -/
def State.report (s : State) (body : List Byte) : List Byte :=
  let m := Config.sha384 (ascii "GP8 report v1" ++ body)
  body ++ leBytes 64 (Config.signE s.pwr.skE m).toNat ++ leBytes 3309 (Config.signM s.pwr.skM m).toNat

def attestForm : CmdForm :=
  { op := 0x0E02, query := true, part := true, conf := .own, len := fun _ => 56, fields := bytesOf [(0, 1), (8, 32), (40, 8), (48, 2), (52, 4)]
    names := fun a => if arg a 0 1 = 0xFF then [] else [(oPart, arg a 0 1)] }

/-- ATTEST_REPORT's row. (DESIGN CHOICE: log entry 72) -/
def attestReport (s : State) (c : Cmd) (a : Nat) : Answer :=
  let p := arg a 0 1
  let part := if p = 0xFF then none else some p
  if 64 ≤ p && p ≠ 0xFF then fail s csBadArg
  else if p < 64 && (s.part p).state = 0 then fail s csBadState
  else if arg a 52 4 < reportLen then fail s csBadArg
  else
    let sid := if p < 64 && (s.part p).sess = 1 then (s.part p).sid.toNat else 0
    putRef s c (c.ofPart part) (argRef a 40 48) (s.report (s.reportBody part (arg a 8 32) 0 sid)) fun s => done s reportLen

/-- ATTEST_REPORT (R450, R459, R460, R481). -/
def execAttestReport (mb : MbId) (s : State) : Host.Outcome State Fault Refusal := s.ran attestForm mb attestReport

/-! ### Sessions -/

/-- The lengths of the hello and of the answer (R462). -/
def helloLen : Nat := 1256
def answerLen : Nat := 4877

/-- What the device draws for a session, from a free index on: NONCE_D, the ephemeral X25519 key x_d, and the randomness of the encapsulation
(R462, R463). (DESIGN CHOICE: log entry 10) -/
def nonceD (i : Nat) : BitVec 256 := BitVec.ofNat 256 (Config.free i)
def ephemeral (i : Nat) : BitVec 256 := BitVec.ofNat 256 (Config.free (i + 1))
def encapsRnd (i : Nat) : BitVec 256 := BitVec.ofNat 256 (Config.free (i + 2))

/-- ss_x and ss_k (R463), with the ciphertext that is sent: XPUB_R and EK_R come from the hello. (DESIGN CHOICE: log entry 10) -/
def ssX (h : List Byte) (i : Nat) : BitVec 256 := Config.x25519 (ephemeral i) (BitVec.ofNat 256 (fieldLe h 40 32))
def encaps (h : List Byte) (i : Nat) : BitVec 256 × BitVec 8704 := Config.kemEncaps (h.drop 72) (encapsRnd i)

/-- Whether SESSION_OPEN can go on with a hello (R463): VERSION, PART, the encapsulation key, and a shared secret that is not all zeros.
(DESIGN CHOICE: log entry 10) -/
def helloOk (h : List Byte) (p i : Nat) : Bool :=
  fieldLe h 0 2 == 1 && fieldLe h 2 1 == p && Config.kemKeyOk (h.drop 72) && ssX h i != 0

/-- Answer bytes 0 to 1,159 (R462). -/
def answerHead (h : List Byte) (p sid i : Nat) : List Byte :=
  leBytes 72 (packBytes [(0, 2, 1), (2, 1, p), (4, 4, sid), (8, 32, (nonceD i).toNat), (40, 32, (Config.x25519Pub (ephemeral i)).toNat)])
    ++ leBytes 1088 (encaps h i).2.toNat

/-- prk, k_conf, LS and CONFIRM (R463). (DESIGN CHOICE: log entry 10) -/
def sessionPrk (h : List Byte) (i : Nat) : BitVec 384 :=
  Config.hkdfExtract (leBytes 32 (fieldLe h 8 32) ++ leBytes 32 (nonceD i).toNat) (leBytes 32 (ssX h i).toNat ++ leBytes 32 (encaps h i).1.toNat)
def linkSecret (prk th : BitVec 384) : BitVec 384 := Config.hkdfExpand 384 prk (ascii "GP8 v1 link" ++ leBytes 48 th.toNat)
def confirm (prk th : BitVec 384) : BitVec 384 :=
  Config.hmac (Config.hkdfExpand 384 prk (ascii "GP8 v1 confirm" ++ leBytes 48 th.toNat)) (ascii "GP8 v1 device" ++ leBytes 48 th.toNat)

/-- The session opened (R465, R466): only the link secret is kept of its secrets, with SID and the transcript hash. -/
def State.openSession (s : State) (p sid : Nat) (ls th : BitVec 384) : State :=
  ({ s with stew := { s.stew with sessions := BitVec.ofNat 32 sid } }).modPart p fun x =>
    { x with sess := 1, sid := BitVec.ofNat 32 sid, th := th, ls := some ls }

def sessionForm : CmdForm :=
  { op := 0x0E03, admin := false, part := true, conf := .own, len := fun _ => 26, fields := bytesOf [(0, 1), (8, 8), (16, 8), (24, 2)]
    names := fun a => [(oPart, arg a 0 1)] }

/-- SESSION_OPEN's row. (DESIGN CHOICE: log entry 72) -/
def sessionOpen (s : State) (c : Cmd) (a : Nat) : Answer :=
  let p := arg a 0 1
  if 64 ≤ p then fail s csBadArg
  else if !(s.part p).conf || (s.part p).state ≠ 1 || (s.part p).sess = 1 then fail s csBadState
  else withRef s c none (argRef a 8 24) helloLen fun s h =>
    let i := s.fresh
    let s := { s with fresh := i + 3 }
    if !helloOk h p i then fail s csAuthFailed
    else
      let sid := s.stew.sessions.toNat + 1
      let head := answerHead h p sid i
      let th := Config.sha384 (h ++ head)
      let prk := sessionPrk h i
      let b := head ++ leBytes 56 (packBytes [(0, 48, (confirm prk th).toNat), (48, 4, reportLen)]) ++ s.report (s.reportBody (some p) 0 th.toNat sid)
      putRef s c none (argRef a 16 24) b fun s => done (s.openSession p sid (linkSecret prk th) th) answerLen

/-- SESSION_OPEN (R450, R462, R463, R465, R466). -/
def execSessionOpen (mb : MbId) (s : State) : Host.Outcome State Fault Refusal := s.ran sessionForm mb sessionOpen

/-! ### Firmware -/

/-- The length of a firmware image's header, and of the longest body (R476). -/
def fwHeader : Nat := 4096
def fwBodyMax : Nat := 67104768

/-- What the flash slot holds of a verified image. (DESIGN CHOICE: log entry 72) -/
def fwSlotOf (b : List Byte) : FwSlot :=
  { valid := true, version := BitVec.ofNat 32 (fieldLe b 4 4), svn := BitVec.ofNat 8 (fieldLe b 8 1), advance := (fieldLe b 9 1).testBit 0
    length := fieldLe b 16 4, digest := Config.sha384 (b.drop fwHeader) }

/-- F of an image (R476): the digest that both of its signatures sign. -/
def fwDigest (b : List Byte) : BitVec 384 := Config.sha384 (ascii "GP8 fw v1" ++ b.take 80)

/-- Whether an image may be staged (R477): SIG_E and SIG_M against the fused key hashes, the digest of the body, and SVN. (DESIGN CHOICE: log entry 10) -/
def State.fwOk (s : State) (b : List Byte) : Bool :=
  Config.verifyE s.nv.fwKeyE (fwDigest b) ((b.drop 80).take 64) && Config.verifyM s.nv.fwKeyM (fwDigest b) ((b.drop 144).take 3309)
    && leBytes 48 (Config.sha384 (b.drop fwHeader)).toNat == (b.drop 32).take 48
    && decide (s.nv.minSvn.toNat ≤ fieldLe b 8 1) && decide (fieldLe b 8 1 ≤ 64)

def fwStageForm : CmdForm := { op := 0x0E04, len := fun _ => 16, fields := bytesOf [(0, 8), (8, 2), (12, 4)] }

/-- The write of an image into the staged flash slot begins: from then on the slot counts as empty (R477, R483). -/
def State.flashStart (s : State) (token : Nat) (f : FwSlot) : State :=
  { s with nv := s.nv.setOther {}, stew := { s.stew with flashing := some (token, f) } }

/-- The write read back and verified: the slot holds the image (R477). -/
def State.flashEnd (s : State) (f : FwSlot) : State :=
  { s with nv := s.nv.setOther f, stew := { s.stew with flashing := none } }.fwEvent 1 f

/-- FW_STAGE's row: it fails while a commit is in progress; its first run starts the write of the image, and its next one ends it.
(DESIGN CHOICE: log entry 72) -/
def fwStage (s : State) (c : Cmd) (a : Nat) : Answer :=
  let n := arg a 12 4
  match s.stew.flashing.filter (·.1 = c.token) with
  | some w => done (s.flashEnd w.2)
  | none =>
    if n ≤ fwHeader || fwHeader + fwBodyMax < n then fail s csBadArg
    else if s.stew.step = .swWait || s.stew.commit then fail s csBadState
    else withRef s c none (argRef a 0 8) n fun s b =>
      if fieldLe b 0 4 ≠ 0x47504657 || fieldLe b 16 4 + fwHeader ≠ n then fail s csBadArg
      else if !s.fwOk b then fail s csAuthFailed
      else { st := s.flashStart c.token (fwSlotOf b), again := true }

/-- FW_STAGE (R450, R476, R477). -/
def execFwStage (mb : MbId) (s : State) : Host.Outcome State Fault Refusal := s.ran fwStageForm mb fwStage

def fwCommitForm : CmdForm := { op := 0x0E05 }

/-- FW_COMMIT's row: Steward stops taking requests; the new firmware replies. (DESIGN CHOICE: log entry 69) -/
def fwCommit (s : State) (c : Cmd) (_ : Nat) : Answer :=
  if !s.nv.otherSlot.valid || s.stew.standby ≠ 0 then fail s csBadState
  else await { s with stew := { s.stew with step := .swWait, commitToken := some c.token, swAt := s.now } } [.commit]

/-- FW_COMMIT (R450, R453, R479). -/
def execFwCommit (mb : MbId) (s : State) : Host.Outcome State Fault Refusal := s.ran fwCommitForm mb fwCommit

end Sys2Proof.Machine
end

