-- ==== Sys2Proof/Machine/Telemetry.lean ====
section
/-! DEFINITION. Sensors (R505 to R508) and the power capper (R519, R520, R530). -/
namespace Sys2Proof.Machine

/-! ### Sensors -/

/-- Whether a sensor exists: the 27 of R506, those of stacks and link dies that are enabled. (DEDUCED: log entry 73) -/
def State.sensorOn (s : State) (k : Nat) : Bool :=
  if k < 8 then s.stackEn k else if 12 ≤ k && k < 16 then s.dieEn (k - 12) else decide (k < 27)

/-- The unit that a sensor's records name (R495). (DESIGN CHOICE: log entry 24) -/
def sensorUnit (k : Nat) : Nat :=
  if k < 8 then 0x2000 + k else if k < 12 then 0x7000 + (k - 8) else if k < 16 then 0x5000 + (k - 12) else if k < 18 then 0x8000 + (k - 16)
  else if k = 19 || k = 20 then 0xA000 else if k = 21 || k = 22 then 0x8000 + (k - 21) else 0

/-- PEAK after a sample: the highest VALUE of a temperature, the lowest of a voltage. (DEDUCED: log entry 73) -/
def Sensor.peakWith (x : Sensor) (k : Nat) (v : BitVec 16) : BitVec 16 :=
  if !x.valid then v
  else if k < 20 then (if x.peak.toInt < v.toInt then v else x.peak)
  else if v.toNat < x.peak.toNat then v else x.peak

/-- Consecutive samples at or over the trip limit (R522). (DEDUCED: log entry 73) -/
def Sensor.tripWith (x : Sensor) (k : Nat) (v : Int) : Nat :=
  match tripLimit k with
  | some t => if t * 8 ≤ v then x.trip + 1 else 0
  | none => 0

/-- A sensor after a sample (R507, R508), and whether a record of a change of WARN is due: at most one a second. (DEDUCED: log entry 73) -/
def Sensor.sampled (x : Sensor) (k : Nat) (v : Int) (now : Nat) : Sensor × Bool :=
  let (hot, cool) := sensorBand k v
  let w := if hot then true else if cool then false else x.warn
  let v16 := BitVec.ofInt 16 v
  let rec_ := w ≠ x.warn && (match x.recAt with | some t => decide (t + 1000000000 ≤ now) | none => true)
  ({ value := v16, warn := w, valid := true, peak := x.peakWith k v16, recAt := if rec_ then some now else x.recAt, trip := x.tripWith k v }, rec_)

/-- One sensor sampled, with its record and, for a stack, the throttle of R374. (DEDUCED: log entry 73) -/
def State.sampleSensor (s : State) (k : Nat) (v : Int) : State :=
  if !s.sensorOn k then s
  else
    let (x, due) := (s.sensor k).sampled k v s.now
    let s := s.setSensor k x
    let s := if due then
      s.logErr (errRec (if k < 20 then 0x50 else 0x51) 0 none (sensorUnit k)
        (packBytes [(0, 1, k), (2, 2, x.value.toNat), (4, 1, b2n x.warn)])) else s
    if k < 8 then s.throttleAt k v else s

/-- SENSOR_SAMPLE (R505 to R508): the samples in order of the sensors' numbers, taken once the management cores are released (R515), and in D3
too, where a thermal trip can still come (R531) but no core keeps a log.
(DEDUCED: log entry 73; DESIGN CHOICE: log entry 81) -/
def execSensorSample (values : List Int) (s : State) : Host.Outcome State Fault Refusal :=
  let l := (List.range values.length).zip values
  if s.stew.released then .next (s.each l fun s x => s.sampleSensor x.1 x.2)
  else if s.pwr.phase = .ready && s.pwr.state = 4 then
    .next (s.each (l.filter fun x => s.sensorOn x.1) fun s x => s.setSensor x.1 ((s.sensor x.1).sampled x.1 x.2 s.now).1)
  else .next s

/-! ### The power capper -/

/-- How far the capper has acted: 0 nothing, 1 to 16 the steps of dynamic issue, 17 to 32 those of scheduled operations, 33 to 47 the steps
of level 2, 48 level 3. (DEDUCED: log entry 74) -/
def Pwr.pos (p : Pwr) : Nat :=
  match p.level.toNat with
  | 0 => 0
  | 1 => if p.schedThr = 0 then 1 + p.step.toNat else 16 + p.schedThr
  | 2 => 33 + p.step.toNat
  | _ => 48

/-- LEVEL, STEP and the throttle of scheduled operations at a position. (DEDUCED: log entry 74) -/
def Pwr.at (p : Pwr) (n : Nat) (now : Nat) : Pwr :=
  let p := { p with stepAt := now }
  if n = 0 then { p with level := 0, step := 0, schedThr := 0 }
  else if n ≤ 16 then { p with level := 1, step := BitVec.ofNat 4 (n - 1), schedThr := 0 }
  else if n ≤ 32 then { p with level := 1, step := BitVec.ofNat 4 (n - 17), schedThr := n - 16 }
  else if n ≤ 47 then { p with level := 2, step := BitVec.ofNat 4 (n - 33), schedThr := 16 }
  else { p with level := 3, step := p.step + 1, schedThr := 16 }

/-- A CAPPER record for a level (R530), at most one per level in 10 ms. -/
def State.capEvent (s : State) (level cause : Nat) : State :=
  if tget 0 s.pwr.capRec level ≠ 0 && s.now < tget 0 s.pwr.capRec level + 10000000 then s
  else ({ s with pwr := { s.pwr with capRec := tput 0 s.pwr.capRec level (s.now + 1) } }).event devTarget
    { kind := 0x32, obj := BitVec.ofNat 32 level, cause := BitVec.ofNat 8 cause, spec := BitVec.ofNat 160 s.pwr.cap.toNat }

/-- The mean of samples, rounded down. -/
def meanOf (l : List (BitVec 16)) : BitVec 16 := BitVec.ofNat 16 ((l.map (·.toNat)).sum / max 1 l.length)

/-- Whether the mean of the last 10 samples, in 0.125 W, exceeds CAP, and whether it lies below 95 % of it. (DEDUCED: log entry 74) -/
def Pwr.over (p : Pwr) : Bool :=
  let l := p.samples.take 10
  decide (p.cap.toNat * 8 * l.length < (l.map (·.toNat)).sum)
/-- (DEDUCED: log entry 74) -/
def Pwr.under (p : Pwr) : Bool :=
  let l := p.samples.take 10
  decide ((l.map (·.toNat)).sum * 100 < p.cap.toNat * 8 * 95 * l.length)

/-- The capper's step up: level 1 at once, one step further for each 10 µs above CAP, and level 2, with level 1 at zero, once the mean has
exceeded CAP for 100 µs, to its deepest step. (DEDUCED: log entry 74) -/
def State.capUp (s : State) : State :=
  let n := s.pwr.pos
  if n = 0 then ({ s with pwr := s.pwr.at 1 s.now }).capEvent 1 1
  else if n < 33 && decide (s.pwr.overAt.getD s.now + 100000 ≤ s.now) then ({ s with pwr := s.pwr.at 33 s.now }).capEvent 2 1
  else if n < 47 && s.pwr.stepAt + 10000 ≤ s.now then
    let s := { s with pwr := s.pwr.at (n + 1) s.now }
    if n = 32 then s.capEvent 2 1 else s
  else s

/-- CAPPER_SAMPLE (R519, R521): every 1 µs the input power, newest first, enters the means. (DEDUCED: log entry 74) -/
def execCapperSample (power : BitVec 16) (s : State) : Host.Outcome State Fault Refusal :=
  if !s.stew.released then .next s
  else
    let l := power :: s.pwr.samples.take 999
    let p := { s.pwr with samples := l, input := meanOf (l.take 10), input1ms := meanOf l }
    let p := { p with overAt := if p.over then some (p.overAt.getD s.now) else none
                      belowAt := if p.under then some (p.belowAt.getD s.now) else none }
    .next (if p.over then { s with pwr := p }.capUp else { s with pwr := p })

/-- A rate change of stacks by the capper (R379, R380, R519). (DEDUCED: log entry 74) -/
def State.capRate (s : State) (code : Nat) : State :=
  let l := s.stackList.filter fun n => (s.stack n).state = 2 && !(s.stack n).diag
  let m := l.foldl (fun m n => m ||| BitVec.ofNat 8 (1 <<< n)) 0
  ({ s with mem := { s.mem with rcMask := m, rcCode := BitVec.ofNat 2 code, rcOn := true, rcCapper := true, rcLower := false } }).rateNext

/-- The stacks whose rate the capper can lower by one code. (DEDUCED: log entry 74) -/
def State.lowerable (s : State) : List Nat :=
  s.stackList.filter fun n => (s.stack n).state = 2 && !(s.stack n).diag && decide ((s.stack n).rate.toNat < 3)

/-- The rate of every stack lowered by one code, one stack at a time (R379, R519). (DEDUCED: log entry 74) -/
def State.capLower (s : State) : State :=
  let m := s.lowerable.foldl (fun m n => m ||| BitVec.ofNat 8 (1 <<< n)) 0
  ({ s with mem := { s.mem with rcMask := m, rcOn := true, rcCapper := true, rcLower := true } }).rateNext

/-- CAPPER_RATE_LOWER (R519): after 10 ms at the deepest step of level 2, or at level 3, while STATE is IDLE. (DEDUCED: log entry 74) -/
def execCapperRateLower (s : State) : Host.Outcome State Fault Refusal :=
  if 47 ≤ s.pwr.pos && s.pwr.overAt.isSome && s.pwr.stepAt + 10000000 ≤ s.now && s.schedState = 0 && !s.mem.rcOn && !s.lowerable.isEmpty then
    let new := s.pwr.pos = 47
    let p := { s.pwr with step := if new then 15 else s.pwr.step }
    let s := { s with pwr := { p.at 48 s.now with lowered := true } }
    .next (if new then s.capEvent 3 1 else s).capLower
  else .next s

/-- CAPPER_RELEASE (R519): after 1 ms below 95 % of CAP one step or level back; with levels 1 and 2 released, the rate returns to code 0.
(DEDUCED: log entry 74) -/
def execCapperRelease (s : State) : Host.Outcome State Fault Refusal :=
  match s.pwr.belowAt with
  | none => .next s
  | some t =>
    if s.now < t + 1000000 then .next s
    else
      let n := s.pwr.pos
      let s := { s with pwr := { s.pwr with belowAt := some s.now } }
      if n = 0 then
        if s.pwr.lowered && !s.mem.rcOn && s.schedState = 0 then .next ({ s with pwr := { s.pwr with lowered := false } }.capRate 0) else .next s
      else
        let s := { s with pwr := s.pwr.at (n - 1) s.now }
        .next (if n = 1 then s.capEvent 1 2 else if n = 33 then s.capEvent 2 2 else if n = 48 then s.capEvent 3 2 else s)

end Sys2Proof.Machine
end

