-- ==== Sys2Proof/Machine/Trans.lean ====
section
/-! DEFINITION. The commands of translation, the Elder window, coherence and jobs (R89 to R101, R107 to R109, R149 to R152, R169, R440 to
R442). -/
namespace Sys2Proof.Machine

/-! ### INVALIDATE_RANGE (R89 to R92) -/

/-- INVALIDATE_RANGE. -/
def invalForm : CmdForm :=
  { op := 0x0401, part := true, len := fun _ => 24, fields := [(0, 8), (8, 1), (16, 16), (64, 48), (128, 64)]
    names := fun a => (oPart, arg a 0 1) :: (if (arg a 1 1).testBit 0 then [] else [(oCtx, arg a 2 2)]) }

/-- INVALIDATE_RANGE's row: the range is widened to 4 KiB boundaries; the reply comes when no job named still has to be re-resolved. -/
def invalidateRange (s : State) (_ : Cmd) (a : Nat) : Answer :=
  let p := arg a 0 1
  let all := (arg a 1 1).testBit 0
  let cid := arg a 2 2
  let base := arg a 8 6
  let len := arg a 16 8
  let st := (s.part p).state
  if 64 ≤ p || len = 0 || 2 ^ 48 - base < len || (!all && cid / 1024 ≠ p) then fail s csBadArg
  else if st = 4 then fail s csAborted
  else if st = 0 || st = 3 || (!all && (s.ctx cid).state = 0) then fail s csBadState
  else
    let s := s.invalRange p cid all base len
    if s.invalPends p cid all then await s [.inval p cid all base len] else done s

/-- INVALIDATE_RANGE (R89). -/
def execInvalidateRange (mb : MbId) (s : State) : Host.Outcome State Fault Refusal := s.ran invalForm mb invalidateRange

/-! ### The Elder window (R94 to R101) -/

/-- The backing extents of a list of regions, each once. -/
def backing (l : List ElderReg) : List Nat := ((l.filter (·.v)).map (·.index.toNat)).eraseDups

/-- ELDER_BIND. -/
def bindForm : CmdForm :=
  { op := 0x0402, conf := .never, len := fun _ => 6, fields := [(0, 8), (8, 2), (16, 12), (32, 12)], names := fun a => [(oPart, arg a 0 1)] }

/-- ELDER_BIND's row: a new PART clears every region while EN = 1 (R440); a binding or window that ends drains its backing extents before the reply. -/
def elderBind (s : State) (c : Cmd) (a : Nat) : Answer :=
  let p := arg a 0 1
  let en := (arg a 1 1).testBit 0
  let old := s.elder
  let st := (s.part p).state
  if 64 ≤ p then fail s csBadArg
  else if en && st ≠ 1 && st ≠ 2 then refuse s c wState csBadState
  else
    let fresh := old.part.toNat ≠ p
    let ends := old.en && (fresh || !en)
    let l := backing (s.regions.map (·.2))
    let s := { s with elder := { filter := (arg a 1 1).testBit 1, en := en, part := BitVec.ofNat 6 p
                                 eidMatch := BitVec.ofNat 12 (arg a 2 2), eidMask := BitVec.ofNat 12 (arg a 4 2) }
                      regions := if old.en && fresh then [] else s.regions }
    let (w, s) := if ends then s.drainExts l else ([], s)
    await s w

/-- ELDER_BIND (R97, R101). -/
def execElderBind (mb : MbId) (s : State) : Host.Outcome State Fault Refusal := s.ran bindForm mb elderBind

/-- ELDER_MAP. -/
def mapForm : CmdForm := { op := 0x0403, len := fun a => 8 + 8 * arg a 2 1, fields := [(0, 16), (16, 8), (64, 1792)] }

/-- A region entry of ELDER_MAP with the extent's current GEN; an entry with V = 0 clears the region. -/
def State.regionOf (s : State) (e : Nat) : ElderReg :=
  if e.testBit 0 then
    { v := true, r := e.testBit 1, w := e.testBit 2, a := e.testBit 3, key := BitVec.ofNat 4 (bitsOf e 4 4), index := BitVec.ofNat 18 (bitsOf e 8 18)
      granule := BitVec.ofNat 18 (bitsOf e 26 18), gen := (s.ext (bitsOf e 8 18)).gen }
  else {}

/-- What Warden answers for an entry (R97): the refusal code and status, or none. -/
def State.regionBad (s : State) (e : Nat) : Option (Nat × Nat) :=
  let x := s.ext (bitsOf e 8 18)
  let st := (s.part s.elder.part.toNat).state
  if 2 ^ 50 ≤ e then some (wStructure, csBadArg)
  else if !e.testBit 0 then none
  else if st ≠ 1 && st ≠ 2 then some (wState, csBadState)
  else if x.state ≠ 1 then some (wState, csBadState)
  else if x.owner ≠ s.elder.part then some (wOwnership, csDenied)
  else if x.coherent || x.combine || x.mirror || x.parity || x.size.toNat ≤ bitsOf e 26 18 then some (wStructure, csBadArg)
  else none

/-- ELDER_MAP's row: all the entries or none; what is replaced or cleared drains before the reply. -/
def elderMap (s : State) (c : Cmd) (a : Nat) : Answer :=
  let first := arg a 0 2
  let n := arg a 2 1
  let l := (List.range n).map fun k => arg a (8 + 8 * k) 8
  if n = 0 || 28 < n || 32768 < first + n then fail s csBadArg
  else if !s.elder.en then fail s csBadState
  else match l.filterMap s.regionBad with
    | (code, st) :: _ => refuse s c code st
    | [] =>
      let old := (List.range n).map fun k => s.region (first + k)
      let s := s.each (List.range n) fun s k => s.setRegion (first + k) (s.regionOf (l.getD k 0))
      let (w, s) := s.drainExts (backing old)
      await s w

/-- ELDER_MAP (R97, R101). -/
def execElderMap (mb : MbId) (s : State) : Host.Outcome State Fault Refusal := s.ran mapForm mb elderMap

/-! ### Coherence (R107 to R109) -/

/-- COH_AGENT_SET. -/
def agentForm : CmdForm := { op := 0x0501, len := fun _ => 5, fields := bytesOf [(0, 2), (2, 2), (4, 1)] }

/-- COH_AGENT_SET's row: a bit is set at once, and cleared when no line lists the EID any more. -/
def cohAgentSet (s : State) (c : Cmd) (a : Nat) : Answer :=
  let first := arg a 0 2; let n := arg a 2 2; let v := arg a 4 1
  let l := (List.range n).map fun i => first + i
  if n = 0 || 4096 < n || 1 < v || 4096 < first + n then fail s csBadArg
  else if v = 1 && first + n = 4096 then refuse s c wStructure csBadArg
  else if 0xFFE < first + n then fail s csBadArg
  else if v = 1 then done (s.each l fun s e => s.setAgent e true)
  else await s ((l.filter s.agent).map fun e => .agents e)

/-- COH_AGENT_SET (R441). -/
def execCohAgentSet (mb : MbId) (s : State) : Host.Outcome State Fault Refusal := s.ran agentForm mb cohAgentSet

/-- COH_CONFIG. -/
def cohForm : CmdForm := { op := 0x0502, len := fun _ => 1, fields := bytesOf [(0, 1)] }

/-- COH_CONFIG's row. -/
def cohConfig (s : State) (c : Cmd) (a : Nat) : Answer :=
  let v := arg a 0 1
  if 3 ≤ v then refuse s c wStructure csBadArg else done { s with pred := BitVec.ofNat 2 v }

/-- COH_CONFIG (R441). -/
def execCohConfig (mb : MbId) (s : State) : Host.Outcome State Fault Refusal := s.ran cohForm mb cohConfig

/-! ### Jobs (R149 to R152, R169, R204, R205) -/

/-- A range entry (R150). -/
def rngOf (x : Nat) : Rng :=
  { pva := BitVec.ofNat 48 (bitsOf x 0 48), len := BitVec.ofNat 40 (bitsOf x 48 40), acc := BitVec.ofNat 2 (bitsOf x 88 2)
    slot := BitVec.ofNat 4 (bitsOf x 90 4) }

/-- Whether a range entry lies in its ranges; its reserved bits are ignored (R9, R150). (DEDUCED: log entry 58) -/
def rngOk (x : Nat) : Bool :=
  bitsOf x 48 40 ≠ 0 && bitsOf x 0 48 + bitsOf x 48 40 ≤ 2 ^ 48 && bitsOf x 88 2 ≠ 3

/-- The entries of a range list in bytes. -/
def rngWords (b : List Byte) (n : Nat) : List Nat := (List.range n).map fun i => fieldLe b (16 * i) 16

/-- Whether the parts of an operation block that need no parameter block are valid (R202, R204). (DEDUCED: log entry 58) -/
def opStatic (o nst : Nat) : Bool :=
  (List.range 4).all (fun k => bitsOf o (39 + 8 * k) 1 == 0 && (decide (k < nst) || opcAt o k == 0))
    && bitsOf o 159 1 == 0 && decide (1 ≤ opCount o)
    && (List.range nst).all (fun k => varAt o k < variants (opcAt o k) && rndAt o k ≤ 5 && posOk (opcAt o k) k nst)
    && (!needsParam o nst || bitsOf o 192 64 ≠ 0)

/-- Entries of the range store that a tile's RLIST jobs hold (R145). -/
def Tile.rangesUsed (t : Tile) : Nat := (t.slots.map fun k => if (t.job k).rlist then (t.job k).ranges.length else 0).sum

/-- Whether a tile can take a job of a partition with n ranges by reference (none: inline). (DEDUCED: log entry 58) -/
def State.takes (s : State) (p n t : Nat) : Bool :=
  let x := s.tile t
  x.slots.length < 64 && x.rangesUsed + n ≤ 3584 && (x.slots.filter fun k => (x.job k).part = p).length < 16

/-- The tiles that a descriptor's PIN, TILE and QMASK name. (DEDUCED: log entry 58) -/
def State.tilesFor (s : State) (flags tile : Nat) : List Nat :=
  let on := s.tileList.filter fun n => !s.tileDead n
  if flags.testBit 2 then on.filter fun n => n == tile % 32
  else on.filter fun n => bitsOf flags 4 4 == 0 || flags.testBit (4 + n / 8)

/-- JOB_SUBMIT. (DEDUCED: log entry 58) -/
def submitForm : CmdForm :=
  { op := 0x0601, part := true, conf := .own, len := fun _ => 128
    fields := [(0, 16), (16, 8), (24, 5), (32, 32), (64, 64), (128, 16), (144, 8), (160, 32), (192, 64), (256, 512), (768, 256)]
    names := fun a => [(oCtx, arg a 0 2)] }

/-- A job placed in the lowest free descriptor slot of the tile with the fewest occupied slots (R152). (DEDUCED: log entry 58) -/
def State.place (s : State) (a : Nat) (rs : List Rng) (pm : Nat) : Answer :=
  let cid := arg a 0 2
  let flags := arg a 2 1
  let rlist := flags.testBit 3
  let cand := (s.tilesFor flags (arg a 3 1)).filter fun n => s.takes (cid / 1024) (if rlist then rs.length else 0) n
  match least (fun n => (s.tile n).slots.length) cand with
  | none => fail s csQueueFull
  | some n =>
    let t := s.tile n
    let k := ((List.range 64).find? fun k => (t.job k).st == .free).getD 0
    let j : Job :=
      { st := .queued, inc := (t.job k).inc + 1, cid := BitVec.ofNat 16 cid, flags := BitVec.ofNat 8 flags, tag := BitVec.ofNat 32 (arg a 4 4)
        seed := BitVec.ofNat 64 (arg a 8 8), nstage := arg a 18 1, budget := arg a 20 4, rlist := rlist, opblk := BitVec.ofNat 256 (arg a 96 32)
        ranges := rs, param := BitVec.ofNat 2048 pm, todo := rs.map fun r => (r.pva, r.len.toNat, r.acc), order := t.nextOrder }
    done (s.setTile n { t.setJob k j with nextOrder := t.nextOrder + 1 }) (jobId n k j)

/-- JOB_SUBMIT's row: the checks of R151 in order, the range list and the parameter block read with the job's CID. (DEDUCED: log entry 58) -/
def jobSubmit (s : State) (c : Cmd) (a : Nat) : Answer :=
  let cid := arg a 0 2
  let flags := arg a 2 1
  let rlist := flags.testBit 3
  let n := arg a 16 2
  let nst := arg a 18 1
  let o := arg a 96 32
  let inl := (List.range n).map fun i => arg a (32 + 16 * i) 16
  if (s.part (cid / 1024)).state ≠ 2 || (s.ctx cid).state ≠ 2 then fail s csBadState
  else if n = 0 || (if rlist then 1024 else 4) < n || nst = 0 || 4 < nst || !opStatic o nst || (!rlist && !inl.all rngOk) then fail s csBadArg
  else if !needsParam o nst && !blockOk o nst 0 then fail s csBadArg
  else if (s.tilesFor flags (arg a 3 1)).isEmpty then fail s csBadArg
  else
    let part := some (cid / 1024)
    let withList := fun (go : State → List Nat → Answer) =>
      if rlist then withRef s c part { xh := arg a 24 3, off := arg a 27 5, cid := cid } (16 * n) fun s b => go s (rngWords b n) else go s inl
    withList fun s ws =>
      let rs := ws.map rngOf
      let go := fun (s : State) (pm : Nat) => if opOk o nst pm rs then s.place a rs pm else fail s csBadArg
      if !ws.all rngOk then fail s csBadArg
      else if bitsOf o 192 64 = 0 then go s 0
      else withRef s c part { xh := opParamXh o, off := opParamOff o, cid := cid } 256 fun s b => go s (ofLe b)

/-- JOB_SUBMIT (R151). -/
def execJobSubmit (mb : MbId) (s : State) : Host.Outcome State Fault Refusal := s.ran submitForm mb jobSubmit

/-- JOB_CANCEL. -/
def cancelForm : CmdForm := { op := 0x0602, part := true, len := fun _ => 4, fields := bytesOf [(0, 4)], names := fun a => [(oJob, arg a 0 4)] }

/-- JOB_CANCEL's row: the reply comes when the job is FREE. -/
def jobCancel (s : State) (c : Cmd) (a : Nat) : Answer :=
  let id := arg a 0 4
  let n := bitsOf id 27 5; let k := bitsOf id 21 6
  let j := s.job n k
  let inc := bitsOf id 0 21
  if j.st = .free || j.inc.toNat ≠ inc then fail s csBadState
  else if c.mb.part.any fun p => j.part ≠ p.val then fail s csDenied
  else if j.st = .ending then fail s csBadState
  else
    let s := s.cancelJob n k jcCancelled
    let s := s.invalCheck
    if (s.job n k).st = .free then done s else await s [.job n k inc]

/-- JOB_CANCEL (R169). -/
def execJobCancel (mb : MbId) (s : State) : Host.Outcome State Fault Refusal := s.ran cancelForm mb jobCancel

end Sys2Proof.Machine
end

