-- ==== Sys2Proof/Machine/Dispatch.lean ====
section
/-! DEFINITION. The dispatch: one arm per command. -/
namespace Sys2Proof.Machine
open Sys2Proof

/-- The effect of a command on everything but the queue of waiting commands. -/
def exec (i : Instr) (s : State) : Host.Outcome State Fault Refusal :=
  match i with
  | .powerOn => Sys2Proof.Machine.execPowerOn s
  | .railPowerGood => Sys2Proof.Machine.execRailPowerGood s
  | .railPowerGoodTimeout => Sys2Proof.Machine.execRailPowerGoodTimeout s
  | .railRetryTimer => Sys2Proof.Machine.execRailRetryTimer s
  | .oscillatorStable => Sys2Proof.Machine.execOscillatorStable s
  | .logicSelftestDone passed => Sys2Proof.Machine.execLogicSelftestDone passed s
  | .memPhyTrainingDone => Sys2Proof.Machine.execMemPhyTrainingDone s
  | .memSelftestDone rows => Sys2Proof.Machine.execMemSelftestDone rows s
  | .memFillDone mc0 mc1 => Sys2Proof.Machine.execMemFillDone mc0 mc1 s
  | .stewardBootDone kat staged => Sys2Proof.Machine.execStewardBootDone kat staged s
  | .resetPin us => Sys2Proof.Machine.execResetPin us s
  | .inputFault mv us => Sys2Proof.Machine.execInputFault mv us s
  | .thermalTrip => Sys2Proof.Machine.execThermalTrip s
  | .i3cWake => Sys2Proof.Machine.execI3cWake s
  | .i3cReset b0 b1 gapUs => Sys2Proof.Machine.execI3cReset b0 b1 gapUs s
  | .ftCorrectionBroadcast => Sys2Proof.Machine.execFtCorrectionBroadcast s
  | .ftNowNsRead p => Sys2Proof.Machine.execFtNowNsRead p s
  | .ctlWr p => Sys2Proof.Machine.execCtlWr p s
  | .mailboxPost p => Sys2Proof.Machine.execMailboxPost p s
  | .mailboxReplyClear p => Sys2Proof.Machine.execMailboxReplyClear p s
  | .partAbortWrite p => Sys2Proof.Machine.execPartAbortWrite p s
  | .abortComplete part => Sys2Proof.Machine.execAbortComplete part s
  | .fqAckRead p => Sys2Proof.Machine.execFqAckRead p s
  | .elogAckRead p => Sys2Proof.Machine.execElogAckRead p s
  | .faultRecordPost part => Sys2Proof.Machine.execFaultRecordPost part s
  | .pendingRecordTimeout tile => Sys2Proof.Machine.execPendingRecordTimeout tile s
  | .routePacket die inp p => Sys2Proof.Machine.execRoutePacket die inp p s
  | .transitReevaluate die => Sys2Proof.Machine.execTransitReevaluate die s
  | .limiterRelease eid => Sys2Proof.Machine.execLimiterRelease eid s
  | .admitEntryResume stack => Sys2Proof.Machine.execAdmitEntryResume stack s
  | .pairGapTimeout src rsp => Sys2Proof.Machine.execPairGapTimeout src rsp s
  | .breakNotice p => Sys2Proof.Machine.execBreakNotice p s
  | .originatedCompletion p => Sys2Proof.Machine.execOriginatedCompletion p s
  | .requestTimeout rtag => Sys2Proof.Machine.execRequestTimeout rtag s
  | .rdOnce p => Sys2Proof.Machine.execRdOnce p s
  | .rdShared p => Sys2Proof.Machine.execRdShared p s
  | .rdOwn p => Sys2Proof.Machine.execRdOwn p s
  | .upgrade p => Sys2Proof.Machine.execUpgrade p s
  | .wrLine p => Sys2Proof.Machine.execWrLine p s
  | .wrPartial p => Sys2Proof.Machine.execWrPartial p s
  | .atomic p => Sys2Proof.Machine.execAtomic p s
  | .wbDirty p => Sys2Proof.Machine.execWbDirty p s
  | .evictClean p => Sys2Proof.Machine.execEvictClean p s
  | .lineReclaim p => Sys2Proof.Machine.execLineReclaim p s
  | .snpAck p => Sys2Proof.Machine.execSnpAck p s
  | .snpAckData p => Sys2Proof.Machine.execSnpAckData p s
  | .grantAck p => Sys2Proof.Machine.execGrantAck p s
  | .transactionPairTimeout q txn => Sys2Proof.Machine.execTransactionPairTimeout q txn s
  | .reservationExpire q line => Sys2Proof.Machine.execReservationExpire q line s
  | .orphanScanDone q => Sys2Proof.Machine.execOrphanScanDone q s
  | .elderRequest p => Sys2Proof.Machine.execElderRequest p s
  | .ctlRd p => Sys2Proof.Machine.execCtlRd p s
  | .parityDelta xh offset delta => Sys2Proof.Machine.execParityDelta xh offset delta s
  | .admissionSelect stack => Sys2Proof.Machine.execAdmissionSelect stack s
  | .dramSchedule stack ch permit => Sys2Proof.Machine.execDramSchedule stack ch permit s
  | .dramAccessDone stack ch c0 c1 => Sys2Proof.Machine.execDramAccessDone stack ch c0 c1 s
  | .refreshDue stack ch bank => Sys2Proof.Machine.execRefreshDue stack ch bank s
  | .calibrationDue stack ch => Sys2Proof.Machine.execCalibrationDue stack ch s
  | .calibrationForced stack ch => Sys2Proof.Machine.execCalibrationForced stack ch s
  | .calibrationDone stack ch phyOk => Sys2Proof.Machine.execCalibrationDone stack ch phyOk s
  | .patrolStep stack c0 c1 => Sys2Proof.Machine.execPatrolStep stack c0 c1 s
  | .scrubStep ext => Sys2Proof.Machine.execScrubStep ext s
  | .scrubDone ext => Sys2Proof.Machine.execScrubDone ext s
  | .rateChangeStackDone => Sys2Proof.Machine.execRateChangeStackDone s
  | .sensorSample values => Sys2Proof.Machine.execSensorSample values s
  | .capperSample power => Sys2Proof.Machine.execCapperSample power s
  | .capperRateLower => Sys2Proof.Machine.execCapperRateLower s
  | .capperRelease => Sys2Proof.Machine.execCapperRelease s
  | .loadInterval => Sys2Proof.Machine.execLoadInterval s
  | .histogramSample => Sys2Proof.Machine.execHistogramSample s
  | .walkerTakeJob tile => Sys2Proof.Machine.execWalkerTakeJob tile s
  | .walkerTableReadDone q => Sys2Proof.Machine.execWalkerTableReadDone q s
  | .dispatch tile => Sys2Proof.Machine.execDispatch tile s
  | .blockEnd tile elems prefetch => Sys2Proof.Machine.execBlockEnd tile elems prefetch s
  | .engineAccessComplete tile => Sys2Proof.Machine.execEngineAccessComplete tile s
  | .engineRetryReissue tile => Sys2Proof.Machine.execEngineRetryReissue tile s
  | .budgetExhausted tile => Sys2Proof.Machine.execBudgetExhausted tile s
  | .quantumExpiry tile => Sys2Proof.Machine.execQuantumExpiry tile s
  | .engineFault tile checker => Sys2Proof.Machine.execEngineFault tile checker s
  | .landingAbsorb tile => Sys2Proof.Machine.execLandingAbsorb tile s
  | .zeroFillDone ext => Sys2Proof.Machine.execZeroFillDone ext s
  | .chunkReleaseDone tile win => Sys2Proof.Machine.execChunkReleaseDone tile win s
  | .phaseDrainDone ext => Sys2Proof.Machine.execPhaseDrainDone ext s
  | .revokeDrainDone ext => Sys2Proof.Machine.execRevokeDrainDone ext s
  | .contextRetireDone cid => Sys2Proof.Machine.execContextRetireDone cid s
  | .partitionFree part => Sys2Proof.Machine.execPartitionFree part s
  | .groupHeartbeatSend => Sys2Proof.Machine.execGroupHeartbeatSend s
  | .groupHeartbeat slot => Sys2Proof.Machine.execGroupHeartbeat slot s
  | .groupMemberLost slot => Sys2Proof.Machine.execGroupMemberLost slot s
  | .rebuildStep r => Sys2Proof.Machine.execRebuildStep r s
  | .tsxSend port => Sys2Proof.Machine.execTsxSend port s
  | .tsx port x arrival => Sys2Proof.Machine.execTsx port x arrival s
  | .keeperLock => Sys2Proof.Machine.execKeeperLock s
  | .keeperOffsetLoss => Sys2Proof.Machine.execKeeperOffsetLoss s
  | .holdoverExpire => Sys2Proof.Machine.execHoldoverExpire s
  | .schedIdleAfterLoss => Sys2Proof.Machine.execSchedIdleAfterLoss s
  | .listSwitch => Sys2Proof.Machine.execListSwitch s
  | .schedTakeover => Sys2Proof.Machine.execSchedTakeover s
  | .armLateDeadline => Sys2Proof.Machine.execArmLateDeadline s
  | .armStepsDone => Sys2Proof.Machine.execArmStepsDone s
  | .schedOpDue tile entry => Sys2Proof.Machine.execSchedOpDue tile entry s
  | .schedOpDeadline tile => Sys2Proof.Machine.execSchedOpDeadline tile s
  | .portFrameStart port => Sys2Proof.Machine.execPortFrameStart port s
  | .ftsPulse => Sys2Proof.Machine.execFtsPulse s
  | .fecBlockReceive port b => Sys2Proof.Machine.execFecBlockReceive port b s
  | .flitReceive port f => Sys2Proof.Machine.execFlitReceive port f s
  | .nakRepeatTimer port => Sys2Proof.Machine.execNakRepeatTimer port s
  | .replayTimeout port => Sys2Proof.Machine.execReplayTimeout port s
  | .spillWrite port => Sys2Proof.Machine.execSpillWrite port s
  | .param port x => Sys2Proof.Machine.execParam port x s
  | .retrainReq port cause => Sys2Proof.Machine.execRetrainReq port cause s
  | .resume port ack => Sys2Proof.Machine.execResume port ack s
  | .down port reason => Sys2Proof.Machine.execDown port reason s
  | .trainingStart trigger => Sys2Proof.Machine.execTrainingStart trigger s
  | .trainingStepDone port r => Sys2Proof.Machine.execTrainingStepDone port r s
  | .trainingStepTimeout port => Sys2Proof.Machine.execTrainingStepTimeout port s
  | .retrainTrigger port cause => Sys2Proof.Machine.execRetrainTrigger port cause s
  | .retrainStepDone port r => Sys2Proof.Machine.execRetrainStepDone port r s
  | .retrainTimeout port => Sys2Proof.Machine.execRetrainTimeout port s
  | .signalLost port => Sys2Proof.Machine.execSignalLost port s
  | .portListenIdle port => Sys2Proof.Machine.execPortListenIdle port s
  | .routeFlipAtTf => Sys2Proof.Machine.execRouteFlipAtTf s
  | .restamp die => Sys2Proof.Machine.execRestamp die s
  | .drain die port => Sys2Proof.Machine.execDrain die port s
  | .drainTimeout die => Sys2Proof.Machine.execDrainTimeout die s
  | .mcmp p => Sys2Proof.Machine.execMcmp p s
  | .mcmpData p => Sys2Proof.Machine.execMcmpData p s
  | .hostMemoryTimeout tag => Sys2Proof.Machine.execHostMemoryTimeout tag s
  | .qoreusLinkUp => Sys2Proof.Machine.execQoreusLinkUp s
  | .notifySend target => Sys2Proof.Machine.execNotifySend target s
  | .stagingPlaceFree target => Sys2Proof.Machine.execStagingPlaceFree target s
  | .heartbeatWatchdog => Sys2Proof.Machine.execHeartbeatWatchdog s
  | .coreFault => Sys2Proof.Machine.execCoreFault s
  | .standbyBootDone boot => Sys2Proof.Machine.execStandbyBootDone boot s
  | .journalReplayDone => Sys2Proof.Machine.execJournalReplayDone s
  | .oldCoreCheckDone ok => Sys2Proof.Machine.execOldCoreCheckDone ok s
  | .switchoverStart => Sys2Proof.Machine.execSwitchoverStart s
  | .switchoverBootDone ok => Sys2Proof.Machine.execSwitchoverBootDone ok s
  | .switchoverComplete => Sys2Proof.Machine.execSwitchoverComplete s
  | .katDue tile => Sys2Proof.Machine.execKatDue tile s
  | .suspectTestDue tile => Sys2Proof.Machine.execSuspectTestDue tile s
  | .katStart tile => Sys2Proof.Machine.execKatStart tile s
  | .katSegmentEnd tile => Sys2Proof.Machine.execKatSegmentEnd tile s
  | .katEnd tile r => Sys2Proof.Machine.execKatEnd tile r s
  | .snapshotLatch => Sys2Proof.Machine.execSnapshotLatch s
  | .powerUnitAnswer unit a => Sys2Proof.Machine.execPowerUnitAnswer unit a s
  | .powerDelayReask unit => Sys2Proof.Machine.execPowerDelayReask unit s
  | .powerDelayExpired unit => Sys2Proof.Machine.execPowerDelayExpired unit s
  | .powerEntryStepDone => Sys2Proof.Machine.execPowerEntryStepDone s
  | .wakeStepDone => Sys2Proof.Machine.execWakeStepDone s
  | .partitionCreate mb => Sys2Proof.Machine.execPartitionCreate mb s
  | .partitionArm mb => Sys2Proof.Machine.execPartitionArm mb s
  | .partitionRecover mb => Sys2Proof.Machine.execPartitionRecover mb s
  | .partitionClose mb => Sys2Proof.Machine.execPartitionClose mb s
  | .contextCreate mb => Sys2Proof.Machine.execContextCreate mb s
  | .contextSet mb => Sys2Proof.Machine.execContextSet mb s
  | .contextDestroy mb => Sys2Proof.Machine.execContextDestroy mb s
  | .extentCreate mb => Sys2Proof.Machine.execExtentCreate mb s
  | .extentRevoke mb => Sys2Proof.Machine.execExtentRevoke mb s
  | .extentShareOffer mb => Sys2Proof.Machine.execExtentShareOffer mb s
  | .extentShareAccept mb => Sys2Proof.Machine.execExtentShareAccept mb s
  | .extentShareWithdraw mb => Sys2Proof.Machine.execExtentShareWithdraw mb s
  | .extentUnshare mb => Sys2Proof.Machine.execExtentUnshare mb s
  | .extentQuery mb => Sys2Proof.Machine.execExtentQuery mb s
  | .deviceSetScrub mb => Sys2Proof.Machine.execDeviceSetScrub mb s
  | .groupConfig mb => Sys2Proof.Machine.execGroupConfig mb s
  | .groupExtentCreate c => Sys2Proof.Machine.execGroupExtentCreate c s
  | .groupExtentRevoke c => Sys2Proof.Machine.execGroupExtentRevoke c s
  | .groupPromote mb => Sys2Proof.Machine.execGroupPromote mb s
  | .groupRebuild mb => Sys2Proof.Machine.execGroupRebuild mb s
  | .invalidateRange mb => Sys2Proof.Machine.execInvalidateRange mb s
  | .elderBind mb => Sys2Proof.Machine.execElderBind mb s
  | .elderMap mb => Sys2Proof.Machine.execElderMap mb s
  | .cohAgentSet mb => Sys2Proof.Machine.execCohAgentSet mb s
  | .cohConfig mb => Sys2Proof.Machine.execCohConfig mb s
  | .jobSubmit mb => Sys2Proof.Machine.execJobSubmit mb s
  | .jobCancel mb => Sys2Proof.Machine.execJobCancel mb s
  | .combineSetup mb => Sys2Proof.Machine.execCombineSetup mb s
  | .combineClear mb => Sys2Proof.Machine.execCombineClear mb s
  | .combineReside mb => Sys2Proof.Machine.execCombineReside mb s
  | .combineRelease mb => Sys2Proof.Machine.execCombineRelease mb s
  | .ftConfig mb => Sys2Proof.Machine.execFtConfig mb s
  | .schedStage mb => Sys2Proof.Machine.execSchedStage mb s
  | .schedArm mb => Sys2Proof.Machine.execSchedArm mb s
  | .schedDisarm mb => Sys2Proof.Machine.execSchedDisarm mb s
  | .schedCancel mb => Sys2Proof.Machine.execSchedCancel mb s
  | .shapePortSet mb => Sys2Proof.Machine.execShapePortSet mb s
  | .shapePartSet mb => Sys2Proof.Machine.execShapePartSet mb s
  | .limitSet mb => Sys2Proof.Machine.execLimitSet mb s
  | .linkEnable mb => Sys2Proof.Machine.execLinkEnable mb s
  | .linkDisable mb => Sys2Proof.Machine.execLinkDisable mb s
  | .linkRetrain mb => Sys2Proof.Machine.execLinkRetrain mb s
  | .linkTune mb => Sys2Proof.Machine.execLinkTune mb s
  | .fabricConfig mb => Sys2Proof.Machine.execFabricConfig mb s
  | .routeLoad mb => Sys2Proof.Machine.execRouteLoad mb s
  | .routeFlip mb => Sys2Proof.Machine.execRouteFlip mb s
  | .nodeWithdraw mb => Sys2Proof.Machine.execNodeWithdraw mb s
  | .memSetRate mb => Sys2Proof.Machine.execMemSetRate mb s
  | .memConfig mb => Sys2Proof.Machine.execMemConfig mb s
  | .memDiagOpen mb => Sys2Proof.Machine.execMemDiagOpen mb s
  | .memDiagWrite mb => Sys2Proof.Machine.execMemDiagWrite mb s
  | .memDiagRead mb => Sys2Proof.Machine.execMemDiagRead mb s
  | .memDiagClose mb => Sys2Proof.Machine.execMemDiagClose mb s
  | .adminSet mb => Sys2Proof.Machine.execAdminSet mb s
  | .notifySet mb => Sys2Proof.Machine.execNotifySet mb s
  | .mcTakeover mb => Sys2Proof.Machine.execMcTakeover mb s
  | .counterSnapshot mb => Sys2Proof.Machine.execCounterSnapshot mb s
  | .testRun mb => Sys2Proof.Machine.execTestRun mb s
  | .certRead mb => Sys2Proof.Machine.execCertRead mb s
  | .attestReport mb => Sys2Proof.Machine.execAttestReport mb s
  | .sessionOpen mb => Sys2Proof.Machine.execSessionOpen mb s
  | .fwStage mb => Sys2Proof.Machine.execFwStage mb s
  | .fwCommit mb => Sys2Proof.Machine.execFwCommit mb s
  | .powerCapSet mb => Sys2Proof.Machine.execPowerCapSet mb s
  | .powerStateSet mb => Sys2Proof.Machine.execPowerStateSet mb s
  | .deviceReset mb => Sys2Proof.Machine.execDeviceReset mb s
  | .dbgRead mb => Sys2Proof.Machine.execDbgRead mb s
  | .dbgWrite mb => Sys2Proof.Machine.execDbgWrite mb s
  | .gateEntryBoundary port => Sys2Proof.Machine.execGateEntryBoundary port s
  | .fecBlockTransmit port => Sys2Proof.Machine.execFecBlockTransmit port s
  | .heartbeatWrite => Sys2Proof.Machine.execHeartbeatWrite s
  | .deviceResetStart => Sys2Proof.Machine.execDeviceResetStart s
  | .undefinedOpcodeCommand mb => Sys2Proof.Machine.execUndefinedOpcodeCommand mb s
  | .stackControllerFailure stack => Sys2Proof.Machine.execStackControllerFailure stack s
  | .debugDisableFuseBlow => Sys2Proof.Machine.execDebugDisableFuseBlow s
  | .i3cDynamicAddressAssign setdasa addr => Sys2Proof.Machine.execI3cDynamicAddressAssign setdasa addr s

end Sys2Proof.Machine
end

