-- ==== Sys2Proof/Safety.lean ====
section
/-! DEFINITION. What a claim may ask of a step or of a run: that a command completes, and the invariants that every step keeps: memory in
canonical form, the power registers within what R520, R521 and R527 allow. -/
namespace Sys2Proof.Machine
open Sys2Proof

/-- A command completes on a state. -/
def Completes (i : Instr) (s : State) : Prop := ∃ t, exec i s = .next t

/-- DRAM is in canonical form: byte addresses strictly rising, no byte listed that reads as an unlisted one. (DESIGN CHOICE: log entry 8) -/
abbrev Memory.wf (m : List Host.Cell) : Prop := twf 0 m = true

/-- Whether a step belongs to an entry (R527), and to a wake from D2 or D2R (R528). -/
def PwrStep.entry : PwrStep → Bool
  | .s1 | .s2 | .s3 | .s4 | .s5 | .s6 => true
  | _ => false
def PwrStep.waking : PwrStep → Bool
  | .w1 | .w2 | .w3 | .w4 | .w5 | .w6 => true
  | _ => false
/-- Whether a step follows AP2 of an entry, which only an entry to D2, D2R or D3 reaches (R527). -/
def PwrStep.deep : PwrStep → Bool
  | .s3 | .s4 | .s5 | .s6 => true
  | _ => false

/-- The power registers are legal (R520, R521, R527, R528): CAP lies between FLOOR and CEILING, STATE and LAST_AP are no reserved values,
ENTERING is 1 just while an entry runs, an entry that has passed AP2 is one to D2, D2R or D3, and a wake sequence runs from D2 or D2R. -/
def Pwr.ok (p : Pwr) : Prop :=
  p.floor.toNat ≤ p.cap.toNat ∧ p.cap.toNat ≤ p.ceiling.toNat ∧ p.state.toNat ≤ 4 ∧ p.lastAp.toNat ≤ 4
    ∧ p.entering = p.pstep.entry ∧ (p.pstep.entry = true → 1 ≤ p.target.toNat ∧ p.target.toNat ≤ 4)
    ∧ (p.pstep.deep = true → 2 ≤ p.target.toNat) ∧ (p.pstep.waking = true → p.state.toNat = 2 ∨ p.state.toNat = 3)

/-- The fused limits of the power cap are in order (R520). -/
def Nv.capOk (n : Nv) : Prop := n.floor.toNat ≤ n.ceiling.toNat

/-- What every step keeps: memory in canonical form, and legal power registers. -/
def State.Inv (s : State) : Prop := Memory.wf s.dram ∧ s.nv.capOk ∧ s.pwr.ok

/-! ### Words of the statements -/

/-- Whether a control access is served as its row runs: it carries its opcode, its requester is no Elder requester, it is in its turn, it asks for a
completion (R342), and no request of its pair is held. (DESIGN CHOICE: log entry 14) -/
def State.ctlTurn (s : State) (o : Byte) (p : Packet) : Bool :=
  p.opc == o && !s.filtered p.src && s.turn p && !(s.take p).1.pkt.nocmp && !(s.take p).2.pairHeld (s.take p).1.pkt.src

/-- The request that a released control packet is. -/
def Held.req (h : Held) : Req := { pkt := h.pkt, die := h.die, lim := h.lim }

/-- A control access answered with a status and no data. -/
def State.ctlEnd (s : State) (h : Held) (st : Status) : State := s.reply h.req none (s.ctlCmp h st)

/-- Whether Steward takes the request of a mailbox now and runs its command at once: Steward serves, the mailbox is the next one and holds the
command, no earlier command of it still has to run, fewer than 64 are in progress, no commit begins, the checks of R432 and R434 pass, and no
earlier command holds it back. -/
def State.accepts (s : State) (f : CmdForm) (mb : MbId) : Bool :=
  let c := (s.takeCmd mb f.names).1
  let u := (s.takeCmd mb f.names).2
  s.stewardUp && !(s.cmds.any fun c => c.mb == mb && c.deferred) && s.nextMb == some mb.idx && decide ((s.mbox mb.idx).opcode.toNat = f.op)
    && decide (s.cmds.length < 64) && s.stew.step != .swWait
    && (u.common f c (u.mbox mb.idx).arglen (u.mbox mb.idx).args).isNone && !u.blocked c

/-- A command of a mailbox that Steward takes and runs at once answers, when a condition on the state, the command and ARGS holds, what a row
gives; before a row that writes, the journal holds the intent (R420). -/
def Runs (i : Instr) (s : State) (f : CmdForm) (mb : MbId) (ok : State → Cmd → Nat → Prop) (row : State → Cmd → Nat → Answer) : Prop :=
  s.accepts f mb = true → ok (s.takeCmd mb f.names).2 (s.takeCmd mb f.names).1 ((s.takeCmd mb f.names).2.mbox mb.idx).args →
    exec i s = .next (((s.takeCmd mb f.names).2.runBody f (s.takeCmd mb f.names).1 row ((s.takeCmd mb f.names).2.mbox mb.idx).args).post
      (s.takeCmd mb f.names).1)

/-- The same of a command whose condition reads memory, so that it is asked also of the state with the journal's entry, in which the row runs. -/
def RunsNoted (i : Instr) (s : State) (f : CmdForm) (mb : MbId) (ok : State → Cmd → Nat → Prop) (row : State → Cmd → Nat → Answer) : Prop :=
  ok ((s.takeCmd mb f.names).2.note (s.takeCmd mb f.names).1.token .write) (s.takeCmd mb f.names).1 ((s.takeCmd mb f.names).2.mbox mb.idx).args →
    Runs i s f mb ok row

end Sys2Proof.Machine
end

