-- ==== Sys2Proof/Certificates/Slice0/Obligations.lean ====
section
/-! DEFINITION. The statements for the provers: what the step does with its queue, what every command keeps, and for each family of commands
where it completes and with what next state. A clause gives the next state whole, so that it is the frame of its command as well; a command of
a mailbox answers through `Answer.post`, whose effect and frame are stated once (ReplyPosted, PostFrame). -/
open Sys2Proof Sys2Proof.Machine

/-! ### The step and what every command keeps -/

/-- A step runs the command at the front of the queue on the state with the queue's rest (log entry 2: the queue is the model's own).
The choices of the model that it rests on: log entry 2. -/
def Obligations.StepRunsFront : Prop :=
  ∀ (c : Instr) (rest : List Instr) (s : State), s.pending = c :: rest → step s = exec c { s with pending := rest }

/-- On an empty queue one nanosecond passes (log entry 2, the model's choice): FT advances by one nanosecond and the slewed part of the
correction (R233, R234), unless the keeper is stopped or has not started, and every 256 ns the replicas take the keeper's FT (R13); nothing but
the clock, the keeper and the replicas changes. -/
def Obligations.StepIdles : Prop :=
  ∀ s : State, s.pending = [] → ∃ (k : Keeper) (r : Replicas),
    step s = .next { s with now := s.now + 1, keeper := k, repl := r }
      ∧ (s.pwr.running = true → s.keeper.stopped = false →
          k = { s.keeper with
              ft := s.keeper.ft + 65536 + BitVec.ofInt 80 (slewStep s.keeper.slew), slew := s.keeper.slew - slewStep s.keeper.slew
              freqAdj := adjOf (s.keeper.slew - slewStep s.keeper.slew) }
            ∧ ((s.now + 1) % 256 ≠ 0 → r.tiles = s.repl.tiles + 65536 ∧ r.hub = s.repl.hub + 65536 ∧ r.dram = s.repl.dram + 65536
              ∧ ∀ d, d < 4 → tget 0 r.die d = tget 0 s.repl.die d + 65536)
            ∧ ((s.now + 1) % 256 = 0 → r.tiles = k.ft ∧ r.hub = k.ft ∧ r.dram = k.ft ∧ ∀ d, d < 4 → tget 0 r.die d = k.ft))
      ∧ (s.pwr.running = false ∨ s.keeper.stopped = true → k = s.keeper ∧ r = s.repl)

/-- Every command answers a next state on every state, but for an input beyond the ratings of R539, which faults (log entry 1). -/
def Obligations.EveryCommandCompletes : Prop :=
  (∀ (c : Instr) (s : State), (∀ mv us, c = .inputFault mv us → mv ≤ 80000 ∧ (mv ≤ 66000 ∨ us ≤ 100000)) → Completes c s)
  ∧ ∀ (mv us : Nat) (s : State), 80000 < mv ∨ (66000 < mv ∧ 100000 < us) → exec (.inputFault mv us) s = .fault .overstress

/-- No command changes the queue of waiting commands, which is the model's own choice (log entry 2): a step takes exactly the one at its front.
The choices of the model that it rests on: log entry 2. -/
def Obligations.QueueUntouched : Prop :=
  ∀ (c : Instr) (s t : State), exec c s = .next t → t.pending = s.pending

/-- What the fuses and straps hold no command changes: build code, unit map, power limits, amplitude limits, EID, board and
address straps, the identity's seed, the firmware keys; nor the vectors of the known-answer test in the flash.
The choices of the model that it rests on: log entries 3, 5. -/
def Obligations.FusesPermanent : Prop :=
  ∀ (c : Instr) (s t : State), exec c s = .next t →
    t.nv.build = s.nv.build ∧ t.nv.units = s.nv.units ∧ t.nv.ceiling = s.nv.ceiling ∧ t.nv.floor = s.nv.floor
      ∧ t.nv.amplMax = s.nv.amplMax ∧ t.nv.eidS = s.nv.eidS ∧ t.nv.boardS = s.nv.boardS ∧ t.nv.addrS = s.nv.addrS
      ∧ t.nv.seed = s.nv.seed ∧ t.nv.fwKeyE = s.nv.fwKeyE ∧ t.nv.fwKeyM = s.nv.fwKeyM ∧ t.nv.vectors = s.nv.vectors

/-- The commands that may change a byte of DRAM. -/
def Sys2Proof.Instr.writesDram : Instr → Bool
  | .powerOn | .railPowerGoodTimeout | .resetPin _ | .inputFault _ _ | .thermalTrip | .i3cWake | .i3cReset _ _ _ | .deviceResetStart | .debugDisableFuseBlow
  | .powerEntryStepDone | .parityDelta _ _ _ | .dramAccessDone _ _ _ _ | .scrubStep _ | .zeroFillDone _ | .rebuildStep _
  | .jobSubmit _ | .schedStage _ | .routeLoad _ | .memDiagWrite _ | .memDiagRead _ | .memDiagClose _ | .certRead _ | .attestReport _
  | .sessionOpen _ | .fwStage _ => true
  | _ => false

/-- Every byte of DRAM reads after a command as before, for every command but those that restart the device or act on lines of DRAM.
The choices of the model that it rests on: log entry 8. -/
def Obligations.DramFrame : Prop :=
  ∀ (c : Instr) (s t : State), c.writesDram = false → exec c s = .next t → ∀ a, t.cell a = s.cell a

/-- The invariant of the model that every step keeps: DRAM in canonical form, CAP between FLOOR and CEILING, STATE and LAST_AP legal, ENTERING
just while an entry runs (R520, R521, R527, R528). The choices of the model that it rests on: log entries 8, 77. -/
def Obligations.StepKeepsInv : Prop :=
  ∀ s t : State, s.Inv → step s = .next t → t.Inv

/-- The invariant holds after reset. The choices of the model that it rests on: log entries 3, 5, 7, 8. -/
def Obligations.ResetInv : Prop :=
  State.reset.Inv ∧ State.reset.pending = []

/-! ### Power-on, start-up and reset (chapter 18) -/

/-- The start-up (R4, R392, R419, R429, R517, R518, R532, R533, R538): VIN comes, six rails rise in turn, one that fails stops all and is retried
once, and so do those that fell, in a wake; with the oscillator stable the management island reads the fuses and straps and derives the identity; a unit is good when its fuse says so and it passed its test, a
failed DRAM row is repaired while its bank has a spare one, and a start-up whose first hub die fails ends FAILED; the cores are released with claim 1, Steward boots and serves, and a heartbeat is noted.
The choices of the model that it rests on: log entries 3, 21, 81, 87. -/
def Obligations.StartUp : Prop :=
  (∀ s : State, s.pwr.phase = .off ∨ s.pwr.phase = .dead ∨ s.pwr.phase = .tripped →
    exec .powerOn s = .next { pending := s.pending, fresh := s.fresh, nv := { s.nv with cause := if s.nv.caused then s.nv.cause else 1 }
                              pwr := { phase := .rails } })
  ∧ (∀ s : State, s.pwr.phase = .rails → s.pwr.rail + 1 < 6 →
    exec .railPowerGood s = .next { s with pwr := { s.pwr with rail := s.pwr.rail + 1, railAt := s.now } })
  ∧ (∀ s : State, s.pwr.phase = .rails → s.pwr.rail + 1 = 6 →
    exec .railPowerGood s = .next { s with pwr := { s.pwr with rail := 6, railAt := s.now, phase := .osc } })
  ∧ (∀ s : State, s.pwr.phase = .rails → s.pwr.railAt + 2000000 ≤ s.now →
    exec .railPowerGoodTimeout s = .next { s with pwr := { s.pwr with
      rail := 0, railAt := s.now, railFails := s.pwr.railFails + 1, phase := if s.pwr.railFails = 0 then .retryWait else .dead } })
  ∧ (∀ s : State, s.pwr.phase = .retryWait → s.pwr.railAt + 100000000 ≤ s.now →
    exec .railRetryTimer s = .next { s with pwr := { s.pwr with phase := .rails, rail := 0, railAt := s.now } })
  ∧ (∀ s : State, s.pwr.phase = .osc →
    exec .oscillatorStable s = .next { s with
      fresh := s.fresh + 1
      nv := { s.nv with fatalPrev := s.nv.fatal, fatal := [], caused := false
                        resets := if s.nv.resets = 0xFFFFFFFF then s.nv.resets else s.nv.resets + 1 }
      node := { eid := if s.nv.eidS.toNat < 0xFFE then s.nv.eidS else 0, board := if s.nv.build.toNat % 2 = 1 then 0 else s.nv.boardS }
      pwr := { s.pwr with phase := .selftest, fusedAt := some s.now, addrS := some s.nv.addrS, fused := s.nv.fused
                          cap := s.nv.ceiling, ceiling := s.nv.ceiling, floor := s.nv.floor, skE := (identity s.nv.seed).1
                          skM := (identity s.nv.seed).2.1, idhash := (identity s.nv.seed).2.2, reservedKey := some s.fresh } })
  ∧ (∀ s : State, s.pwr.phase ≠ .rails → s.pwr.pstep = .w1 → s.pwr.fallen ≠ [] →
    exec .railPowerGood s = .next { s with pwr := { s.pwr with fallen := s.pwr.fallen.tail, railAt := s.now } })
  ∧ (∀ s : State, s.pwr.phase ≠ .rails → s.pwr.pstep = .w1 → s.pwr.fallen ≠ [] → s.pwr.railAt + 2000000 ≤ s.now →
    exec .railPowerGoodTimeout s = .next { pending := s.pending, fresh := s.fresh, nv := { s.nv with cause := 1 }
                                           pwr := { phase := .retryWait, railFails := 1 } })
  ∧ (∀ (m : UnitMap) (s : State), s.pwr.phase = .selftest → s.pwr.logicDone = false →
    exec (.logicSelftestDone m) s = .next { s with pwr := { s.pwr with
      logicDone := true
      tested := { s.pwr.tested with linkdies := s.pwr.fused.linkdies &&& m.linkdies, tiles := s.pwr.fused.tiles &&& m.tiles
                                    quads := s.pwr.fused.quads &&& m.quads, hubs := s.pwr.fused.hubs &&& m.hubs } } })
  ∧ (∀ s : State, s.pwr.phase = .selftest → s.pwr.phyDone = false → ∃ x : Tbl Stack,
    exec .memPhyTrainingDone s = .next { s with pwr := { s.pwr with phyDone := true }, stks := x }
      ∧ ∀ n, tget {} x n = if n < 8 ∧ s.pwr.fused.stks.getLsbD n = true then { s.stack n with state := 1, timA := s.nv.timingOf n 0 } else s.stack n)
  ∧ (∀ (l : List RowFail) (s : State), s.pwr.phase = .selftest → s.pwr.phyDone = true → s.pwr.memDone = false →
      ∃ (remap : Tbl (List (Option Nat))) (failed : BitVec 8), (remap, failed)
        = (l.filter fun f => s.pwr.fused.stks.getLsbD f.stack.val).foldl repairRow (s.nv.remap, 0)
      ∧ exec (.memSelftestDone l) s = .next { s with
          nv := { s.nv with remap := remap }
          pwr := { s.pwr with memDone := true, tested := { s.pwr.tested with stks := s.pwr.fused.stks &&& ~~~failed } } })
  ∧ (∀ (a : Tbl (List (Option Nat)) × BitVec 8) (f : RowFail) (l : List (Option Nat)), l = tget [] a.1 (bankOfRow f) →
    (l.length + f.bad + 1 ≤ 4 → (repairRow a f).2 = a.2
      ∧ tget [] (repairRow a f).1 (bankOfRow f) = l ++ List.replicate f.bad none ++ [some f.row.val])
    ∧ (4 < l.length + f.bad + 1 → (repairRow a f).2 = a.2 ||| BitVec.twoPow 8 f.stack.val
      ∧ tget [] (repairRow a f).1 (bankOfRow f) = (l ++ List.replicate 4 none).take 4))
  ∧ (∀ (a b : Bool) (s : State), s.pwr.phase = .selftest → s.pwr.memDone = true → s.pwr.logicDone = true →
      s.pwr.tested.hubs.getLsbD 0 = false → ∃ p : Pwr,
    exec (.memFillDone a b) s = .next { s with pwr := p } ∧ p.phase = .failed ∧ p.fillDone = true ∧ p.tested.cores = 0
      ∧ p.elapsed = BitVec.ofNat 16 (s.now / 1000000)
      ∧ p.build = BitVec.ofNat 64 (buildInfo s.nv.build s.pwr.tested s.nv.dbgdis))
  ∧ (∀ (a b : Bool) (s : State), s.pwr.phase = .selftest → s.pwr.memDone = true → s.pwr.logicDone = true →
      s.pwr.tested.hubs.getLsbD 0 = true → ∃ t : State,
    exec (.memFillDone a b) s = .next t ∧ t.pwr.phase = .boot ∧ t.pwr.fillDone = true ∧ t.pwr.releasedAt = s.now
      ∧ t.pwr.build = BitVec.ofNat 64 (buildInfo s.nv.build s.pwr.tested s.nv.dbgdis)
      ∧ t.stew.released = true ∧ t.stew.claim = 1
      ∧ (t.stew.noFw = true ↔ (s.pwr.fused.cores.getLsbD 0 && a) = false ∧ (s.pwr.fused.cores.getLsbD 1 && b) = false)
      ∧ t.stew.active = !(s.pwr.fused.cores.getLsbD 0 && a) ∧ t.qor.hostAgent = true ∧ t.dram = s.dram)
  ∧ (∀ (k : BitVec 32) (g : Bool) (s : State), s.pwr.phase = .boot → s.stew.released = true → s.stew.noFw = false → ∃ t : State,
    exec (.stewardBootDone k g) s = .next t ∧ t.pwr.phase = .ready
      ∧ t.pwr = { s.pwr with phase := .ready, elapsed := t.pwr.elapsed } ∧ t.dram = s.dram
      ∧ (s.nv.otherSlot.valid = true → g = false → t.nv.otherSlot.valid = false) ∧ t.nv.runSlot = s.nv.runSlot ∧ t.vectors = s.nv.vectors)
  ∧ (∀ s : State, s.stew.released = true → s.stew.noFw = false →
    exec .heartbeatWrite s = .next { s with stew := { s.stew with heartbeat := s.now } })

/-- A whole-chip reset (R451, R482, R498, R522, R535, R536, R537) leaves the fuses, straps and flash with the cause and one reset more, the fatal
log moved, the management island past the fuses, and every other register at its reset value. Its causes: the pin held for 10 µs, DEVICE_RESET
1 ms after its reply, the two bytes of the I3C port within 1 ms, and the debug-disable fuse (whose cause is the model's choice, log entry 3). In D3,
after a thermal trip and while the rails rise, the start-up begins at the rails, with those that are up (log entry 22).
The choices of the model that it rests on: log entries 3, 22. -/
def Obligations.WholeChipResets : Prop :=
  (∀ (c : BitVec 3) (s : State), s.wholeReset c =
    { pending := s.pending, fresh := s.fresh + 1
      nv := { s.nv with cause := c, fatalPrev := s.nv.fatal, fatal := [], caused := false
                        resets := if s.nv.resets = 0xFFFFFFFF then s.nv.resets else s.nv.resets + 1 }
      node := { eid := if s.nv.eidS.toNat < 0xFFE then s.nv.eidS else 0, board := if s.nv.build.toNat % 2 = 1 then 0 else s.nv.boardS }
      pwr := { phase := .selftest, rail := 6, fusedAt := some 0, addrS := some s.nv.addrS, fused := s.nv.fused, cap := s.nv.ceiling
               ceiling := s.nv.ceiling, floor := s.nv.floor, skE := (identity s.nv.seed).1, skM := (identity s.nv.seed).2.1
               idhash := (identity s.nv.seed).2.2, reservedKey := some s.fresh } })
  ∧ (∀ (us : Nat) (s : State), 10 ≤ us → s.pwr.running = true → s.pwr.state ≠ 4 → exec (.resetPin us) s = .next (s.wholeReset 2))
  ∧ (∀ (us : Nat) (s : State), 10 ≤ us → s.pwr.running = true → s.pwr.state = 4 →
    exec (.resetPin us) s = .next { pending := s.pending, fresh := s.fresh, nv := { s.nv with cause := 2 }
                                    pwr := { phase := .rails, rail := 1, railFails := s.pwr.railFails
                                             i3cAddr := s.pwr.i3cAddr, addrS := s.pwr.addrS } })
  ∧ (∀ (us : Nat) (s : State), us < 10 → exec (.resetPin us) s = .next s)
  ∧ (∀ (t : Nat) (s : State), s.stew.resetAt = some t → t ≤ s.now → exec .deviceResetStart s = .next (s.wholeReset 3))
  ∧ (∀ (g : Nat) (s : State), g ≤ 1000 → s.pwr.running = true → s.pwr.state ≠ 4 → exec (.i3cReset 0x5A 0xA5 g) s = .next (s.wholeReset 3))
  ∧ (∀ (g : Nat) (s : State), g ≤ 1000 → s.pwr.running = true → s.pwr.state = 4 →
    exec (.i3cReset 0x5A 0xA5 g) s = .next { pending := s.pending, fresh := s.fresh, nv := { s.nv with cause := 3 }
                                             pwr := { phase := .rails, rail := 1, railFails := s.pwr.railFails
                                                      i3cAddr := s.pwr.i3cAddr, addrS := s.pwr.addrS } })
  ∧ (∀ (g : Nat) (s : State), g ≤ 1000 → s.pwr.phase = .tripped →
    exec (.i3cReset 0x5A 0xA5 g) s = .next { pending := s.pending, fresh := s.fresh, nv := s.nv
                                             pwr := { phase := .rails, rail := 1, railFails := s.pwr.railFails
                                                      i3cAddr := s.pwr.i3cAddr, addrS := s.pwr.addrS } })
  ∧ (∀ (b c : Byte) (g : Nat) (s : State), (b, c) ≠ (0x5A, 0xA5) ∨ 1000 < g → exec (.i3cReset b c g) s = .next s)
  ∧ (∀ s : State, s.pwr.running = true → s.nv.dbgdis = false →
    exec .debugDisableFuseBlow s = .next ({ s with nv := { s.nv with dbgdis := true } }.wholeReset 3))
  ∧ (∀ (us : Nat) (s : State), 10 ≤ us → (s.pwr.phase = .rails ∧ 1 ≤ s.pwr.rail) ∨ s.pwr.phase = .osc →
    exec (.resetPin us) s = .next { pending := s.pending, fresh := s.fresh, nv := { s.nv with cause := 2 }
                                    pwr := { phase := s.pwr.phase, rail := s.pwr.rail, railFails := s.pwr.railFails
                                             i3cAddr := s.pwr.i3cAddr, addrS := s.pwr.addrS } })
  ∧ (∀ (g : Nat) (s : State), g ≤ 1000 → (s.pwr.phase = .rails ∧ 1 ≤ s.pwr.rail) ∨ s.pwr.phase = .osc →
    exec (.i3cReset 0x5A 0xA5 g) s = .next { pending := s.pending, fresh := s.fresh, nv := { s.nv with cause := 3 }
                                             pwr := { phase := s.pwr.phase, rail := s.pwr.rail, railFails := s.pwr.railFails
                                                      i3cAddr := s.pwr.i3cAddr, addrS := s.pwr.addrS } })
  ∧ (∀ (g : Nat) (s : State), s.pwr.phase = .off ∨ s.pwr.phase = .retryWait ∨ s.pwr.phase = .dead → exec (.i3cReset 0x5A 0xA5 g) s = .next s)

/-- The input and the temperature (R517, R522), and the I3C address (R545): an input fault or a trip loses everything volatile and notes its
cause; an input inside the window changes nothing. The choices of the model that it rests on: log entries 3, 23. -/
def Obligations.InputAndTrip : Prop :=
  (∀ (mv us : Nat) (s : State), mv ≤ 80000 → (mv ≤ 66000 ∨ us ≤ 100000) → ((64000 < mv ∧ 1000 ≤ us) ∨ (mv < 38000 ∧ 100 ≤ us)) →
      s.pwr.phase ≠ .off →
    exec (.inputFault mv us) s = .next { pending := s.pending, fresh := s.fresh, nv := { s.nv with cause := 5, caused := true }
                                         pwr := { phase := .off } })
  ∧ (∀ (mv us : Nat) (s : State), 38000 ≤ mv → mv ≤ 64000 → exec (.inputFault mv us) s = .next s)
  ∧ (∀ s : State, s.pwr.running = true → (∃ e ∈ s.sensors, 3 ≤ e.2.trip) →
    exec .thermalTrip s = .next { pending := s.pending, fresh := s.fresh, nv := { s.nv with cause := 4, caused := true }
                                  pwr := { phase := .tripped, rail := 1, railFails := s.pwr.railFails
                                           i3cAddr := s.pwr.i3cAddr, addrS := s.pwr.addrS } })
  ∧ ∀ (d : Bool) (a : BitVec 7) (s : State), 1 ≤ s.pwr.rail → s.pwr.i3cAddr = none → (d = true → s.pwr.addrS ≠ none) →
    exec (.i3cDynamicAddressAssign d a) s = .next { s with pwr := { s.pwr with i3cAddr := some a } }

/-! ### Fabric time (chapter 08) -/

/-- The IMAGE_ID of the image that the sync-loss rule ends: the running one, else the one armed next (R240). -/
def Sys2Proof.Machine.State.armedId (s : State) : Word :=
  match s.sched.running, s.sched.next with
  | some im, _ => im.id
  | none, some im => im.id
  | none, none => 0

/-- The keeper (R13, R239, R240, R314, R315, R316, R546): every 256 ns the replicas take the keeper's FT; 64 good exchanges lock it, 16 bad ones or
too long a holdover lose it, which ends an image that is armed, pending or running by the steps of R240; a TSX is sent every 4 µs, and one received is kept for the next echo; FTS pulses
once per millisecond of FT. The choices of the model that it rests on: log entries 2, 34, 36, 37, 90. -/
def Obligations.KeeperAndTsx : Prop :=
  (∀ s : State, s.now % 256 = 0 → s.pwr.phase ≠ .off → ∃ r : Replicas,
    exec .ftCorrectionBroadcast s = .next { s with repl := r } ∧ r.tiles = s.keeper.ft ∧ r.hub = s.keeper.ft ∧ r.dram = s.keeper.ft
      ∧ ∀ d, d < 4 → tget 0 r.die d = s.keeper.ft)
  ∧ (∀ s : State, s.keeper.state = 1 ∨ s.keeper.state = 3 → 64 ≤ s.keeper.good →
    exec .keeperLock s = .next { s with keeper := { s.keeper with state := 2, followAlt := false, good := 0, bad := 0, holdSince := 0 } })
  ∧ (∀ s : State, s.keeper.state = 2 → 16 ≤ s.keeper.bad → exec .keeperOffsetLoss s = .next s.keeperLost)
  ∧ (∀ s : State, s.keeper.state = 3 → s.keeper.holdSince + s.keeper.holdMax.toNat * 10000000 < s.ftNs →
    exec .holdoverExpire s = .next s.keeperLost)
  ∧ (∀ s u v w x : State, s.sched.running ≠ none ∨ s.sched.pending = true ∨ s.sched.next ≠ none →
      u = { s with keeper := { s.keeper with state := 4, followAlt := false, good := 0, bad := 0, slew := 0, freqAdj := 0 } }.bump devBlk 4 →
      v = u.abandonArm csBadState →
      w = { v with sched := { v.sched with running := none, syncLost := s.sched.running.isSome, alt := 0, lost := 0 } }.gatesOpen →
      x = (w.each w.tileList fun s n => s.modTile n fun t => { t with swait := [] }).endLands →
    s.keeperLost = (if s.sched.running.isSome then x else x.freeSched).schedEvent 6 u.armedId 0 u.cycleNo)
  ∧ (∀ (s : State) (p : Nat), p < 16 → (s.gatesOpen.port p).gateOpen = 0xFF ∧ (s.gatesOpen.port p).gateIdx = 0)
  ∧ (∀ (s : State) (n : Nat), n ∈ s.tileList →
      ((s.each s.tileList fun s n => s.modTile n fun t => { t with swait := [] }).tile n).swait = []
      ∧ ∀ k ∈ (s.freeSched.tile n).wins, k.2 ≠ .sched)
  ∧ (∀ s : State, s.sched.armToken = none →
    s.abandonArm csBadState = { s with sched := { s.sched with pending := false, disarm := false, next := none, loaded := false } })
  ∧ (∀ s : State, s.sched.running = none → s.sched.pending = false → s.sched.next = none → ∃ t : State, s.keeperLost = t
      ∧ t.keeper = { s.keeper with state := 4, followAlt := false, good := 0, bad := 0, slew := 0, freqAdj := 0 } ∧ t.sched = s.sched)
  ∧ (∀ (p : Fin 17) (s : State), p.val < 16 → (s.port p.val).state = 3 → (s.port p.val).tsxAt + 3500 ≤ s.now →
    exec (.tsxSend p) s = .next (s.setPort p.val { s.port p.val with
      tseq := (s.port p.val).tseq + 1, tsxAt := s.now
      lctl := (s.port p.val).lctl ++ [lctlFlit (TsxBody.flitBody
        { kstate := BitVec.ofNat 8 (s.keeper.state.toNat + 8 * s.schedState), eid := s.node.eid, tseq := (s.port p.val).tseq
          tEchoTx := (s.port p.val).rxTTx, tEchoRx := (s.port p.val).rxArr, echoTseq := (s.port p.val).rxTseq, imageId := s.imageId })] }))
  ∧ (∀ s : State, s.pwr.running = true → s.pwr.state = 0 ∨ s.pwr.state = 1 → s.pwr.fts < s.ftNs / 1000000 →
    exec .ftsPulse s = .next { s with pwr := { s.pwr with fts := s.ftNs / 1000000 } })
  ∧ (∀ (p : Fin 17) (x : TsxBody) (a : BitVec 80) (s : State), p.val < 16 → (s.port p.val).state = 3 →
    (∃ t : State, exec (.tsx p x a) s = .next t ∧ (t.port p.val).rxTTx = x.tTx ∧ (t.port p.val).rxArr = a
      ∧ (t.port p.val).rxTseq = x.tseq ∧ (t.port p.val).peerKstate = x.kstate ∧ (t.port p.val).peerImage = x.imageId
      ∧ (∀ q, q ≠ p.val → t.port q = s.port q) ∧ t.dram = s.dram ∧ t.pwr = { s.pwr with fts := t.pwr.fts })
    ∧ (x.echoTseq = 0xFFFF → p.val ≠ s.keeper.parent.toNat →
      exec (.tsx p x a) s = .next (s.setPort p.val { s.port p.val with
        rxTTx := x.tTx, rxArr := a, rxTseq := x.tseq, peerKstate := x.kstate, peerImage := x.imageId })))

/-! ### The control region (chapter 14) -/

/-- Reads of the control region (R233, R403, R404, R492, R497): a read of allowed words is answered with them, each with the effect that its read
has (FT_NOW_NS latches the fraction, an acknowledge register frees the record at the head when its number matches, nothing else changes); one
that R404 does not allow, or of another form, is ACCESS_DENIED. The choices of the model that it rests on: log entries 14, 19, 64. -/
def Obligations.ControlReadRows : Prop :=
  (∀ (c : Instr) (p : Packet) (s : State), (c = .ctlRd p ∨ c = .ftNowNsRead p ∨ c = .fqAckRead p ∨ c = .elogAckRead p) →
    (∀ l, s.ctlTurn oCtlRd p = true → readOffs p = some l → (l.all fun o => (s.take p).2.mayRead p (locOf o)) = true →
        (s.stew.commit = false ∨ (l.any fun o => decide (0x70000 ≤ o) && decide (o < 0x71000)) = false) →
      exec c s = .next
        (let w := ((s.take p).2.noteCtl p (l.map locOf)).readWords p l
         w.2.reply ((s.take p).1.req) none { w.2.ctlCmp (s.take p).1 stOk with
           opc := oCmpData, len := 160, data := BitVec.ofNat 1024 (packBits (w.1.mapIdx fun i x => (64 * i, 64, x))) }))
    ∧ (∀ l, s.ctlTurn oCtlRd p = true → readOffs p = some l → (l.all fun o => (s.take p).2.mayRead p (locOf o)) = true →
        s.stew.commit = true → (l.any fun o => decide (0x70000 ≤ o) && decide (o < 0x71000)) = true →
      exec c s = .next (((s.take p).2.noteCtl p (l.map locOf)).ctlEnd (s.take p).1 stBusy))
    ∧ (s.ctlTurn oCtlRd p = true → readOffs p = none → exec c s = .next ((s.take p).2.ctlEnd (s.take p).1 stDenied))
    ∧ (∀ l, s.ctlTurn oCtlRd p = true → readOffs p = some l → (l.all fun o => (s.take p).2.mayRead p (locOf o)) = false →
      exec c s = .next (((s.take p).2.noteCtl p (l.map locOf)).ctlEnd (s.take p).1 stDenied))
    ∧ (p.opc = oCtlRd → s.filtered p.src = false → s.turn p = true → (s.take p).2.pairHeld p.src = false → p.nocmp = true →
      exec c s = .next ((s.take p).2.ctlEnd (s.take p).1 stDenied))
    ∧ (p.opc = oCtlRd → s.filtered p.src = false → s.turn p = true → (s.take p).2.pairHeld p.src = true →
      exec c s = .next { (s.take p).2 with admHeld := (s.take p).2.admHeld ++ [(s.take p).1] })
    ∧ (p.opc ≠ oCtlRd ∨ s.filtered p.src = true ∨ s.turn p = false → exec c s = .next s))
  ∧ (∀ (k : Packet) (o : Nat) (s : State), locOf o = .dev 0x6000 →
    s.readWord k o = (s.ftNs, { s with keeper := { s.keeper with frac := s.keeper.ft.extractLsb' 0 16 } }))
  ∧ (∀ (k : Packet) (o i : Nat) (r : ErrRec) (rest : List ErrRec) (s : State), i < 1024 → locOf o = .dev (0x51000 + 8 * i) →
      s.elog.recs = r :: rest →
    (s.readWord k o).2 = if r.seq.toNat % 1024 = i then { s with elog := { s.elog with recs := rest } } else s)
  ∧ (∀ (k : Packet) (o i p : Nat) (n : BitVec 32) (r : FaultRec) (rest : List (BitVec 32 × FaultRec)) (s : State), i < 256 →
      locOf o = .part p (0x2800 + 8 * i) → s.partReq p k = true → (s.part p).fq = (n, r) :: rest →
    (s.readWord k o).2 = if n.toNat % 256 = i then s.setPart p { s.part p with fq := rest } else s)
  ∧ (∀ (k : Packet) (o i p : Nat) (s : State), locOf o = .part p i → s.partReq p k = false → (s.readWord k o).2 = s)
  ∧ (∀ (k : Packet) (o : Nat) (s : State), (∀ i, locOf o ≠ .dev i ∨ (i ≠ 0x6000 ∧ (i < 0x51000 ∨ 0x53000 ≤ i))) →
      (∀ p i, locOf o ≠ .part p i ∨ i < 0x2800 ∨ 0x3000 ≤ i) →
    (s.readWord k o).2 = s)

/-- Writes of the control region (R403, R404, R409, R416, R417): a request slot is filled while its mailbox is IDLE, and posted with the next MSEQ
when the write sets OWN; clearing OWN of a reply returns the mailbox to IDLE; GO = 1 starts the abort of a partition that is OPEN or ARMED;
anything else is ACCESS_DENIED. The choices of the model that it rests on: log entries 14, 49, 64. -/
def Obligations.ControlWriteRows : Prop :=
  (∀ (c : Instr) (p : Packet) (s : State), (c = .ctlWr p ∨ c = .mailboxPost p ∨ c = .mailboxReplyClear p ∨ c = .partAbortWrite p) →
    (s.ctlTurn oCtlWr p = true →
    (writeOffs p = none → exec c s = .next ((s.take p).2.ctlEnd (s.take p).1 stDenied))
    ∧ (writeOffs p = some [] → exec c s = .next ((s.take p).2.ctlEnd (s.take p).1 stOk))
    ∧ ∀ (o : Nat) (l : List Nat), writeOffs p = some (o :: l) →
      let u := (s.take p).2.noteCtl p ((o :: l).map locOf)
      ((∃ q ∈ o :: l, (s.take p).2.mayWrite p (locOf q) = false) → exec c s = .next (u.ctlEnd (s.take p).1 stDenied))
      ∧ ((∀ q ∈ o :: l, (s.take p).2.mayWrite p (locOf q) = true) →
        (∀ m i, locOf o = .mbox m false i → (u.mbox m.idx).own = false → (u.mbox m.idx).replied = false →
          let x := { u.mbox m.idx with req := slotPut (u.mbox m.idx).req (o / 128 * 128 % 256) p.opnd p.data }
          (x.own = true → exec c s = .next ((u.setMbox m.idx { x with mseq := x.mseq + 1, running := false, eid := p.src }).ctlEnd (s.take p).1 stOk))
          ∧ (x.own = false → exec c s = .next ((u.setMbox m.idx x).ctlEnd (s.take p).1 stOk)))
        ∧ (∀ m i, locOf o = .mbox m true i → (u.mbox m.idx).own = false → (u.mbox m.idx).replied = true → o / 128 * 128 % 256 = 0 →
            p.opnd.getLsbD 0 = true → p.data.getLsbD 0 = false →
          exec c s = .next ((u.setMbox m.idx { u.mbox m.idx with rpl := (u.mbox m.idx).rpl &&& ~~~1 }).ctlEnd (s.take p).1 stOk))
        ∧ (∀ m r i, locOf o = .mbox m r i → (u.mbox m.idx).own = true → exec c s = .next (u.ctlEnd (s.take p).1 stDenied))
        ∧ (∀ m i, locOf o = .mbox m false i → (u.mbox m.idx).own = false → (u.mbox m.idx).replied = true →
          exec c s = .next (u.ctlEnd (s.take p).1 stDenied))
        ∧ (∀ m i, locOf o = .mbox m true i → (u.mbox m.idx).own = false → (u.mbox m.idx).replied = true →
            o / 128 * 128 % 256 ≠ 0 ∨ p.opnd.getLsbD 0 = false ∨ p.data.getLsbD 0 = true →
          exec c s = .next (u.ctlEnd (s.take p).1 stDenied))
        ∧ (∀ m i, locOf o = .mbox m true i → (u.mbox m.idx).own = false → (u.mbox m.idx).replied = false →
          exec c s = .next (u.ctlEnd (s.take p).1 stDenied))
        ∧ (∀ q, locOf o = .abort q →
          exec c s = .next ((if p.data.getLsbD 0 then u.abortStart q 1 else u).ctlEnd (s.take p).1 stOk))))
    ∧ (p.opc = oCtlWr → s.filtered p.src = false → s.turn p = true → (s.take p).2.pairHeld p.src = false → p.nocmp = true →
      exec c s = .next ((s.take p).2.ctlEnd (s.take p).1 stDenied))
    ∧ (p.opc = oCtlWr → s.filtered p.src = false → s.turn p = true → (s.take p).2.pairHeld p.src = true →
      exec c s = .next { (s.take p).2 with admHeld := (s.take p).2.admHeld ++ [(s.take p).1] })
    ∧ (p.opc ≠ oCtlWr ∨ s.filtered p.src = true ∨ s.turn p = false → exec c s = .next s))
  ∧ (∀ (p : Nat) (k : BitVec 2) (s : State), (s.part p).state ≠ 1 → (s.part p).state ≠ 2 → s.abortStart p k = s)
  ∧ (∀ (p : Nat) (k : BitVec 2) (s : State), (s.part p).state = 1 ∨ (s.part p).state = 2 →
    s.abortStart p k
      = (((s.setPart p { s.part p with state := 4, cause := k, abortAt := some s.now }).abortHold p).each s.tileList
          fun s n => (s.abortTile p n).rouse n).invalCheck)

/-! ### What ends in its own time (chapters 02 and 14) -/

/-- Drains and ends (R31, R39, R47, R54, R417): each completes when what it waits for has ended; an abort first discards what is queued, and of a
confidential partition drops the keys once no write of it is left in a channel.
The choices of the model that it rests on: log entries 1, 29, 49. -/
def Obligations.DrainsEnd : Prop :=
  (∀ (p : Fin 64) (s u : State), u = ((((s.abortQueues p.val).abortHeld p.val).abortTxns p.val).abortFwds p.val).dropHostReqs →
      (s.part p.val).abortAt.isSome = true → u.abortBusy p.val = false → (s.part p.val).conf = false →
    exec (.abortComplete p) s = .next
      (((u.modPart p.val fun x => { x with done := true, abortAt := none }).stewSend
        p.val { kind := 2, obj := BitVec.ofNat 32 p.val, cid := BitVec.ofNat 16 (p.val * 1024), cause := (s.part p.val).cause.setWidth 8 }).abortCmds
        p.val))
  ∧ (∀ (p : Fin 64) (s u : State), u = ((((s.abortQueues p.val).abortHeld p.val).abortTxns p.val).abortFwds p.val).dropHostReqs →
      (s.part p.val).abortAt.isSome = true → u.abortBusy p.val = false → (s.part p.val).conf = true →
    exec (.abortComplete p) s = .next
      (((((u.dropKeys p.val).endSession p.val 2
        (if (s.part p.val).cause = 2 then 1 else 2)).modPart p.val fun x => { x with done := true, abortAt := none }).stewSend
        p.val { kind := 2, obj := BitVec.ofNat 32 p.val, cid := BitVec.ofNat 16 (p.val * 1024), cause := (s.part p.val).cause.setWidth 8 }).abortCmds
        p.val))
  ∧ (∀ (p : Fin 64) (s u : State), u = ((((s.abortQueues p.val).abortHeld p.val).abortTxns p.val).abortFwds p.val).dropHostReqs →
      (s.part p.val).abortAt.isSome = true → u.abortBusy p.val = true → exec (.abortComplete p) s = .next u)
  ∧ (∀ (e : Fin 262144) (s : State), (s.ext e.val).counter (!(s.ext e.val).phase) = 0 →
      (s.cmds.any fun c => c.waits.contains (.phase e.val (s.ext e.val).phase) || c.waits.contains (.phase e.val (!(s.ext e.val).phase))) = false →
    exec (.phaseDrainDone e) s = .next s.closeAll)
  ∧ (∀ (e : Fin 262144) (s : State), (s.ext e.val).state = 2 → (s.ext e.val).ctrA = 0 → (s.ext e.val).ctrB = 0 →
      (s.ext e.val).coherent = false → s.stew.commit = false →
    exec (.revokeDrainDone e) s = .next
      ((((((s.noteFor (.revoke e.val)).setExt e.val { s.ext e.val with state := 3, key := none, scrub := 0 }).tellMembers e.val).payOwed e.val).wake (.revoke e.val)).closeStep
        (s.ext e.val).owner.toNat))
  ∧ (∀ (c : Cid) (s : State), (s.ctx c.toNat).state = 3 → (s.ctx c.toNat).inflight = 0 →
      (∀ n ∈ s.tileList, ∀ k ∈ (s.tile n).slots, (s.job n k).cid ≠ c) →
    exec (.contextRetireDone c) s = .next
      ((((((s.noteFor (.ctxFree c.toNat)).setCtx c.toNat {}).modPart (cidPart c) fun x => { x with freedAt := tput 0 x.freedAt (c.toNat % 1024) (s.ftNs + 1) }).wake
        (.ctxFree c.toNat)).closeStep (cidPart c))))
  ∧ (∀ (p : Fin 64) (s : State), (s.part p.val).state = 3 → (s.part p.val).abortAt = none → s.ctxsOf p.val = [] → s.extsOf p.val 1 = [] →
      s.extsOf p.val 2 = [] → s.closeDrains p.val true = false →
      (∀ c ∈ s.group.calls, c.create = true ∨ (s.ext (c.xh.extractLsb' 0 18).toNat).owner.toNat ≠ p.val) →
    exec (.partitionFree p) s = .next
      (let u := (((s.noteFor (.partFree p.val)).elderClosed p.val).dropKeys p.val).endSession p.val 0 3
       (((u.each (u.extsOf p.val 3) fun s i => s.modExt i fun x => { x with left := true }).setPart p.val (s.part p.val).freed).each (List.range 4)
         fun s m => s.modMbox (4 + 4 * p.val + m) fun b => { mseq := b.mseq }).wake (.partFree p.val)))

/-! ### Faults (chapter 07) -/

/-- FAULT_RECORD_POST (R168, R490): with a place free in the queue of a partition, the oldest record waiting for it is posted: of the
overflow, then of a tile, which is unparked, then one held; PENDING_RECORD_TIMEOUT (R167) moves a record to the overflow list after 1 ms.
The choices of the model that it rests on: log entry 84. -/
def Obligations.FaultRecords : Prop :=
  (∀ (p : Fin 64) (r : FaultRec) (l : List FaultRec) (s : State), (s.part p.val).fq.length < 256 → s.discards p.val = false →
      (s.part p.val).overflow = r :: l →
    exec (.faultRecordPost p) s = .next ((s.setPart p.val { s.part p.val with overflow := l }).postFault p.val r))
  ∧ (∀ (p : Fin 64) (k : Nat × Nat) (n : Nat) (o : List (Nat × Nat)) (b : Nat × FaultRec) (s : State), (s.part p.val).fq.length < 256 →
      s.discards p.val = false → (s.part p.val).overflow = [] → s.pendOf p.val = (k.1, n) :: o → (s.tile n).pend = some b →
    exec (.faultRecordPost p) s = .next ((s.postFault p.val b.2).unpark n))
  ∧ (∀ (p : Fin 64) (r : FaultRec) (l : List FaultRec) (s : State), (s.part p.val).fq.length < 256 → s.discards p.val = false →
      (s.part p.val).overflow = [] → s.pendOf p.val = [] → (s.part p.val).held = r :: l →
    exec (.faultRecordPost p) s = .next ((s.setPart p.val { s.part p.val with held := l }).postFault p.val r))
  ∧ (∀ (p : Fin 64) (s : State), 256 ≤ (s.part p.val).fq.length → exec (.faultRecordPost p) s = .next s)
  ∧ (∀ (t : Fin 32) (k : Nat) (r : FaultRec) (s : State), (s.tile t.val).pend = some (k, r) → (s.tile t.val).pendAt + 1000000 ≤ s.now →
      s.stewardUp = true → (s.part (cidPart r.cid)).overflow.length < 1024 →
    exec (.pendingRecordTimeout t) s
      = .next (((s.modPart (cidPart r.cid) fun x => { x with overflow := x.overflow ++ [r] }).bump (tileBlk t.val) 7).unpark t.val))

/-! ### The fabric: routing, pairs and the limiter (chapters 11 and 12) -/

/-- Routing (R326, R334, R335, R336, R338, R339, R468): a bad header is discarded and counted, DRAIN drains its port, a packet that arrived is routed,
the oldest of this device's is sequenced, protected and routed while its half of the transit buffer has room, and what is held is offered again. A packet
of another EID, its slot in use and neither late nor re-stamped, goes to the first port of its entry's ORDER that XMASK allows, that is UP and
has room, counted as deflected past the productive ones; it is discarded without an entry, or at the hop limit, and held otherwise.
The choices of the model that it rests on: log entries 1, 14, 15, 38. -/
def Obligations.RoutingRows : Prop :=
  (∀ (d i : Fin 4) (p : Packet) (s : State), s.dieEn d.val = true → (s.die d.val).nextOn i p = true → badHeader p = true →
    exec (.routePacket d (some i) p) s = .next ((s.modDie d.val fun x => { x with arrived := x.arrived.erase (i, p) }).bump (dieBlk d.val) 0))
  ∧ (∀ (d i : Fin 4) (p : Packet) (s : State), s.dieEn d.val = true → (s.die d.val).nextOn i p = true → p.typ = 1 → p.dst ≠ hostEid →
    exec (.routePacket d (some i) p) s = .next ((s.modDie d.val fun x => { x with arrived := x.arrived.erase (i, p) }).drainIn d.val i.val))
  ∧ (∀ (d i : Fin 4) (p : Packet) (s : State), s.dieEn d.val = true → (s.die d.val).nextOn i p = true → p.typ = 0 → p.dst ≠ hostEid →
      p.dst ≠ 0xFFF → s.outranked d.val { pkt := p, inp := some i } = false →
    exec (.routePacket d (some i) p) s
      = .next ((s.modDie d.val fun x => { x with arrived := x.arrived.erase (i, p) }).routePkt d.val { pkt := p, inp := some i, at_ := s.now }))
  ∧ (∀ (d i : Fin 4) (p : Packet) (s : State), (s.die d.val).nextOn i p = false
      ∨ (p.typ = 0 ∧ p.dst ≠ hostEid ∧ p.dst ≠ 0xFFF ∧ s.outranked d.val { pkt := p, inp := some i } = true) →
    exec (.routePacket d (some i) p) s = .next s)
  ∧ (∀ (d : Fin 4) (p q : Packet) (s t u : State), s.dieEn d.val = true → (s.die d.val).nextOrig p = true →
      (s.die d.val).transitFlits true < 2048 → s.outranked d.val { pkt := { p with epoch := (s.die d.val).cur } } = false →
      (s.setDie d.val { s.die d.val with orig := (s.die d.val).orig.erase p }).sequence { p with epoch := (s.die d.val).cur } = some (q, u) →
      (u.protect q).2.routePkt d.val { pkt := (u.protect q).1, at_ := (u.protect q).2.now } = t →
    (s.overHeld t d.val (flitsOf p.len.toNat) = false → exec (.routePacket d none p) s = .next t)
    ∧ (s.overHeld t d.val (flitsOf p.len.toNat) = true → exec (.routePacket d none p) s = .next s))
  ∧ (∀ (d : Fin 4) (p : Packet) (s : State), (s.die d.val).nextOrig p = false ∨ 2048 ≤ (s.die d.val).transitFlits true
      ∨ s.outranked d.val { pkt := { p with epoch := (s.die d.val).cur } } = true →
    exec (.routePacket d none p) s = .next s)
  ∧ (∀ (d : Fin 4) (s : State), s.dieEn d.val = true →
    exec (.transitReevaluate d) s = .next (s.each (s.die d.val).transitOrder fun s t =>
      (s.modDie d.val fun x => { x with transit := x.transit.erase t }).routePkt d.val t))
  ∧ (∀ (d : Nat) (t : Transit) (s : State), t.pkt.dst ≠ s.node.eid → t.pkt.tc ≠ 7 → (s.die d).slotState t.pkt.epoch ≠ 0 →
      (s.die d).slotState t.pkt.epoch ≠ 3 →
    ((s.route d t.pkt.epoch t.pkt.dst).v = false → s.routePkt d t = s.discard d t.inp t.pkt 3)
    ∧ ((s.route d t.pkt.epoch t.pkt.dst).v = true → s.node.hopLimit.toNat ≤ t.pkt.hops.toNat → s.routePkt d t = s.discard d t.inp t.pkt 2)
    ∧ (∀ i, (s.route d t.pkt.epoch t.pkt.dst).v = true → t.pkt.hops.toNat < s.node.hopLimit.toNat →
        s.freePort d ((s.die d).xmask t.pkt.epoch) t.pkt (s.route d t.pkt.epoch t.pkt.dst).ports = some i →
      s.routePkt d t =
        (let u := s.queueOn (4 * d + i) t.pkt.tcn { t.pkt with hops := t.pkt.hops + 1 } t.demoted t.inp
         if ((s.route d t.pkt.epoch t.pkt.dst).ports.take (s.route d t.pkt.epoch t.pkt.dst).nprod.toNat).contains i then u
         else u.bump (dieBlk d) 1))
    ∧ ((s.route d t.pkt.epoch t.pkt.dst).v = true → t.pkt.hops.toNat < s.node.hopLimit.toNat →
        s.freePort d ((s.die d).xmask t.pkt.epoch) t.pkt (s.route d t.pkt.epoch t.pkt.dst).ports = none → t.inp ≠ none →
      s.routePkt d t = s.hold d t))

/-- Route flips and drains (R331, R332): at T_f every link die flips; RESTAMP_DELAY later what it holds carries CUR and DRAIN leaves on each UP
port; a DRAIN received, unless its DST is 0xFFE, or 10 ms without one, ends the old slot.
The choices of the model that it rests on: log entries 1, 4, 41. -/
def Obligations.FlipsAndDrains : Prop :=
  (∀ (tf : Nat) (s u : State), s.node.flip = some tf → (∀ d ∈ s.dieList, tf ≤ s.dieNs d) →
      u = ({ s with node := { s.node with flip := none } }).each s.dieList (fun s d => s.modDie d fun x => x.flip tf) →
    exec .routeFlipAtTf s = .next { u with sched := { u.sched with withdrawn := u.xmasked } })
  ∧ (∀ (tf d : Nat) (s : State), s.node.flip = some tf → d ∈ s.dieList → s.dieNs d < tf → exec .routeFlipAtTf s = .next s)
  ∧ (∀ (x : Die) (tf : Nat), x.s1 = 1 →
    x.flip tf = { x with cur := true, s0 := if x.s0 = 2 then 3 else x.s0, s1 := 2, drained := 0, flipAt := tf, restamped := false
                         transit := x.transit.map fun t => if t.inp = none then { t with pkt := { t.pkt with epoch := true } } else t })
  ∧ (∀ (x : Die) (tf : Nat), x.s1 ≠ 1 → x.s0 = 1 →
    x.flip tf = { x with cur := false, s0 := 2, s1 := if x.s1 = 2 then 3 else x.s1, drained := 0, flipAt := tf, restamped := false
                         transit := x.transit.map fun t => if t.inp = none then { t with pkt := { t.pkt with epoch := false } } else t })
  ∧ (∀ (d : Fin 4) (s : State), (s.die d.val).flipAt ≠ 0 → (s.die d.val).restamped = false →
      (s.die d.val).flipAt + s.node.restampDelay.toNat * 1000 ≤ s.dieNs d.val →
    exec (.restamp d) s = .next ((s.modDie d.val Die.stamp).each [0, 1, 2, 3] fun u i => u.modPort (4 * d.val + i) fun y =>
      let z := y.stamp (u.die d.val).cur
      if y.state = 3 then z.setQueue 8 (y.queue 8 ++ [{ pkt := { dst := 0xFFF, src := u.node.eid, typ := 1, len := 0, tc := 6 }, at_ := u.now }])
      else z))
  ∧ (∀ (d p : Fin 4) (s : State), (∀ e ∈ (s.die d.val).arrived, e.1 ≠ p) → exec (.drain d p) s = .next s)
  ∧ (∀ (d p : Fin 4) (e : Fin 4 × Packet) (s : State), s.dieEn d.val = true → (s.die d.val).arrived.find? (fun e => e.1 = p) = some e →
      e.2.typ = 1 → e.2.dst = hostEid →
    exec (.drain d p) s
      = .next ((s.modDie d.val fun x => { x with arrived := x.arrived.erase e }).bump (dieBlk d.val) 0))
  ∧ (∀ (d p : Fin 4) (e : Fin 4 × Packet) (s : State), s.dieEn d.val = true → (s.die d.val).arrived.find? (fun e => e.1 = p) = some e →
      e.2.typ = 1 → e.2.dst ≠ hostEid →
    exec (.drain d p) s
      = .next (((s.modDie d.val fun x => { x with arrived := x.arrived.erase e }).modDie d.val fun x =>
          { x with drained := x.drained ||| BitVec.ofNat 4 (1 <<< p.val) }).drainCheck d.val))
  ∧ ∀ (d : Fin 4) (s : State), (s.die d.val).s0 = 3 ∨ (s.die d.val).s1 = 3 → (s.die d.val).flipAt + 10000000 ≤ s.dieNs d.val →
    exec (.drainTimeout d) s = .next
      ((((s.setDie d.val { s.die d.val with
            drained := 15, s0 := if (s.die d.val).s0 = 3 then 0 else (s.die d.val).s0, s1 := if (s.die d.val).s1 = 3 then 0 else (s.die d.val).s1
          }).bumpBy (dieBlk d.val + 8 + 8 * 7) (([0, 1, 2, 3].filter fun i => (~~~(s.die d.val).drained).getLsbD i).length)).logErr
        (errRec 0x11 0 none (0x5000 + d.val) (~~~(s.die d.val).drained).toNat)).stewEvent { kind := 7, obj := BitVec.ofNat 32 d.val, cause := 2 })

/-- Pairs, limiter and originated requests (R7, R61, R282, R313, R344, R345, R470): a gap that lasts breaks its pair; a break notice ends the open requests at
or past its PSEQ; the first completion of a request ends it at its unit, one that fails its session being discarded, or TIMEOUT after four pair timeouts; the limiter releases what it
holds of an EID while its tokens allow. The choices of the model that it rests on: log entries 1, 14, 15, 20, 42. -/
def Obligations.PairsAndLimiter : Prop :=
  (∀ (e : Eid) (t : Nat) (s : State), (s.pairRx (pairIdx e false)).timer = some t → t + s.pt ≤ s.now →
    exec (.pairGapTimeout e false) s = .next ((s.bump devBlk 1).breakReq e))
  ∧ (∀ (e : Eid) (t : Nat) (s : State), (s.pairRx (pairIdx e true)).timer = some t → t + s.pt ≤ s.now →
    exec (.pairGapTimeout e true) s = .next ((s.bump devBlk 1).breakRsp e))
  ∧ (∀ (p : Packet) (s : State), s.turn p = true → p.brk = true →
      (∀ o ∈ s.origs, o.sent = false ∨ o.kind = .delta ∨ o.pkt.dst ≠ p.src ∨ seqDiff o.pkt.pseq p.pseq < 0) →
    exec (.breakNotice p) s
      = .next ((s.take p).2.modPairTx (pairIdx p.src false) fun x => { x with started := false, openNone := [] }))
  ∧ (∀ (p : Packet) (s : State), s.turn p = true → p.brk = true → ∃ t : State, exec (.breakNotice p) s = .next t
      ∧ ∀ o ∈ t.origs, o ∈ s.origs ∧ (o.sent = false ∨ o.kind = .delta ∨ o.pkt.dst ≠ p.src ∨ seqDiff o.pkt.pseq p.pseq < 0))
  ∧ (∀ (p : Packet) (s : State), s.turn p = false → exec (.breakNotice p) s = .next s ∧ exec (.originatedCompletion p) s = .next s)
  ∧ (∀ (p : Packet) (o : OrigReq) (s : State), s.turn p = true → p.brk = false → s.origs.find? (·.rtag = p.rtag) = some o →
      ((s.take p).2.sessionIn p).2 = true →
    (o.kind = .sched →
      exec (.originatedCompletion p) s = .next (({ ((s.take p).2.sessionIn p).1 with
          origs := ((s.take p).2.sessionIn p).1.origs.filter (·.rtag ≠ p.rtag) }).schedDone o.tile
        { id := o.id, status := readStatus p.stat, backoff := p.ctl, data := p.data, at_ := ((s.take p).2.sessionIn p).1.now }).forwarded)
    ∧ (o.kind ≠ .sched →
      exec (.originatedCompletion p) s = .next ({ ((s.take p).2.sessionIn p).1 with
        origs := ((s.take p).2.sessionIn p).1.origs.filter (·.rtag ≠ p.rtag)
        fwds := ((s.take p).2.sessionIn p).1.fwds.map fun (w : FwdWait) => w.ended p.rtag (readStatus p.stat) p.ctl p.data p.opnd.toNat
          ((s.take p).2.sessionIn p).1.now }).forwarded))
  ∧ (∀ (p : Packet) (s : State), s.turn p = true → p.brk = false → s.origs.find? (·.rtag = p.rtag) = none →
      ((s.take p).2.sessionIn p).2 = true →
    exec (.originatedCompletion p) s = .next ((s.take p).2.sessionIn p).1.forwarded)
  ∧ (∀ st : Status, (st.toNat ≤ 11 → readStatus st = st) ∧ (11 < st.toNat → readStatus st = stUncorrectable))
  ∧ (∀ (r : BitVec 32) (o : OrigReq) (s : State), s.origs.find? (·.rtag = r) = some o → o.sent = true → o.sentAt + 4 * s.pt ≤ s.now →
    (o.kind = .sched →
      exec (.requestTimeout r) s = .next (({ s with origs := s.origs.filter (·.rtag ≠ r) }).schedDone o.tile
        { id := o.id, status := stTimeout, backoff := 0, data := 0, at_ := s.now }).forwarded)
    ∧ (o.kind ≠ .sched →
      exec (.requestTimeout r) s = .next ({ s with
        origs := s.origs.filter (·.rtag ≠ r), fwds := s.fwds.map fun (w : FwdWait) => w.ended r stTimeout 0 0 0 s.now }).forwarded))
  ∧ (∀ (r : BitVec 32) (o : OrigReq) (s : State), s.origs.find? (·.rtag = r) = some o → o.sent = false →
    exec (.requestTimeout r) s = .next s)
  ∧ (∀ (e : Eid) (s : State), s.limHeld.find? (·.pkt.src = e) = none → exec (.limiterRelease e) s = .next s)
  ∧ ∀ (e : Eid) (h : Held) (s : State), s.limHeld.find? (·.pkt.src = e) = some h → (s.limit e.toNat).rate ≠ 0 →
      0 ≤ ((s.limit e.toNat).refill s.hubNs).tokens →
    exec (.limiterRelease e) s
      = .next ((({ s.setLimit e.toNat { (s.limit e.toNat).refill s.hubNs with
            tokens := ((s.limit e.toNat).refill s.hubNs).tokens - limCharge h.pkt } with limHeld := s.limHeld.erase h }).handOn
          { h with lim := 2 }).limiterGo e (s.limHeld.length - 1))
  ∧ (∀ (p : Packet) (s : State), s.turn p = true → p.brk = false → ((s.take p).2.sessionIn p).2 = false →
    exec (.originatedCompletion p) s = .next ((s.take p).2.sessionIn p).1)

/-! ### Memory requests and the directory (chapters 03, 04 and 09) -/

/-- The opcode that a memory row serves (R111), and its packet. -/
def Sys2Proof.Instr.memReq : Instr → Option (Byte × Packet)
  | .rdOnce p => some (oRdOnce, p)
  | .rdShared p => some (oRdShared, p)
  | .rdOwn p => some (oRdOwn, p)
  | .upgrade p => some (oUpgrade, p)
  | .wrLine p => some (oWrLine, p)
  | .wrPartial p => some (oWrPartial, p)
  | .atomic p => some (oAtomic, p)
  | .wbDirty p => some (oWbDirty, p)
  | .evictClean p => some (oEvictClean, p)
  | .lineReclaim p => some (oReclaim, p)
  | _ => none

/-- The state after R470's account of a request of an open confidential partition from an allowed EID, and the request unchanged otherwise. -/
def Sys2Proof.Machine.State.checkedProt (s : State) (p : Packet) : State :=
  if (s.part (cidPart p.cid)).conf && (s.part (cidPart p.cid)).state = 2 && (s.ctx p.cid.toNat).state = 2
    && eidFits p.src (s.ctx p.cid.toNat).eidMatch (s.ctx p.cid.toNat).eidMask then s.noteProt (cidPart p.cid) p else s

/-- The memory requests (R46, R116, R126, R136, R223, R279): held while the home arbiter has no entry or an earlier request of the pair is held;
answered with the first check of R46 that fails; else entered, and served by the combine unit, the directory or the DRAM. The checks in their
order: the partition, the context, the entry, its owner or a consenting member, the rights, the size, the serving member, the form; a request of a
mirror or parity member is checked for its partition, its entry, its size and its form alone, and without a majority a protected extent is RETRY.
The choices of the model that it rests on: log entries 14, 15, 18, 19, 27. -/
def Obligations.MemoryRows : Prop :=
  (∀ (c : Instr) (o : Byte) (p : Packet) (s : State), c.memReq = some (o, p) → p.opc = o → s.filtered p.src = false →
      s.turn p = true →
    let h := (s.take p).1
    let u := (s.take p).2
    (u.mustHold h = true →
      exec c s = .next ({ u with admHeld := u.admHeld ++ [h] }.bump (stackBlk (u.stallAt (u.reqOf h))) 9))
    ∧ (∀ st, u.mustHold h = false → u.msCheck p (some p.src) true = some st →
      exec c s = .next (((u.checkedProt p).dropResv (u.reqOf h)).deliver (u.reqOf h) st 0 0 (if st = stRetry then 15 else 0) false))
    ∧ (u.mustHold h = false → u.msCheck p (some p.src) true = none →
      let v := ((u.checkedProt p).enter (u.reqOf h)).2
      let r := ((u.checkedProt p).enter (u.reqOf h)).1
      ((u.ext (pktExt p)).combine = true → exec c s = .next (v.combine r))
      ∧ ((u.ext (pktExt p)).combine = false → (u.ext (pktExt p)).coherent = true → exec c s = .next (v.dirRequest r))
      ∧ ((u.ext (pktExt p)).combine = false → (u.ext (pktExt p)).coherent = false →
        exec c s = .next (v.toDram { r with act := (directAct p).1, cost := (directAct p).2 }))))
  ∧ (∀ (p : Packet) (i : Eid) (b : Bool) (s : State),
    let x := s.part (cidPart p.cid)
    let c := s.ctx p.cid.toNat
    let e := s.ext (p.xh.extractLsb' 0 18).toNat
    let inside := p.offset.toNat + p.accLen ≤ e.size.toNat * 2 ^ 21 ∧ p.offset.toNat % 128 + p.accLen ≤ 128
    (s.fromPeer p e = false →
      (x.state = 4 → s.msCheck p (some i) b = some stAborted)
      ∧ (x.state ≠ 4 → x.state ≠ 2 → s.msCheck p (some i) b = some stDenied)
      ∧ (x.state = 2 →
        (c.state ≠ 2 ∨ eidFits i c.eidMatch c.eidMask = false ∨ (x.conf = true ∧ b = true ∧ s.protOk (cidPart p.cid) p = false) →
          s.msCheck p (some i) b = some stDenied)
        ∧ (c.state = 2 → eidFits i c.eidMatch c.eidMask = true → (x.conf = true → b = true → s.protOk (cidPart p.cid) p = true) →
          (e.state ≠ 1 ∨ e.gen ≠ p.xh.extractLsb' 18 6 → s.msCheck p (some i) b = some stRevoked)
          ∧ (e.state = 1 → e.gen = p.xh.extractLsb' 18 6 →
            (s.rightsOf e (cidPart p.cid) c.cls.toNat = none → s.msCheck p (some i) b = some stDenied)
            ∧ ∀ r, s.rightsOf e (cidPart p.cid) c.cls.toNat = some r →
              (r &&& p.needs ≠ p.needs → s.msCheck p (some i) b = some stDenied)
              ∧ (r &&& p.needs = p.needs →
                (¬ inside → s.msCheck p (some i) b = some stDenied)
                ∧ (inside →
                  (e.mirror = true ∨ e.parity = true → s.serves e p.offset.toNat = false → s.msCheck p (some i) b = some stDenied)
                  ∧ (e.mirror = true ∨ e.parity = true → s.serves e p.offset.toNat = true → s.majority = false →
                    s.msCheck p (some i) b = some stRetry)
                  ∧ ((e.mirror = true ∨ e.parity = true → s.serves e p.offset.toNat = true ∧ s.majority = true) →
                    (p.formOk e.coherent = false → s.msCheck p (some i) b = some stDenied)
                    ∧ (p.formOk e.coherent = true → s.msCheck p (some i) b = none))))))))
    ∧ (s.fromPeer p e = true →
      (x.state = 4 → s.msCheck p (some i) b = some stAborted)
      ∧ (x.state ≠ 4 → e.state ≠ 1 ∨ e.gen ≠ p.xh.extractLsb' 18 6 → s.msCheck p (some i) b = some stRevoked)
      ∧ (x.state ≠ 4 → e.state = 1 → e.gen = p.xh.extractLsb' 18 6 →
        (¬ inside ∨ p.formOk false = false → s.msCheck p (some i) b = some stDenied)
        ∧ (inside → p.formOk false = true → s.msCheck p (some i) b = none))))

/-- What the directory does with a request (R110, R115, R116, R118, R119, R124, R134, R136) on a line with no open transaction and no reservation: on a
line in I a writeback is denied, an eviction of a clean line is OK, and what grants no copy goes to the DRAM; a request for a copy opens a grant in
the first FREE way of its set and the first free transaction, which waits for the line's data; with no transaction free, RETRY; a requester that is
no agent is denied. On a line in S, E or M each event of R116 acts as its row says: a read is shared or served, an invalidating request snoops the
holders that are left, the owner's WB_DIRTY and EVICT_CLEAN free the entry, and anything else from the owner is served as on I. An answer counts once;
with WB_PENDING it waits for the owner's WB_DIRTY; data that it brings is written before anything else; the last answer ends the wait.
The choices of the model that it rests on: log entry 30. -/
def Obligations.DirectoryRequests : Prop :=
  (∀ (r : Req) (s : State), isCaching r.pkt.opc = false → (r.pkt.opc = oAtomic → s.isAgent r.pkt.src = false) →
      (s.slice (lineQuad r.line)).scanning = false → (∀ v ∈ (s.slice (lineQuad r.line)).resv, v.line ≠ r.line) → r.atReq = false →
    ((s.slice (lineQuad r.line)).find r.line = none →
      (r.pkt.opc = oWbDirty → s.dirRequest r = s.finish r stDenied)
      ∧ (r.pkt.opc = oEvictClean → s.dirRequest r = s.finish r stOk)
      ∧ (r.pkt.opc = oReclaim → s.dirRequest r = s.toDram { r with act := .reclaim, cost := 256 })
      ∧ (r.pkt.opc = oRdOnce ∨ r.pkt.opc = oWrLine ∨ r.pkt.opc = oWrPartial ∨ r.pkt.opc = oAtomic →
        s.dirRequest r = s.toDram { r with act := (directAct r.pkt).1, cost := (directAct r.pkt).2 }))
    ∧ ∀ w, (s.slice (lineQuad r.line)).find r.line = some w → ((s.slice (lineQuad r.line)).way w).opn = false →
        ((s.slice (lineQuad r.line)).way w).state = 2 ∨ ((s.slice (lineQuad r.line)).way w).state = 3 →
      (r.pkt.opc = oWbDirty → ((s.slice (lineQuad r.line)).way w).owner = r.pkt.src →
        s.dirRequest r = ((s.freeWay (lineQuad r.line) w).toDram { r with act := .write r.pkt.data, cost := 128 }))
      ∧ (r.pkt.opc = oWbDirty → ((s.slice (lineQuad r.line)).way w).owner ≠ r.pkt.src → s.dirRequest r = s.finish r stDenied)
      ∧ (r.pkt.opc = oEvictClean → ((s.slice (lineQuad r.line)).way w).owner = r.pkt.src →
        s.dirRequest r = (s.freeWay (lineQuad r.line) w).finish r stOk))
  ∧ (∀ (r : Req) (s : State), isCaching r.pkt.opc = true → r.atReq = false →
    (s.isAgent r.pkt.src = false → s.dirRequest r = s.finish r stDenied)
    ∧ (s.isAgent r.pkt.src = true → (s.slice (lineQuad r.line)).scanning = false → (s.slice (lineQuad r.line)).find r.line = none →
        (∀ v ∈ (s.slice (lineQuad r.line)).resv, v.line ≠ r.line) →
      ((s.slice (lineQuad r.line)).freeTxn = none → s.dirRequest r = s.dirNack (lineQuad r.line) r 4)
      ∧ ∀ t i, (s.slice (lineQuad r.line)).freeTxn = some t →
          (List.range 16).find? (fun i => ((s.slice (lineQuad r.line)).way (setOf r.line * 16 + i)).state = 0
            && !((s.slice (lineQuad r.line)).way (setOf r.line * 16 + i)).opn) = some i →
        s.dirRequest r =
          ((s.setWay (lineQuad r.line) (setOf r.line * 16 + i) { tag := tagOf r.line, sharers := slotsWord [r.pkt.src] }).openTxn
              (lineQuad r.line) t (setOf r.line * 16 + i)
            { kind := .fetch, eid := r.pkt.src, cid := r.pkt.cid, req := r, next := if r.pkt.opc = oRdShared then 2 else 3
              opc := r.pkt.opc }).toDram { r with act := .read, cost := 128, txn := some (lineQuad r.line, t) }))
  ∧ (∀ (r : Req) (s : State), (isCaching r.pkt.opc = true → s.isAgent r.pkt.src = true) → r.atReq = false →
      (s.slice (lineQuad r.line)).scanning = false → (∀ v ∈ (s.slice (lineQuad r.line)).resv, v.line ≠ r.line) →
      (∀ w, (s.slice (lineQuad r.line)).find r.line = some w → ((s.slice (lineQuad r.line)).way w).opn = false) →
    let q := lineQuad r.line
    (r.org ≠ .fab ∨ r.pkt.opc ≠ oAtomic ∨ s.isAgent r.pkt.src = false →
      (∀ u, s.serve q r = .ok u → s.dirRequest r = u) ∧ (∀ bo, s.serve q r = .error bo → s.dirRequest r = s.dirNack q r bo))
    ∧ (r.org = .fab → r.pkt.opc = oAtomic → s.isAgent r.pkt.src = true →
      (∀ u, (s.predict q r).2.serve q { r with atReq := (s.predict q r).1 } = .ok u → s.dirRequest r = u)
      ∧ (∀ bo, (s.predict q r).2.serve q { r with atReq := (s.predict q r).1 } = .error bo →
        s.dirRequest r = (s.predict q r).2.dirNack q { r with atReq := (s.predict q r).1 } bo)))
  ∧ (∀ (r : Req) (s : State) (q w : Nat), (s.slice q).find r.line = some w → r.pkt.opc ≠ oAtomic → r.atReq = false →
    let x := s.slice q
    let e := x.way w
    (e.state = 1 →
      (r.pkt.opc = oWbDirty → s.serve q r = .ok (s.finish r stDenied))
      ∧ (r.pkt.opc = oReclaim → s.serve q r = .ok (s.finish r stOk))
      ∧ (r.pkt.opc = oEvictClean → e.fmt = true → s.serve q r = .ok (s.finish r stOk))
      ∧ (r.pkt.opc = oEvictClean → e.fmt = false → s.serve q r = .ok
          ((s.setWay q w (if (e.drop r.pkt.src).sharers = noSharers then {} else e.drop r.pkt.src)).finish r stOk))
      ∧ (r.pkt.opc = oRdOnce → s.serve q r = .ok (s.toDram { r with act := .read, cost := 128 }))
      ∧ (r.pkt.opc = oRdShared → x.freeTxn = none → s.serve q r = .error 4)
      ∧ (∀ t, r.pkt.opc = oRdShared → x.freeTxn = some t → s.serve q r = .ok
          ((s.openTxn q t w { kind := .fetch, eid := r.pkt.src, cid := r.pkt.cid, req := r, next := 1, opc := r.pkt.opc }).toDram
            { r with act := .read, cost := 128, txn := some (q, t) })))
    ∧ (e.state = 2 ∨ e.state = 3 → e.owner ≠ r.pkt.src →
      (r.pkt.opc = oWbDirty → s.serve q r = .ok (s.finish r stDenied))
      ∧ (r.pkt.opc = oReclaim ∨ r.pkt.opc = oEvictClean → s.serve q r = .ok (s.finish r stOk))
      ∧ (r.pkt.opc = oRdShared ∨ r.pkt.opc = oRdOnce → x.freeTxn = none → s.serve q r = .error 4)
      ∧ (∀ t, r.pkt.opc = oRdShared ∨ r.pkt.opc = oRdOnce → x.freeTxn = some t → s.gone e.owner = true →
          s.serve q r = .ok (s.finish r stHostLost))
      ∧ (∀ t, r.pkt.opc = oRdShared ∨ r.pkt.opc = oRdOnce → x.freeTxn = some t → s.gone e.owner = false → s.serve q r = .ok
          ((s.openTxn q t w { kind := .shareWait, eid := r.pkt.src, cid := r.pkt.cid, req := r, await := [e.owner]
                              opc := oSnpShare, next := 1 }).snoop q t oSnpShare r.line (some r) r.pkt.cid r.pkt.tc [e.owner])))
    ∧ (e.state = 4 →
      (r.pkt.opc = oWrLine ∨ r.pkt.opc = oReclaim → s.serve q r = .error 5)
      ∧ (r.pkt.opc = oWbDirty → s.serve q r = .ok (s.finish r stDenied))
      ∧ (r.pkt.opc = oEvictClean → s.serve q r = .ok (s.finish r stOk))
      ∧ (r.pkt.opc = oRdOnce ∨ r.pkt.opc = oRdShared ∨ r.pkt.opc = oRdOwn ∨ r.pkt.opc = oUpgrade ∨ r.pkt.opc = oWrPartial →
          s.serve q r = .ok (s.finish r stHostLost))))
  ∧ (∀ (r : Req) (s : State) (q w : Nat), (s.slice q).find r.line = some w → ((s.slice q).way w).state = 2 ∨ ((s.slice q).way w).state = 3 →
      ((s.slice q).way w).owner = r.pkt.src → r.pkt.opc ≠ oWbDirty → r.pkt.opc ≠ oEvictClean →
    s.serve q r = (s.freeWay q w).serveI q r)
  ∧ (∀ (r : Req) (s : State) (q w : Nat), (s.slice q).find r.line = some w →
      r.pkt.opc = oRdOwn ∨ r.pkt.opc = oUpgrade ∨ r.pkt.opc = oWrLine ∨ r.pkt.opc = oWrPartial ∨ r.pkt.opc = oAtomic →
      ((s.slice q).way w).state = 1 ∨ (((s.slice q).way w).state = 2 ∨ ((s.slice q).way w).state = 3) ∧ ((s.slice q).way w).owner ≠ r.pkt.src →
    let x := s.slice q
    let e := x.way w
    let targets := (s.holders e).filter fun h => !(r.grants && h == r.pkt.src)
    let live := targets.filter fun h => !s.gone h
    (x.freeTxn = none → live ≠ [] ∨ r.grants = true → s.serve q r = .error 4)
    ∧ (x.freeTxn = none → live = [] → r.grants = false → s.serve q r = .ok ((s.freeWay q w).direct r))
    ∧ (∀ t, x.freeTxn = some t → live ≠ [] → s.serve q r = .ok
        ((s.openTxn q t w { kind := .invWait, eid := r.pkt.src, cid := r.pkt.cid, req := r, await := live, opc := oSnpInv
                            next := 3 }).snoop q t oSnpInv r.line (some r) r.pkt.cid r.pkt.tc live))
    ∧ (∀ t, x.freeTxn = some t → targets = [] → r.pkt.opc = oUpgrade → e.fmt = false → r.pkt.src ∈ e.slots → s.serve q r = .ok
        ((s.openTxn q t w { kind := .grantWait, eid := r.pkt.src, cid := r.pkt.cid, req := r, opc := r.pkt.opc }).grant q t r 3 true 0))
    ∧ (∀ t, x.freeTxn = some t → live = [] → r.pkt.opc ≠ oUpgrade ∨ e.fmt = true ∨ r.pkt.src ∉ e.slots ∨ targets ≠ [] →
        s.serve q r = .ok (s.invalidated q t w r)))
  ∧ (∀ (r : Req) (s : State) (q t w : Nat),
    (r.grants = false → s.invalidated q t w r = (((s.dropTxn q t).freeWay q w).direct r).sweep q)
    ∧ (r.grants = true → ((s.slice q).way w).mayHold r.pkt.src = true → s.invalidated q t w r
        = (s.setWay q w { ((s.slice q).way w).only r.pkt.src with state := 1 }).fetch q t w r 3)
    ∧ (r.grants = true → ((s.slice q).way w).mayHold r.pkt.src = false → s.invalidated q t w r
        = (s.setWay q w { ((s.slice q).way w) with state := 0, fmt := false, sharers := slotsWord [r.pkt.src] }).fetch q t w r 3))
  ∧ (∀ (p : Packet) (d : Option Line) (s : State),
    let q := tagSlice p.tag
    let t := tagTxn p.tag
    let v := (s.slice q).txn t
    let e := (s.slice q).way v.way
    (p.src ∉ v.await ∨ p.src ∈ v.wbWait → s.snoopAnswer p d = s)
    ∧ (p.src ∈ v.await → p.src ∉ v.wbWait →
      (p.wbPending = true → d = none → v.owner e = some p.src → p.src ∉ v.wbDone →
        s.snoopAnswer p d = s.setTxn q t { v with wbWait := p.src :: v.wbWait })
      ∧ (p.wbPending = false ∨ d ≠ none ∨ v.owner e ≠ some p.src ∨ p.src ∈ v.wbDone →
        ∃ u : State, s.snoopAnswer p d
            = (u.modSlice q fun x => { x with txns := tmod {} x.txns t fun v => { v with await := v.await.filter (· ≠ p.src) } }).settleTxn q t
          ∧ (d = none ∨ v.discard = true → u = s)
          ∧ ∀ l, d = some l → v.discard = false → u = s.writeBack v.line v.cid l)))
  ∧ (∀ (s : State) (q t : Nat),
    let v := (s.slice q).txn t
    let e := (s.slice q).way v.way
    let e' : DirEntry := { e with state := 1, fmt := false, sharers := slotsWord [e.owner] }
    (v.await ≠ [] → s.settleTxn q t = s)
    ∧ (v.await = [] → v.kind = .shareWait →
      (v.aborted = true → s.settleTxn q t = (s.settle q t v.way e').sweep q)
      ∧ (v.aborted = false → v.req.pkt.opc = oRdShared → s.settleTxn q t
          = ((s.dropTxn q t).setWay q v.way { e' with state := e.state, opn := false }).fetch q t v.way v.req 1)
      ∧ (v.aborted = false → v.req.pkt.opc ≠ oRdShared → s.settleTxn q t = ((s.settle q t v.way e').direct v.req).sweep q))
    ∧ (v.await = [] → v.kind = .invWait →
      (v.after = true → s.settleTxn q t = ((s.dropTxn q t).freeWay q v.way).sweep q)
      ∧ (v.after = false → v.aborted = false → s.settleTxn q t = s.invalidated q t v.way v.req)
      ∧ (v.after = false → v.aborted = true → (v.req.grants = false ∨ e.mayHold v.req.pkt.src = false) →
          s.settleTxn q t = (s.settle q t v.way {}).sweep q)
      ∧ (v.after = false → v.aborted = true → v.req.grants = true → e.mayHold v.req.pkt.src = true →
          s.settleTxn q t = (s.settle q t v.way (e.only v.req.pkt.src)).sweep q))
    ∧ (v.await = [] → v.kind = .evictWait →
      (v.parked = none → s.settleTxn q t = ((s.dropTxn q t).freeWay q v.way).sweep q)
      ∧ ∀ r, v.parked = some r → s.settleTxn q t = (((s.dropTxn q t).freeWay q v.way).serveParked q r).sweep q))

/-- The other rows of the memory stage and the directory (R98, R110, R116, R123, R133, R279, R470): Elder requests, held requests that go on, answers
and the check of their session, and what ends in its own time.
The choices of the model that it rests on: log entries 1, 14, 20, 30, 33. -/
def Obligations.DirectoryRows : Prop :=
  (∀ (p : Packet) (s : State), s.filtered p.src = true → p.vc = false → s.turn p = true → isMemOpc p.opc = true →
      (s.take p).2.mustHold (s.take p).1 = false →
    exec (.elderRequest p) s = .next ((s.take p).2.elderIn (s.take p).1))
  ∧ (∀ (p : Packet) (s : State), s.filtered p.src = true → p.vc = false → s.turn p = true → isMemOpc p.opc = false →
    ((s.take p).2.pairHeld p.src = true → exec (.elderRequest p) s
      = .next { (s.take p).2 with admHeld := (s.take p).2.admHeld ++ [(s.take p).1] })
    ∧ ((s.take p).2.pairHeld p.src = false →
      exec (.elderRequest p) s = .next ((s.take p).2.deliver ((s.take p).2.elderReq (s.take p).1) stLegacy 0 0 0 false)))
  ∧ (∀ (n : Fin 8) (s : State), s.stackEn n.val = true → s.admHeld = [] → (s.stack n.val).wait = [] →
    exec (.admitEntryResume n) s = .next s)
  ∧ (∀ (n : Fin 8) (h : Held) (l : List Held) (s : State), s.stackEn n.val = true → (s.stack n.val).wait = [] →
      s.admHeld = h :: l → s.pairWaits h.pkt.src = false →
      h.pkt.isCtl = true ∨ isRowRequest h.pkt.opc = false ∨ s.roomFor (s.reqOf h) = true →
    exec (.admitEntryResume n) s = .next (({ s with admHeld := l }.memGo h).admGo l))
  ∧ (∀ (n : Fin 8) (r : Req) (l : List Req) (s : State), s.stackEn n.val = true → (s.stack n.val).wait = r :: l →
      (s.stack n.val).room r.flow = true →
    exec (.admitEntryResume n) s = .next
      (let u := ((s.setStack n.val { s.stack n.val with wait := l }).joinFlow n.val r).refill n.val l
       u.admGo u.admHeld))
  ∧ (∀ (p : Packet) (s : State), s.turn p = true → p.opc = oSnpAck → ((s.take p).2.sessionIn p).2 = true →
    exec (.snpAck p) s = .next (((s.take p).2.sessionIn p).1.snoopAnswer p none))
  ∧ (∀ (p : Packet) (s : State), s.turn p = true → p.opc = oSnpAckData → ((s.take p).2.sessionIn p).2 = true →
    exec (.snpAckData p) s = .next (((s.take p).2.sessionIn p).1.snoopAnswer p (some p.data)))
  ∧ (∀ (p : Packet) (s : State), s.turn p = true → p.opc = oGrantAck → ((s.take p).2.sessionIn p).2 = true →
      ((((s.take p).2.sessionIn p).1.slice (tagSlice p.tag)).txn (tagTxn p.tag)).kind = .grantWait →
      ((((s.take p).2.sessionIn p).1.slice (tagSlice p.tag)).txn (tagTxn p.tag)).eid = p.src →
    exec (.grantAck p) s = .next
      (let u := ((s.take p).2.sessionIn p).1
       let q := tagSlice p.tag
       let v := (u.slice q).txn (tagTxn p.tag)
       (u.settle q (tagTxn p.tag) v.way { (u.slice q).way v.way with state := v.next }).sweep q))
  ∧ (∀ (p : Packet) (s : State), s.turn p = true → p.opc = oGrantAck → ((s.take p).2.sessionIn p).2 = true →
      ((((s.take p).2.sessionIn p).1.slice (tagSlice p.tag)).txn (tagTxn p.tag)).kind ≠ .grantWait
        ∨ ((((s.take p).2.sessionIn p).1.slice (tagSlice p.tag)).txn (tagTxn p.tag)).eid ≠ p.src →
    exec (.grantAck p) s = .next ((s.take p).2.sessionIn p).1)
  ∧ (∀ (q : Fin 4) (t : Fin 1024) (s : State), ((s.slice q.val).txn t.val).since + s.pt ≤ s.now → s.qor.retrainAt = none →
      ((s.slice q.val).txn t.val).kind = .grantWait →
    exec (.transactionPairTimeout q t) s = .next
      (let v := (s.slice q.val).txn t.val
       (s.setTxn q.val t.val { v with kind := .invWait, after := true, await := [v.eid], opc := oSnpInv, since := s.now }).snoop
         q.val t.val oSnpInv v.line (some v.req) v.cid v.req.pkt.tc [v.eid]))
  ∧ (∀ (q : Fin 4) (t : Fin 1024) (s : State), ((s.slice q.val).txn t.val).since + s.pt ≤ s.now → s.qor.retrainAt = none →
      ((s.slice q.val).txn t.val).kind = .shareWait ∨ ((s.slice q.val).txn t.val).kind = .invWait
        ∨ ((s.slice q.val).txn t.val).kind = .evictWait →
    exec (.transactionPairTimeout q t) s = .next
      (let v := (s.slice q.val).txn t.val
       ((s.each v.await fun s e => s.logSilent q.val v.opc v.line e).setTxn q.val t.val { v with await := [], wbWait := [] }).settleTxn
         q.val t.val))
  ∧ (∀ (q : Fin 4) (l : Nat) (v : Resv) (s : State), (s.slice q.val).resv.find? (·.line = l) = some v → v.since + 50000 ≤ s.now →
    exec (.reservationExpire q l) s
      = .next ((s.modSlice q.val fun x => { x with resv := resvDrop x.resv s.now (· = v) }).bump (sliceBlk q.val) 2))
  ∧ ∀ (q o : Fin 4) (s : State), (s.slice q.val).scanning = true → (s.slice o.val).scanning = true → o ≠ q →
    exec (.orphanScanDone q) s = .next
      (((s.each ((s.slice q.val).ways.map (·.1)) fun s w => s.scanWay q.val w).modSlice q.val fun x =>
        { x with scanning := false }).sweepsDone)
  ∧ (∀ (p : Packet) (s : State), s.turn p = true → p.opc = oSnpAck → ((s.take p).2.sessionIn p).2 = false →
    exec (.snpAck p) s = .next ((s.take p).2.sessionIn p).1)
  ∧ (∀ (p : Packet) (s : State), s.turn p = true → p.opc = oSnpAckData → ((s.take p).2.sessionIn p).2 = false →
    exec (.snpAckData p) s = .next ((s.take p).2.sessionIn p).1)
  ∧ (∀ (p : Packet) (s : State), s.turn p = true → p.opc = oGrantAck → ((s.take p).2.sessionIn p).2 = false →
    exec (.grantAck p) s = .next ((s.take p).2.sessionIn p).1)
  ∧ (∀ (p : Packet) (s : State), p.syn = false → p.isCmp = false ∨ p.stat ≠ stAborted →
    s.sessionIn p = if (s.part (cidPart p.cid)).conf = true ∧ (s.part (cidPart p.cid)).sess = 1
      then (s.noteProt (cidPart p.cid) p, s.protOk (cidPart p.cid) p) else (s, true))

/-! ### DRAM channels (chapters 09 and 13) -/

/-- The stacks (R276, R277, R284, R286, R287, R372 to R379, R382, R389, R390): admission, scheduling, the end of an access, refresh, calibration,
failure; samples, patrol and rate changes, taken and done when due, in the order of the units.
The choices of the model that it rests on: log entries 1, 12, 31, 74, 75, 81, 89. -/
def Obligations.ChannelRows : Prop :=
  (∀ (n : Fin 8) (f : Nat) (r : Req) (s : State), (s.stack n.val).paused = false → (s.stack n.val).state = 2 → s.pickFlow n.val = some f →
      s.flowHead n.val f = some r →
    exec (.admissionSelect n) s = .next
      (let x := s.stack n.val
       (s.setStack n.val (s.afterServe { x with
         queue := x.queue.erase r, delaySum := x.delaySum + (s.now - r.arrived), delayCnt := x.delayCnt + 1
         thrNext := x.slowNext s.now r.cost, capNext := if f < 3 then x.capNext else s.capAfter x r.cost
         chans := tput {} x.chans (lineChan r.line) { x.chan (lineChan r.line) with
           entries := (x.chan (lineChan r.line)).entries ++ [{ r with admitted := s.now }] } } f)).refill n.val x.wait))
  ∧ (∀ (n : Fin 8) (s : State), (s.stack n.val).state ≠ 2 → exec (.admissionSelect n) s = .next s)
  ∧ (∀ (n : Fin 8) (c : Fin 16) (m : BitVec 64) (r : Req) (s : State), ((s.stack n.val).chan c.val).blackout = false →
      (s.stack n.val).state = 2 ∨ (s.stack n.val).state = 3 →
      ((s.stack n.val).chan c.val).pick m
        (((s.stack n.val).chan c.val).drains || ((s.stack n.val).chan c.val).entries.all Req.isWrite) s.now = some r →
    exec (.dramSchedule n c m) s = .next ((s.modChan n.val c.val fun x =>
        { x with draining := x.drains, entries := x.entries.erase r, issued := x.issued ++ [r] }).openRow n.val c.val (lineBankNo r.line)
      (lineRow r.line) ((((s.stack n.val).chan c.val).entries.erase r).any fun q =>
        lineBankNo q.line == lineBankNo r.line && lineRow q.line == lineRow r.line)))
  ∧ (∀ (n c b row : Nat) (k : Bool) (s : State), ∃ u : State,
      u = (s.modChan n c fun x => { x with openRow := tput none x.openRow b (if k then some row else none) })
      ∧ (tget none ((s.stack n).chan c).openRow b = some row → s.openRow n c b row k = u)
      ∧ (tget none ((s.stack n).chan c).openRow b ≠ some row →
        s.openRow n c b row k = if Config.rowDraw u.fresh then (({ u with fresh := u.fresh + 1 }).modChan n c fun x =>
            { x with nref := some (b, u.nv.neighbours ((n * 16 + c) * 64 + b) row) }).bump (stackBlk n) 4
          else { u with fresh := u.fresh + 1 }))
  ∧ (∀ (n : Fin 8) (c : Fin 16) (a b : RawEcc) (r : Req) (l : List Req) (s : State), ((s.stack n.val).chan c.val).issued = r :: l →
    (((s.stack n.val).chan c.val).blackout = true → exec (.dramAccessDone n c a b) s = .next s)
    ∧ (((s.stack n.val).chan c.val).blackout = false → (∀ p q h w, r.org ≠ .spill p q h w) →
      exec (.dramAccessDone n c a b) s = .next
        (((s.modChan n.val c.val fun x => { x with issued := l }).accessEnd r a b).serveReads n.val c.val r))
    ∧ (∀ p q h w, ((s.stack n.val).chan c.val).blackout = false → r.org = .spill p q h w →
      exec (.dramAccessDone n c a b) s = .next
        (((s.modChan n.val c.val fun x => { x with issued := l }).spillEnd r p q h w a b).serveReads n.val c.val r)))
  ∧ (∀ (n : Fin 8) (c : Fin 16) (b : Fin 64) (s : State), (s.stack n.val).state = 2 → ((s.stack n.val).chan c.val).blackout = false →
      tget 0 ((s.stack n.val).chan c.val).refreshed b.val
        + (tget 0 ((s.stack n.val).chan c.val).postponed b.val + 1) * (s.stack n.val).refreshNs ≤ s.now →
    exec (.refreshDue n c b) s = .next (s.modChan n.val c.val fun x =>
      { x with refreshed := tput 0 x.refreshed b.val s.now, openRow := tput none x.openRow b.val none }))
  ∧ (∀ (n : Fin 8) (c : Fin 16) (b : Fin 64) (s : State),
      (s.stack n.val).state = 2 ∧ ((s.stack n.val).chan c.val).blackout = true ∨ (s.stack n.val).state = 3 →
      tget 0 ((s.stack n.val).chan c.val).refreshed b.val
        + (tget 0 ((s.stack n.val).chan c.val).postponed b.val + 1) * (s.stack n.val).refreshNs ≤ s.now →
    exec (.refreshDue n c b) s = .next (s.modChan n.val c.val fun x =>
      { x with postponed := tmod 0 x.postponed b.val fun k => min 8 (k + 1) }))
  ∧ (∀ (n : Fin 8) (c : Fin 16) (b : Fin 64) (s : State),
      s.now < tget 0 ((s.stack n.val).chan c.val).refreshed b.val
        + (tget 0 ((s.stack n.val).chan c.val).postponed b.val + 1) * (s.stack n.val).refreshNs →
    exec (.refreshDue n c b) s = .next s)
  ∧ (∀ x : Stack, x.refreshNs = if x.hot = true then 1953 else 3906)
  ∧ (∀ (n : Fin 8) (c : Fin 16) (s : State), (s.stack n.val).state = 2 → (s.stack n.val).failed.getLsbD c.val = false →
      (s.stack n.val).dark = false → ((s.stack n.val).chan c.val).issued = [] → s.schedState = 0 ∨ s.quiet = true →
    exec (.calibrationDue n c) s = .next (s.modChan n.val c.val fun x => { x with blackout := true, calDue := false }))
  ∧ (∀ (n : Fin 8) (c : Fin 16) (s : State), (s.stack n.val).state = 2 → (s.stack n.val).failed.getLsbD c.val = false →
      (s.stack n.val).dark = true ∨ ((s.stack n.val).chan c.val).issued ≠ [] ∨ (s.schedState ≠ 0 ∧ s.quiet = false) →
    exec (.calibrationDue n c) s = .next (s.modChan n.val c.val fun x => { x with calDue := !x.blackout }))
  ∧ (∀ (n : Fin 8) (c : Fin 16) (s : State), (s.stack n.val).state = 2 → (s.stack n.val).failed.getLsbD c.val = false →
      s.schedState ≠ 0 → s.schedBusy = false → (s.stack n.val).dark = false → ((s.stack n.val).chan c.val).issued = [] →
      ((s.stack n.val).chan c.val).lastCal + 200000000 ≤ s.now →
    exec (.calibrationForced n c) s = .next ((((s.modChan n.val c.val fun x => { x with blackout := true, calDue := false }).bump
      (stackBlk n.val) 6).logErr (errRec 0x33 0 none (chanUnit n.val c.val) c.val))))
  ∧ (∀ (n : Fin 8) (c : Fin 16) (s : State), ((s.stack n.val).chan c.val).blackout = true →
    exec (.calibrationDone n c true) s = .next ((s.modChan n.val c.val fun x =>
      { x.catchUp s.now with blackout := false, lastCal := s.now, phyFails := 0 }).bump (stackBlk n.val) 5))
  ∧ (∀ (n : Fin 8) (c : Fin 16) (s : State), ((s.stack n.val).chan c.val).blackout = true → ((s.stack n.val).chan c.val).phyFails < 2 →
    exec (.calibrationDone n c false) s = .next ((s.modChan n.val c.val fun x =>
      { x.catchUp s.now with blackout := false, lastCal := s.now, phyFails := ((s.stack n.val).chan c.val).phyFails + 1 }).bump
        (stackBlk n.val) 5))
  ∧ (∀ (n : Fin 8) (s : State), s.stackEn n.val = true → 2 ≤ (s.stack n.val).state.toNat → (s.stack n.val).state ≠ 5 →
    exec (.stackControllerFailure n) s = .next (s.chansFail n.val 0 true none))
  ∧ (∀ s : State, s.hubNs % 1000 = 0 →
    exec .loadInterval s = .next (s.each s.stackList fun s n => s.modStack n fun x =>
      { x with lastMean := if x.delayCnt = 0 then 0 else x.delaySum / x.delayCnt, delaySum := 0, delayCnt := 0 }))
  ∧ (∀ s : State,
    exec .histogramSample s = .next
      (let u := s.each ((List.range 16).filter fun p => s.portEn p && s.dieNs (p / 4) % 1000 = 0) fun s p => s.samplePort p
       if s.hubNs % 1000 = 0 then
         (u.each u.stackList fun s n => (s.bin (stackBlk n) (depthBin (s.stack n).queue.length)).bin (stackBlk n)
           (16 + delayBin (oldestAge s.now ((s.stack n).queue.map (·.arrived))))).each (List.range 64) fun s p =>
             if (s.part p).conf then s
             else s.bin (partBlk p) (delayBin (oldestAge s.now
               (s.stackList.flatMap fun n => ((s.stack n).queue.filter (·.fromPart p)).map (·.arrived))))
       else u))
  ∧ (∀ (n : Fin 8) (a b : RawEcc) (s : State), s.stackEn n.val = true → (s.stack n.val).state = 2 →
      (s.stack n.val).patrolAt + s.patrolNs ≤ s.now →
      ((s.stack n.val).diag = true → lineChan (n.val * stackLines + (s.stack n.val).patrol) ≠ 15) →
      (s.stack n.val).failed.getLsbD (lineChan (n.val * stackLines + (s.stack n.val).patrol)) = false →
      (((s.stack n.val).chan (lineChan (n.val * stackLines + (s.stack n.val).patrol))).blackout = false ∧ s.paceOk n.val = true →
        exec (.patrolStep n a b) s = .next ((((s.patrolOn n.val).pace n.val 128).useRow
          (n.val * stackLines + (s.stack n.val).patrol)).patrolLine (n.val * stackLines + (s.stack n.val).patrol) a b))
      ∧ (((s.stack n.val).chan (lineChan (n.val * stackLines + (s.stack n.val).patrol))).blackout = true ∨ s.paceOk n.val = false →
        exec (.patrolStep n a b) s = .next s))
  ∧ (∀ (n : Nat) (s : State), (List.range 8).find? s.mem.rcMask.getLsbD = some n → s.mem.rcOn = true → (s.stack n).state = 3 →
      (∀ c ∈ (s.stack n).chans, c.2.entries = [] ∧ c.2.issued = [] ∧ c.2.blackout = false) → ∃ x : Stack,
    exec .rateChangeStackDone s = .next
      ({ (s.setStack n x).bumpBy (stackBlk n + 8 + 8 * 5) ((List.range 16).filter fun c => !(s.stack n).failed.getLsbD c).length with
           mem := { s.mem with rcMask := s.mem.rcMask &&& ~~~(BitVec.ofNat 8 (1 <<< n)) } }).rateNext
      ∧ x.rate = (if s.mem.rcLower then (s.stack n).rate + 1 else s.mem.rcCode) ∧ x.tset = !(s.stack n).tset
      ∧ (if x.tset then x.timB else x.timA) = s.nv.timingOf n x.rate ∧ x.state = 2 ∧ x.paused = false ∧ x.queue = (s.stack n).queue
      ∧ x.failed = (s.stack n).failed)

/-- Atomics and arithmetic (R126, R128, R177, R178, R184, R187, R189, R190, R195, R196, R198, R200, R373, R384). An atomic on a clean line of an extent
that is neither mirrored nor parity-protected returns the old operand; the operand of 4 or 8 bytes at OFFSET becomes what AOP gives of it, of COMPARE
and of OPERAND, and no other bit of the line changes. Every number of a floating-point format converts to itself; a rounding takes one of the two
neighbours, as its mode says; NaN, infinities and overflows convert by R189 and R190. A merge adds two finite words exactly, ORs the flags of special
ones and does not depend on the order; a fold keeps the value and makes the word a function of it; contributions within the limit of R200 give the
same folded word in every order. The choices of the model that it rests on: log entries 8, 9, 52, 81, 92. -/
def Obligations.AtomicDone : Prop :=
  (∀ (n : Fin 8) (c : Fin 16) (r : Req) (l : List Req) (s : State), ((s.stack n.val).chan c.val).issued = r :: l → r.act = .atom →
      ((s.stack n.val).chan c.val).blackout = false → (∀ p q h w, r.org ≠ .spill p q h w) →
      (s.ext r.ext).mirror = false → (s.ext r.ext).parity = false → lineCls (clsOf (s.lineMeta r.line).mark .clean)
        (clsOf (s.lineMeta r.line).mark .clean) = .clean →
    exec (.dramAccessDone n c .clean .clean) s = .next
      (let u := s.modChan n.val c.val fun x => { x with issued := l }
       let d := u.lineData r.ext r.line (u.reqTweak r)
       ((u.storeLine r.line (atomicLine r.pkt d).1 (s.ext r.ext).key (u.reqTweak r)).bump (sliceBlk (lineQuad r.line)) 7).endReq r stOk 0
         (atomicLine r.pkt d).2))
  ∧ (∀ (p : Packet) (d : Line), p.formOk false = true → p.opc = oAtomic → p.offset.toNat % 128 + p.accLen ≤ 128 →
    let w := if p.wide then 64 else 32
    let lo := 8 * (p.offset.toNat % 128)
    let old := (d.toNat >>> lo) % 2 ^ w
    (atomicLine p d).2 = old
    ∧ ((atomicLine p d).1.toNat >>> lo) % 2 ^ w = atomicNew p.aop.toNat w old (p.opnd.toNat % 2 ^ w) (p.opnd.toNat / 2 ^ 64 % 2 ^ w) % 2 ^ w
    ∧ ∀ i, (i < lo ∨ lo + w ≤ i) → (atomicLine p d).1.getLsbD i = d.getLsbD i)
  ∧ (∀ (w old c v : Nat), old < 2 ^ w → c < 2 ^ w → v < 2 ^ w → w = 32 ∨ w = 64 →
    let sgn := fun (a : Nat) => (BitVec.ofNat w a).toInt
    atomicNew 0 w old c v = (old + v) % 2 ^ w
    ∧ (∀ i, (atomicNew 1 w old c v).testBit i = (old.testBit i && v.testBit i))
    ∧ (∀ i, (atomicNew 2 w old c v).testBit i = (old.testBit i || v.testBit i))
    ∧ (∀ i, (atomicNew 3 w old c v).testBit i = (old.testBit i != v.testBit i))
    ∧ atomicNew 4 w old c v = v
    ∧ (old = c → atomicNew 5 w old c v = v) ∧ (old ≠ c → atomicNew 5 w old c v = old)
    ∧ (sgn v < sgn old → atomicNew 6 w old c v = v) ∧ (sgn old ≤ sgn v → atomicNew 6 w old c v = old)
    ∧ (sgn old < sgn v → atomicNew 7 w old c v = v) ∧ (sgn v ≤ sgn old → atomicNew 7 w old c v = old)
    ∧ (v ≤ old → atomicNew 8 w old c v = v) ∧ (old ≤ v → atomicNew 8 w old c v = old)
    ∧ (v ≤ old → atomicNew 9 w old c v = old) ∧ (old ≤ v → atomicNew 9 w old c v = v)
    ∧ atomicNew 0xA w old c v = fpAdd (if w = 32 then fp32 else fp64) old v)
  ∧ (∀ (f : Fp) (d : Rnd) (n : Nat) (g : Bool) (m : Nat) (e : Int),
      f ∈ [fp64, fp32, bf16, fp16, fp8e4m3, fp8e5m2, e3m2, e2m3, e2m1] → n < 2 ^ (1 + f.ebits + f.fbits) → f.dec n = .fin g m e →
    f.enc d (f.dec n) = n)
  ∧ (∀ (d : Rnd) (g : Bool) (m : Nat) (e l : Int),
    let s := (l - e).toNat
    let q := m / 2 ^ s
    let r := m % 2 ^ s
    (l ≤ e → d.toGrid g m e l = m * 2 ^ (e - l).toNat)
    ∧ (e < l → r = 0 → d.toGrid g m e l = q)
    ∧ (e < l → 0 < r →
      (d.mode = 0 → (2 * r < 2 ^ s → d.toGrid g m e l = q) ∧ (2 ^ s < 2 * r → d.toGrid g m e l = q + 1)
        ∧ (2 * r = 2 ^ s → d.toGrid g m e l % 2 = 0 ∧ (d.toGrid g m e l = q ∨ d.toGrid g m e l = q + 1)))
      ∧ (d.mode = 1 → (2 * r < 2 ^ s → d.toGrid g m e l = q) ∧ (2 ^ s ≤ 2 * r → d.toGrid g m e l = q + 1))
      ∧ (d.mode = 2 → d.toGrid g m e l = q)
      ∧ (d.mode = 3 → d.toGrid g m e l = if g then q else q + 1)
      ∧ (d.mode = 4 → d.toGrid g m e l = if g then q + 1 else q)
      ∧ (d.mode = 5 → d.toGrid g m e l = if d.draw < r * 2 ^ 24 / 2 ^ s then q + 1 else q)))
  ∧ (∀ (d : Rnd),
    fp64.enc d .nan = 0x7FF8000000000000 ∧ fp32.enc d .nan = 0x7FC00000 ∧ bf16.enc d .nan = 0x7FC0 ∧ fp16.enc d .nan = 0x7E00
    ∧ fp8e4m3.enc d .nan = 0x7F ∧ fp8e5m2.enc d .nan = 0x7E
    ∧ (∀ g, fp8e4m3.enc d (.inf g) = if d.sat then fp8e4m3.sign g 0x7E else 0x7F)
    ∧ (∀ (f : Fp) (g : Bool), f ∈ [fp64, fp32, bf16, fp16, fp8e5m2] → f.dec (f.enc d (.inf g)) = .inf g)
    ∧ (∀ sg b, toIntVal sg b d .nan = 0 ∧ toIntVal sg b d (.inf true) = intMin sg b ∧ toIntVal sg b d (.inf false) = intMax sg b)
    ∧ (∀ (f : Fp) (g : Bool), f.overflow d g = if d.sat = true ∨ f.top = .none ∨ d.mode = 2 ∨ (d.mode = 3 ∧ g = true) ∨ (d.mode = 4 ∧ g = false)
        then f.sign g f.maxCode else f.enc { d with sat := false } (.inf g)))
  ∧ (∀ (a : Nat) (x y : Ofa), x.merge a y = y.merge a x)
  ∧ (∀ (a b : Nat) (x2 x1 x0 y2 y1 y0 : Int) (c k f : Nat),
    ((Ofa.word a x2 x1 x0 c).merge a (.special f) = .special f) ∧ ((Ofa.special c).merge a (.special f) = .special (c ||| f))
    ∧ (b ≠ a → (Ofa.word a x2 x1 x0 c).merge a (.word b y2 y1 y0 k) = .special 1 ∧ (Ofa.special f).merge a (.word b y2 y1 y0 k) = .special (f ||| 1))
    ∧ (c + k ≤ 4095 → (Ofa.word a x2 x1 x0 c).merge a (.word a y2 y1 y0 k)
        = if -(2 ^ 35) ≤ x2 + y2 ∧ x2 + y2 < 2 ^ 35 then .word a (x2 + y2) (x1 + y1) (x0 + y0) (c + k) else .special 8)
    ∧ (4095 < c + k → (∃ w n : Nat, ∃ u2 u1 u0 v2 v1 v0 : Int, (Ofa.word a x2 x1 x0 c).fold = .word a u2 u1 u0 w
          ∧ (Ofa.word a y2 y1 y0 k).fold = .word a v2 v1 v0 n) →
        (Ofa.word a x2 x1 x0 c).merge a (.word a y2 y1 y0 k)
          = ((Ofa.word a x2 x1 x0 c).fold).merge a (Ofa.word a y2 y1 y0 k).fold))
  ∧ (∀ (a c : Nat) (b2 b1 b0 t2 d1 d0 : Int), -(2 ^ 23) ≤ d0 → d0 < 2 ^ 23 → -(2 ^ 23) ≤ d1 → d1 < 2 ^ 23 →
      t2 * 2 ^ 48 + d1 * 2 ^ 24 + d0 = b2 * 2 ^ 48 + b1 * 2 ^ 24 + b0 →
    (Ofa.word a b2 b1 b0 c).fold = if -(2 ^ 35) ≤ t2 ∧ t2 < 2 ^ 35 then .word a t2 d1 d0 (if t2 = 0 ∧ d1 = 0 ∧ d0 = 0 then 0 else 1) else .special 8)
  ∧ (∀ (a : Nat) (g : Bool) (m : Nat) (e : Int),
    Ofa.contrib a .nan = .special 1 ∧ Ofa.contrib a (.inf false) = .special 2 ∧ Ofa.contrib a (.inf true) = .special 4
    ∧ (2 ^ 59 < rne.toGrid g m e (ofaL0 a) → Ofa.contrib a (.fin g m e) = .special 8)
    ∧ (rne.toGrid g m e (ofaL0 a) ≤ 2 ^ 59 → ∃ d2 d1 d0 : Int, Ofa.contrib a (.fin g m e) = .word a d2 d1 d0 1
      ∧ d2 * 2 ^ 48 + d1 * 2 ^ 24 + d0 = (if g then -(rne.toGrid g m e (ofaL0 a) : Int) else rne.toGrid g m e (ofaL0 a))
      ∧ -(2 ^ 23) ≤ d0 ∧ d0 < 2 ^ 23 ∧ -(2 ^ 23) ≤ d1 ∧ d1 < 2 ^ 23 ∧ -(2 ^ 11) ≤ d2 ∧ d2 ≤ 2 ^ 11))
  ∧ (∀ (a : Nat) (l k : List Val), l.Perm k → l.length < 2 ^ 24 →
    (l.foldl (Ofa.absorb a) (.empty a)).fold = (k.foldl (Ofa.absorb a) (.empty a)).fold)

/-! ### Granules and pool groups (chapter 02) -/

/-- Background work on granules (R54, R57, R63, R66, R226): scrubbing, the zero fill of a combining extent, parity and rebuilding; and the pool group
(R64, R65): a heartbeat to every other member each millisecond of FT, a member's heartbeat noted, and a member silent for 4 ms declared lost, on
which this one acts only within a majority. The choices of the model that it rests on: log entries 1, 27, 28, 83. -/
def Obligations.GranuleAndGroupRows : Prop :=
  (∀ (e : Fin 262144) (s : State), (s.ext e.val).state = 3 → (s.ext e.val).scrub < (s.ext e.val).localSize →
      let g := s.extGran (s.ext e.val) (s.ext e.val).scrub
      (s.granOk g = false → exec (.scrubStep e) s = .next s)
      ∧ (s.granOk g = true → exec (.scrubStep e) s = .next
        (((s.wipe g).pace (granStack g) granBytes).setExt e.val { s.ext e.val with scrub := (s.ext e.val).scrub + 1 })))
  ∧ (∀ (e : Fin 262144) (s : State), (s.ext e.val).state = 3 → (s.ext e.val).scrub = (s.ext e.val).localSize → ∃ t : State,
    exec (.scrubDone e) s = .next t ∧ t = s.freeExt e.val ∧ t.ext e.val = { gen := (s.ext e.val).gen, freedAt := s.now + 1 }
      ∧ t.dram = s.dram ∧ t.parts = s.parts ∧ t.stks = s.stks)
  ∧ (∀ (e : Fin 262144) (s : State), (s.ext e.val).combine = true → (s.ext e.val).state = 1 →
      (s.comb (s.ext e.val).protRef.toNat).clearing = true → (s.comb (s.ext e.val).protRef.toNat).fillEnd ≤ s.now →
      (∀ g ∈ s.extGrans (s.ext e.val), (s.stack (granStack g)).state = 5 ∨ s.bgClear (granStack g) = true) →
    exec (.zeroFillDone e) s = .next
      (((((s.noteFor (.zeroFill e.val)).each (s.extGrans (s.ext e.val)) fun s g => s.wipe g).setExt e.val { s.ext e.val with zero := true }).setComb
        (s.ext e.val).protRef.toNat { s.comb (s.ext e.val).protRef.toNat with valid := true, clearing := false }).wake (.zeroFill e.val)))
  ∧ (∀ (h : Xh) (o : BitVec 40) (d : DeltaIn) (s : State), s.group.on = true → d.src.val ∈ s.peers →
      (s.ext (h.extractLsb' 0 18).toNat).state = 1 → (s.ext (h.extractLsb' 0 18).toNat).gen = h.extractLsb' 18 6 →
      s.standIn (s.ext (h.extractLsb' 0 18).toNat) o.toNat = true → o.toNat < (s.ext (h.extractLsb' 0 18).toNat).size.toNat * 2 ^ 21 →
      let i := (h.extractLsb' 0 18).toNat
      let x := s.ext i
      let l := s.extLine x (x.local_ o.toNat)
      let u := s.deltaIn i x l (xtsTweak i x.gen.toNat (s.lineNo x o.toNat)) d.data
      (s.lineWaits l = true → exec (.parityDelta h o d) s = .next s)
      ∧ (s.lineWaits l = false →
        exec (.parityDelta h o d) s = .next (u.1.peerCmp (some (lineStack l)) d.src.val d.tc d.cid d.rtag u.2)))
  ∧ (∀ (h : Xh) (o : BitVec 40) (d : DeltaIn) (s : State), s.group.on = true → d.src.val ∈ s.peers →
      (s.ext (h.extractLsb' 0 18).toNat).state ≠ 1 ∨ (s.ext (h.extractLsb' 0 18).toNat).gen ≠ h.extractLsb' 18 6
        ∨ s.standIn (s.ext (h.extractLsb' 0 18).toNat) o.toNat = false →
    exec (.parityDelta h o d) s = .next (s.peerCmp none d.src.val d.tc d.cid d.rtag stRevoked))
  ∧ (∀ (i l w : Nat) (x : Ext) (d : Line) (s : State),
    let k := lineCls (clsOf (s.lineMeta l).mark (Config.pins s.now l).1) (clsOf (s.lineMeta l).mark (Config.pins s.now l).2)
    (s.lineFailed l = true → s.deltaIn i x l w d = (s, stOk))
    ∧ (s.lineFailed l = false → k = .clean →
      s.deltaIn i x l w d = ((s.useRow l).storeLine l ((s.useRow l).lineData i l w ^^^ d) x.key w, stOk))
    ∧ (s.lineFailed l = false → k ≠ .clean → k ≠ .corrected → (s.useRow l).redundant x = false →
      ((s.useRow l).bump (stackBlk (lineStack l)) 2).redundant x = false → (s.deltaIn i x l w d).2 = stUncorrectable))
  ∧ (∀ (e : Fin 262144) (i : Nat) (s : State), (s.ext e.val).state = 1 → (s.ext e.val).mirror = true ∨ (s.ext e.val).parity = true →
      (s.prot (s.ext e.val).protRef.toNat).rstate = 1 → (s.prot (s.ext e.val).protRef.toNat).target = false →
      i = (if (s.ext e.val).parity then (s.prot (s.ext e.val).protRef.toNat).cursor.toNat / (if (s.ext e.val).pwidth then 7 else 3)
        else (s.prot (s.ext e.val).protRef.toNat).cursor.toNat) →
      (s.granOk (s.extGran (s.ext e.val) i) = false → exec (.rebuildStep (.due e)) s = .next s)
      ∧ ∀ u : State, u = (let p := s.prot (s.ext e.val).protRef.toNat
          (((({ s with fresh := s.fresh + 1 }.pace (granStack (s.extGran (s.ext e.val) i)) granBytes).useGran
            (s.extGran (s.ext e.val) i)).groupSend (p.member p.rslot.val) none
            (.rebuild (BitVec.ofNat 24 (e.val + (s.ext e.val).gen.toNat * 2 ^ 18)) p.cursor.toNat
              (s.rebuildLines e.val p.cursor.toNat))).modProt (s.ext e.val).protRef.toNat fun p => { p with cursor := p.cursor + 1 })) →
        s.granOk (s.extGran (s.ext e.val) i) = true →
        ((s.prot (s.ext e.val).protRef.toNat).cursor.toNat + 1 ≠ (s.ext e.val).size.toNat → exec (.rebuildStep (.due e)) s = .next u)
        ∧ ((s.prot (s.ext e.val).protRef.toNat).cursor.toNat + 1 = (s.ext e.val).size.toNat →
          exec (.rebuildStep (.due e)) s = .next (u.rebuilt e.val)))
  ∧ (∀ (e : Fin 262144) (g : Nat) (s : State), (s.ext e.val).state = 1 → (s.ext e.val).mirror = true →
      (s.ext e.val).parity = false → (s.prot (s.ext e.val).protRef.toNat).rstate = 1 → (s.prot (s.ext e.val).protRef.toNat).target = true →
      (s.prot (s.ext e.val).protRef.toNat).cursor.toNat + 1 < (s.ext e.val).size.toNat →
      (s.stack (granStack (s.extGran (s.ext e.val) (s.prot (s.ext e.val).protRef.toNat).cursor.toNat))).state = 5 → s.spare = some g →
      s.granOk g = true →
    exec (.rebuildStep (.due e)) s = .next (((s.moveGran e.val (s.prot (s.ext e.val).protRef.toNat).cursor.toNat g).pace
      (granStack g) granBytes).modProt (s.ext e.val).protRef.toNat fun p => { p with cursor := p.cursor + 1 }))
  ∧ (∀ (m : Fin 8) (h : Xh) (g : Nat) (l : List (Nat × Line)) (s u : State), s.group.on = true → m.val ∈ s.peers →
      (s.ext (h.extractLsb' 0 18).toNat).state = 1 → (s.ext (h.extractLsb' 0 18).toNat).gen = h.extractLsb' 18 6 →
      (s.ext (h.extractLsb' 0 18).toNat).mirror = true ∨ (s.ext (h.extractLsb' 0 18).toNat).parity = true →
      s.isTarget (s.ext (h.extractLsb' 0 18).toNat) = true → g < (s.ext (h.extractLsb' 0 18).toNat).size.toNat →
      let i := (h.extractLsb' 0 18).toNat
      let x := s.ext i
      let n := s.extGran x (x.local_ (g * 2 ^ 21) / 2 ^ 21)
      u = ((s.pace (granStack n) granBytes).useGran n).each (l.filter (·.1 < 16384)) (fun s e =>
        s.storeLine (s.extLine x (x.local_ (g * 2 ^ 21) + 128 * e.1)) e.2 x.key
          (xtsTweak i x.gen.toNat (s.lineNo x (g * 2 ^ 21 + 128 * e.1)))) →
    (s.granOk n = false → exec (.rebuildStep (.received m h g l)) s = .next s)
    ∧ (s.granOk n = true → g + 1 ≠ x.size.toNat → exec (.rebuildStep (.received m h g l)) s = .next u)
    ∧ (s.granOk n = true → g + 1 = x.size.toNat → exec (.rebuildStep (.received m h g l)) s
        = .next (u.modProt x.protRef.toNat fun p => p.restored (u.mySlot x) (u.mySlot x))))
  ∧ (∀ (g : Nat) (s : State), (s.wipe g).dram = s.dram.filter (fun c => c.1 / 2097152 ≠ g)
    ∧ (s.wipe g).lines = s.lines.filter (fun l => l.1 / 16384 ≠ g) ∧ (s.wipe g).exts = s.exts ∧ (s.wipe g).gmap = s.gmap)
  ∧ (∀ s : State, s.group.on = true → s.group.lastSent + 1000000 ≤ s.ftNs → ∃ u : State,
    exec .groupHeartbeatSend s = .next u.forwardAgain ∧ u = { s with group := u.group }
      ∧ u.group = { s.group with lastSent := s.ftNs, out := s.group.out ++ s.peers.map fun m => { member := m, tc := some 6, msg := .heartbeat } })
  ∧ (∀ (m : Fin 8) (s : State), s.group.on = true → m.val ∈ s.peers → s.group.acted.getLsbD m.val = true →
    exec (.groupHeartbeat m) s = .next ({ s with group := { s.group with
      lastHb := tput 0 s.group.lastHb m.val s.ftNs, promoted := s.group.promoted && s.group.lost.getLsbD m.val } }).actLost)
  ∧ (∀ (m : Fin 8) (s : State), s.group.on = true → m.val ∈ s.peers → s.group.acted.getLsbD m.val = false →
    exec (.groupHeartbeat m) s = .next ({ s with group := { s.group with
      lastHb := tput 0 s.group.lastHb m.val s.ftNs, promoted := false, lost := s.group.lost &&& ~~~(BitVec.ofNat 8 (1 <<< m.val)) } }).actLost)
  ∧ (∀ (m : Fin 8) (s : State), s.group.on = true → m.val ∈ s.peers → s.group.lost.getLsbD m.val = false →
      tget 0 s.group.lastHb m.val + 4000000 ≤ s.ftNs →
    exec (.groupMemberLost m) s
      = .next ({ s with group := { s.group with lost := s.group.lost ||| BitVec.ofNat 8 (1 <<< m.val) } }).actLost)
  ∧ (∀ s : State, s.majority = false ∨ s.group.toAct = [] → s.actLost = s)
  ∧ (∀ (m : Nat) (s : State), s.majority = true → s.group.toAct = [m] →
    s.actLost = (({ s with group := { s.group with acted := s.group.acted ||| BitVec.ofNat 8 (1 <<< m) } }).lossAct m).forwardNot m)

/-! ### Sensors, the capper and snapshots (chapters 16 and 17) -/

/-- Samples and snapshots (R485, R505, R507, R508, R519): a sample sets VALUE and VALID, PEAK (the highest temperature or the lowest voltage since it
was cleared), and WARN beyond its band, with a record at a change of WARN at most once a second; sensors are sampled in the order of their
numbers; the input power enters the means, and CAP is exceeded or undercut by the mean of ten; each block of a snapshot latches, with the next SEQ, when the replica of its unit has reached its time,
and with the last of them the snapshot is complete. The choices of the model that it rests on: log entries 71, 73, 74, 81. -/
def Obligations.SampleRows : Prop :=
  (∀ (x : Sensor) (k : Nat) (v : Int) (now : Nat),
    (x.sampled k v now).1.value = BitVec.ofInt 16 v ∧ (x.sampled k v now).1.valid = true
    ∧ (x.valid = false → (x.sampled k v now).1.peak = BitVec.ofInt 16 v)
    ∧ (x.valid = true → k < 20 →
        (x.sampled k v now).1.peak.toInt = max x.peak.toInt (BitVec.ofInt 16 v).toInt)
    ∧ (x.valid = true → 20 ≤ k → (x.sampled k v now).1.peak.toNat = min x.peak.toNat (BitVec.ofInt 16 v).toNat)
    ∧ ((sensorBand k v).1 = true → (x.sampled k v now).1.warn = true)
    ∧ ((sensorBand k v).1 = false → (sensorBand k v).2 = true → (x.sampled k v now).1.warn = false)
    ∧ ((sensorBand k v).1 = false → (sensorBand k v).2 = false → (x.sampled k v now).1.warn = x.warn)
    ∧ ((x.sampled k v now).2 = true ↔ (x.sampled k v now).1.warn ≠ x.warn ∧ ∀ t, x.recAt = some t → t + 1000000000 ≤ now))
  ∧ (∀ (l : List Int) (s : State), s.stew.released = true →
    exec (.sensorSample l) s = .next (s.each ((List.range l.length).zip l) fun s x => s.sampleSensor x.1 x.2))
  ∧ (∀ (l : List Int) (s : State), s.stew.released = false → s.pwr.phase = .ready → s.pwr.state = 4 →
    exec (.sensorSample l) s = .next (s.each (((List.range l.length).zip l).filter fun x => s.sensorOn x.1) fun s x =>
      s.setSensor x.1 ((s.sensor x.1).sampled x.1 x.2 s.now).1))
  ∧ (∀ (w : BitVec 16) (s : State), s.stew.released = true → ∃ p : Pwr, p.samples = w :: s.pwr.samples.take 999
      ∧ p.input = meanOf (p.samples.take 10) ∧ p.input1ms = meanOf p.samples ∧ p.cap = s.pwr.cap ∧ p.level = s.pwr.level ∧ p.step = s.pwr.step
      ∧ (p.over = false → exec (.capperSample w) s = .next { s with pwr := p } ∧ p.overAt = none)
      ∧ (p.over = true → exec (.capperSample w) s = .next ({ s with pwr := p }.capUp) ∧ p.overAt = some (s.pwr.overAt.getD s.now))
      ∧ (p.under = true → p.belowAt = some (s.pwr.belowAt.getD s.now)) ∧ (p.under = false → p.belowAt = none))
  ∧ (∀ (s u : State), s.cnt.pending = true → u = s.latch (s.cnt.todo.filter fun b => decide (s.cnt.snapFt.toNat ≤ s.unitNs b)) →
    (u.cnt.todo ≠ [] → exec .snapshotLatch s = .next u)
    ∧ (u.cnt.todo = [] → exec .snapshotLatch s = .next ({ u with cnt := { u.cnt with
      pending := false, seq := u.cnt.seq + 1, synced := u.keeper.state = 2 || u.keeper.state = 3 } }.wake .snapshot)))
  ∧ (∀ (l : List Nat) (s : State), { s with cnt := (s.latch l).cnt } = s.latch l ∧ (s.latch l).cnt.seq = s.cnt.seq
    ∧ (∀ b, b ∈ (s.latch l).cnt.todo ↔ b ∈ s.cnt.todo ∧ b ∉ l)
    ∧ ∀ b, tget 0 (s.latch l).cnt.hdr b = if b ∈ l then s.cnt.seq + 1 else tget 0 s.cnt.hdr b)

/-- The capper's steps (R519, R530): after 10 ms above CAP at the deepest step of level 2 the rate falls by one code, while no image is armed and no
other change runs; 1 ms below 95 % of CAP gives one step back, and in the end the rate.
The choices of the model that it rests on: log entry 74. -/
def Obligations.CapperRows : Prop :=
  (∀ s : State, s.pwr.pos = 47 → s.pwr.overAt.isSome = true → s.pwr.stepAt + 10000000 ≤ s.now → s.schedState = 0 → s.mem.rcOn = false →
      s.lowerable ≠ [] →
    exec .capperRateLower s = .next ((({ s with pwr :=
        { s.pwr with stepAt := s.now, level := 3, step := 0, schedThr := 16, lowered := true } }).capEvent 3 1).capLower))
  ∧ (∀ s : State, s.pwr.pos = 48 → s.pwr.overAt.isSome = true → s.pwr.stepAt + 10000000 ≤ s.now → s.schedState = 0 → s.mem.rcOn = false →
      s.lowerable ≠ [] →
    exec .capperRateLower s = .next (({ s with pwr :=
        { s.pwr with stepAt := s.now, level := 3, step := s.pwr.step + 1, schedThr := 16, lowered := true } }).capLower))
  ∧ (∀ s : State, s.capLower = ({ s with mem := { s.mem with
      rcMask := s.lowerable.foldl (fun m n => m ||| BitVec.ofNat 8 (1 <<< n)) 0, rcOn := true, rcCapper := true, rcLower := true } }).rateNext)
  ∧ (∀ (t : Nat) (s : State), s.pwr.belowAt = some t → t + 1000000 ≤ s.now → s.pwr.pos = 0 → s.pwr.lowered = true → s.mem.rcOn = false →
      s.schedState = 0 →
    exec .capperRelease s = .next (({ s with pwr := { s.pwr with belowAt := some s.now, lowered := false } }).capRate 0))
  ∧ (∀ (t : Nat) (s : State), s.pwr.belowAt = some t → t + 1000000 ≤ s.now → s.pwr.pos = 1 →
    exec .capperRelease s = .next (({ s with pwr :=
      { s.pwr with belowAt := some s.now, stepAt := s.now, level := 0, step := 0, schedThr := 0 } }).capEvent 1 2))
  ∧ (∀ (t : Nat) (s : State), s.pwr.belowAt = some t → t + 1000000 ≤ s.now → 1 < s.pwr.pos → s.pwr.pos ≠ 33 → s.pwr.pos ≠ 48 →
    exec .capperRelease s = .next { s with pwr := ({ s.pwr with belowAt := some s.now }).at (s.pwr.pos - 1) s.now })
  ∧ (∀ (t : Nat) (s : State), s.pwr.belowAt = some t → t + 1000000 ≤ s.now → s.pwr.pos = 33 ∨ s.pwr.pos = 48 →
    exec .capperRelease s = .next ({ s with pwr := ({ s.pwr with belowAt := some s.now }).at (s.pwr.pos - 1) s.now }.capEvent
      (if s.pwr.pos = 33 then 2 else 3) 2))

/-! ### Walkers, jobs and engines (chapters 03, 06 and 07) -/

/-- The walkers (R71, R76, R77, R148, R153): an idle walker of a tile that is not parked takes the queued job of least order, or one to be
re-resolved; the next completed table read lets its walk go on, with every entry of its line that is needed, makes it wait 64 × 2^BACKOFF ns on
RETRY, or faults it with TR_TABLE_READ; an entry faults at the first condition of R71 that it breaks, in order.
The choices of the model that it rests on: log entries 1, 55. -/
def Obligations.WalkerRows : Prop :=
  (∀ (t : Fin 32) (k : Nat) (s : State), (s.tile t.val).walk = none → (s.tile t.val).parked = false → s.tileDead t.val = false →
      s.walkersOff = false →
      least (fun k => ((s.tile t.val).job k).order) ((s.tile t.val).slots.filter fun k =>
        ((s.tile t.val).job k).st == .queued || (((s.tile t.val).job k).st == .suspended && ((s.tile t.val).job k).reres)) = some k →
      (s.ctx ((s.tile t.val).job k).cid.toNat).state = 2 →
    exec (.walkerTakeJob t) s = .next
      (((s.setWalk t.val (some (Walk.root { slot := k, reres := ((s.tile t.val).job k).st == .suspended }
          (s.ctx ((s.tile t.val).job k).cid.toNat)))).modJob t.val k fun j =>
        if j.st = .queued then { j with st := .resolving } else j).walkGo t.val walkFuel))
  ∧ (∀ (t : Fin 32) (s : State), (s.tile t.val).walk.isSome = true → exec (.walkerTakeJob t) s = .next s)
  ∧ (∀ (q : Fin 4) (n : Nat) (w : Walk) (d : EDone) (s : State),
      (((List.range 8).map (8 * q.val + ·)).filterMap fun n => (s.tile n).walk.map fun w => (n, w)).find? (fun x => x.2.ready.isSome)
        = some (n, w) → w.ready = some d →
    exec (.walkerTableReadDone q) s = .next (s.walkDoneRead n w d))
  ∧ (∀ (q : Fin 4) (n : Nat) (w : Walk) (s : State),
      (((List.range 8).map (8 * q.val + ·)).filterMap fun n => (s.tile n).walk.map fun w => (n, w)).find? (fun x => x.2.ready.isSome) = none →
      (((List.range 8).map (8 * q.val + ·)).filterMap fun n => (s.tile n).walk.map fun w => (n, w)).filter (fun x => !x.2.waiting)
        = [(n, w)] →
    (w.kept = none → exec (.walkerTableReadDone q) s = .next (s.walkGo n walkFuel))
    ∧ ∀ d, w.kept = some d → exec (.walkerTableReadDone q) s = .next (s.walkLine n w d))
  ∧ (∀ (q : Fin 4) (s : State),
      (((List.range 8).map (8 * q.val + ·)).filterMap fun n => (s.tile n).walk.map fun w => (n, w)).find? (fun x => x.2.ready.isSome) = none →
    exec (.walkerTableReadDone q) s = .next (s.each (((((List.range 8).map (8 * q.val + ·)).filterMap fun n =>
      (s.tile n).walk.map fun w => (n, w)).filter fun x => !x.2.waiting).map (·.1)) State.walkOn))
  ∧ (∀ (n : Nat) (w : Walk) (d : EDone) (s : State),
    (w.restart = false → d.status = stRetry →
      s.walkDoneRead n w d = s.setWalk n (some { w with
        ready := none, attempt := min 15 (w.attempt + 1), retryAt := d.at_ + 64 * 2 ^ d.backoff.toNat }))
    ∧ (w.restart = false → d.status ≠ stRetry → d.status ≠ stOk → ∃ (pva : Nat) (acc : BitVec 2),
      s.walkDoneRead n w d = s.walkFault n { w with ready := none } 0x14 pva w.level acc 0 d.status)
    ∧ (w.restart = true → s.walkDoneRead n w d
      = (s.setWalk n (some (Walk.root { w with ready := none } (s.ctx (s.job n w.slot).cid.toNat)))).walkGo n walkFuel)
    ∧ (w.restart = false → d.status = stOk → s.walkDoneRead n w d = s.walkLine n { w with ready := none } d)
    ∧ (∀ (b : Nat) (l : List Nat), (s.job n w.slot).needs b (2 ^ spanBits w.level) = none → s.useLine n w d (b :: l) = s.useLine n w d l)
    ∧ (∀ (b pva : Nat) (acc : BitVec 2) (l : List Nat) (u : State), (s.job n w.slot).needs b (2 ^ spanBits w.level) = some (pva, acc) →
      (s.takeEntry n w pva acc (lineEntry d.data (w.place pva)) = .fault u → s.useLine n w d (b :: l) = (u, false))
      ∧ (s.takeEntry n w pva acc (lineEntry d.data (w.place pva)) = .table u → s.useLine n w d (b :: l) = u.useLine n w d l)
      ∧ (s.takeEntry n w pva acc (lineEntry d.data (w.place pva)) = .leaf u → s.useLine n w d (b :: l) = u.useLine n w d l)
      ∧ (s.takeEntry n w pva acc (lineEntry d.data (w.place pva)) = .full → s.useLine n w d (b :: l)
        = (s.setWalk n (some { w with kept := some d }), false))))
  ∧ (∀ (host : Bool) (level : Nat) (e : Word), level < 4 →
    (pteV e = false → pteFault host level e = some 0x10)
    ∧ (pteV e = true → ptePool e = true → e.extractLsb' 59 5 ≠ 0 → pteFault host level e = some 0x12)
    ∧ (pteV e = true → ptePool e = false → e.extractLsb' 8 4 ≠ 0 ∨ e.extractLsb' 52 12 ≠ 0 → pteFault host level e = some 0x12)
    ∧ (pteV e = true → pteLeaf e = true → level = 3 → pteFault host level e = some 0x12)
    ∧ (pteV e = true → pteLeaf e = false → level = 0 → pteFault host level e = some 0x12)
    ∧ (pteV e = true → pteLeaf e = false → ptePool e = host → pteFault host level e = some 0x12)
    ∧ (pteV e = true → pteLeaf e = true → ptePool e = false → host = false → pteFault host level e = some 0x12)
    ∧ (pteV e = true → ptePool e = true → e.extractLsb' 59 5 = 0 → pteLeaf e = false → 0 < level → host = false → pteFault host level e = none)
    ∧ (pteV e = true → ptePool e = false → e.extractLsb' 8 4 = 0 → e.extractLsb' 52 12 = 0 → pteLeaf e = false → 0 < level → host = true →
        pteFault host level e = none)
    ∧ (pteV e = true → ptePool e = true → e.extractLsb' 59 5 = 0 → pteLeaf e = true → level < 3 →
        (pteFault host level e = some 0x13 ↔ (e.extractLsb' 32 27).toNat % 2 ^ (9 * level) ≠ 0)
        ∧ (pteFault host level e = none ↔ (e.extractLsb' 32 27).toNat % 2 ^ (9 * level) = 0))
    ∧ (pteV e = true → ptePool e = false → e.extractLsb' 8 4 = 0 → e.extractLsb' 52 12 = 0 → pteLeaf e = true → level < 3 → host = true →
        (pteFault host level e = some 0x13 ↔ (e.extractLsb' 12 40).toNat % 2 ^ (9 * level) ≠ 0)
        ∧ (pteFault host level e = none ↔ (e.extractLsb' 12 40).toNat % 2 ^ (9 * level) = 0)))

/-- Jobs in the engine (R156, R157, R159, R161, R164, R165, R519): dispatch, the end of a block, the completion catcher, the retries, the quantum and the
budget, and what the capper lets issue. The combine unit and the landing windows (R223, R224, R225, R226, R228): what the unit does not take is denied,
a read goes to the DRAM, a contribution to the window of its chunk or to the DRAM; a queued one is absorbed, reported and lets the release go on; with 2,048 lines merged the
window is given up, and a chunk of a tile under test or disabled is placed again.
The choices of the model that it rests on: log entries 1, 48, 51, 53, 54, 74, 92. -/
def Obligations.EngineRows : Prop :=
  (∀ (t : Fin 32) (k : Nat) (s : State), s.engineFree t.val = true → s.selects t.val = some k →
    exec (.dispatch t) s = .next (s.runJob t.val k))
  ∧ (∀ (t : Fin 32) (s : State), s.engineFree t.val = false ∨ s.selects t.val = none → exec (.dispatch t) s = .next s)
  ∧ (∀ (t : Fin 32) (e p : Nat) (s : State), (s.tile t.val).srun.isSome = true →
    exec (.blockEnd t e p) s = .next (s.schedBlock t.val (s.pwr.issue true e) (s.pwr.issue true p)))
  ∧ (∀ (t : Fin 32) (e p k : Nat) (s : State), (s.tile t.val).srun = none → (s.tile t.val).running = some k →
    exec (.blockEnd t e p) s = .next (((s.jobBlock t.val k (s.pwr.issue false e) (s.pwr.issue false p)).startDue t.val).invalCheck))
  ∧ (∀ (t : Fin 32) (r : SRun) (d : EDone) (l : List EDone) (s : State), (s.tile t.val).srun = some r → r.eng.done = d :: l →
    exec (.engineAccessComplete t) s = .next (s.opDone t.val r d))
  ∧ (∀ (t : Fin 32) (k : Nat) (d : EDone) (l : List EDone) (s : State), (s.tile t.val).srun = none →
      (s.tile t.val).slots.find? (fun k => !((s.tile t.val).job k).eng.done.isEmpty) = some k → ((s.tile t.val).job k).eng.done = d :: l →
    exec (.engineAccessComplete t) s = .next (s.jobDone t.val k d))
  ∧ (∀ (t : Fin 32) (r : SRun) (a : EAcc) (d : Desc) (s u : State), (s.tile t.val).srun = some r → r.eng.failed = false →
      s.pwr.issue true 1 ≠ 0 → r.eng.retry.find? (fun a => decide (a.readyAt ≤ s.now) && r.mayIssue a) = some a → r.ent.descOf a.slot a.write = some d →
      (s.modRun t.val fun e => { e with retry := e.retry.erase a }).issueSched t.val r d a = (u, true) →
    exec (.engineRetryReissue t) s = .next u)
  ∧ (∀ (t : Fin 32) (k : Nat) (a : EAcc) (s u : State), (s.tile t.val).srun = none → (s.tile t.val).running = some k →
      s.pwr.issue false 1 ≠ 0 → (s.job t.val k).st = .running → (s.job t.val k).eng.retry.find? (fun a => decide (a.readyAt ≤ s.now)) = some a →
      (s.modJob t.val k fun j => { j with eng := { j.eng with retry := j.eng.retry.erase a } }).issueJob t.val k a = .sent u →
    exec (.engineRetryReissue t) s = .next u)
  ∧ (∀ (t : Fin 32) (s : State), s.pwr.issue (s.tile t.val).srun.isSome 1 = 0 → exec (.engineRetryReissue t) s = .next s)
  ∧ (∀ (t : Fin 32) (k : Nat) (s : State), (s.tile t.val).running = some k → (s.job t.val k).budget ≠ 0 →
      (s.job t.val k).budget * 1000 ≤ (s.job t.val k).engNs + (s.hubNs - (s.job t.val k).eng.blockFt) → (s.job t.val k).mark = none →
    exec (.budgetExhausted t) s = .next (s.modJob t.val k fun j => { j with mark := some 5 }))
  ∧ (∀ (t : Fin 32) (k i : Nat) (s : State), (s.tile t.val).running = some k →
      1000000 ≤ (s.job t.val k).quantNs + (s.now - (s.job t.val k).eng.blockAt) → i ∈ s.candidates t.val →
      cidPart (s.job t.val i).cid ≠ cidPart (s.job t.val k).cid →
    exec (.quantumExpiry t) s = .next (s.modJob t.val k fun j =>
      if j.st = .running then { j with st := .stopping, stop := .quantum } else { j with quantum := true }))
  ∧ (∀ (t : Fin 32) (k : Nat) (s : State), (s.tile t.val).running = some k →
      1000000 ≤ (s.job t.val k).quantNs + (s.now - (s.job t.val k).eng.blockAt) →
      (∀ i ∈ s.candidates t.val, cidPart (s.job t.val i).cid = cidPart (s.job t.val k).cid) →
    exec (.quantumExpiry t) s = .next
      (let d := s.now - (s.job t.val k).eng.blockAt
       (s.time (tileBlk t.val) 0 d).modJob t.val k fun j =>
         { j with quantNs := 0, engNs := j.engNs + (s.hubNs - (s.job t.val k).eng.blockFt)
                  eng := { j.eng with blockAt := s.now, blockFt := s.hubNs } }))
  ∧ (∀ (p : Pwr) (m : Nat), p.issue true m = (if p.schedThr = 16 then 0 else m)
    ∧ p.issue false m = if p.schedThr ≠ 0 ∨ (p.level = 1 ∧ p.step = 15) then 0 else m)
  ∧ (∀ (t : Fin 32) (x : Landed) (l : List Landed) (s : State), (s.tile t.val).lands = x :: l →
    exec (.landingAbsorb t) s = .next
      ((((((s.modTile t.val fun y => { y with lands := l }).modTile t.val fun y =>
          absorbIn (s.comb (s.ext x.req.ext).protRef.toNat) (s.land (16 * t.val + x.win)).anchor.toNat x.win x.req.pkt y).bump
        (tileBlk t.val) 8).finish x.req stOk).mergeNext t.val x.win)))
  ∧ (∀ (t : Fin 32) (s : State), (s.tile t.val).lands = [] → exec (.landingAbsorb t) s = .next s)
  ∧ (∀ (r : Req) (s : State),
    let x := s.ext r.ext
    let c := s.comb x.protRef.toNat
    (s.combOk x r.pkt = false → s.combine r = s.finish r stDenied)
    ∧ (c.valid = false ∨ c.clearing = true → s.combOk x r.pkt = false)
    ∧ (s.combOk x r.pkt = true → r.pkt.opc = oRdOnce → s.combine r = s.toDram { r with act := .combRead, cost := 128 })
    ∧ (∀ t w, s.combOk x r.pkt = true → r.pkt.opc ≠ oRdOnce → s.landing r.ext c r.pkt = some (t, w) →
      s.combine r = s.modTile t fun y => { y with lands := y.lands ++ [{ win := w, req := r }] })
    ∧ (s.combOk x r.pkt = true → r.pkt.opc ≠ oRdOnce → s.landing r.ext c r.pkt = none → s.combine r = (s.lateCount r.ext c r.pkt).dramPath r c))
  ∧ (∀ (t : Fin 32) (w : Fin 16) (s : State), (s.land (16 * t.val + w.val)).v = true → (s.land (16 * t.val + w.val)).draining = true →
      tget 0 (s.tile t.val).consumed w.val = 2048 →
    exec (.chunkReleaseDone t w) s = .next
      ((((s.bump (stageBlk (t.val / 8)) 1).dropWin t.val w.val).replaceChunk t.val (s.land (16 * t.val + w.val)).ext
        (s.land (16 * t.val + w.val)).chunk).placeLands))

/-- Known-answer tests (R499 to R504, R514): due after 256 jobs or ten minutes, or after a second of a suspect tile; started on an engine that is
idle and whose windows are released; between segments a due operation runs; the result decides the tile's health: the first failure makes it
SUSPECT with one failure counted, the third of an episode is to disable it, and a pass counts in a suspect episode only.
The choices of the model that it rests on: log entries 1, 54, 67, 81, 91. -/
def Obligations.TestRows : Prop :=
  (∀ (t : Fin 32) (s : State), s.stew.released = true → s.tileDead t.val = false → (s.tile t.val).kat.due = false →
      (s.tile t.val).kat.running = false → (s.tile t.val).kat.jobs = 256 ∨ (s.tile t.val).kat.lastNs + 600000000000 ≤ s.ftNs →
    exec (.katDue t) s = .next (s.modTile t.val fun x => { x with kat := { x.kat with due := true, trigger := 0 } }))
  ∧ (∀ (t : Fin 32) (s : State), s.tileEn t.val = true → (s.tile t.val).kat.health = 1 → (s.tile t.val).kat.due = false →
      (s.tile t.val).kat.running = false → (s.tile t.val).kat.lastNs + 1000000000 ≤ s.ftNs →
    exec (.suspectTestDue t) s = .next (s.modTile t.val fun x => { x with kat := { x.kat with due := true, trigger := 1 } }))
  ∧ (∀ (t : Fin 32) (s : State), (s.tile t.val).kat.due = true → (s.tile t.val).kat.running = false → s.tileDead t.val = false →
      (s.tile t.val).running = none → (s.tile t.val).srun = none → (s.tile t.val).swait = [] → (s.tile t.val).gated = false →
      (∀ w, w < 16 → (s.land (16 * t.val + w)).v = true → (s.land (16 * t.val + w)).sched = true) →
    exec (.katStart t) s = .next (((s.modTile t.val fun x => { x with kat := { x.kat with
      due := false, running := true, paused := false, began := s.ftNs, segAt := s.now, covers := (s.tile t.val).heldJobs } }).march t.val).bump
        (tileBlk t.val) 14))
  ∧ (∀ (t : Fin 32) (s : State), (s.tile t.val).kat.running = true → (s.tile t.val).kat.paused = false → ∃ u : State,
      u = ((s.katTime t.val).modTile t.val fun x => { x with kat := { x.kat with paused := true } }).startDue t.val
      ∧ exec (.katSegmentEnd t) s = .next (if (u.tile t.val).srun.isSome then u
          else u.modTile t.val fun x => { x with kat := { x.kat with paused := false, segAt := u.now } }))
  ∧ (∀ (t : Fin 32) (s : State), (s.tile t.val).kat.running = true →
    exec (.katEnd t .pass) s
      = .next ((s.modTile t.val fun x => { x with kat := { x.kat with outs := s.katOuts .pass } }).katFinish t.val true fun _ => none))
  ∧ (∀ (t : Fin 32) (a : Byte) (b : BitVec 32) (c d : BitVec 64) (s : State), (s.tile t.val).kat.running = true →
    (s.katFails b c d = false → exec (.katEnd t (.fail a b c d)) s = .next s)
    ∧ (s.katFails b c d = true → ∃ f : Nat → Option ErrRec,
      exec (.katEnd t (.fail a b c d)) s = .next ((s.modTile t.val fun x =>
          { x with kat := { x.kat with outs := s.katOuts (.fail a b c d) } }).katFinish t.val false f)
      ∧ ∀ n, ∃ r, f n = some r ∧ r.cause = 0x41 ∧ r.sev = 2 ∧ r.unit = BitVec.ofNat 16 (0x1000 + t.val)))
  ∧ (∀ (t : Fin 32) (b : Byte) (s : State), (s.tile t.val).running = none → (s.tile t.val).srun = none →
      (s.tile t.val).kat.running = true → (s.tile t.val).kat.paused = false →
    exec (.engineFault t b) s = .next (((s.logErr { engineFaultRec t.val 0xFFFFFFFF 0 0 b.toNat 0 0 with part := none }).bump
      (tileBlk t.val) 16).katFinish t.val false fun _ => none))
  ∧ (∀ (t : Fin 32) (b : Byte) (k : Nat) (s : State), (s.tile t.val).running = some k → (s.job t.val k).mark = none →
      (s.tile t.val).kat.health ≠ 1 → ∃ u : State,
    exec (.engineFault t b) s = .next u
      ∧ u = (((((s.logErr (engineFaultRec t.val (jobId t.val k (s.job t.val k))
            (opcAt (s.job t.val k).op ((s.job t.val k).nstage - 1)) ((s.job t.val k).nstage - 1) b.toNat (s.job t.val k).eng.elem
            (cidPart (s.job t.val k).cid))).bump (tileBlk t.val) 16).tileFails t.val).1).endRun t.val k 6 0
          ((s.job t.val k).nstage - 1) 0 none).startDue t.val)
  ∧ (∀ (n : Nat) (s : State), (s.tile n).kat.fails ≤ 3 →
    (((s.tileFails n).1.tile n).kat.health = 1 ∧ ((s.tileFails n).1.tile n).kat.passes = 0
      ∧ ((s.tileFails n).1.tile n).kat.lastFail = s.now
      ∧ ((s.tileFails n).1.tile n).kat.fails = if (s.tile n).kat.health = 0 then 1 else min 3 ((s.tile n).kat.fails + 1))
    ∧ ((s.tileFails n).2 = true ↔ (s.tile n).kat.health = 1 ∧ 2 ≤ (s.tile n).kat.fails)
    ∧ ((s.tile n).kat.health ≠ 1 → s.katPass n = s)
    ∧ ((s.tile n).kat.health = 1 → (s.tile n).kat.passes < 63 →
        s.katPass n = s.modTile n fun t => { t with kat := { (s.tile n).kat with passes := (s.tile n).kat.passes + 1 } }))

/-! ### Schedules (chapter 08) -/

/-- The life of an image (R240, R253, R269, R444): armed steps complete and the takeover is pending; at T_x, by every replica, the image takes over
or the no-image state does; an arming still incomplete 100 µs before T_x is given up; after a loss of synchronisation STATE is IDLE when the
last operation has ended. The choices of the model that it rests on: log entries 1, 61, 62. -/
def Obligations.ImageRows : Prop :=
  (∀ (im : Image) (s : State), s.sched.next = some im → s.sched.pending = false → s.winsFreed = true → s.ftNs + 100000 < s.sched.tx →
    exec .armStepsDone s = .next ({ s with sched := { s.sched with pending := true, loaded := true, armToken := none } }.wake .arm))
  ∧ (∀ (im : Image) (s : State), s.sched.next = some im → s.sched.pending = false → s.sched.tx ≤ s.ftNs + 100000 →
    exec .armLateDeadline s = .next
      (((s.abandonArm csArmLate).each (s.abandonArm csArmLate).tileList fun s n => s.modTile n fun t => { t with staged := {} }).schedEvent
        2 im.id 0 (((s.abandonArm csArmLate).each (s.abandonArm csArmLate).tileList fun s n =>
          s.modTile n fun t => { t with staged := {} }).cycleNo)))
  ∧ (∀ (im : Image) (s : State), s.sched.pending = true → s.sched.next = some im → s.sched.tx ≤ s.tileNs → s.sched.tx ≤ s.hubNs →
      (∀ d ∈ s.dieList, s.sched.tx ≤ s.dieNs d) →
    exec .schedTakeover s = .next (s.takeover im))
  ∧ (∀ s : State, s.sched.pending = true → s.sched.next = none → s.sched.disarm = true → s.sched.tx ≤ s.tileNs → s.sched.tx ≤ s.hubNs →
      (∀ d ∈ s.dieList, s.sched.tx ≤ s.dieNs d) →
    exec .schedTakeover s = .next s.disarm)
  ∧ (∀ s : State, s.tileNs < s.sched.tx → exec .schedTakeover s = .next s)
  ∧ (∀ s : State, s.sched.syncLost = true → s.landsDrain = false → (∀ n ∈ s.tileList, (s.tile n).srun = none) → ∃ t : State,
    exec .schedIdleAfterLoss s = .next t ∧ t.sched.syncLost = false ∧ t.sched.staged = true
      ∧ t.sched.stagedImg = (if s.sched.staged then s.sched.stagedImg else s.sched.armedImg) ∧ t.dram = s.dram ∧ t.pwr = s.pwr)

/-- Gates and operations of a running image (R243, R255, R258 to R261): at the next cycle start every list begins again; within a cycle a gate
moves on when its entry's duration has passed; an entry that falls due waits for the engine, or is skipped and counted while it still runs;
an operation past its deadline is counted once. The choices of the model that it rests on: log entries 1, 43, 61, 62. -/
def Obligations.RunningRows : Prop :=
  (∀ (im : Image) (s : State), s.sched.running = some im → (∀ d ∈ s.dieList, s.sched.lastSwitch + 16 * max 1 im.cycle ≤ s.dieNs d) →
    exec .listSwitch s = .next
      (let b := s.sched.lastSwitch + 16 * max 1 im.cycle
       let u := ({ s with sched := { s.sched with lastSwitch := b } }).each im.lists fun s e => s.gateMove e.1 e.2 0 b
       u.columns im u.cycleNo b))
  ∧ (∀ s : State, s.sched.running = none → exec .listSwitch s = .next s)
  ∧ (∀ (p : Fin 17) (l : List GateEntry) (e : GateEntry) (s : State), s.gateList p.val = some l → l[(s.port p.val).gateIdx]? = some e →
      (s.port p.val).gateStart + 16 * e.dur ≤ s.dieNs (p.val / 4) → (s.port p.val).gateIdx + 1 < l.length →
    exec (.gateEntryBoundary p) s
      = .next (s.gateMove p.val l ((s.port p.val).gateIdx + 1) ((s.port p.val).gateStart + 16 * e.dur)))
  ∧ (∀ (t : Fin 32) (i : Fin 512) (im : Image) (e : SEntry) (k : Nat) (s : State), s.sched.running = some im →
      (s.tile t.val).armed.entries[i.val]? = some e → k = (s.tileNs - s.sched.runStart) / (16 * max 1 im.cycle) → e.valid = true →
      s.sched.runStart + k * (16 * max 1 im.cycle) + 16 * e.start ≤ s.tileNs → k % max 1 e.every = e.phase →
      tget 0 (s.tile t.val).fired i.val ≠ k + 1 → s.sched.pending = false →
      ((∀ x ∈ (s.tile t.val).swait, x.1 ≠ i.val) → (s.tile t.val).srun = none →
        exec (.schedOpDue t i) s = .next
          ((((((s.modTile t.val fun x => { x with fired := tput 0 x.fired i.val (k + 1) }).modTile t.val fun x =>
            { x with swait := x.swait ++ [(i.val, k)] }).setLate t.val e).askStop t.val .sched).startDue t.val)))
      ∧ ((∃ x ∈ (s.tile t.val).swait, x.1 = i.val) →
        exec (.schedOpDue t i) s = .next
          (((s.modTile t.val fun x => { x with fired := tput 0 x.fired i.val (k + 1) }).bump (tileBlk t.val) 11).schedEvent 4 im.id t.val k)))
  ∧ (∀ (t : Fin 32) (r : SRun) (s : State), (s.tile t.val).srun = some r → r.overrun = false → r.deadline ≤ s.tileNs →
    exec (.schedOpDeadline t) s = .next
      (((s.modTile t.val fun x => { x with srun := some { r with overrun := true } }).bump (tileBlk t.val) 10).schedEvent 3 s.imageId
        t.val s.cycleNo))
  ∧ (∀ (t : Fin 32) (r : SRun) (s : State), (s.tile t.val).srun = some r → r.overrun = true → exec (.schedOpDeadline t) s = .next s)

/-! ### Links (chapter 10) -/

/-- Training (R296, R297, R298, R354, R529): a DOWN port with EN starts; steps follow one another, the fourth with every lane good and a PARAM
sent; a failure or a step past its bound is DOWN with cause 7; a valid PARAM at step 5 is UP, an invalid one DOWN with cause 8.
The choices of the model that it rests on: log entries 1, 4, 21, 81, 86. -/
def Obligations.TrainingRows : Prop :=
  (∀ (p : Fin 17) (g : TrainTrigger) (s : State), s.portEn p.val = true → s.portsOn = true → (s.port p.val).state = 1 → (s.port p.val).en = true →
      g = .signal p ∨ (g = .retry p ∧ (s.port p.val).retryDue s.now = true) →
    exec (.trainingStart g) s
      = .next (s.setPort p.val { s.port p.val with state := 2, train := { step := 1, at_ := s.now }, lctl := [] }))
  ∧ (∀ (p : Fin 17) (g : TrainTrigger) (s : State),
      ((g = .signal p ∨ g = .retry p) ∧ (s.port p.val).state ≠ 1) ∨ (g = .retry p ∧ (s.port p.val).retryDue s.now = false) →
    exec (.trainingStart g) s = .next s)
  ∧ (∀ (x : Port) (now : Nat), x.retryDue now = true
    ↔ x.auto = true ∧ (x.lastDown = 0 ∨ x.lastDown = 6 ∨ x.downAt + 100000000 ≤ now))
  ∧ (∀ (p : Fin 17) (v : BitVec 16) (l : Byte) (s : State), (s.port p.val).state = 2 → (s.port p.val).train.step = 1 →
    exec (.trainingStepDone p (.ok v l)) s = .next (s.setPort p.val { s.port p.val with train := { (s.port p.val).train with
      step := 2, at_ := s.now, short := s.shortTraining p.val v, marker := v } }))
  ∧ (∀ (p : Nat) (v : BitVec 16) (s : State), (s.shortTraining p v = true ↔
      (s.marker p).getLsbD 12 = true ∧ v.getLsbD 12 = true ∧ (s.port p).coeffEid = v.extractLsb' 0 12)
    ∧ (s.marker p).extractLsb' 0 12 = s.node.eid ∧ (s.marker p).getLsbD 12 = ((s.port p).shortOk && (s.port p).coeffs))
  ∧ (∀ (p : Fin 17) (v : BitVec 16) (l : Byte) (s : State), (s.port p.val).state = 2 → (s.port p.val).train.step = 2 →
    exec (.trainingStepDone p (.ok v l)) s = .next (s.setPort p.val { s.port p.val with
      train := { (s.port p.val).train with step := 3, at_ := s.now }, coeffs := true
      coeffEid := (s.port p.val).train.marker.extractLsb' 0 12 }))
  ∧ (∀ (p : Fin 17) (v : BitVec 16) (s : State), (s.port p.val).state = 2 → (s.port p.val).train.step = 4 →
    exec (.trainingStepDone p (.ok v 0xFF)) s = .next (s.setPort p.val { s.port p.val with
      train := { (s.port p.val).train with step := 5, at_ := s.now }, laneOk := 0xFF
      lctl := (s.port p.val).lctl ++ [lctlFlit (ownParam s p.val).flitBody] }))
  ∧ (∀ (p : Fin 17) (v : BitVec 16) (l : Byte) (s u : State), (s.port p.val).state = 2 → (s.port p.val).train.step = 5 →
      u = s.setPort p.val { s.port p.val with rtt := v, train := { (s.port p.val).train with gotRtt := true } } →
    exec (.trainingStepDone p (.ok v l)) s = .next (if (s.port p.val).train.gotParam then u.portUp p.val else u))
  ∧ (∀ (p : Fin 17) (l : Byte) (s : State), (s.port p.val).state = 2 →
    exec (.trainingStepDone p (.failed l)) s = .next ((s.modPort p.val fun x => if x.train.step = 4 then { x with laneOk := l } else x).modPort
      p.val fun x => { x with state := 1, lastDown := 7, train := {}, lctl := [], downAt := s.now }))
  ∧ (∀ (p : Fin 17) (s : State), (s.port p.val).state = 2 →
      (s.port p.val).train.at_ + stepBound (s.port p.val).train.step (s.port p.val).train.short < s.now →
    exec (.trainingStepTimeout p) s = .next (s.setPort p.val { s.port p.val with
      state := 1, lastDown := 7, train := {}, lctl := [], downAt := s.now }))
  ∧ (∀ (p : Fin 17) (b : ParamBody) (s : State), (s.port p.val).state = 2 → (s.port p.val).train.step = 5 → paramBodyOk p.val b = false →
    exec (.param p b) s = .next (s.setPort p.val { s.port p.val with
      state := 1, lastDown := 8, train := {}, lctl := [], downAt := s.now }))
  ∧ (∀ (p : Fin 17) (b : ParamBody) (s u : State), p.val < 16 → (s.port p.val).state = 2 → (s.port p.val).train.step = 5 →
      paramBodyOk p.val b = true → u = s.setPort p.val { s.port p.val with
        train := { (s.port p.val).train with gotParam := true }, peerEid := b.eid, peerCaps := b.caps
        credReq := b.credReq.setWidth 15, credRsp := b.credRsp.setWidth 15, credSnp := 0
        cred := tput 0 (tput 0 (tput 0 [] 0 b.credReq.toNat) 1 b.credRsp.toNat) 2 0 } →
    exec (.param p b) s = .next (if (s.port p.val).train.gotRtt then u.portUp p.val else u))
  ∧ ∀ (p : Nat) (s : State), p < 16 → s.portUp p = s.modPort p fun x =>
    { x with state := 3, train := {}, shortOk := false, nextSeq := 0, lastAck := 0xFFFF, exp := 0, crr := 0, crs := 0, crn := 0
             lastBlock := s.now, lastData := s.now, tsxAt := s.now }

/-- Retrain and link-down (R296, R307, R308, R310, R524): a trigger in UP starts a retrain, the fourth within 100 ms takes the port down; steps
lead to RESUME; a failure, 50 µs, 2 µs without a block, or DOWN take the port down; an idle port in D1 listens.
The choices of the model that it rests on: log entries 1, 4, 40, 41. -/
def Obligations.RetrainRows : Prop :=
  (∀ (p : Fin 17) (c : RetrainCause) (s : State), p.val < 16 → (s.port p.val).triggered c = true → (s.port p.val).state = 3 →
      ((s.port p.val).retrains.filter fun t => decide (s.now < t + 100000000)).length < 3 →
    exec (.retrainTrigger p c) s = .next ((s.setPort p.val { s.port p.val with
      state := 4, retrainCause := c.code, protoErr := false, gotResume := none, train := { step := 1, at_ := s.now }
      retrains := ((s.port p.val).retrains.filter fun t => decide (s.now < t + 100000000)) ++ [s.now]
      lctl := ((s.port p.val).lctl.filter fun f => !isTsx f) ++ if c = .peer then [] else [retrainReqFlit c.code.toNat] }).bump (portBlk p.val) 8))
  ∧ (∀ (p : Fin 17) (c : RetrainCause) (s : State), (s.port p.val).triggered c = true → (s.port p.val).state = 3 →
      3 ≤ ((s.port p.val).retrains.filter fun t => decide (s.now < t + 100000000)).length →
    exec (.retrainTrigger p c) s = .next ((s.setPort p.val { s.port p.val with retrainCause := c.code }).linkDown p.val 3))
  ∧ (∀ (p : Fin 17) (b : Byte) (s : State), p.val < 16 → (s.port p.val).state = 3 →
      ((s.port p.val).retrains.filter fun t => decide (s.now < t + 100000000)).length < 3 → ∃ t : State,
    exec (.retrainReq p b) s = .next t ∧ (t.port p.val).state = 4 ∧ (t.port p.val).retrainCause = 6 ∧ (t.port p.val).train.step = 1
      ∧ (t.port p.val).store = (s.port p.val).store ∧ t.dram = s.dram ∧ t.qor = s.qor)
  ∧ (∀ (p : Fin 17) (v : BitVec 16) (l : Byte) (s : State), (s.port p.val).state = 4 → (s.port p.val).train.step + 1 < 5 →
    exec (.retrainStepDone p (.ok v l)) s = .next (s.setPort p.val { s.port p.val with
      train := { (s.port p.val).train with step := (s.port p.val).train.step + 1 } }))
  ∧ (∀ (p : Fin 17) (v : BitVec 16) (s : State), (s.port p.val).state = 4 → (s.port p.val).train.step = 4 → (s.port p.val).gotResume = none →
    exec (.retrainStepDone p (.ok v 0xFF)) s = .next (s.setPort p.val { s.port p.val with
      train := { (s.port p.val).train with step := 5 }, laneOk := 0xFF, lctl := (s.port p.val).lctl ++ [resumeFlit] }))
  ∧ (∀ (p : Fin 17) (l : Byte) (s : State), (s.port p.val).state = 4 → (s.port p.val).train.step < 5 →
    exec (.retrainStepDone p (.failed l)) s
      = .next ((if (s.port p.val).train.step = 4 then s.setPort p.val { s.port p.val with laneOk := l } else s).linkDown p.val 2))
  ∧ (∀ (p : Fin 17) (a : BitVec 16) (s : State), (s.port p.val).state = 4 → (s.port p.val).train.step ≠ 5 →
    exec (.resume p a) s = .next (s.setPort p.val { s.port p.val with gotResume := some (a, []) }))
  ∧ (∀ (p : Fin 17) (a : BitVec 16) (s : State), (s.port p.val).state = 4 → (s.port p.val).train.step = 5 →
    exec (.resume p a) s = .next (s.resumed p.val (a, [])))
  ∧ (∀ (p : Nat) (h : BitVec 16 × List (Nat × BitVec 16)) (s : State), s.resumeHeader p h = none →
    s.resumed p h = (s.bump (portBlk p) 10).linkDown p 9)
  ∧ (∀ (p : Fin 17) (s : State), (s.port p.val).state = 4 → (s.port p.val).train.at_ + 50000 < s.now →
    exec (.retrainTimeout p) s = .next (s.linkDown p.val 2))
  ∧ (∀ (p : Fin 17) (s : State), (s.port p.val).state = 3 ∨ (s.port p.val).state = 4 → (s.port p.val).lastBlock + 2000 ≤ s.now →
    exec (.signalLost p) s = .next (s.linkDown p.val 1))
  ∧ (∀ (p : Fin 17) (r : Byte) (s : State), (s.port p.val).state = 3 ∨ (s.port p.val).state = 4 →
    exec (.down p r) s = .next ((s.setPort p.val { s.port p.val with shortOk := r = 0 }).linkDown p.val 5))
  ∧ (∀ (p : Fin 17) (r : Byte) (s : State), (s.port p.val).state ≠ 3 → (s.port p.val).state ≠ 4 → exec (.down p r) s = .next s)
  ∧ (∀ (p : Fin 17) (s : State), s.pwr.state = 1 → (s.port p.val).state = 3 → (s.port p.val).lastData + 100000 ≤ s.now →
      (s.port p.val).store = [] → s.frameQueued p.val = false →
    exec (.portListenIdle p) s = .next (s.setPort p.val { s.port p.val with listening := true }))

/-- What a flit does (R293, R295, R299): a bad CRC is counted and asks for a replay in UP; in UP and RETRAIN the header's ACK and credits are applied
first, in UP then its NAK, which is counted and starts a replay, and its DATA; a DATA flit out of order is dropped as a duplicate or asks for a
replay; LCTL messages have their effect in every state, and a reserved one is counted; an IDLE flit has its header alone.
The choices of the model that it rests on: log entries 1, 16, 40. -/
def Obligations.FlitRows : Prop :=
  (∀ (p : Fin 17) (f : Flit) (s : State), (s.port p.val).state.toNat < 2 → exec (.flitReceive p f) s = .next s)
  ∧ (∀ (p : Fin 17) (f : Flit) (s : State), f.crcOk = false → (s.port p.val).state = 2 ∨ (s.port p.val).state = 4 →
    exec (.flitReceive p f) s = .next (s.bump (portBlk p.val) 2))
  ∧ (∀ (p : Fin 17) (f : Flit) (s : State), f.crcOk = false → (s.port p.val).state = 3 →
    exec (.flitReceive p f) s = .next ((s.bump (portBlk p.val) 2).setNak p.val))
  ∧ (∀ (p : Fin 17) (f : Flit) (s : State), f.crcOk = true → f.typ = 3 → (s.port p.val).state = 3 →
    exec (.flitReceive p f) s = .next ((s.modPort p.val fun x => { x with protoErr := true }).bump (portBlk p.val) 10))
  ∧ (∀ (p : Fin 17) (f : Flit) (s : State), f.crcOk = true → f.typ = 2 →
      (s.port p.val).state = 2 ∨ ((s.port p.val).state = 4 ∧ f.byte 0 = 4) →
    exec (.flitReceive p f) s = .next (s.lctlIn p.val f))
  ∧ (∀ (p : Fin 17) (f : Flit) (s : State), f.crcOk = true → f.typ = 2 → (s.port p.val).state = 4 → f.byte 0 ≠ 4 →
    exec (.flitReceive p f) s = .next ((s.applyHeader p.val f).lctlIn p.val f))
  ∧ (∀ (p : Fin 17) (f : Flit) (s : State), f.crcOk = true → f.typ = 1 → f.nak = false → (s.port p.val).state = 3 →
    exec (.flitReceive p f) s = .next ((s.applyHeader p.val f).dataIn p.val f))
  ∧ (∀ (p : Fin 17) (f : Flit) (s : State), f.crcOk = true → f.typ = 1 → f.nak = true → (s.port p.val).state = 3 →
    exec (.flitReceive p f) s = .next (((s.applyHeader p.val f).nakIn p.val f.ack).dataIn p.val f))
  ∧ (∀ (p : Fin 17) (f : Flit) (s : State), f.crcOk = true → f.typ = 2 → (s.port p.val).state = 3 →
    (f.nak = false → exec (.flitReceive p f) s = .next ((s.applyHeader p.val f).lctlIn p.val f))
    ∧ (f.nak = true → exec (.flitReceive p f) s = .next (((s.applyHeader p.val f).nakIn p.val f.ack).lctlIn p.val f)))
  ∧ (∀ (p : Fin 17) (f : Flit) (s : State), f.crcOk = true → f.typ = 0 →
    ((s.port p.val).state = 3 → f.nak = false → exec (.flitReceive p f) s = .next (s.applyHeader p.val f))
    ∧ ((s.port p.val).state = 3 → f.nak = true → exec (.flitReceive p f) s = .next ((s.applyHeader p.val f).nakIn p.val f.ack))
    ∧ ((s.port p.val).state = 4 → exec (.flitReceive p f) s = .next (s.applyHeader p.val f))
    ∧ ((s.port p.val).state = 2 → exec (.flitReceive p f) s = .next s))
  ∧ (∀ (p : Nat) (a : BitVec 16) (s : State),
    let x := s.port p
    let u := (s.bump (portBlk p) 4).setPort p { x with nakSame := if x.lastNak = some a then x.nakSame + 1 else 1, lastNak := some a }
    (x.replayAck = none → s.nakIn p a = u.startReplay p)
    ∧ (∀ b t, x.replayAck = some (b, t) → b = a → s.now < t + x.rtt.toNat → s.nakIn p a = u)
    ∧ (∀ b t, x.replayAck = some (b, t) → b ≠ a ∨ t + x.rtt.toNat ≤ s.now → s.nakIn p a = u.startReplay p))
  ∧ (∀ (p : Nat) (f : Flit) (s : State), p < 16 → 0 < seqDiff f.seq (s.port p).exp → s.dataIn p f = s.setNak p)
  ∧ (∀ (p : Nat) (f : Flit) (s : State), p < 16 → seqDiff f.seq (s.port p).exp < 0 → s.dataIn p f = s)
  ∧ (∀ (p : Nat) (f : Flit) (s : State), p < 16 → seqDiff f.seq (s.port p).exp = 0 → s.dataIn p f = s.acceptFlit p f)
  ∧ (∀ (p : Nat) (f : Flit) (s : State), 5 < (f.byte 0).toNat ∨ (f.byte 0).toNat = 0 → s.lctlIn p f = s.bump (portBlk p) 13)

/-- Blocks, frames, replay and spill (R274, R290, R291, R299, R302): a good block hands on its five flits, a bad one is counted and asks for a
replay; a port in UP starts frames, and sends a block while it has something to send; replays restart after their time.
The choices of the model that it rests on: log entries 1, 16, 40, 44, 85. -/
def Obligations.BlockRows : Prop :=
  (∀ (p : Fin 17) (b : FecBlock) (s : State), 2 ≤ (s.port p.val).state.toNat → b.bad0 = false → b.bad1 = false → ∃ x : Port,
    exec (.fecBlockReceive p b) s = .next
      ((if b.corrected = [] then s.setPort p.val x else (s.setPort p.val x).bumpBy (portBlk p.val + 8) b.corrected.length).each
        [b.f0, b.f1, b.f2, b.f3, b.f4] fun s f => s.flitIn p.val f)
      ∧ x.lastBlock = s.now ∧ x.state = (s.port p.val).state ∧ x.exp = (s.port p.val).exp ∧ x.store = (s.port p.val).store)
  ∧ (∀ (p : Fin 17) (b : FecBlock) (s : State), (s.port p.val).state = 3 → b.bad0 = true ∨ b.bad1 = true → ∃ x : Port,
    exec (.fecBlockReceive p b) s = .next
      (((if b.corrected = [] then s.setPort p.val x else (s.setPort p.val x).bumpBy (portBlk p.val + 8) b.corrected.length).bumpBy
        (portBlk p.val + 16) (b2n b.bad0 + b2n b.bad1)).setNak p.val)
      ∧ x.lastBlock = (s.port p.val).lastBlock ∧ x.state = 3 ∧ x.exp = (s.port p.val).exp ∧ x.store = (s.port p.val).store)
  ∧ (∀ (p : Fin 17) (s : State), p.val < 16 → (s.port p.val).state = 3 → (s.port p.val).replay = none →
      (∀ f ∈ (s.port p.val).store, f.sentAt ≠ none) →
    exec (.portFrameStart p) s = .next (s.svaopFrame p.val))
  ∧ (∀ (s : State), (s.port 16).state = 3 → (s.port 16).replay = none → (∀ f ∈ (s.port 16).store, f.sentAt ≠ none) →
    exec (.portFrameStart 16) s = .next s.qoreusFrame)
  ∧ (∀ (p : Fin 17) (s : State), (s.port p.val).state = 3 ∨ (s.port p.val).state = 4
      ∨ ((s.port p.val).state = 2 ∧ (s.port p.val).train.step = 5) →
    exec (.fecBlockTransmit p) s = .next (((s.setPort p.val { s.port p.val with
      fecCtr := (s.port p.val).fecCtr + 1, wire := [], wireAt := s.now }).each [0, 1, 2, 3, 4] fun s k => s.fillSlot p.val k).modPort
        p.val Port.sealBlock))
  ∧ (∀ (p : Fin 17) (s : State), (s.port p.val).state = 3 → (s.port p.val).nakHold = true →
      (s.port p.val).nakAt + 2000 + (s.port p.val).rtt.toNat ≤ s.now →
    exec (.nakRepeatTimer p) s = .next (s.setPort p.val { s.port p.val with nakSend := true, nakAt := s.now }))
  ∧ (∀ (p : Fin 17) (f : TxFlit) (l : List TxFlit) (t : Nat) (s : State), (s.port p.val).store = f :: l → f.sentAt = some t →
      (s.port p.val).state = 3 → (s.port p.val).replay = none → t + 8000 + (s.port p.val).rtt.toNat < s.now →
    exec (.replayTimeout p) s = .next (s.startReplay p.val))
  ∧ (∀ (p : Fin 17) (s : State), p.val < 16 → 2048 ≤ ((s.port p.val).store.filter fun f => !f.spill).length →
    exec (.spillWrite p) s = .next
      (let g := ((s.port p.val).store.filter fun f => !f.spill).take 8
       let l := (s.port p.val).store.map fun f => if g.any (·.seq = f.seq) then { f with spill := true } else f
       ((s.setPort p.val { s.port p.val with store := l }).bumpBy (portBlk p.val + 8 + 8 * 6) 8).each g fun s f => s.spillReq p.val f true))

/-! ### Qoreus and notifications (chapters 12 and 14) -/

/-- Qoreus and the notification engine (R358, R359, R363, R366, R413, R415): an answer of the host, or four pair timeouts, end the request of its
TAG; Qoreus in UP is greeted once, and the host becomes an agent or stops being one; staged records leave in order, while the device is in service,
and make room; a FAULT record is staged with the COUNT of that moment (R490).
The choices of the model that it rests on: log entries 1, 14, 65, 66. -/
def Obligations.HostRows : Prop :=
  (∀ (p : Packet) (q : HostReq) (s : State), s.turn p = true →
      (s.take p).2.qor.reqs.find? (fun q => q.tag = p.tag && q.write = true) = some q →
    exec (.mcmp p) s = .next ((s.take p).2.hostReqDone q (hostStatus p.stat) 0))
  ∧ (∀ (p : Packet) (q : HostReq) (s : State), s.turn p = true →
      (s.take p).2.qor.reqs.find? (fun q => q.tag = p.tag && q.write = false) = some q →
    exec (.mcmpData p) s = .next ((s.take p).2.hostReqDone q (hostStatus p.stat) p.data))
  ∧ (∀ (p : Packet) (s : State), s.turn p = true → s.qor.reqs = [] → exec (.mcmp p) s = .next (s.take p).2 ∧ exec (.mcmpData p) s = .next (s.take p).2)
  ∧ (∀ (t : BitVec 16) (q : HostReq) (s : State), s.qor.reqs.find? (·.tag = t) = some q → q.sentAt + 4 * s.pt ≤ s.now →
    exec (.hostMemoryTimeout t) s = .next (s.hostReqDone q stTimeout 0))
  ∧ (∀ s : State, (s.port 16).state = 3 → s.qor.linkUp = false → s.orphanScan = false → s.stewardUp = true → ∃ r : NtfRec,
      r.kind = 9 ∧ r.ft = s.stamp ∧ r.spec = BitVec.ofNat 160 (packBytes [(0, 6, tget 0 s.cnt.live (portBlk 16 + 8 + 8 * 16)),
        (6, 1, (s.port 16).lastDown.toNat)])
      ∧ exec .qoreusLinkUp s = .next
        (let u := ({ s with qor := { s.qor with linkUp := true } }).toHost (s.vecPkt 0 r)
         if s.qor.hostAgent = true ∧ s.qor.caching = true then { u.setAgent 0xFFE true with qor := { u.qor with leaving := false } }
         else if u.agent 0xFFE = true then ({ u with qor := { u.qor with leaving := true } }).sweepAll else u))
  ∧ (∀ s : State, s.qor.linkUp = true → exec .qoreusLinkUp s = .next s)
  ∧ (∀ (t : Fin 65) (r : NtfRec) (l : List NtfRec) (s : State), (s.ring t.val).recs = r :: l → ntfEn (s.ntfReg t.val) = true →
      s.inService = true → r.kind ≠ 0 →
    exec (.notifySend t) s = .next
      (let u := s.setRing t.val { s.ring t.val with recs := l, dropped := 0 }
       let q := { r with dropped := (s.ring t.val).dropped }
       if ntfHost (s.ntfReg t.val) then u.toHost (u.vecPkt (ntfTarget (s.ntfReg t.val)).toNat q)
       else u.send [] (u.notifyPkt t.val (ntfTarget (s.ntfReg t.val)) q)))
  ∧ (∀ (t : Fin 65) (r : NtfRec) (l : List NtfRec) (s : State), (s.ring t.val).recs = r :: l → ntfEn (s.ntfReg t.val) = true →
      s.inService = true → r.kind = 0 →
    exec (.notifySend t) s = .next
      (let u := s.setRing t.val { s.ring t.val with recs := l }
       if ntfHost (s.ntfReg t.val) then u.toHost (u.vecPkt (ntfTarget (s.ntfReg t.val)).toNat r)
       else u.send [] (u.notifyPkt t.val (ntfTarget (s.ntfReg t.val)) r)))
  ∧ (∀ (t : Fin 65) (s : State), (s.ring t.val).recs = [] ∨ ntfEn (s.ntfReg t.val) = false ∨ s.inService = false → exec (.notifySend t) s = .next s)
  ∧ (∀ (t : Fin 65) (r : NtfRec) (l : List (NtfRec × Option (Nat × Nat))) (s : State), (s.ring t.val).waiting = (r, none) :: l →
      (s.ring t.val).recs.length < 1024 →
    exec (.stagingPlaceFree t) s
      = .next (s.setRing t.val { s.ring t.val with recs := (s.ring t.val).recs ++ [s.staged r], waiting := l }))
  ∧ (∀ (t : Fin 65) (r : NtfRec) (n k : Nat) (l : List (NtfRec × Option (Nat × Nat))) (s : State),
      (s.ring t.val).waiting = (r, some (n, k)) :: l → (s.ring t.val).recs.length < 1024 →
    exec (.stagingPlaceFree t) s
      = .next (((s.setRing t.val { s.ring t.val with recs := (s.ring t.val).recs ++ [s.staged r], waiting := l }).slotFree n k).invalCheck))
  ∧ (∀ (r : NtfRec) (s : State), (r.kind ≠ 8 → s.staged r = r)
    ∧ (r.kind = 8 → s.staged r = { r with spec := BitVec.ofNat 160 (s.part (r.obj.toNat % 64)).fq.length }))

/-! ### The management cores (chapters 14 and 15) -/

/-- Takeovers (R419 to R424): a trigger releases a standby that is READY, which boots, presents the next claim number to the stages and becomes active,
a late write of the old core being refused by its claim; without one, or at the last claim number, no core serves; after the replay service resumes, and the old core becomes the standby or is FAILED. The switchover
commit (R453, R479, R480): when every other command has replied, or after 100 ms, confidential sessions end and the standby boots the staged
image; booted, it takes over under the next claim number, and the flash names the new image; a boot that fails leaves all as it was, without the
staged image. The choices of the model that it rests on: log entries 1, 68, 69, 81, 88. -/
def Obligations.CoreTakeoverRows : Prop :=
  (∀ s : State, s.stew.step ≠ .booting → s.stew.heartbeat + 20000000 ≤ s.now → s.stew.released = true → s.stew.noFw = false →
      s.pwr.state.toNat < 2 → s.stew.standby = 0 → s.stew.claim ≠ 0xFFFFFFFF →
    exec .heartbeatWatchdog s = .next { s with stew := { s.stew with standby := 1, lastCause := 1, step := .booting, heartbeat := s.now } })
  ∧ (∀ s : State, s.now < s.stew.heartbeat + 20000000 → exec .heartbeatWatchdog s = .next s)
  ∧ (∀ s : State, s.stew.released = true → s.stew.noFw = false → s.pwr.state.toNat < 2 → s.stew.standby = 0 → s.stew.claim ≠ 0xFFFFFFFF →
    exec .coreFault s = .next { s with stew := { s.stew with standby := 1, lastCause := 2, step := .booting, heartbeat := s.now } })
  ∧ (∀ s : State, s.stew.released = true → s.stew.noFw = false → s.pwr.state.toNat < 2 → s.stew.standby ≠ 0 →
    exec .coreFault s = .next (({ s with stew := { s.stew with noFw := true, step := .none } }).logErr (errRec 0x61 3 none 0 2)))
  ∧ (∀ s : State, s.stew.released = true → s.stew.noFw = false → s.pwr.state.toNat < 2 → s.stew.standby = 0 → s.stew.claim = 0xFFFFFFFF →
    exec .coreFault s = .next (({ s with stew := { s.stew with noFw := true, step := .none } }).logErr (errRec 0x61 3 none 0 1)))
  ∧ (∀ s t : State, s.stew.step = .booting →
    t = { s with stew := { s.stew with
        claim := s.stew.claim + 1, claimReply := s.stew.claim + 1, claimLink := s.stew.claim + 1, active := !s.stew.active, step := .replay
        heartbeat := s.now, takeovers := if s.stew.takeovers = 0xFFFF then s.stew.takeovers else s.stew.takeovers + 1 } } →
      exec (.standbyBootDone (.booted none)) s = .next t
      ∧ ∀ g, exec (.standbyBootDone (.booted (some g))) s = .next (t.present g s.stew.claim))
  ∧ (∀ (g : OutStage) (c : BitVec 32) (s : State), g ≠ .warden → c.toNat < (s.stew.held g).toNat → s.present g c = s.bump devBlk 7)
  ∧ (∀ (g : OutStage) (c : BitVec 32) (s : State), (s.stew.held g).toNat ≤ c.toNat →
    s.present g c = { s with stew := s.stew.hold g c } ∧ (s.stew.hold g c).held g = c)
  ∧ (∀ s : State, s.stew.step = .booting →
    exec (.standbyBootDone .failed) s = .next (({ s with stew := { s.stew with standby := 2, noFw := true, step := .none } }).logErr
      (errRec 0x61 3 none 0 2)))
  ∧ (∀ s : State, s.stew.step = .replay → s.cmds = [] → s.stew.commitToken = none → s.sched.next = none → s.pwr.pstep = .none →
      s.stew.late = [] → s.mem.rcOn = false → ∃ u : State,
    u = ({ s with stew := { s.stew with step := .oldCheck, flashing := none }, journal := s.journal.loaded }).postReady
      ∧ exec .journalReplayDone s = .next (u.event 64 { kind := 10, obj := s.stew.claim, cause := u.stew.lastCause.setWidth 8
                                                        spec := BitVec.ofNat 160 (if u.stew.active then 1 else 0) }))
  ∧ (∀ (ok : Bool) (s : State), s.stew.step = .oldCheck →
    exec (.oldCoreCheckDone ok) s = .next { s with stew := { s.stew with step := .none, standby := if ok then 0 else 2 } })
  ∧ (∀ s : State, s.stew.step = .swWait → s.commitReady = true →
    exec .switchoverStart s = .next ((({ s with stew := { s.stew with commit := true, step := .swBoot, standby := 1 }
                                                cmds := s.cmds.map fun (c : Cmd) => { c with carried := s.stew.commitToken != some c.token } }).each
      (List.range 64) fun s p => s.commitPart p).sweepAll))
  ∧ (∀ s : State, s.stew.step = .swBoot → s.sessionsOver = true → s.stew.claim ≠ 0xFFFFFFFF →
    exec (.switchoverBootDone true) s = .next { s with stew := { s.stew with
      claim := s.stew.claim + 1, claimReply := s.stew.claim + 1, claimLink := s.stew.claim + 1, active := !s.stew.active
      step := .swLoad, heartbeat := s.now } })
  ∧ (∀ s : State, s.stew.step = .swBoot → s.sessionsOver = true → s.stew.commitToken = none →
    exec (.switchoverBootDone false) s = .next
      (({ s with nv := s.nv.setOther {}, stew := { s.stew with commit := false, commitToken := none, step := .none, standby := 0 }
                 cmds := s.cmds.map fun (c : Cmd) => { c with carried := false } }).fwEvent 3 s.nv.otherSlot))
  ∧ (∀ s u : State, s.stew.step = .swLoad →
      u = (({ s with nv := s.nv.switched, stew := { s.stew with step := .swCarry }, journal := s.journal.loaded }).replayCmds.replayArm).postReady →
      u.stew.step = .swCarry →
    ((∃ c ∈ u.cmds, c.carried = true) → exec .switchoverComplete s = .next u)
    ∧ ((∀ c ∈ u.cmds, c.carried = false) → exec .switchoverComplete s = .next u.commitDone))
  ∧ (∀ s : State, s.stew.step = .swCarry →
    ((∃ c ∈ s.cmds, c.carried = true) → exec .switchoverComplete s = .next s)
    ∧ ((∀ c ∈ s.cmds, c.carried = false) → exec .switchoverComplete s = .next s.commitDone))
  ∧ (∀ s : State, ∃ u : State, u = (({ s with
        stew := { s.stew with commit := false, commitToken := none, step := .oldCheck, standby := 1 }
        cmds := (s.cmds.map fun (c : Cmd) => { c with carried := false }).map fun (c : Cmd) =>
          if c.waits.contains .commit then { c with result := BitVec.ofNat 1920 s.nv.runSlot.version.toNat } else c }).wake .commit).postReady
      ∧ s.commitDone = u.fwEvent 2 s.nv.runSlot)
  ∧ (∀ n : Nv, n.switched.slot = !n.slot ∧ (n.otherSlot.advance = false → n.switched.minSvn = n.minSvn)
    ∧ n.minSvn.toNat ≤ n.switched.minSvn.toNat
    ∧ (n.otherSlot.advance = true → n.switched.minSvn.toNat = max n.minSvn.toNat n.otherSlot.svn.toNat)
    ∧ n.switched.runSlot = n.otherSlot ∧ n.switched.otherSlot.valid = false)

/-! ### Power states (chapter 17) -/

/-- The handshake of an entry (R527): an answer is kept, a delay is waited out, and a refusal, or a unit that has not accepted within 1 ms, is
what the abort point will find. The choices of the model that it rests on: log entries 1, 77. -/
def Obligations.HandshakeRows : Prop :=
  (∀ (u : BitVec 16) (s : State), s.unitAsked u.toNat = true →
    exec (.powerUnitAnswer u .accept) s = .next { s with pwr := { s.pwr with
      answers := tput false s.pwr.answers u.toNat true, delays := tput 0 s.pwr.delays u.toNat 0 } })
  ∧ (∀ (u : BitVec 16) (us : Nat) (s : State), s.unitAsked u.toNat = true →
    exec (.powerUnitAnswer u (.delay us)) s
      = .next { s with pwr := { s.pwr with delays := tput 0 s.pwr.delays u.toNat (s.now + 1000 * us) } })
  ∧ (∀ (u : BitVec 16) (r : Byte) (s : State), s.unitAsked u.toNat = true → s.pwr.refuse = none →
    (1 ≤ r.toNat → r.toNat ≤ 10 → exec (.powerUnitAnswer u (.refuse r)) s = .next { s with pwr := { s.pwr with refuse := some (u, r) } })
    ∧ (r.toNat = 0 ∨ 10 < r.toNat → exec (.powerUnitAnswer u (.refuse r)) s = .next s))
  ∧ (∀ (u : BitVec 16) (a : UnitAnswer) (s : State), s.unitAsked u.toNat = false → exec (.powerUnitAnswer u a) s = .next s)
  ∧ (∀ (u : BitVec 16) (s : State), s.unitAsked u.toNat = true → tget 0 s.pwr.delays u.toNat ≠ 0 →
      tget 0 s.pwr.delays u.toNat ≤ s.now →
    exec (.powerDelayReask u) s = .next { s with pwr := { s.pwr with delays := tput 0 s.pwr.delays u.toNat 0 } })
  ∧ (∀ (u : BitVec 16) (s : State), s.unitAsked u.toNat = true → s.pwr.askAt + 1000000 ≤ s.now → s.pwr.refuse = none →
    exec (.powerDelayExpired u) s = .next { s with pwr := { s.pwr with refuse := some (u, 9) } })

/-- The steps of an entry, and the wake (R518, R524, R527, R528): each step ends at its abort point, where a pending wake event, or else a refusal,
abandons the entry; D1 is entered after the handshake, D2 and D2R after the caches, the queues and the ports are empty; a wake event after AP4 wakes
from the state entered; an entry from D1 that a wake event abandons wakes from D1; a wake event from a sleep starts the wake, whose first step ends
when the rails have risen and whose last is D0; from D3 it is a whole-chip reset.
The choices of the model that it rests on: log entries 1, 77, 78, 79. -/
def Obligations.PowerStepRows : Prop :=
  (∀ s : State, s.coreUp = true → s.pwr.pstep = .s1 → s.pwr.wake = false → s.pwr.refuse = none →
      s.entryRefusal s.pwr.target.toNat = none →
    exec .powerEntryStepDone s = .next { s with pwr := { s.pwr with pstep := .s2, askAt := s.now, answers := [], delays := [] } })
  ∧ (∀ (u : BitVec 16 × Byte) (s : State), s.coreUp = true → s.pwr.pstep = .s1 → s.pwr.wake = false → s.pwr.refuse = none →
      s.entryRefusal s.pwr.target.toNat = some u →
    exec .powerEntryStepDone s = .next (({ s with pwr := { s.pwr with refuse := some u } }).abandonEntry 1 u))
  ∧ (∀ s : State, s.coreUp = true → s.pwr.pstep = .s2 → s.pwr.wake = false → s.pwr.refuse = none → s.handshaken = true →
    exec .powerEntryStepDone s = .next (if s.pwr.target = 1 then s.enterD1 else s.flushStart))
  ∧ (∀ s : State, s.coreUp = true → s.pwr.pstep = .s2 → s.pwr.wake = true →
    exec .powerEntryStepDone s = .next (s.abandonEntry 2 (0, 0x0A)))
  ∧ (∀ s : State, s.coreUp = true → s.pwr.pstep = .s3 → s.flushed = true →
    (s.pwr.wake = false → s.pwr.refuse = none → exec .powerEntryStepDone s = .next s.hostLeaves.drainStart)
    ∧ (s.pwr.wake = true → exec .powerEntryStepDone s = .next (s.hostLeaves.abandonEntry 3 (0, 0x0A)))
    ∧ ∀ u, s.pwr.wake = false → s.pwr.refuse = some u → exec .powerEntryStepDone s = .next (s.hostLeaves.abandonEntry 3 u))
  ∧ (∀ s : State, s.coreUp = true → s.pwr.pstep = .s4 → s.drained = true →
    (s.pwr.wake = false → s.pwr.refuse = none → ∃ u : State,
      u = (s.pauseAll true).wake .power ∧ exec .powerEntryStepDone s = .next { u with pwr := { u.pwr with pstep := .s5 } })
    ∧ (s.pwr.wake = true → exec .powerEntryStepDone s = .next (s.abandonEntry 4 (0, 0x0A)))
    ∧ ∀ u, s.pwr.wake = false → s.pwr.refuse = some u → exec .powerEntryStepDone s = .next (s.abandonEntry 4 u))
  ∧ (∀ s : State, s.coreUp = true → s.pwr.pstep = .s5 → exec .powerEntryStepDone s = .next s.stopPorts)
  ∧ (∀ s : State, s.coreUp = true → s.pwr.pstep = .s6 → s.pwr.wake = false → s.pwr.target ≠ 4 →
    exec .powerEntryStepDone s = .next s.sleepNow)
  ∧ (∀ s : State, s.coreUp = true → s.pwr.pstep = .s6 → s.pwr.wake = false → s.pwr.target = 4 → ∃ t : State,
    exec .powerEntryStepDone s = .next t ∧ t.pwr.phase = .ready ∧ t.pwr.state = 4 ∧ t.pwr.rail = 1 ∧ t.pwr.i3cAddr = s.pwr.i3cAddr
      ∧ t.pwr.elapsed = s.pwr.elapsed ∧ t.pwr.build = s.pwr.build ∧ t.nv = s.nv ∧ t.dram = [] ∧ t.parts = [] ∧ t.cmds = []
      ∧ t.stew.released = false)
  ∧ (∀ s : State, s.pwr.phase = .ready → s.pwr.pstep = .none → s.pwr.state = 2 ∨ s.pwr.state = 3 →
    exec .i3cWake s = .next { s with pwr := { s.pwr with wakeFrom := s.pwr.state, pstep := .w1, railAt := s.now } })
  ∧ (∀ s : State, s.pwr.phase = .ready → s.pwr.pstep = .none → s.pwr.state = 4 →
    exec .i3cWake s = .next (s.restartOn { s.nv with cause := 6 } .rails 1))
  ∧ (∀ s : State, s.pwr.phase = .ready → s.pwr.pstep.entry = true → exec .i3cWake s = .next { s with pwr := { s.pwr with wake := true } })
  ∧ (∀ s : State, s.pwr.pstep = .w1 → s.pwr.fallen = [] → exec .wakeStepDone s = .next { s with pwr := { s.pwr with pstep := .w2 } })
  ∧ (∀ s : State, s.pwr.pstep = .w2 → exec .wakeStepDone s = .next { s with pwr := { s.pwr with pstep := .w3 } })
  ∧ (∀ s : State, s.pwr.pstep = .w3 → ∃ u : State, u = s.wakeStacks
    ∧ exec .wakeStepDone s = .next { u with pwr := { u.pwr with pstep := .w4 } })
  ∧ (∀ s : State, s.pwr.pstep = .w4 → ∃ u : State, u = s.wakeLogic
    ∧ exec .wakeStepDone s = .next { u with pwr := { u.pwr with pstep := .w5 } } ∧ u.keeper.state = 1 ∧ u.keeper.stopped = false)
  ∧ (∀ s : State, s.pwr.pstep = .w5 → exec .wakeStepDone s = .next { s with pwr := { s.pwr with pstep := .w6 } })
  ∧ (∀ s : State, s.pwr.pstep = .w6 → ∃ t : State, exec .wakeStepDone s = .next t ∧ t.pwr.pstep = .none ∧ t.pwr.state = 0
      ∧ t.dram = s.dram ∧ t.stks = s.stks)
  ∧ (∀ s : State, s.coreUp = true → s.pwr.pstep = .s1 → s.pwr.wake = true →
    exec .powerEntryStepDone s
      = .next (({ s with pwr := { s.pwr with refuse := s.pwr.refuse.or (s.entryRefusal s.pwr.target.toNat) } }).abandonEntry 1 (0, 0x0A)))
  ∧ (∀ (u : BitVec 16 × Byte) (s : State), s.coreUp = true → s.pwr.pstep = .s2 → s.pwr.wake = false → s.pwr.refuse = some u →
    exec .powerEntryStepDone s = .next (s.abandonEntry 2 u))
  ∧ (∀ s : State, s.coreUp = true → (s.pwr.pstep = .s2 ∧ s.handshaken = false) ∨ (s.pwr.pstep = .s3 ∧ s.flushed = false)
      ∨ (s.pwr.pstep = .s4 ∧ s.drained = false) →
    exec .powerEntryStepDone s = .next s)
  ∧ (∀ s : State, s.coreUp = true → s.pwr.pstep = .s6 → s.pwr.wake = true →
    (s.pwr.target ≠ 4 → exec .powerEntryStepDone s = .next (let u := s.sleepNow
      { u with pwr := { u.pwr with wakeFrom := s.pwr.target, pstep := .w1, railAt := s.now } }))
    ∧ (s.pwr.target = 4 → exec .powerEntryStepDone s = .next s.enterD3.wakeD3))
  ∧ (∀ (ap : Nat) (u : BitVec 16 × Byte) (s : State), ∃ v : State, v.pwr.state = s.pwr.state ∧ v.pwr.pstep = .none ∧ v.pwr.entering = false
      ∧ v.pwr.lastAp = BitVec.ofNat 3 ap ∧ v.pwr.lastUnit = u.1 ∧ v.pwr.lastReason = u.2
      ∧ s.abandonEntry ap u = if s.pwr.wake = true ∧ s.pwr.state = 1 then v.wakeD1 else v)
  ∧ (∀ s : State, s.pwr.phase = .ready → s.pwr.pstep = .none → s.pwr.state = 1 →
    exec .i3cWake s = .next s.wakeD1 ∧ s.wakeD1.pwr.state = 0 ∧ s.wakeD1.dram = s.dram)
  ∧ (∀ s : State, s.pwr.phase ≠ .ready ∨ (s.pwr.pstep = .none ∧ s.pwr.state = 0) → exec .i3cWake s = .next s)
  ∧ (∀ s : State, s.pwr.pstep = .w1 → s.pwr.fallen ≠ [] → exec .wakeStepDone s = .next s)

/-! ### Commands of mailboxes: partitions, contexts, extents (chapters 02, 14 and 15) -/

/-- PARTITION_CREATE, _ARM, _RECOVER and _CLOSE (R31 to R34, R437, R467, R168): taken in their states with accepted values, they open, arm, reopen
and begin to close a partition; the close replies when the partition is FREE.
The choices of the model that it rests on: log entries 29, 45, 46, 47, 49. -/
def Obligations.PartitionCommands : Prop :=
  (∀ (mb : MbId) (s : State), Runs (.partitionCreate mb) s createForm mb
    (fun u _ a => arg a 0 1 < 64 ∧ (u.part (arg a 0 1)).state = 0 ∧ cfgOk (arg a 8 8) = true ∧ admitOk (arg a 16 8) = true
      ∧ shapeOk (arg a 24 8) = true ∧ ntfOk (arg a 32 8) = true ∧ ((arg a 8 8).testBit 0 = false ∨ (arg a 32 8).testBit 1 = false))
    fun u _ a => { st := u.modPart (arg a 0 1) fun x => { x with
      state := 1, cause := 0, done := false, cfg := BitVec.ofNat 64 (arg a 8 8), admCfg := BitVec.ofNat 64 (arg a 16 8)
      shape := BitVec.ofNat 64 (arg a 24 8), ntf := BitVec.ofNat 64 (arg a 32 8) } })
  ∧ (∀ (mb : MbId) (s : State), Runs (.partitionArm mb) s armForm mb
    (fun u _ a => arg a 0 1 < 64 ∧ (u.part (arg a 0 1)).state = 1 ∧ ((u.part (arg a 0 1)).conf = true → (u.part (arg a 0 1)).sess = 1))
    fun u _ a => { st := u.setPart (arg a 0 1) { u.part (arg a 0 1) with state := 2 } })
  ∧ (∀ (mb : MbId) (s : State), Runs (.partitionRecover mb) s recoverForm mb
    (fun u _ a => arg a 0 1 < 64 ∧ (u.part (arg a 0 1)).state = 4 ∧ (u.part (arg a 0 1)).done = true)
    fun u _ a =>
      let v := u.each (u.ctxsOf (arg a 0 1)) fun s c => s.modCtx c fun e => { e with state := 1 }
      { st := v.setPart (arg a 0 1) { u.part (arg a 0 1) with state := 1, cause := 0, done := false } })
  ∧ (∀ (mb : MbId) (s : State), Runs (.partitionRecover mb) s recoverForm mb
    (fun u _ a => arg a 0 1 < 64 ∧ (u.part (arg a 0 1)).state = 4 ∧ (u.part (arg a 0 1)).done = false)
    fun u _ _ => { st := u, again := true })
  ∧ (∀ (mb : MbId) (s : State), RunsNoted (.partitionClose mb) s closeForm mb
    (fun u _ a => arg a 0 1 < 64 ∧ (u.part (arg a 0 1)).state ≠ 0 ∧ (u.part (arg a 0 1)).state ≠ 3
      ∧ ((u.modPart (arg a 0 1) fun x => { x with state := 3 }).dropRecords (arg a 0 1)).slotsOf (arg a 0 1) = [])
    fun u _ a =>
      let v := (u.modPart (arg a 0 1) fun x => { x with state := 3 }).dropRecords (arg a 0 1)
      { st := v.closeStep (arg a 0 1), waits := [.partFree (arg a 0 1)], result := (v.extsOf (arg a 0 1) 1).length })
  ∧ (∀ (mb : MbId) (s : State), Runs (.partitionClose mb) s closeForm mb (fun u _ a => (u.part (arg a 0 1)).state = 0 ∧ arg a 0 1 < 64)
    fun u _ _ => { st := u, status := csBadState })

/-- EXTENT_CREATE, _REVOKE and _QUERY, and DEVICE_SET_SCRUB (R43, R44, R51 to R56, R438): the least recently freed index and the lowest free map
range take the extent, its granules placed round robin over its stack list from a stack with the fewest held; a revocation begins; a query
answers the entry. The choices of the model that it rests on: log entries 11, 26, 45, 46, 50. -/
def Obligations.ExtentCommands : Prop :=
  (∀ (mb : MbId) (s : State) (v : CreateArgs) (i b : Nat), Runs (.extentCreate mb) s extCreateForm mb
    (fun u _ a =>
      v = { part := arg a 0 1, coherent := (arg a 1 1).testBit 0, combine := (arg a 1 1).testBit 1, rights := bitsOf a 16 12
            stripe := bitsOf a 32 2, homeq := bitsOf a 34 2, size := arg a 8 4 }
      ∧ arg a 0 1 < 64 ∧ ((u.part v.part).state = 1 ∨ (u.part v.part).state = 2) ∧ ((u.part v.part).conf = true → (u.part v.part).sess = 1)
      ∧ (v.coherent = false ∨ v.combine = false) ∧ v.stripe ≠ 3 ∧ v.size ≠ 0 ∧ v.size ≤ 261120 ∧ u.stacksFor v.stripe v.homeq ≠ []
      ∧ u.partGranules v.part + (v.ext (u.part v.part).conf).localSize ≤ (u.part v.part).quota
      ∧ (∀ pos, pos < (u.stacksFor v.stripe v.homeq).length →
          shareOf (v.ext (u.part v.part).conf).localSize (u.stacksFor v.stripe v.homeq).length
            ((u.startChoices (u.stacksFor v.stripe v.homeq)).getD (u.draw (u.startChoices (u.stacksFor v.stripe v.homeq)).length).1 0) pos
          ≤ (((u.stacksFor v.stripe v.homeq).map u.freeGrans).getD pos []).length)
      ∧ u.freeIdx (fun i => !u.inGroup i) = some i ∧ u.mapFree (v.ext (u.part v.part).conf).localSize = some b
      ∧ (v.combine = true → u.freeComb ≠ none))
    fun u _ _ =>
      let l := u.stacksFor v.stripe v.homeq
      let st := (u.startChoices l).getD (u.draw (u.startChoices l).length).1 0
      let e := v.ext (u.part v.part).conf
      let w := (u.draw (u.startChoices l).length).2.writeExt i b e (placeGrans (l.map u.freeGrans) l.length st e.localSize) st
      { st := w, result := (w.ext i).handle i + st * 2 ^ 24 })
  ∧ (∀ (mb : MbId) (s : State), Runs (.extentRevoke mb) s extRevokeForm mb
    (fun u c a => u.byOwner c (xhIdx (arg a 0 3)) = true ∧ u.live (arg a 0 3) = true ∧ (u.ext (xhIdx (arg a 0 3))).mirror = false
      ∧ (u.ext (xhIdx (arg a 0 3))).parity = false)
    fun u _ a => { st := u.startRevoke (xhIdx (arg a 0 3)), waits := [.revoke (xhIdx (arg a 0 3))] })
  ∧ (∀ (mb : MbId) (s : State), Runs (.extentQuery mb) s queryForm mb
    (fun u c a => (u.ext (xhIdx (arg a 0 3))).state ≠ 0 ∧ u.byOwner c (xhIdx (arg a 0 3)) = true)
    fun u _ a =>
      let x := u.ext (xhIdx (arg a 0 3))
      { st := u, result := x.word + (if x.mirror ∨ x.parity then (u.prot x.protRef.toNat).word
                                     else if x.combine then (u.comb x.protRef.toNat).word else 0) * 2 ^ 256 })
  ∧ (∀ (mb : MbId) (s : State), Runs (.deviceSetScrub mb) s scrubForm mb (fun _ _ a => 5 ≤ arg a 0 1 ∧ arg a 0 1 ≤ 50)
    fun u _ a => { st := { u with mem := { u.mem with scrubShare := arg a 0 1 } } })
  ∧ (∀ (mb : MbId) (s : State), Runs (.deviceSetScrub mb) s scrubForm mb (fun _ _ a => arg a 0 1 < 5 ∨ 50 < arg a 0 1)
    fun u _ _ => { st := u, status := csBadArg })

/-- Sharing (R48 to R50, R139, R426, R438): an offer takes the lowest free slot without consent, acceptance sets CONSENT of the member's own slot,
and a withdrawal by the member or an unshare by the owner clears the slot and replies when what it started has ended.
The choices of the model that it rests on: log entries 29, 45, 46. -/
def Obligations.ShareCommands : Prop :=
  (∀ (mb : MbId) (s : State) (k : Nat), Runs (.extentShareOffer mb) s offerForm mb
    (fun u c a => u.byOwner c (xhIdx (arg a 0 3)) = true ∧ arg a 4 1 < 64 ∧ u.live (arg a 0 3) = true
      ∧ (u.ext (xhIdx (arg a 0 3))).mirror = false ∧ (u.ext (xhIdx (arg a 0 3))).parity = false ∧ (u.part (arg a 4 1)).conf = false
      ∧ ((u.part (arg a 4 1)).state = 1 ∨ (u.part (arg a 4 1)).state = 2) ∧ (u.ext (xhIdx (arg a 0 3))).owner.toNat ≠ arg a 4 1
      ∧ u.slotOf (xhIdx (arg a 0 3)) (arg a 4 1) = none ∧ (u.ext (xhIdx (arg a 0 3))).shared = true
      ∧ (List.range 7).find? (fun k => !(tget {} (u.share (u.ext (xhIdx (arg a 0 3))).shareRef.toNat).slots k).valid) = some k)
    fun u _ a =>
      let r := (u.ext (xhIdx (arg a 0 3))).shareRef.toNat
      let m : ShareSlot := { part := BitVec.ofNat 6 (arg a 4 1), valid := true, rights := BitVec.ofNat 12 (arg a 6 2) }
      { st := u.setShare r { u.share r with slots := tput {} (u.share r).slots k m }, result := k })
  ∧ (∀ (mb : MbId) (s : State) (r : Nat), Runs (.extentShareOffer mb) s offerForm mb
    (fun u c a => u.byOwner c (xhIdx (arg a 0 3)) = true ∧ arg a 4 1 < 64 ∧ u.live (arg a 0 3) = true
      ∧ (u.ext (xhIdx (arg a 0 3))).mirror = false ∧ (u.ext (xhIdx (arg a 0 3))).parity = false ∧ (u.part (arg a 4 1)).conf = false
      ∧ ((u.part (arg a 4 1)).state = 1 ∨ (u.part (arg a 4 1)).state = 2) ∧ (u.ext (xhIdx (arg a 0 3))).owner.toNat ≠ arg a 4 1
      ∧ (u.ext (xhIdx (arg a 0 3))).shared = false ∧ u.freeShare = some r)
    fun u _ a =>
      let m : ShareSlot := { part := BitVec.ofNat 6 (arg a 4 1), valid := true, rights := BitVec.ofNat 12 (arg a 6 2) }
      let i := xhIdx (arg a 0 3)
      { st := (u.setShare r { used := true, slots := tput {} [] 0 m }).setExt i { u.ext i with shared := true, shareRef := BitVec.ofNat 12 r } })
  ∧ (∀ (mb : MbId) (s : State) (k : Nat) (y : ShareSlot), Runs (.extentShareAccept mb) s acceptForm mb
    (fun u c a => u.live (arg a 0 3) = true ∧ u.slotOf (xhIdx (arg a 0 3)) c.own = some (k, y) ∧ y.consent = false)
    fun u _ a => { st := u.modShare (u.ext (xhIdx (arg a 0 3))).shareRef.toNat fun r =>
      { r with slots := tput {} r.slots k { y with consent := true } } })
  ∧ (∀ (mb : MbId) (s : State) (k : Nat) (y : ShareSlot), Runs (.extentShareWithdraw mb) s withdrawForm mb
    (fun u c a => u.live (arg a 0 3) = true ∧ u.slotOf (xhIdx (arg a 0 3)) c.own = some (k, y))
    fun u _ a => { st := (u.clearSlot (xhIdx (arg a 0 3)) k).2, waits := (u.clearSlot (xhIdx (arg a 0 3)) k).1 })
  ∧ (∀ (mb : MbId) (s : State) (k : Nat) (y : ShareSlot), Runs (.extentUnshare mb) s unshareForm mb
    (fun u c a => u.byOwner c (xhIdx (arg a 0 3)) = true ∧ u.live (arg a 0 3) = true
      ∧ u.slotOf (xhIdx (arg a 0 3)) (arg a 4 1) = some (k, y))
    fun u _ a => { st := (u.clearSlot (xhIdx (arg a 0 3)) k).2, waits := (u.clearSlot (xhIdx (arg a 0 3)) k).1 })

/-- Pool groups (R59 to R62, R66, R67, R439): a group is configured, its extents are created on a majority and revoked there, a two-member group is
promoted, and rebuilds start, pause and resume. The choices of the model that it rests on: log entries 27, 28, 45. -/
def Obligations.GroupCommands : Prop :=
  (∀ (mb : MbId) (s : State), Runs (.groupConfig mb) s groupForm mb
    (fun u _ a => 2 ≤ arg a 0 1 ∧ arg a 0 1 ≤ 8 ∧ arg a 1 1 < arg a 0 1 ∧ arg a 8 4 ≠ 0 ∧ arg a 8 4 ≤ 16384
      ∧ arg a 4 4 + arg a 8 4 ≤ 262144 ∧ tget 0 (groupEids a (arg a 0 1)) (arg a 1 1) = u.node.eid
      ∧ (∀ i, i < arg a 0 1 → arg a (16 + 2 * i) 2 < 4096) ∧ u.group.on = false
      ∧ ∀ e ∈ u.exts, e.2.state = 0 ∨ e.1 < arg a 4 4 ∨ arg a 4 4 + arg a 8 4 ≤ e.1)
    fun u _ a => { st := { u with group :=
      { on := true, nmemb := arg a 0 1, self := Fin.ofNat 8 (arg a 1 1), xbase := BitVec.ofNat 18 (arg a 4 4), xcount := arg a 8 4
        eids := groupEids a (arg a 0 1), lastHb := (List.range (arg a 0 1)).foldl (fun t m => tput 0 t m u.ftNs) [], lastSent := u.ftNs } } })
  ∧ (∀ (mb : MbId) (s : State), Runs (.groupConfig mb) s groupForm mb
    (fun u _ a => 2 ≤ arg a 0 1 ∧ arg a 0 1 ≤ 8 ∧ arg a 1 1 < arg a 0 1 ∧ arg a 8 4 ≠ 0 ∧ arg a 8 4 ≤ 16384
      ∧ arg a 4 4 + arg a 8 4 ≤ 262144 ∧ tget 0 (groupEids a (arg a 0 1)) (arg a 1 1) = u.node.eid
      ∧ (∀ i, i < arg a 0 1 → arg a (16 + 2 * i) 2 < 4096) ∧ u.group.on = true ∧ (arg a 2 1).testBit 0 = true
      ∧ arg a 0 1 = u.group.nmemb ∧ arg a 1 1 = u.group.self.val ∧ arg a 4 4 = u.group.xbase.toNat ∧ arg a 8 4 = u.group.xcount
      ∧ ∀ m, m < arg a 0 1 → tget 0 (groupEids a (arg a 0 1)) m = tget 0 u.group.eids m ∨ u.group.lost.getLsbD m = true)
    fun u _ a => { st := { u with group := { u.group with
      eids := groupEids a (arg a 0 1), lost := 0, acted := 0
      lastHb := ((List.range (arg a 0 1)).filter u.group.lost.getLsbD).foldl (fun t m => tput 0 t m u.ftNs) u.group.lastHb } } })
  ∧ (∀ (mb : MbId) (s : State) (v : CreateArgs) (e : GroupExt), Runs (.groupExtentCreate (.mailbox mb)) s groupCreateForm mb
    (fun u c a =>
      v = { part := arg a 0 1, mirror := !(arg a 1 1).testBit 0, parity := (arg a 1 1).testBit 0, pwidth := (arg a 1 1).testBit 1
            slots := arg a 12 3, rights := bitsOf a 16 12, stripe := bitsOf a 32 2, homeq := bitsOf a 34 2, size := arg a 8 4 }
      ∧ e = { part := BitVec.ofNat 6 v.part, parity := v.parity, wide := v.pwidth, rights := BitVec.ofNat 12 v.rights
              stripe := BitVec.ofNat 2 v.stripe, homeq := BitVec.ofNat 2 v.homeq, size := BitVec.ofNat 18 v.size
              slots := BitVec.ofNat 24 v.slots }
      ∧ u.group.on = true ∧ u.majority = true
      ∧ u.slotsOk (arg a 12 3) (if (arg a 1 1).testBit 0 then (if (arg a 1 1).testBit 1 then 8 else 4) else 2) = true
      ∧ (u.createExt c v fun i => u.inGroup i).status = 0)
    fun u c _ =>
      let r := u.createExt c v fun i => u.inGroup i
      let xh := BitVec.ofNat 24 (r.result % 2 ^ 24)
      let w := r.st.withProt (xhIdx xh.toNat) e
      { st := w.each w.peers fun s m => s.carry m xh true (.create xh e), waits := w.peers.map fun m => .group m xh, result := xh.toNat })
  ∧ (∀ (m : Fin 8) (xh : Xh) (e : GroupExt) (s : State) (r : Answer), s.stewardUp = true → s.group.on = true → m.val ∈ s.peers →
      s.inGroup (xhIdx xh.toNat) = true → (s.ext (xhIdx xh.toNat)).state = 0 →
      r = (s.setExt (xhIdx xh.toNat) { s.ext (xhIdx xh.toNat) with gen := xhGen xh.toNat }).createExt {} (groupArgs e)
        (fun i => i == xhIdx xh.toNat) → r.status = 0 →
    exec (.groupExtentCreate (.carried m xh e)) s
      = .next ((r.st.withProt (xhIdx xh.toNat) e).groupSend m.val none (.answer xh 0)))
  ∧ (∀ (m : Fin 8) (xh : Xh) (st : BitVec 16) (s : State), s.stewardUp = true →
    exec (.groupExtentCreate (.answered m xh st)) s = .next ((s.createAnswer m.val xh st).createSettle xh))
  ∧ (∀ (m : Fin 8) (xh : Xh) (s : State), s.stewardUp = true → s.noAnswer m.val xh true = true →
    exec (.groupExtentCreate (.unanswered m xh)) s
      = .next ((s.createAnswer m.val xh (BitVec.ofNat 16 csGroupUnreach)).createSettle xh))
  ∧ (∀ (xh : Xh) (s : State), (∃ c ∈ s.group.calls, c.create = true ∧ c.xh = xh ∧ c.ans = none) → s.createSettle xh = s)
  ∧ (∀ (xh : Xh) (l : List Carried) (s : State), l = s.group.calls.filter (fun c => c.create && c.xh == xh) → l ≠ [] →
      (∀ c ∈ l, c.ans = some 0) →
    s.createSettle xh = ({ s with group := { s.group with calls := s.group.calls.filter fun c => !(c.create && c.xh == xh) } }).each l
      fun s c => s.wake (.group c.member xh))
  ∧ (∀ (mb : MbId) (s : State), Runs (.groupExtentRevoke (.mailbox mb)) s groupRevokeForm mb
    (fun u c a => u.byOwner c (xhIdx (arg a 0 3)) = true ∧ u.live (arg a 0 3) = true
      ∧ ((u.ext (xhIdx (arg a 0 3))).mirror = true ∨ (u.ext (xhIdx (arg a 0 3))).parity = true) ∧ u.majority = true)
    fun u _ a => { st := u.revoke (xhIdx (arg a 0 3))
                   waits := .revoke (xhIdx (arg a 0 3)) :: (u.peers.filter fun m => !u.silent m).map fun m =>
                     .group m (BitVec.ofNat 24 (arg a 0 3)) })
  ∧ (∀ (m : Fin 8) (xh : Xh) (s : State), s.stewardUp = true → s.group.on = true → m.val ∈ s.peers → s.live xh.toNat = true →
      (s.ext (xhIdx xh.toNat)).mirror = true ∨ (s.ext (xhIdx xh.toNat)).parity = true →
    exec (.groupExtentRevoke (.carried m xh)) s
      = .next (({ s with group := { s.group with owed := s.group.owed ++ [(m.val, xh)] } }).startRevoke (xhIdx xh.toNat)))
  ∧ (∀ (m : Fin 8) (xh : Xh) (st : BitVec 16) (s : State), s.stewardUp = true →
    exec (.groupExtentRevoke (.answered m xh st)) s = .next (s.revokeAnswer m.val xh))
  ∧ (∀ (mb : MbId) (s : State), Runs (.groupPromote mb) s promoteForm mb
    (fun u _ a => u.group.on = true ∧ u.group.nmemb = 2 ∧ arg a 0 1 ∈ u.peers ∧ u.silent (arg a 0 1) = true)
    fun u _ a => { st := ({ u with group := { u.group with
      promoted := true, lost := u.group.lost ||| BitVec.ofNat 8 (1 <<< arg a 0 1) } }).actLost })
  ∧ (∀ (mb : MbId) (s : State), Runs (.groupRebuild mb) s rebuildForm mb
    (fun u _ a => arg a 0 3 ≠ 0xFFFFFF ∧ arg a 4 1 < 8 ∧ arg a 5 1 < 2 ∧ arg a 6 1 < 3 ∧ u.live (arg a 0 3) = true
      ∧ u.canRebuild (arg a 4 1) (arg a 6 1) (arg a 5 1 = 1) (xhIdx (arg a 0 3)) = true
      ∧ (arg a 6 1 = 0 → arg a 5 1 = 1 → u.spare ≠ none))
    fun u _ a =>
      let w := u.modProt (u.ext (xhIdx (arg a 0 3))).protRef.toNat fun p => p.rebuild (arg a 4 1) (arg a 6 1) (arg a 5 1 = 1)
      { st := if arg a 6 1 = 0 ∧ arg a 5 1 = 0 then w.tellTarget (xhIdx (arg a 0 3)) (arg a 4 1) else w })

/-! ### Translation, Elder, coherence, jobs, combining (chapters 03 to 06) -/

/-- CONTEXT_CREATE, _SET and _DESTROY (R36 to R40, R74, R78, R437): a context takes the least recently freed number of its partition, its entry is
written, with the walkers' entries purged when its tables change, and it is FREE when nothing of it is left. INVALIDATE_RANGE, ELDER_BIND,
ELDER_MAP, COH_AGENT_SET and COH_CONFIG (R89, R97, R101, R107, R109, R440, R441).
The choices of the model that it rests on: log entries 30, 45, 46, 55, 93. -/
def Obligations.ContextAndTranslationCommands : Prop :=
  (∀ (mb : MbId) (s : State) (k t : Nat), Runs (.contextCreate mb) s ctxCreateForm mb
    (fun u _ a => arg a 0 1 < 64 ∧ ((u.part (arg a 0 1)).state = 1 ∨ (u.part (arg a 0 1)).state = 2) ∧ entryOk (arg a 8 8) = true
      ∧ ((u.part (arg a 0 1)).conf = true → (arg a 8 8).testBit 44 = false) ∧ u.partContexts (arg a 0 1) < (u.part (arg a 0 1)).maxCtx
      ∧ (u.ctxs.filter (·.2.state ≠ 0)).length < 8192 ∧ u.oldestCtx (arg a 0 1) = some (k, t)
      ∧ (t = 0 ∨ t + 10000000 ≤ u.ftNs + 1))
    fun u _ a => { st := u.setCtx (1024 * arg a 0 1 + k) (({} : Ctx).write (arg a 8 8) (arg a 16 6) ((arg a 1 1).testBit 0))
                   result := 1024 * arg a 0 1 + k })
  ∧ (∀ (mb : MbId) (s : State), Runs (.contextSet mb) s ctxSetForm mb
    (fun u _ a => ((u.ctx (arg a 0 2)).state = 1 ∨ (u.ctx (arg a 0 2)).state = 2)
      ∧ ((u.ctx (arg a 0 2)).state = 2 → (arg a 2 1).testBit 0 = false → u.ctxJobs (arg a 0 2) = false) ∧ entryOk (arg a 8 8) = true
      ∧ ((u.part (arg a 0 2 / 1024)).conf = true → (arg a 8 8).testBit 44 = false))
    fun u _ a =>
      let y := (u.ctx (arg a 0 2)).write (arg a 8 8) (arg a 16 6) ((arg a 2 1).testBit 0)
      { st := if y.ptRoot = (u.ctx (arg a 0 2)).ptRoot ∧ y.hostPt = (u.ctx (arg a 0 2)).hostPt then u.setCtx (arg a 0 2) y
              else (u.setCtx (arg a 0 2) y).purge fun e => e.cid.toNat == arg a 0 2 })
  ∧ (∀ (mb : MbId) (s : State), Runs (.contextDestroy mb) s ctxDestroyForm mb
    (fun u _ a => (u.ctx (arg a 0 2)).state = 1 ∨ (u.ctx (arg a 0 2)).state = 2)
    fun u _ a => { st := u.retire (arg a 0 2), waits := [.ctxFree (arg a 0 2)] })
  ∧ (∀ (x : Ctx) (e r : Nat) (b : Bool), (x.write e r b).state = (if b then 2 else 1)
    ∧ (x.write e r b).eidMatch.toNat = bitsOf e 18 12 ∧ (x.write e r b).eidMask.toNat = bitsOf e 30 12
    ∧ (x.write e r b).cls.toNat = bitsOf e 42 2 ∧ (x.write e r b).hostPt = e.testBit 44)
  ∧ (∀ (mb : MbId) (s : State), Runs (.invalidateRange mb) s invalForm mb
    (fun u _ a => arg a 0 1 < 64 ∧ arg a 16 8 ≠ 0 ∧ arg a 8 6 + arg a 16 8 ≤ 2 ^ 48
      ∧ ((arg a 1 1).testBit 0 = false → arg a 2 2 / 1024 = arg a 0 1 ∧ (u.ctx (arg a 2 2)).state ≠ 0)
      ∧ ((u.part (arg a 0 1)).state = 1 ∨ (u.part (arg a 0 1)).state = 2))
    fun u _ a =>
      let lo := arg a 8 6 / 4096 * 4096
      let hi := (arg a 8 6 + arg a 16 8 + 4095) / 4096 * 4096
      let mine := fun (c : Cid) => if (arg a 1 1).testBit 0 then cidPart c == arg a 0 1 else c.toNat == arg a 2 2
      let v := u.purge fun e => mine e.cid && decide (e.pfx * 2 ^ spanBits e.level < hi) && decide (lo < (e.pfx + 1) * 2 ^ spanBits e.level)
      let w := v.each v.tileList fun s n => s.each ((s.tile n).slots.filter fun k => mine (s.job n k).cid) fun s k => s.invalJob n k lo hi
      { st := w, waits := if w.invalPends (arg a 0 1) (arg a 2 2) ((arg a 1 1).testBit 0)
          then [.inval (arg a 0 1) (arg a 2 2) ((arg a 1 1).testBit 0) (arg a 8 6) (arg a 16 8)] else [] })
  ∧ (∀ (mb : MbId) (s : State), Runs (.elderBind mb) s bindForm mb
    (fun u _ a => arg a 0 1 < 64 ∧ ((arg a 1 1).testBit 0 = true → (u.part (arg a 0 1)).state = 1 ∨ (u.part (arg a 0 1)).state = 2)
      ∧ u.elder.en = false)
    fun u _ a => { st := { u with
      elder := { filter := (arg a 1 1).testBit 1, en := (arg a 1 1).testBit 0, part := BitVec.ofNat 6 (arg a 0 1)
                 eidMatch := BitVec.ofNat 12 (arg a 2 2), eidMask := BitVec.ofNat 12 (arg a 4 2) } } })
  ∧ (∀ (mb : MbId) (s : State), Runs (.elderMap mb) s mapForm mb
    (fun u _ a => arg a 2 1 ≠ 0 ∧ arg a 2 1 ≤ 28 ∧ arg a 0 2 + arg a 2 1 ≤ 32768 ∧ u.elder.en = true
      ∧ ∀ k, k < arg a 2 1 → u.regionBad (arg a (8 + 8 * k) 8) = none)
    fun u _ a =>
      let l := (List.range (arg a 2 1)).map fun k => arg a (8 + 8 * k) 8
      let v := (u.each (List.range (arg a 2 1)) fun s k => s.setRegion (arg a 0 2 + k) (s.regionOf (l.getD k 0))).drainExts
        (backing ((List.range (arg a 2 1)).map fun k => u.region (arg a 0 2 + k)))
      { st := v.2, waits := v.1 })
  ∧ (∀ (mb : MbId) (s : State), Runs (.cohAgentSet mb) s agentForm mb
    (fun _ _ a => arg a 2 2 ≠ 0 ∧ arg a 2 2 ≤ 4096 ∧ arg a 4 1 = 1 ∧ arg a 0 2 + arg a 2 2 ≤ 0xFFE)
    fun u _ a => { st := u.each ((List.range (arg a 2 2)).map fun i => arg a 0 2 + i) fun s e => s.setAgent e true })
  ∧ (∀ (mb : MbId) (s : State), Runs (.cohAgentSet mb) s agentForm mb
    (fun _ _ a => arg a 2 2 ≠ 0 ∧ arg a 2 2 ≤ 4096 ∧ arg a 4 1 = 1 ∧ arg a 0 2 + arg a 2 2 = 4096)
    fun u c _ => refuse u c wStructure csBadArg)
  ∧ (∀ (mb : MbId) (s : State), Runs (.cohAgentSet mb) s agentForm mb
    (fun _ _ a => arg a 2 2 ≠ 0 ∧ arg a 2 2 ≤ 4096 ∧ arg a 4 1 = 0 ∧ arg a 0 2 + arg a 2 2 ≤ 0xFFE)
    fun u _ a => { st := u, waits := (((List.range (arg a 2 2)).map fun i => arg a 0 2 + i).filter u.agent).map fun e => .agents e })
  ∧ (∀ (mb : MbId) (s : State), Runs (.cohConfig mb) s cohForm mb (fun _ _ a => arg a 0 1 < 3)
    fun u _ a => { st := { u with pred := BitVec.ofNat 2 (arg a 0 1) } })

/-- JOB_SUBMIT and JOB_CANCEL (R149 to R152, R169, R205): a valid job is placed in the lowest free slot of the tile with the fewest occupied ones
among those that can take it; a job that is cancelled replies when it is FREE. Combining (R221, R226, R228, R443, R467): SETUP and CLEAR start a
zero fill, with VALID 0 until it is done after SETUP; RESIDE places every chunk of its range or none; RELEASE drains those that are resident.
The choices of the model that it rests on: log entries 45, 46, 48, 51, 58, 83. -/
def Obligations.JobAndCombineCommands : Prop :=
  (∀ (mb : MbId) (s : State) (n : Nat), Runs (.jobSubmit mb) s submitForm mb
    (fun u _ a => (u.part (arg a 0 2 / 1024)).state = 2 ∧ (u.ctx (arg a 0 2)).state = 2 ∧ (arg a 2 1).testBit 3 = false
      ∧ arg a 16 2 ≠ 0 ∧ arg a 16 2 ≤ 4 ∧ arg a 18 1 ≠ 0 ∧ arg a 18 1 ≤ 4 ∧ opStatic (arg a 96 32) (arg a 18 1) = true
      ∧ (∀ i, i < arg a 16 2 → rngOk (arg a (32 + 16 * i) 16) = true) ∧ blockOk (arg a 96 32) (arg a 18 1) 0 = true
      ∧ bitsOf (arg a 96 32) 192 64 = 0
      ∧ opOk (arg a 96 32) (arg a 18 1) 0 (((List.range (arg a 16 2)).map fun i => arg a (32 + 16 * i) 16).map rngOf) = true
      ∧ least (fun n => (u.tile n).slots.length) ((u.tilesFor (arg a 2 1) (arg a 3 1)).filter fun n => u.takes (arg a 0 2 / 1024) 0 n) = some n)
    fun u _ a =>
      let t := u.tile n
      let k := ((List.range 64).find? fun k => (t.job k).st == .free).getD 0
      let rs := ((List.range (arg a 16 2)).map fun i => arg a (32 + 16 * i) 16).map rngOf
      let j : Job :=
        { st := .queued, inc := (t.job k).inc + 1, cid := BitVec.ofNat 16 (arg a 0 2), flags := BitVec.ofNat 8 (arg a 2 1)
          tag := BitVec.ofNat 32 (arg a 4 4), seed := BitVec.ofNat 64 (arg a 8 8), nstage := arg a 18 1, budget := arg a 20 4, rlist := false
          opblk := BitVec.ofNat 256 (arg a 96 32), ranges := rs, param := 0, todo := rs.map fun r => (r.pva, r.len.toNat, r.acc)
          order := t.nextOrder }
      { st := u.setTile n { t.setJob k j with nextOrder := t.nextOrder + 1 }, result := jobId n k j })
  ∧ (∀ (mb : MbId) (s : State), Runs (.jobCancel mb) s cancelForm mb
    (fun u c a => (u.job (bitsOf (arg a 0 4) 27 5) (bitsOf (arg a 0 4) 21 6)).st ≠ .free
      ∧ (u.job (bitsOf (arg a 0 4) 27 5) (bitsOf (arg a 0 4) 21 6)).st ≠ .ending
      ∧ (u.job (bitsOf (arg a 0 4) 27 5) (bitsOf (arg a 0 4) 21 6)).inc.toNat = bitsOf (arg a 0 4) 0 21
      ∧ (∀ p, c.mb.part = some p → cidPart (u.job (bitsOf (arg a 0 4) 27 5) (bitsOf (arg a 0 4) 21 6)).cid = p.val))
    fun u _ a =>
      let v := (u.cancelJob (bitsOf (arg a 0 4) 27 5) (bitsOf (arg a 0 4) 21 6) 1).invalCheck
      { st := v, waits := if (v.job (bitsOf (arg a 0 4) 27 5) (bitsOf (arg a 0 4) 21 6)).st = .free then []
          else [.job (bitsOf (arg a 0 4) 27 5) (bitsOf (arg a 0 4) 21 6) (bitsOf (arg a 0 4) 0 21)] })
  ∧ (∀ (mb : MbId) (s : State), Runs (.combineSetup mb) s setupForm mb
    (fun u _ a => u.live (arg a 0 3) = true ∧ (u.ext (xhIdx (arg a 0 3))).combine = true ∧ (u.combOf (xhIdx (arg a 0 3))).resident = 0
      ∧ (u.combOf (xhIdx (arg a 0 3))).clearing = false ∧ u.sessOk (xhIdx (arg a 0 3)) = true ∧ combFmt (arg a 4 1) = true ∧ arg a 5 1 < 0x7F)
    fun u _ a =>
      let w := u.modComb (u.ext (xhIdx (arg a 0 3))).protRef.toNat fun r =>
        { r with fmt := BitVec.ofNat 5 (arg a 4 1), anchor := BitVec.ofNat 7 (arg a 5 1), valid := false, clearing := true }
      { st := w.fillStart (xhIdx (arg a 0 3)), waits := [.zeroFill (xhIdx (arg a 0 3))] })
  ∧ (∀ (mb : MbId) (s : State), Runs (.combineClear mb) s clearForm mb
    (fun u _ a => u.live (arg a 0 3) = true ∧ (u.ext (xhIdx (arg a 0 3))).combine = true ∧ (u.combOf (xhIdx (arg a 0 3))).valid = true
      ∧ (u.combOf (xhIdx (arg a 0 3))).clearing = false ∧ (u.combOf (xhIdx (arg a 0 3))).resident = 0)
    fun u _ a =>
      let w := u.modComb (u.ext (xhIdx (arg a 0 3))).protRef.toNat fun r => { r with clearing := true }
      { st := w.fillStart (xhIdx (arg a 0 3)), waits := [.zeroFill (xhIdx (arg a 0 3))] })
  ∧ (∀ (mb : MbId) (s : State), RunsNoted (.combineReside mb) s resideForm mb
    (fun u _ a => u.live (arg a 0 3) = true ∧ (u.ext (xhIdx (arg a 0 3))).combine = true ∧ (u.combOf (xhIdx (arg a 0 3))).valid = true
      ∧ (u.combOf (xhIdx (arg a 0 3))).clearing = false ∧ u.chunksOk (xhIdx (arg a 0 3)) (arg a 4 4) (arg a 8 4) = true
      ∧ (∀ k, k < arg a 8 4 → u.isResident (xhIdx (arg a 0 3)) (arg a 4 4 + k) = false)
      ∧ (u.placeChunks (xhIdx (arg a 0 3)) ((List.range (arg a 8 4)).map (arg a 4 4 + ·))).isSome = true)
    fun u _ a => { st := (u.placeChunks (xhIdx (arg a 0 3)) ((List.range (arg a 8 4)).map (arg a 4 4 + ·))).getD u })
  ∧ (∀ (mb : MbId) (s : State), Runs (.combineRelease mb) s releaseForm mb
    (fun u _ a => u.live (arg a 0 3) = true ∧ (u.ext (xhIdx (arg a 0 3))).combine = true
      ∧ u.chunksOk (xhIdx (arg a 0 3)) (arg a 4 4) (arg a 8 4) = true
      ∧ (∀ k ∈ u.winsOf (xhIdx (arg a 0 3)) (arg a 4 4) (arg a 8 4), (u.land k).sched = false)
      ∧ ∀ e ∈ u.lands, e.2.awaits (xhIdx (arg a 0 3)) (arg a 4 4) (arg a 8 4) = false)
    fun u _ a =>
      let i := xhIdx (arg a 0 3)
      let l := u.winsOf i (arg a 4 4) (arg a 8 4)
      let v := u.each l fun s k => s.releaseWin (k / 16) (k % 16)
      { st := v, waits := (l.filter fun k => (v.land k).v && (v.land k).ext == i).map fun k => .window (k / 16) (k % 16) })

/-! ### Time, schedules, links and routes (chapters 08, 09, 10 and 11) -/

/-- FT_CONFIG and the schedule commands (R235, R239, R250 to R254, R257, R268, R444): an image is staged, armed when its checks pass with its
sections in the staged copies, disarmed at a takeover of its own, and a pending takeover is cancelled. SHAPE_PORT_SET, SHAPE_PART_SET and
LIMIT_SET (R275, R278, R281, R445). The choices of the model that it rests on: log entries 35, 45, 59, 60, 63. -/
def Obligations.ScheduleAndShapeCommands : Prop :=
  (∀ (mb : MbId) (s : State), Runs (.ftConfig mb) s ftForm mb (fun u _ a => ftCfgOk (arg a 0 8) = true ∧ u.schedBusyCmd = false)
    fun u _ a => { st := { u with keeper := u.keeper.config (arg a 0 8) } })
  ∧ (∀ (mb : MbId) (s : State) (b : List Byte), RunsNoted (.schedStage mb) s stageForm mb
    (fun u c a => 512 ≤ arg a 12 4 ∧ arg a 12 4 ≤ 33554432 ∧ u.sched.next = none ∧ u.refOk none (argRef a 0 8) = true
      ∧ (u.refRead c.eid (argRef a 0 8) (arg a 12 4 / 128 + 2) (argRef a 0 8).off (arg a 12 4)).1 = .ok b ∧ fieldLe b 0 4 = imgMagic
      ∧ 512 ≤ imgLength b ∧ imgLength b ≤ arg a 12 4)
    fun u c a =>
      let v := (u.refRead c.eid (argRef a 0 8) (arg a 12 4 / 128 + 2) (argRef a 0 8).off (arg a 12 4)).2
      { st := { v with sched := { v.sched with stagedImg := b.take (imgLength b), staged := true } } })
  ∧ (∀ (mb : MbId) (s : State) (tx : Nat), Runs (.schedArm mb) s armImgForm mb
    (fun u _ a => u.sched.staged = true ∧ u.keeper.state = 2 ∧ u.sched.pending = false ∧ u.sched.next = none ∧ u.sched.syncLost = false
      ∧ u.imgCheck u.sched.stagedImg (arg a 0 8) ((arg a 8 1).testBit 0) = (0, tx))
    fun u c _ =>
      let v := { u with sched := { u.sched with next := some (imageOf u.sched.stagedImg), tx := tx, armToken := some c.token, loaded := false } }
      let w := v.each v.tileList fun s n => s.modTile n fun t => { t with staged := sectionOf u.sched.stagedImg n }
      { st := w.armWins, waits := [.arm], result := tx })
  ∧ (∀ (mb : MbId) (s : State) (im : Image), Runs (.schedDisarm mb) s disarmForm mb
    (fun u _ a => u.sched.running = some im ∧ u.schedState = 2 ∧ u.sched.next = none
      ∧ u.ftNs + 5000000 ≤ u.takeoverAt im.mode false (16 * max 1 im.cycle) (arg a 0 8) ∧ (im.mode = true ∨ arg a 0 8 % 16 = 0))
    fun u _ a =>
      let tx := u.takeoverAt im.mode false (16 * max 1 im.cycle) (arg a 0 8)
      { st := { u with sched := { u.sched with pending := true, disarm := true, tx := tx } }, result := tx })
  ∧ (∀ (mb : MbId) (s : State), Runs (.schedCancel mb) s cancelImgForm mb
    (fun u _ _ => u.sched.pending = true ∧ u.ftNs + 100000 < u.sched.tx)
    fun u _ _ =>
      let v := { u with sched := { u.sched with pending := false, disarm := false, next := none, loaded := false } }
      { st := v.each v.tileList fun s n => s.modTile n fun t => { t with staged := {} } })
  ∧ (∀ (mb : MbId) (s : State), Runs (.shapePortSet mb) s shapePortForm mb
    (fun u _ a => arg a 0 1 ≤ 15 ∧ u.portEn (arg a 0 1) = true ∧ arg a 8 8 < 2 ^ 56)
    fun u _ a => { st := u.modPort (arg a 0 1) fun x => x.shape (arg a 8 8) })
  ∧ (∀ (mb : MbId) (s : State), Runs (.shapePartSet mb) s shapePartForm mb
    (fun u _ a => arg a 0 1 < 64 ∧ shapeOk (arg a 8 8) = true ∧ (u.part (arg a 0 1)).state ≠ 0 ∧ (u.part (arg a 0 1)).weight ≠ 0)
    fun u _ a => { st := u.modPart (arg a 0 1) fun x => { x with shape := BitVec.ofNat 64 (arg a 8 8) } })
  ∧ (∀ (mb : MbId) (s : State), Runs (.shapePartSet mb) s shapePartForm mb
    (fun u _ a => arg a 0 1 < 64 ∧ shapeOk (arg a 8 8) = true ∧ (u.part (arg a 0 1)).state ≠ 0 ∧ (u.part (arg a 0 1)).weight = 0
      ∧ arg a 8 8 ≠ 0)
    fun u _ a =>
      let v := u.modPart (arg a 0 1) fun x => { x with shape := BitVec.ofNat 64 (arg a 8 8) }
      { st := v.each v.stackList fun s n => s.flowTags (3 + arg a 0 1) n })
  ∧ (∀ (mb : MbId) (s : State), Runs (.limitSet mb) s limitForm mb
    (fun _ _ a => arg a 2 2 ≠ 0 ∧ arg a 2 2 ≤ 4096 ∧ arg a 0 2 + arg a 2 2 ≤ 4095 ∧ arg a 4 2 ≤ 4095 ∧ arg a 6 2 ≤ 4095
      ∧ (arg a 4 2 ≠ 0 → arg a 6 2 ≠ 0))
    fun u _ a =>
      let l := (List.range (arg a 2 2)).map (arg a 0 2 + ·)
      { st := u.each l fun s e => s.modLimit e fun x => x.write (arg a 4 2) (arg a 6 2) s.hubNs })

/-- LINK_ENABLE, _DISABLE, _RETRAIN and _TUNE (R296, R307, R310, R320, R355, R446, R541), and FABRIC_CONFIG, ROUTE_LOAD, ROUTE_FLIP and NODE_WITHDRAW
(R328 to R331, R347, R446). The choices of the model that it rests on: log entries 39, 41, 45, 46. -/
def Obligations.LinkAndRouteCommands : Prop :=
  (∀ (mb : MbId) (s : State), Runs (.linkEnable mb) s enableForm mb
    (fun u _ a => arg a 0 1 < 16 ∧ u.portEn (arg a 0 1) = true ∧ (arg a 1 1).testBit 1 = false ∧ (u.port (arg a 0 1)).state = 0)
    fun u _ a =>
      let v := u.modPort (arg a 0 1) fun x => { x with en := true, auto := (arg a 1 1).testBit 0, state := 1, downAt := u.now, lctl := [] }
      { st := { v with stew := { v.stew with withdrawn := false } } })
  ∧ (∀ (mb : MbId) (s : State), Runs (.linkEnable mb) s enableForm mb
    (fun u _ a => arg a 0 1 < 16 ∧ u.portEn (arg a 0 1) = true ∧ (arg a 1 1).testBit 1 = false ∧ (u.port (arg a 0 1)).state ≠ 0)
    fun u _ a =>
      let v := u.modPort (arg a 0 1) fun x => { x with en := true, auto := (arg a 1 1).testBit 0 }
      { st := { v with stew := { v.stew with withdrawn := false } } })
  ∧ (∀ (mb : MbId) (s : State), Runs (.linkDisable mb) s disableForm mb
    (fun u _ a => arg a 0 1 ≤ 16 ∧ u.portEn (arg a 0 1) = true ∧ (u.port (arg a 0 1)).state = 3)
    fun u _ a =>
      let v := u.setPort (arg a 0 1) { u.port (arg a 0 1) with en := false }
      { st := ((v.modPort (arg a 0 1) fun y => { y with lctl := downFlit 1 :: y.lctl }).sendBlock (arg a 0 1)).linkDown (arg a 0 1) 6 })
  ∧ (∀ (mb : MbId) (s : State), Runs (.linkDisable mb) s disableForm mb
    (fun u _ a => arg a 0 1 ≤ 16 ∧ u.portEn (arg a 0 1) = true ∧ (u.port (arg a 0 1)).state = 4)
    fun u _ a => { st := (u.setPort (arg a 0 1) { u.port (arg a 0 1) with en := false }).linkDown (arg a 0 1) 6 })
  ∧ (∀ (mb : MbId) (s : State), Runs (.linkDisable mb) s disableForm mb
    (fun u _ a => arg a 0 1 ≤ 16 ∧ u.portEn (arg a 0 1) = true ∧ (u.port (arg a 0 1)).state.toNat < 3)
    fun u _ a => { st := u.setPort (arg a 0 1) { u.port (arg a 0 1) with en := false, state := 0, train := {}, lctl := [] } })
  ∧ (∀ (mb : MbId) (s : State), Runs (.linkDisable mb) s disableForm mb (fun u _ a => arg a 0 1 ≤ 16 ∧ u.portEn (arg a 0 1) = false)
    fun u _ _ => { st := u })
  ∧ (∀ (mb : MbId) (s : State), Runs (.linkRetrain mb) s retrainForm mb
    (fun u _ a => arg a 0 1 ≤ 16 ∧ (u.port (arg a 0 1)).state = 3
      ∧ ((u.port (arg a 0 1)).retrains.filter fun t => decide (u.now < t + 100000000)).length < 3)
    fun u _ a => { st := u.retrain (arg a 0 1) 7, waits := [.retrain (arg a 0 1)] })
  ∧ (∀ (mb : MbId) (s : State), Runs (.linkTune mb) s tuneForm mb
    (fun u _ a => arg a 0 1 ≤ 16 ∧ u.portEn (arg a 0 1) = true ∧ ((u.port (arg a 0 1)).state = 0 ∨ (u.port (arg a 0 1)).state = 1)
      ∧ arg a 2 1 ≤ (tget 15 u.nv.amplMax (arg a 0 1)).toNat ∧ arg a 3 1 ≤ 7)
    fun u _ a => { st := u.modPort (arg a 0 1) fun x =>
      { x with lanes := BitVec.ofNat 8 (arg a 1 1), ampl := BitVec.ofNat 8 (arg a 2 1), preset := BitVec.ofNat 8 (arg a 3 1) } })
  ∧ (∀ (mb : MbId) (s : State), Runs (.fabricConfig mb) s fabricForm mb
    (fun u _ a => nodeOk (arg a 0 8) = true ∧ (BitVec.ofNat 12 (bitsOf (arg a 0 8) 0 12) = u.node.eid ∨ u.anyLive = false))
    fun u _ a => { st := { u with node := { u.node with
      eid := BitVec.ofNat 12 (bitsOf (arg a 0 8) 0 12), hopLimit := BitVec.ofNat 8 (bitsOf (arg a 0 8) 16 8)
      pairTimeout := BitVec.ofNat 14 (bitsOf (arg a 0 8) 24 14), restampDelay := BitVec.ofNat 10 (bitsOf (arg a 0 8) 38 10) } } })
  ∧ (∀ (mb : MbId) (s : State), Runs (.routeLoad mb) s routeForm mb
    (fun u _ a => u.dieEn (arg a 0 1) = true ∧ arg a 1 1 ≤ 1 ∧ (2 ≤ ((u.die (arg a 0 1)).slotState (arg a 1 1 == 1)).toNat
      ∨ (u.node.flip ≠ none ∧ (u.die (arg a 0 1)).slotState (arg a 1 1 == 1) = 1)))
    fun u _ _ => { st := u, status := csBadState })
  ∧ (∀ (mb : MbId) (s : State) (b : List Byte), RunsNoted (.routeLoad mb) s routeForm mb
    (fun u c a => u.dieEn (arg a 0 1) = true ∧ arg a 1 1 ≤ 1 ∧ ((u.die (arg a 0 1)).slotState (arg a 1 1 == 1)).toNat < 2
      ∧ (u.node.flip = none ∨ (u.die (arg a 0 1)).slotState (arg a 1 1 == 1) ≠ 1)
      ∧ u.refOk none (argRef a 8 16) = true ∧ (u.refRead c.eid (argRef a 8 16) 130 (argRef a 8 16).off 16384).1 = .ok b
      ∧ ∀ e, e < 4096 → routeOk (fieldLe b (4 * e) 4) = true)
    fun u c a =>
      let v := (u.refRead c.eid (argRef a 8 16) 130 (argRef a 8 16).off 16384).2
      let t := routeTable ((List.range 4096).map fun e => fieldLe b (4 * e) 4)
      { st := v.modDie (arg a 0 1) fun x => x.load (arg a 1 1) (BitVec.ofNat 4 (arg a 2 1)) t })
  ∧ (∀ (mb : MbId) (s : State), Runs (.routeFlip mb) s flipForm mb
    (fun u _ a => u.ftNs + 1000000 ≤ arg a 0 8 ∧ u.node.flip = none ∧ ∀ d ∈ u.dieList, (u.die d).canFlip = true)
    fun u _ a => { st := { u with node := { u.node with flip := some (arg a 0 8) } } })
  ∧ (∀ (mb : MbId) (s : State), Runs (.nodeWithdraw mb) s withdrawNodeForm mb (fun u _ _ => u.quietNode = true)
    fun u _ _ =>
      let v := { u with stew := { u.stew with withdrawn := true } }
      { st := v.each ((List.range 16).filter v.portEn) fun s p => s.disablePort p 0 })

/-! ### Memory, control, telemetry, power and debug (chapters 13, 14, 16 and 17) -/

/-- MEM_SET_RATE, MEM_CONFIG and the diagnostic commands (R378 to R380, R394, R395, R397, R447).
The choices of the model that it rests on: log entries 45, 70. -/
def Obligations.MemoryCommands : Prop :=
  (∀ (mb : MbId) (s : State), Runs (.memSetRate mb) s rateForm mb
    (fun u _ a => arg a 0 1 ≠ 0 ∧ arg a 1 1 ≤ 3 ∧ u.schedBusyCmd = false ∧ u.mem.rcOn = false
      ∧ ∀ n, n < 8 → (arg a 0 1).testBit n = true → u.stackEn n = true ∧ (u.stack n).state = 2 ∧ (u.stack n).diag = false)
    fun u _ a => { waits := [.rate], st := ({ u with mem := { u.mem with
      rcMask := BitVec.ofNat 8 (arg a 0 1), rcCode := BitVec.ofNat 2 (arg a 1 1), rcOn := true, rcCapper := false, rcLower := false } }).rateNext })
  ∧ (∀ (mb : MbId) (s : State), Runs (.memConfig mb) s memCfgForm mb (fun _ _ a => 1 ≤ arg a 0 8 ∧ arg a 0 8 ≤ 24)
    fun u _ a => { st := { u with mem := { u.mem with patrolH := BitVec.ofNat 5 (arg a 0 8) } } })
  ∧ (∀ (mb : MbId) (s : State), Runs (.memDiagOpen mb) s diagOpenForm mb
    (fun u _ a => arg a 0 1 ≤ 7 ∧ (u.stack (arg a 0 1)).state = 2 ∧ (u.stack (arg a 0 1)).diag = false
      ∧ ∀ e ∈ u.rmap, e.2.held = false ∨ inGroup3 (arg a 0 1) e.1 = false)
    fun u _ a => { st := u.modStack (arg a 0 1) fun x => { x with diag := true } })
  ∧ (∀ (mb : MbId) (s : State), Runs (.memDiagWrite mb) s diagWriteForm mb
    (fun u _ a => arg a 0 1 ≤ 7 ∧ (u.stack (arg a 0 1)).diag = true ∧ ppaC15 (arg a 0 1) (arg a 8 8) = true
      ∧ u.lineWaits (arg a 8 8 / 128) = false)
    fun u _ a => { st := (u.useRow (arg a 8 8 / 128)).storeRaw (arg a 8 8 / 128) (BitVec.ofNat 1024 (arg a 16 128)) (BitVec.ofNat 128 (arg a 144 16)) })
  ∧ (∀ (mb : MbId) (s : State), Runs (.memDiagRead mb) s diagReadForm mb
    (fun u _ a => arg a 0 1 ≤ 7 ∧ (u.stack (arg a 0 1)).diag = true ∧ ppaC15 (arg a 0 1) (arg a 8 8) = true
      ∧ u.lineWaits (arg a 8 8 / 128) = false)
    fun u _ a =>
      let v := (u.useRow (arg a 8 8 / 128)).rawC15 (arg a 8 8 / 128)
      let d := v.rawLine (arg a 8 8 / 128)
      let k := v.storedChecks (arg a 8 8 / 128)
      { st := v, result := packBytes [(0, 128, d.toNat), (128, 16, k.toNat), (144, 1, (rsClass (dataSyms d 0) (checkSyms k 0)).code),
        (145, 1, (rsClass (dataSyms d 1) (checkSyms k 1)).code)] })
  ∧ (∀ (mb : MbId) (s : State), Runs (.memDiagClose mb) s diagCloseForm mb
    (fun u _ a => arg a 0 1 ≤ 7 ∧ (u.stack (arg a 0 1)).diag = true ∧ u.group3Waits (arg a 0 1) = false)
    fun u _ a => { st := (u.fillGroup3 (arg a 0 1)).modStack (arg a 0 1) fun x => { x with diag := false } })
  ∧ (∀ (mb : MbId) (s : State), Runs (.memDiagWrite mb) s diagWriteForm mb
    (fun u _ a => arg a 0 1 ≤ 7 ∧ (u.stack (arg a 0 1)).diag = true ∧ ppaC15 (arg a 0 1) (arg a 8 8) = true
      ∧ u.lineWaits (arg a 8 8 / 128) = true)
    fun u _ _ => { st := u, again := true })
  ∧ (∀ (mb : MbId) (s : State), Runs (.memDiagRead mb) s diagReadForm mb
    (fun u _ a => arg a 0 1 ≤ 7 ∧ (u.stack (arg a 0 1)).diag = true ∧ ppaC15 (arg a 0 1) (arg a 8 8) = true
      ∧ u.lineWaits (arg a 8 8 / 128) = true)
    fun u _ _ => { st := u, again := true })
  ∧ (∀ (mb : MbId) (s : State), Runs (.memDiagClose mb) s diagCloseForm mb
    (fun u _ a => arg a 0 1 ≤ 7 ∧ (u.stack (arg a 0 1)).diag = true ∧ u.group3Waits (arg a 0 1) = true)
    fun u _ _ => { st := u, again := true })

/-- ADMIN_SET, NOTIFY_SET, MC_TAKEOVER, COUNTER_SNAPSHOT, TEST_RUN, the power commands, DEVICE_RESET and the debug commands (R405, R412, R419,
R448, R449, R451, R452, R512, R520); the words that a debug read returns are free values (log entry 13).
The choices of the model that it rests on: log entries 13, 45, 67, 71, 77. -/
def Obligations.ControlCommands : Prop :=
  (∀ (mb : MbId) (s : State), Runs (.adminSet mb) s adminForm mb (fun _ _ a => admitOk (arg a 0 8) = true)
    fun u _ a => { st := { u with stew := { u.stew with admin := BitVec.ofNat 64 (arg a 0 8) } } })
  ∧ (∀ (mb : MbId) (s : State), Runs (.notifySet mb) s notifyForm mb
    (fun u _ a => arg a 0 1 < 64 ∧ ntfOk (arg a 8 8) = true ∧ ((u.part (arg a 0 1)).conf = false ∨ (arg a 8 8).testBit 1 = false))
    fun u _ a => { st := u.modPart (arg a 0 1) fun x => { x with ntf := BitVec.ofNat 64 (arg a 8 8) } })
  ∧ (∀ (mb : MbId) (s : State), Runs (.notifySet mb) s notifyForm mb (fun _ c a => arg a 0 1 = 0xFF ∧ c.mb.part = none ∧ ntfOk (arg a 8 8) = true)
    fun u _ a => { st := { u with stew := { u.stew with devNtf := BitVec.ofNat 64 (arg a 8 8) } } })
  ∧ (∀ (mb : MbId) (s : State), Runs (.mcTakeover mb) s mcTakeoverForm mb
    (fun u _ _ => u.stewardUp = true ∧ u.stew.standby = 0 ∧ u.stew.claim ≠ 0xFFFFFFFF)
    fun u _ _ => { waits := [.takeover]
                   st := { u with stew := { u.stew with standby := 1, lastCause := 4, step := .booting, heartbeat := u.now } } })
  ∧ (∀ (mb : MbId) (s : State), Runs (.counterSnapshot mb) s snapshotForm mb
    (fun u _ a => u.ftNs + 20000 ≤ arg a 0 8 ∧ arg a 0 8 ≤ u.ftNs + 10000000000 ∧ u.cnt.pending = false)
    fun u _ a => { waits := [.snapshot], st := { u with cnt := { u.cnt with
      pending := true, snapFt := BitVec.ofNat 64 (arg a 0 8), todo := u.unitBlocks } } })
  ∧ (∀ (mb : MbId) (s : State), Runs (.testRun mb) s testForm mb
    (fun u _ a => arg a 0 1 ≤ 31 ∧ u.tileDead (arg a 0 1) = false ∧ (u.tile (arg a 0 1)).kat.running = false
      ∧ (u.tile (arg a 0 1)).kat.due = false ∧ (arg a 1 1).testBit 0 = false)
    fun u _ a => { waits := [.test (arg a 0 1)], st := u.modTile (arg a 0 1) fun t => { t with kat := { t.kat with due := true, trigger := 2 } } })
  ∧ (∀ (mb : MbId) (s : State), Runs (.powerCapSet mb) s capForm mb
    (fun u _ a => u.pwr.floor.toNat ≤ arg a 0 2 ∧ arg a 0 2 ≤ u.pwr.ceiling.toNat)
    fun u _ a => { st := { u with pwr := { u.pwr with cap := BitVec.ofNat 10 (arg a 0 2) } } })
  ∧ (∀ (mb : MbId) (s : State), Runs (.powerStateSet mb) s powerForm mb
    (fun u _ a => 1 ≤ arg a 0 1 ∧ arg a 0 1 ≤ 4 ∧ u.pwr.pstep = .none ∧ arg a 0 1 ≠ u.pwr.state.toNat)
    fun u c a => { waits := [.power], st := { u with pwr := { u.pwr with
      pstep := .s1, entering := true, target := BitVec.ofNat 3 (arg a 0 1), token := some c.token, answers := [], delays := []
      refuse := none, wake := false } } })
  ∧ (∀ (mb : MbId) (s : State), Runs (.powerStateSet mb) s powerForm mb
    (fun u _ a => arg a 0 1 = 0 ∧ u.pwr.pstep = .none ∧ u.pwr.state = 1) fun u _ _ => { st := u.wakeD1 })
  ∧ (∀ (mb : MbId) (s : State), Runs (.deviceReset mb) s resetForm mb (fun u _ a => (arg a 0 1).testBit 0 = true ∨ u.stew.withdrawn = true)
    fun u _ _ => { st := { u with stew := { u.stew with resetAt := some (u.now + 1000000) } } })
  ∧ (∀ (mb : MbId) (s : State), Runs (.dbgRead mb) s dbgReadForm mb
    (fun u _ a => u.dbgdis = false ∧ u.unitConf (arg a 0 2) = false ∧ arg a 0 2 < 0xB000 ∧ arg a 8 1 ≠ 0 ∧ arg a 8 1 ≤ 28)
    fun u _ a => { st := { u with fresh := u.fresh + 1 }, result := packBytes ((List.range (arg a 8 1)).map fun i =>
      (8 * i, 8, (Config.debugWord u.fresh (arg a 0 2) (arg a 4 4 + 8 * i)).toNat)) })
  ∧ (∀ (mb : MbId) (s : State), Runs (.dbgWrite mb) s dbgWriteForm mb
    (fun u _ a => u.dbgdis = false ∧ u.unitConf (arg a 0 2) = false ∧ arg a 0 2 < 0xB000 ∧ arg a 8 1 ≠ 0 ∧ arg a 8 1 ≤ 28)
    fun u _ _ => { st := u })

/-- The report of a partition that ATTEST_REPORT asks for, with its nonce and the identifier of its session (R458, R459). -/
def Sys2Proof.Machine.State.partReport (s : State) (a : Nat) : List Byte :=
  s.report (s.reportBody (some (arg a 0 1)) (arg a 8 32) 0 (if (s.part (arg a 0 1)).sess = 1 then (s.part (arg a 0 1)).sid.toNat else 0))

/-- The transcript hash of a session: the hello and the answer's head (R463). -/
def Sys2Proof.Machine.State.transcript (s : State) (p : Nat) (h : List Byte) : BitVec 384 :=
  Config.sha384 (h ++ answerHead h p (s.stew.sessions.toNat + 1) s.fresh)

/-- The answer of a session: its head, CONFIRM, and the report that binds the transcript (R462, R463). -/
def Sys2Proof.Machine.State.sessionAnswer (s : State) (p : Nat) (h : List Byte) : List Byte :=
  answerHead h p (s.stew.sessions.toNat + 1) s.fresh
    ++ leBytes 56 (packBytes [(0, 48, (confirm (sessionPrk h s.fresh) (s.transcript p h)).toNat), (48, 4, 3661)])
    ++ s.report (({ s with fresh := s.fresh + 3 }).reportBody (some p) 0 (s.transcript p h).toNat (s.stew.sessions.toNat + 1))

/-- Certificates, reports, sessions and firmware (R433, R450, R453, R457, R459, R462 to R466, R476, R477, R479): the bytes are written at their
reference, or read there; a session opens when its hello passes, an image that verifies is written to the slot, empty meanwhile, and staged when
it stands there, and a commit waits for its switchover. The choices of the model that it rests on: log entries 10, 45, 48, 69, 72. -/
def Obligations.SecurityCommands : Prop :=
  (∀ (mb : MbId) (s : State) (l : List Byte), RunsNoted (.certRead mb) s certForm mb
    (fun u c a => arg a 0 1 ≤ 2 ∧ (Config.cert (arg a 0 1)).length ≤ arg a 20 4 ∧ u.refOk (c.ofPart none) (argRef a 8 16) = true
      ∧ (u.refPlan c.eid (argRef a 8 16) ((Config.cert (arg a 0 1)).length / 128 + 2) (argRef a 8 16).off (Config.cert (arg a 0 1))).1 = .ok l)
    fun u c a =>
      { result := (Config.cert (arg a 0 1)).length
        st := (u.refWrite c.eid (argRef a 8 16) ((Config.cert (arg a 0 1)).length / 128 + 2) (argRef a 8 16).off (Config.cert (arg a 0 1))).2 })
  ∧ (∀ (mb : MbId) (s v : State) (st : Status), Runs (.certRead mb) s certForm mb
    (fun u c a => arg a 0 1 ≤ 2 ∧ (Config.cert (arg a 0 1)).length ≤ arg a 20 4 ∧ u.refOk (c.ofPart none) (argRef a 8 16) = true
      ∧ u.refPlan c.eid (argRef a 8 16) ((Config.cert (arg a 0 1)).length / 128 + 2) (argRef a 8 16).off (Config.cert (arg a 0 1))
        = (.failed st, v))
    fun _ _ _ => { st := v, status := csRangeRead, detail := st.toNat })
  ∧ (∀ (mb : MbId) (s : State) (l : List Byte), RunsNoted (.attestReport mb) s attestForm mb
    (fun u c a => arg a 0 1 < 64 ∧ (u.part (arg a 0 1)).state ≠ 0 ∧ 3661 ≤ arg a 52 4
      ∧ u.refOk (c.ofPart (some (arg a 0 1))) (argRef a 40 48) = true
      ∧ (u.refPlan c.eid (argRef a 40 48) ((u.partReport a).length / 128 + 2) (argRef a 40 48).off (u.partReport a)).1 = .ok l)
    fun u c a =>
      { result := 3661
        st := (u.refWrite c.eid (argRef a 40 48) ((u.partReport a).length / 128 + 2) (argRef a 40 48).off (u.partReport a)).2 })
  ∧ (∀ (mb : MbId) (s v : State) (h : List Byte), Runs (.sessionOpen mb) s sessionForm mb
    (fun u c a => arg a 0 1 < 64 ∧ (u.part (arg a 0 1)).conf = true ∧ (u.part (arg a 0 1)).state = 1 ∧ (u.part (arg a 0 1)).sess ≠ 1
      ∧ u.refOk none (argRef a 8 24) = true ∧ u.refRead c.eid (argRef a 8 24) 11 (argRef a 8 24).off 1256 = (.ok h, v)
      ∧ helloOk h (arg a 0 1) v.fresh = false)
    fun _ _ _ => { st := { v with fresh := v.fresh + 3 }, status := csAuthFailed })
  ∧ (∀ (mb : MbId) (s : State) (h l : List Byte), RunsNoted (.sessionOpen mb) s sessionForm mb
    (fun u c a =>
      let v := (u.refRead c.eid (argRef a 8 24) 11 (argRef a 8 24).off 1256).2
      let b := v.sessionAnswer (arg a 0 1) h
      arg a 0 1 < 64 ∧ (u.part (arg a 0 1)).conf = true ∧ (u.part (arg a 0 1)).state = 1 ∧ (u.part (arg a 0 1)).sess ≠ 1
        ∧ u.refOk none (argRef a 8 24) = true ∧ (u.refRead c.eid (argRef a 8 24) 11 (argRef a 8 24).off 1256).1 = .ok h
        ∧ helloOk h (arg a 0 1) v.fresh = true ∧ v.refOk none (argRef a 16 24) = true
        ∧ (({ v with fresh := v.fresh + 3 }).refPlan c.eid (argRef a 16 24) (b.length / 128 + 2) (argRef a 16 24).off b).1 = .ok l)
    fun u c a =>
      let v := (u.refRead c.eid (argRef a 8 24) 11 (argRef a 8 24).off 1256).2
      let b := v.sessionAnswer (arg a 0 1) h
      let w := (({ v with fresh := v.fresh + 3 }).refWrite c.eid (argRef a 16 24) (b.length / 128 + 2) (argRef a 16 24).off b).2
      let th := v.transcript (arg a 0 1) h
      { result := 4877, st := w.openSession (arg a 0 1) (v.stew.sessions.toNat + 1) (linkSecret (sessionPrk h v.fresh) th) th })
  ∧ (∀ (mb : MbId) (s v : State) (b : List Byte), Runs (.fwStage mb) s fwStageForm mb
    (fun u c a => u.stew.flashing = none ∧ 4096 < arg a 12 4 ∧ arg a 12 4 ≤ 67108864 ∧ u.stew.step ≠ .swWait ∧ u.stew.commit = false
      ∧ u.refOk none (argRef a 0 8) = true
      ∧ u.refRead c.eid (argRef a 0 8) (arg a 12 4 / 128 + 2) (argRef a 0 8).off (arg a 12 4) = (.ok b, v)
      ∧ fieldLe b 0 4 = 0x47504657 ∧ fieldLe b 16 4 + 4096 = arg a 12 4 ∧ v.fwOk b = true)
    fun _ c _ => { again := true, st := { v with nv := v.nv.setOther {}, stew := { v.stew with flashing := some (c.token, fwSlotOf b) } } })
  ∧ (∀ (mb : MbId) (s : State) (c : Cmd) (f : FwSlot), s.stewardUp = true → s.cmds.find? (fun c => c.mb == mb && c.deferred) = some c →
      c.opcode.toNat = fwStageForm.op → s.stew.commit = false →
      s.common fwStageForm c (s.mbox c.mb.idx).arglen (s.mbox c.mb.idx).args = none → s.blocked c = false →
      s.stew.flashing = some (c.token, f) →
    exec (.fwStage mb) s = .next (({ st := (s.note c.token .write).flashEnd f } : Answer).post c))
  ∧ (∀ (mb : MbId) (s : State), Runs (.fwCommit mb) s fwCommitForm mb (fun u _ _ => u.nv.otherSlot.valid = true ∧ u.stew.standby = 0)
    fun u c _ => { waits := [.commit]
                   st := { u with stew := { u.stew with step := .swWait, commitToken := some c.token, swAt := u.now } } })

/-! ### Every command of a mailbox (chapter 14) -/

/-- The checks before a command's own (R432, R434): a command that Steward takes and that fails one of them, or whose opcode is not defined, is
answered with that check's status and has no other effect. The choices of the model that it rests on: log entries 45, 46. -/
def Obligations.CommandRefused : Prop :=
  (∀ (f : CmdForm) (mb : MbId) (body : State → Cmd → Nat → Answer) (s : State) (st : Nat), s.stewardUp = true →
      (∀ c ∈ s.cmds, c.mb ≠ mb ∨ c.deferred = false) → s.nextMb = some mb.idx → (s.mbox mb.idx).opcode.toNat = f.op → s.cmds.length < 64 →
      s.stew.step ≠ .swWait →
      (s.takeCmd mb f.names).2.common f (s.takeCmd mb f.names).1 ((s.takeCmd mb f.names).2.mbox mb.idx).arglen
        ((s.takeCmd mb f.names).2.mbox mb.idx).args = some st →
    s.ran f mb body = .next (({ st := (s.takeCmd mb f.names).2, status := st } : Answer).post (s.takeCmd mb f.names).1))
  ∧ (∀ (mb : MbId) (s : State), s.stewardUp = true → (s.mbox mb.idx).opcode.toNat ∉ opcodes → s.nextMb = some mb.idx → s.cmds.length < 64 →
      s.stew.step ≠ .swWait →
    exec (.undefinedOpcodeCommand mb) s = .next
      (({ st := (s.takeCmd mb fun _ => []).2
          status := if (s.takeCmd mb fun _ => []).2.stew.commit then csBusy else csBadOpcode } : Answer).post (s.takeCmd mb fun _ => []).1))

/-- What posting an answer changes (R408, R409, R413, R420): the commands in progress, the mailboxes, the rings of notifications and the journal, and nothing else
of the state that the answer carries, unless the command waits for back-invalidations.
The choices of the model that it rests on: log entries 45, 88. -/
def Obligations.PostFrame : Prop :=
  ∀ (r : Answer) (c : Cmd), (∀ i, Wait.binv i ∉ r.waits) → (∀ e, Wait.agents e ∉ r.waits) →
    ∃ (cm : List Cmd) (mx : Tbl Mbox) (rg : Tbl Ring) (jr : Journal),
      r.post c = { r.st with cmds := cm, mboxes := mx, rings := rg, journal := jr }

/-! ### Rules stated whole, and the laws of memory and counters -/

/-- R422: a reply is stored only in a mailbox that is RUNNING and whose MSEQ is the reply's; any other reply leaves every mailbox as it was; and
a second reply to a mailbox that has just stored one is discarded. The choices of the model that it rests on: log entry 88. -/
def Obligations.ReplyPosted : Prop :=
  ∀ (c : Cmd) (s : State),
    ((s.mbox c.mb.idx).running = true → (s.mbox c.mb.idx).mseq = c.mseq → ∃ t : State,
      t = ({ s with cmds := s.cmds.filter (·.token ≠ c.token), journal := (s.journal.write c.token .done).retire c.token }).setMbox c.mb.idx
          { s.mbox c.mb.idx with running := false, req := (s.mbox c.mb.idx).req &&& ~~~1, rpl := replySlot c (s.mbox c.mb.idx).tag }
        ∧ s.postReply c = (if (s.mbox c.mb.idx).notify then
            t.doneRec (match c.mb.part with | some p => p.val | none => 64) (cmdDone c (s.mbox c.mb.idx).tag) none else t)
        ∧ ∀ e : Cmd, e.mb = c.mb → ((s.postReply c).postReply e).mboxes = (s.postReply c).mboxes)
    ∧ ((s.mbox c.mb.idx).running = false ∨ (s.mbox c.mb.idx).mseq ≠ c.mseq →
      s.postReply c = { s with cmds := s.cmds.filter (·.token ≠ c.token), journal := (s.journal.write c.token .done).retire c.token })

/-- R99: a write that has passed the earlier checks of R98, to a region without W: with R it completes with OK, or with LEGACY_ABORT under STRICT;
without R it completes with LEGACY_ABORT; no byte of DRAM changes and no stack takes a request. -/
def Obligations.ReadOnlyRegion : Prop :=
  ∀ (p : Packet) (s : State), s.turn p = true → s.filtered p.src = true → p.vc = false → p.opc = oWrLine ∨ p.opc = oWrPartial →
    let h := (s.take p).1
    let u := (s.take p).2
    let g := u.region (p.offset.toNat % 2 ^ 36 / 2 ^ 21)
    let x := u.part u.elder.part.toNat
    h.pkt = p → u.mustHold h = false → u.elderOk h (u.elderReq h) = true → g.w = false → x.abortAt = none →
    ∃ t : State, exec (.elderRequest p) s = .next t ∧ t.dram = s.dram ∧ t.stks = s.stks
      ∧ (g.r = true → x.strict = false →
        t = u.reply (u.elderReq h) (u.elderReq h).home (u.cmpFor (u.elderReq h) (u.elderReq h).home stOk))
      ∧ (g.r = true → x.strict = true →
        t = u.reply (u.elderReq h) (u.elderReq h).home (u.cmpFor (u.elderReq h) (u.elderReq h).home stLegacy))
      ∧ (g.r = false → t = u.reply (u.elderReq h) (u.elderReq h).home (u.cmpFor (u.elderReq h) (u.elderReq h).home stLegacy))

/-- R397: MEM_CFG at 0x4_0800 holds PATROL_H in bits [4:0], 8 after reset, and nothing above; no write reaches it from outside; MEM_CONFIG writes
a period of 1 to 24, and one of 0 or 25 to 31 is refused and changes nothing.
The choices of the model that it rests on: log entries 45, 46. -/
def Obligations.MemCfgRegister : Prop :=
  (∀ s : State, s.devWord 0x40800 = s.mem.patrolH.toNat ∧ s.devWord 0x40800 < 32)
  ∧ State.reset.devWord 0x40800 = 8
  ∧ (∀ (k : Packet) (s : State), s.mayWrite k (.dev 0x40800) = false)
  ∧ (∀ (mb : MbId) (s : State), Runs (.memConfig mb) s memCfgForm mb (fun _ _ a => 1 ≤ arg a 0 8 ∧ arg a 0 8 ≤ 24)
    fun u _ a => { st := { u with mem := { u.mem with patrolH := BitVec.ofNat 5 (arg a 0 8) } } })
  ∧ (∀ (mb : MbId) (s : State), Runs (.memConfig mb) s memCfgForm mb (fun _ _ a => arg a 0 8 = 0 ∨ (25 ≤ arg a 0 8 ∧ arg a 0 8 ≤ 31))
    fun u c _ => refuse u c wStructure csBadArg)
  ∧ ∀ (n : Nat) (s : State), n ≤ 24 → ({ s with mem := { s.mem with patrolH := BitVec.ofNat 5 n } }).devWord 0x40800 = n

/-- R458: IDHASH is readable as the six registers IDHASHk at 0x7_0000 + 8k, each with bytes 8k to 8k + 7 of it, and written by no access. -/
def Obligations.IdHashRegisters : Prop :=
  ∀ (k : Nat) (q : Packet) (s : State), k < 6 →
    s.devWord (0x70000 + 8 * k) = (s.pwr.idhash.extractLsb' (64 * k) 64).toNat
      ∧ s.mayWrite q (.dev (0x70000 + 8 * k)) = false
      ∧ locOf (0x70000 + 8 * k) = .dev (0x70000 + 8 * k)

/-- R233: FT is 80 bits, nanoseconds above a 16-bit fraction; FT_NOW_NS reads its nanoseconds and latches the matching fraction into FT_NOW_FRAC,
which reads it; both read zero after reset, no access writes them, and the bits above FRAC read zero. -/
def Obligations.FtNowRegisters : Prop :=
  (∀ (k : Packet) (s : State), s.readWord k 0x6000
      = ((s.keeper.ft.extractLsb' 16 64).toNat, { s with keeper := { s.keeper with frac := s.keeper.ft.extractLsb' 0 16 } }))
  ∧ (∀ (k : Packet) (s : State), s.readWord k 0x6008 = (s.keeper.frac.toNat, s) ∧ (s.readWord k 0x6008).1 < 2 ^ 16)
  ∧ State.reset.devWord 0x6000 = 0 ∧ State.reset.devWord 0x6008 = 0
  ∧ ∀ (k : Packet) (s : State), s.mayWrite k (.dev 0x6000) = false ∧ s.mayWrite k (.dev 0x6008) = false

/-- Lines of DRAM (R385, R393, R472): a line reads back as it was last written under its key and tweak, and as a free value under any other (log
entry 9); every other line reads as before, and the memory keeps its canonical form.
The choices of the model that it rests on: log entry 8. -/
def Obligations.LinesReadBack : Prop :=
  ∀ (s : State) (l : Nat) (d : Line) (key : Option Nat) (tweak : Nat),
    (s.storeLine l d key tweak).readLine l key tweak = d
      ∧ (∀ k w, k ≠ key ∨ w ≠ tweak → (s.storeLine l d key tweak).readLine l k w = Config.stale (k.getD 0) w l)
      ∧ (∀ m k w, m ≠ l → (s.storeLine l d key tweak).readLine m k w = s.readLine m k w)
      ∧ (Memory.wf s.dram → Memory.wf (s.storeLine l d key tweak).dram)

/-- Event counters (R509): one stays at 2^48 − 1 once it is there, every other counter but ELOG_DROPPED keeps its value, and a COUNTER_SATURATED
record is offered exactly when the counter reaches 2^48 − 1. The choices of the model that it rests on: log entry 80. -/
def Obligations.CountersSaturate : Prop :=
  ∀ (s : State) (off n : Nat), off ≠ elogDroppedOff →
    tget 0 (s.bumpBy off n).cnt.live off = min (2 ^ 48 - 1) (tget 0 s.cnt.live off + n)
      ∧ (∀ k, k ≠ off → k ≠ elogDroppedOff → tget 0 (s.bumpBy off n).cnt.live k = tget 0 s.cnt.live k)
      ∧ (tget 0 s.cnt.live off < 2 ^ 48 - 1 → 2 ^ 48 - 1 ≤ tget 0 s.cnt.live off + n → ∃ u : State,
          u = { s with cnt := { s.cnt with live := tput 0 s.cnt.live off (2 ^ 48 - 1) } }
            ∧ s.bumpBy off n = u.logErr (errRec 0x70 0 none 0 (satDetail off)))
      ∧ (2 ^ 48 - 1 ≤ tget 0 s.cnt.live off ∨ tget 0 s.cnt.live off + n < 2 ^ 48 - 1 → (s.bumpBy off n).elog = s.elog)
end

