-- ==== Sys2Proof/Laws/Tables.lean ====
section
/-! SUPPORT. The laws of sparse tables and of memory: a read after a write, and the canonical form. -/
namespace Sys2Proof.Machine

variable {α : Type} (d : α)

/-! ### Reading what was written -/

theorem tget_tins_same (t : Tbl α) (k : Nat) (v : α) (h : ∀ e ∈ t, e.1 ≠ k) : tget d (tins t k v) k = v := by
  induction t with
  | nil => simp [tins, tget]
  | cons e t ih =>
    obtain ⟨j, x⟩ := e
    simp only [tins]
    split
    · have : j ≠ k := h (j, x) (by simp)
      simp only [tget, this, if_false]
      exact ih fun e m => h e (by simp [m])
    · simp [tget]

theorem tget_tins_ne (t : Tbl α) (k i : Nat) (v : α) (h : i ≠ k) : tget d (tins t k v) i = tget d t i := by
  induction t with
  | nil => simp [tins, tget, Ne.symm h]
  | cons e t ih =>
    obtain ⟨j, x⟩ := e
    simp only [tins]
    split
    · simp only [tget, ih]
    · simp [tget, Ne.symm h]

theorem tget_tdel_same (t : Tbl α) (k : Nat) : tget d (tdel t k) k = d := by
  induction t with
  | nil => rfl
  | cons e t ih =>
    obtain ⟨j, x⟩ := e
    simp only [tdel]
    split
    · exact ih
    · simp [tget, *]

theorem tget_tdel_ne (t : Tbl α) (k i : Nat) (h : i ≠ k) : tget d (tdel t k) i = tget d t i := by
  induction t with
  | nil => rfl
  | cons e t ih =>
    obtain ⟨j, x⟩ := e
    simp only [tdel]
    split
    · simp [tget, ih, show j ≠ i by omega]
    · simp only [tget, ih]

theorem mem_tdel_ne (t : Tbl α) (k : Nat) : ∀ e ∈ tdel t k, e.1 ≠ k := by
  induction t with
  | nil => simp [tdel]
  | cons e t ih =>
    obtain ⟨j, x⟩ := e
    simp only [tdel]
    split
    · exact ih
    · intro e m
      rcases List.mem_cons.1 m with rfl | m
      · assumption
      · exact ih e m

section
variable [DecidableEq α]

/-- An entry reads as it was written. -/
@[simp] theorem tget_tput_same (t : Tbl α) (k : Nat) (v : α) : tget d (tput d t k v) k = v := by
  unfold tput
  split
  · rw [tget_tdel_same]; exact Eq.symm ‹_›
  · exact tget_tins_same d _ _ _ (mem_tdel_ne t k)

/-- Every other entry reads as before. -/
theorem tget_tput_ne (t : Tbl α) (k i : Nat) (v : α) (h : i ≠ k) : tget d (tput d t k v) i = tget d t i := by
  unfold tput
  split
  · exact tget_tdel_ne d t k i h
  · rw [tget_tins_ne d _ _ _ _ h, tget_tdel_ne d t k i h]

/-- Every entry of a table with one entry changed. -/
theorem tget_tput (t : Tbl α) (k i : Nat) (v : α) : tget d (tput d t k v) i = if i = k then v else tget d t i := by
  split
  · subst ‹i = k›; exact tget_tput_same d t i v
  · exact tget_tput_ne d t k i v ‹_›

/-! ### The canonical form -/

/-- The canonical form in terms of lists: keys strictly rising, no default listed. -/
theorem twf_iff (t : Tbl α) : twf d t = true ↔ (t.map (·.1)).Pairwise (· < ·) ∧ ∀ e ∈ t, e.2 ≠ d := by
  induction t with
  | nil => simp [twf]
  | cons e t ih =>
    obtain ⟨j, x⟩ := e
    cases t with
    | nil => simp [twf]
    | cons f t =>
      obtain ⟨k, y⟩ := f
      simp only [twf, Bool.and_eq_true, decide_eq_true_eq, ih, List.map_cons, List.pairwise_cons, List.mem_map, List.mem_cons,
        forall_eq_or_imp]
      constructor
      · rintro ⟨⟨hjk, hx⟩, ⟨hk, ht⟩, hy⟩
        refine ⟨⟨⟨hjk, ?_⟩, hk, ht⟩, hx, hy⟩
        rintro i ⟨e, he, rfl⟩
        exact Nat.lt_trans hjk (hk _ ⟨e, he, rfl⟩)
      · rintro ⟨⟨hj, hk, ht⟩, hx, hy⟩
        exact ⟨⟨hj.1, hx⟩, ⟨hk, ht⟩, hy⟩

omit [DecidableEq α] in
theorem tdel_sublist (t : Tbl α) (k : Nat) : (tdel t k).Sublist t := by
  induction t with
  | nil => exact .slnil
  | cons e t ih =>
    obtain ⟨j, x⟩ := e
    simp only [tdel]
    split
    · exact ih.cons _
    · exact ih.cons_cons _

/-- Any part of a table in canonical form is in canonical form. -/
theorem twf_sublist {t u : Tbl α} (h : u.Sublist t) (w : twf d t = true) : twf d u = true := by
  rw [twf_iff] at w ⊢
  exact ⟨w.1.sublist (h.map _), fun e m => w.2 e (h.mem m)⟩

omit [DecidableEq α] in
theorem mem_tins (t : Tbl α) (k : Nat) (v : α) : ∀ e, e ∈ tins t k v ↔ e = (k, v) ∨ e ∈ t := by
  intro e
  induction t with
  | nil => simp [tins]
  | cons f t ih =>
    obtain ⟨j, x⟩ := f
    simp only [tins]
    split
    · simp only [List.mem_cons, ih]; tauto
    · simp only [List.mem_cons]

omit [DecidableEq α] in
theorem tins_rising (t : Tbl α) (k : Nat) (v : α) (h : (t.map (·.1)).Pairwise (· < ·)) (n : ∀ e ∈ t, e.1 ≠ k) :
    ((tins t k v).map (·.1)).Pairwise (· < ·) := by
  induction t with
  | nil => simp [tins]
  | cons f t ih =>
    obtain ⟨j, x⟩ := f
    have hj : j ≠ k := n (j, x) (by simp)
    simp only [List.map_cons, List.pairwise_cons] at h
    simp only [tins]
    split
    · simp only [List.map_cons, List.pairwise_cons]
      refine ⟨?_, ih h.2 fun e m => n e (by simp [m])⟩
      intro i m
      obtain ⟨e, q, he⟩ := List.mem_map.1 m
      clear m
      subst he
      rcases (mem_tins t k v e).1 q with rfl | m
      · assumption
      · exact h.1 _ (List.mem_map_of_mem ‹e ∈ t›)
    · simp only [List.map_cons, List.pairwise_cons]
      refine ⟨?_, h⟩
      intro i m
      have : k < j := by omega
      rcases List.mem_cons.1 m with rfl | m
      · exact this
      · exact Nat.lt_trans this (h.1 i m)

/-- A table stays in canonical form as an entry changes. -/
theorem twf_tput (t : Tbl α) (k : Nat) (v : α) (h : twf d t = true) : twf d (tput d t k v) = true := by
  unfold tput
  have w := twf_sublist d (tdel_sublist t k) h
  split
  · exact w
  · rw [twf_iff] at w ⊢
    refine ⟨tins_rising _ _ _ w.1 (mem_tdel_ne t k), ?_⟩
    intro e m
    rcases (mem_tins _ _ _ e).1 m with rfl | m
    · assumption
    · exact w.2 e m

/-- Two tables in canonical form that read the same at every key are the same. -/
theorem twf_ext (t u : Tbl α) (ht : twf d t = true) (hu : twf d u = true) (h : ∀ k, tget d t k = tget d u k) : t = u := by
  have get : ∀ (t : Tbl α), (t.map (·.1)).Pairwise (· < ·) → ∀ e ∈ t, tget d t e.1 = e.2 := by
    intro t
    induction t with
    | nil => simp
    | cons f t ih =>
      obtain ⟨j, x⟩ := f
      simp only [List.map_cons, List.pairwise_cons]
      intro p e m
      rcases List.mem_cons.1 m with rfl | m
      · simp [tget]
      · have : j ≠ e.1 := Nat.ne_of_lt (p.1 _ (List.mem_map_of_mem m))
        simp only [tget, this, if_false]
        exact ih p.2 e m
  have out : ∀ (t : Tbl α) k, (∀ e ∈ t, e.1 ≠ k) → tget d t k = d := by
    intro t k
    induction t with
    | nil => intro _; rfl
    | cons f t ih =>
      obtain ⟨j, x⟩ := f
      intro n
      have : j ≠ k := n (j, x) (by simp)
      simp only [tget, this, if_false]
      exact ih fun e m => n e (by simp [m])
  rw [twf_iff] at ht hu
  have sub : ∀ (t u : Tbl α), (t.map (·.1)).Pairwise (· < ·) → (∀ e ∈ t, e.2 ≠ d) → (u.map (·.1)).Pairwise (· < ·) →
      (∀ k, tget d t k = tget d u k) → ∀ e ∈ t, e ∈ u := by
    intro t u pt nt pu hh e m
    by_contra c
    by_cases q : ∃ f ∈ u, f.1 = e.1
    · obtain ⟨f, fm, fe⟩ := q
      have a := get t pt e m
      have b := get u pu f fm
      rw [fe, ← hh, a] at b
      exact c (by rw [show e = f from Prod.ext fe.symm b]; exact fm)
    · have b := out u e.1 fun f fm fe => q ⟨f, fm, fe⟩
      rw [← hh, get t pt e m] at b
      exact nt e m b
  have st : t.Pairwise fun a b => a.1 < b.1 := by simpa [List.pairwise_map] using ht.1
  have su : u.Pairwise fun a b => a.1 < b.1 := by simpa [List.pairwise_map] using hu.1
  refine List.Perm.eq_of_pairwise (le := fun a b => a.1 < b.1) (fun a b _ _ x y => absurd (Nat.lt_trans x y) (Nat.lt_irrefl _)) st su ?_
  · have nt : t.Nodup := st.imp fun h e => by rw [e] at h; exact Nat.lt_irrefl _ h
    have nu : u.Nodup := su.imp fun h e => by rw [e] at h; exact Nat.lt_irrefl _ h
    rw [List.perm_ext_iff_of_nodup nt nu]
    exact fun e => ⟨sub t u ht.1 ht.2 hu.1 h e, sub u t hu.1 hu.2 ht.1 (fun k => (h k).symm) e⟩

end

/-! ### Memory -/

/-- The memory of reset is in canonical form. -/
theorem reset_memory_wf : Memory.wf State.reset.dram := by decide

/-- Storing bytes keeps the canonical form. -/
theorem cellsPut_wf (m : List Host.Cell) (a : Nat) (l : List Byte) (h : Memory.wf m) : Memory.wf (cellsPut m a l) := by
  induction l generalizing m a with
  | nil => exact h
  | cons b l ih => exact ih _ _ (twf_tput 0 m a b h)

/-- What a byte reads as after bytes are stored from an address upward. -/
theorem tget_cellsPut (m : List Host.Cell) (a i : Nat) (l : List Byte) :
    tget 0 (cellsPut m a l) i = if h : a ≤ i ∧ i < a + l.length then l[i - a]'(by omega) else tget 0 m i := by
  induction l generalizing m a with
  | nil => simp [cellsPut]
  | cons b l ih =>
    simp only [cellsPut, ih, List.length_cons]
    by_cases e : i = a
    · subst e; simp [tget_tput_same]
    · by_cases r : a + 1 ≤ i ∧ i < a + 1 + l.length
      · rw [dif_pos r, dif_pos (by omega)]
        have : i - a = (i - (a + 1)) + 1 := by omega
        simp [this]
      · rw [dif_neg r, dif_neg (by omega)]
        exact tget_tput_ne 0 m a i b e

/-- Removing whole cells keeps the canonical form. -/
theorem filter_wf (m : List Host.Cell) (p : Host.Cell → Bool) (h : Memory.wf m) : Memory.wf (m.filter p) :=
  twf_sublist 0 List.filter_sublist h

end Sys2Proof.Machine
end

