-- ==== Sys2Proof/Laws/State.lean ====
section
/-! SUPPORT. The small laws of State: what each update of one entry leaves of every field, and what the entry reads as after it. A change of an
entry (`modX`) is the update by its definition; each law holds by unfolding, so that no later proof unfolds a record update. -/
namespace Sys2Proof.Machine
open Sys2Proof

/-! #### `sensors` -/

section
variable (s : State) (k : Nat) (v : Sensor)
@[simp] theorem State.modSensor_eq (f : Sensor → Sensor) : s.modSensor k f = s.setSensor k (f (s.sensor k)) := rfl
@[simp] theorem State.setSensor_sensors : (s.setSensor k v).sensors = tput {} s.sensors k v := rfl
theorem State.setSensor_sensor (i : Nat) : (s.setSensor k v).sensor i = if i = k then v else s.sensor i := tget_tput _ s.sensors k i v
@[simp] theorem State.setSensor_sensor_same : (s.setSensor k v).sensor k = v := by simp [State.setSensor_sensor]
@[simp] theorem State.setSensor_pending : (s.setSensor k v).pending = s.pending := rfl
@[simp] theorem State.setSensor_fresh : (s.setSensor k v).fresh = s.fresh := rfl
@[simp] theorem State.setSensor_now : (s.setSensor k v).now = s.now := rfl
@[simp] theorem State.setSensor_nv : (s.setSensor k v).nv = s.nv := rfl
@[simp] theorem State.setSensor_pwr : (s.setSensor k v).pwr = s.pwr := rfl
@[simp] theorem State.setSensor_parts : (s.setSensor k v).parts = s.parts := rfl
@[simp] theorem State.setSensor_ctxs : (s.setSensor k v).ctxs = s.ctxs := rfl
@[simp] theorem State.setSensor_exts : (s.setSensor k v).exts = s.exts := rfl
@[simp] theorem State.setSensor_shares : (s.setSensor k v).shares = s.shares := rfl
@[simp] theorem State.setSensor_gmap : (s.setSensor k v).gmap = s.gmap := rfl
@[simp] theorem State.setSensor_rmap : (s.setSensor k v).rmap = s.rmap := rfl
@[simp] theorem State.setSensor_prots : (s.setSensor k v).prots = s.prots := rfl
@[simp] theorem State.setSensor_combs : (s.setSensor k v).combs = s.combs := rfl
@[simp] theorem State.setSensor_group : (s.setSensor k v).group = s.group := rfl
@[simp] theorem State.setSensor_elder : (s.setSensor k v).elder = s.elder := rfl
@[simp] theorem State.setSensor_regions : (s.setSensor k v).regions = s.regions := rfl
@[simp] theorem State.setSensor_slices : (s.setSensor k v).slices = s.slices := rfl
@[simp] theorem State.setSensor_agents : (s.setSensor k v).agents = s.agents := rfl
@[simp] theorem State.setSensor_pred : (s.setSensor k v).pred = s.pred := rfl
@[simp] theorem State.setSensor_orphanScan : (s.setSensor k v).orphanScan = s.orphanScan := rfl
@[simp] theorem State.setSensor_dram : (s.setSensor k v).dram = s.dram := rfl
@[simp] theorem State.setSensor_lines : (s.setSensor k v).lines = s.lines := rfl
@[simp] theorem State.setSensor_splits : (s.setSensor k v).splits = s.splits := rfl
@[simp] theorem State.setSensor_nextSplit : (s.setSensor k v).nextSplit = s.nextSplit := rfl
@[simp] theorem State.setSensor_stks : (s.setSensor k v).stks = s.stks := rfl
@[simp] theorem State.setSensor_mem : (s.setSensor k v).mem = s.mem := rfl
@[simp] theorem State.setSensor_tiles : (s.setSensor k v).tiles = s.tiles := rfl
@[simp] theorem State.setSensor_lands : (s.setSensor k v).lands = s.lands := rfl
@[simp] theorem State.setSensor_walkers : (s.setSensor k v).walkers = s.walkers := rfl
@[simp] theorem State.setSensor_keeper : (s.setSensor k v).keeper = s.keeper := rfl
@[simp] theorem State.setSensor_repl : (s.setSensor k v).repl = s.repl := rfl
@[simp] theorem State.setSensor_sched : (s.setSensor k v).sched = s.sched := rfl
@[simp] theorem State.setSensor_ports : (s.setSensor k v).ports = s.ports := rfl
@[simp] theorem State.setSensor_dies : (s.setSensor k v).dies = s.dies := rfl
@[simp] theorem State.setSensor_node : (s.setSensor k v).node = s.node := rfl
@[simp] theorem State.setSensor_rx : (s.setSensor k v).rx = s.rx := rfl
@[simp] theorem State.setSensor_tx : (s.setSensor k v).tx = s.tx := rfl
@[simp] theorem State.setSensor_origs : (s.setSensor k v).origs = s.origs := rfl
@[simp] theorem State.setSensor_fwds : (s.setSensor k v).fwds = s.fwds := rfl
@[simp] theorem State.setSensor_nextRtag : (s.setSensor k v).nextRtag = s.nextRtag := rfl
@[simp] theorem State.setSensor_released : (s.setSensor k v).released = s.released := rfl
@[simp] theorem State.setSensor_limits : (s.setSensor k v).limits = s.limits := rfl
@[simp] theorem State.setSensor_limHeld : (s.setSensor k v).limHeld = s.limHeld := rfl
@[simp] theorem State.setSensor_admHeld : (s.setSensor k v).admHeld = s.admHeld := rfl
@[simp] theorem State.setSensor_qor : (s.setSensor k v).qor = s.qor := rfl
@[simp] theorem State.setSensor_mboxes : (s.setSensor k v).mboxes = s.mboxes := rfl
@[simp] theorem State.setSensor_cmds : (s.setSensor k v).cmds = s.cmds := rfl
@[simp] theorem State.setSensor_stew : (s.setSensor k v).stew = s.stew := rfl
@[simp] theorem State.setSensor_journal : (s.setSensor k v).journal = s.journal := rfl
@[simp] theorem State.setSensor_vectors : (s.setSensor k v).vectors = s.vectors := rfl
@[simp] theorem State.setSensor_rings : (s.setSensor k v).rings = s.rings := rfl
@[simp] theorem State.setSensor_keys : (s.setSensor k v).keys = s.keys := rfl
@[simp] theorem State.setSensor_derived : (s.setSensor k v).derived = s.derived := rfl
@[simp] theorem State.setSensor_elog : (s.setSensor k v).elog = s.elog := rfl
@[simp] theorem State.setSensor_cnt : (s.setSensor k v).cnt = s.cnt := rfl
end

/-! #### `parts` -/

section
variable (s : State) (k : Nat) (v : Part)
@[simp] theorem State.modPart_eq (f : Part → Part) : s.modPart k f = s.setPart k (f (s.part k)) := rfl
@[simp] theorem State.setPart_parts : (s.setPart k v).parts = tput {} s.parts k v := rfl
theorem State.setPart_part (i : Nat) : (s.setPart k v).part i = if i = k then v else s.part i := tget_tput _ s.parts k i v
@[simp] theorem State.setPart_part_same : (s.setPart k v).part k = v := by simp [State.setPart_part]
@[simp] theorem State.setPart_pending : (s.setPart k v).pending = s.pending := rfl
@[simp] theorem State.setPart_fresh : (s.setPart k v).fresh = s.fresh := rfl
@[simp] theorem State.setPart_now : (s.setPart k v).now = s.now := rfl
@[simp] theorem State.setPart_nv : (s.setPart k v).nv = s.nv := rfl
@[simp] theorem State.setPart_pwr : (s.setPart k v).pwr = s.pwr := rfl
@[simp] theorem State.setPart_sensors : (s.setPart k v).sensors = s.sensors := rfl
@[simp] theorem State.setPart_ctxs : (s.setPart k v).ctxs = s.ctxs := rfl
@[simp] theorem State.setPart_exts : (s.setPart k v).exts = s.exts := rfl
@[simp] theorem State.setPart_shares : (s.setPart k v).shares = s.shares := rfl
@[simp] theorem State.setPart_gmap : (s.setPart k v).gmap = s.gmap := rfl
@[simp] theorem State.setPart_rmap : (s.setPart k v).rmap = s.rmap := rfl
@[simp] theorem State.setPart_prots : (s.setPart k v).prots = s.prots := rfl
@[simp] theorem State.setPart_combs : (s.setPart k v).combs = s.combs := rfl
@[simp] theorem State.setPart_group : (s.setPart k v).group = s.group := rfl
@[simp] theorem State.setPart_elder : (s.setPart k v).elder = s.elder := rfl
@[simp] theorem State.setPart_regions : (s.setPart k v).regions = s.regions := rfl
@[simp] theorem State.setPart_slices : (s.setPart k v).slices = s.slices := rfl
@[simp] theorem State.setPart_agents : (s.setPart k v).agents = s.agents := rfl
@[simp] theorem State.setPart_pred : (s.setPart k v).pred = s.pred := rfl
@[simp] theorem State.setPart_orphanScan : (s.setPart k v).orphanScan = s.orphanScan := rfl
@[simp] theorem State.setPart_dram : (s.setPart k v).dram = s.dram := rfl
@[simp] theorem State.setPart_lines : (s.setPart k v).lines = s.lines := rfl
@[simp] theorem State.setPart_splits : (s.setPart k v).splits = s.splits := rfl
@[simp] theorem State.setPart_nextSplit : (s.setPart k v).nextSplit = s.nextSplit := rfl
@[simp] theorem State.setPart_stks : (s.setPart k v).stks = s.stks := rfl
@[simp] theorem State.setPart_mem : (s.setPart k v).mem = s.mem := rfl
@[simp] theorem State.setPart_tiles : (s.setPart k v).tiles = s.tiles := rfl
@[simp] theorem State.setPart_lands : (s.setPart k v).lands = s.lands := rfl
@[simp] theorem State.setPart_walkers : (s.setPart k v).walkers = s.walkers := rfl
@[simp] theorem State.setPart_keeper : (s.setPart k v).keeper = s.keeper := rfl
@[simp] theorem State.setPart_repl : (s.setPart k v).repl = s.repl := rfl
@[simp] theorem State.setPart_sched : (s.setPart k v).sched = s.sched := rfl
@[simp] theorem State.setPart_ports : (s.setPart k v).ports = s.ports := rfl
@[simp] theorem State.setPart_dies : (s.setPart k v).dies = s.dies := rfl
@[simp] theorem State.setPart_node : (s.setPart k v).node = s.node := rfl
@[simp] theorem State.setPart_rx : (s.setPart k v).rx = s.rx := rfl
@[simp] theorem State.setPart_tx : (s.setPart k v).tx = s.tx := rfl
@[simp] theorem State.setPart_origs : (s.setPart k v).origs = s.origs := rfl
@[simp] theorem State.setPart_fwds : (s.setPart k v).fwds = s.fwds := rfl
@[simp] theorem State.setPart_nextRtag : (s.setPart k v).nextRtag = s.nextRtag := rfl
@[simp] theorem State.setPart_released : (s.setPart k v).released = s.released := rfl
@[simp] theorem State.setPart_limits : (s.setPart k v).limits = s.limits := rfl
@[simp] theorem State.setPart_limHeld : (s.setPart k v).limHeld = s.limHeld := rfl
@[simp] theorem State.setPart_admHeld : (s.setPart k v).admHeld = s.admHeld := rfl
@[simp] theorem State.setPart_qor : (s.setPart k v).qor = s.qor := rfl
@[simp] theorem State.setPart_mboxes : (s.setPart k v).mboxes = s.mboxes := rfl
@[simp] theorem State.setPart_cmds : (s.setPart k v).cmds = s.cmds := rfl
@[simp] theorem State.setPart_stew : (s.setPart k v).stew = s.stew := rfl
@[simp] theorem State.setPart_journal : (s.setPart k v).journal = s.journal := rfl
@[simp] theorem State.setPart_vectors : (s.setPart k v).vectors = s.vectors := rfl
@[simp] theorem State.setPart_rings : (s.setPart k v).rings = s.rings := rfl
@[simp] theorem State.setPart_keys : (s.setPart k v).keys = s.keys := rfl
@[simp] theorem State.setPart_derived : (s.setPart k v).derived = s.derived := rfl
@[simp] theorem State.setPart_elog : (s.setPart k v).elog = s.elog := rfl
@[simp] theorem State.setPart_cnt : (s.setPart k v).cnt = s.cnt := rfl
end

/-! #### `ctxs` -/

section
variable (s : State) (k : Nat) (v : Ctx)
@[simp] theorem State.modCtx_eq (f : Ctx → Ctx) : s.modCtx k f = s.setCtx k (f (s.ctx k)) := rfl
@[simp] theorem State.setCtx_ctxs : (s.setCtx k v).ctxs = tput {} s.ctxs k v := rfl
theorem State.setCtx_ctx (i : Nat) : (s.setCtx k v).ctx i = if i = k then v else s.ctx i := tget_tput _ s.ctxs k i v
@[simp] theorem State.setCtx_ctx_same : (s.setCtx k v).ctx k = v := by simp [State.setCtx_ctx]
@[simp] theorem State.setCtx_pending : (s.setCtx k v).pending = s.pending := rfl
@[simp] theorem State.setCtx_fresh : (s.setCtx k v).fresh = s.fresh := rfl
@[simp] theorem State.setCtx_now : (s.setCtx k v).now = s.now := rfl
@[simp] theorem State.setCtx_nv : (s.setCtx k v).nv = s.nv := rfl
@[simp] theorem State.setCtx_pwr : (s.setCtx k v).pwr = s.pwr := rfl
@[simp] theorem State.setCtx_sensors : (s.setCtx k v).sensors = s.sensors := rfl
@[simp] theorem State.setCtx_parts : (s.setCtx k v).parts = s.parts := rfl
@[simp] theorem State.setCtx_exts : (s.setCtx k v).exts = s.exts := rfl
@[simp] theorem State.setCtx_shares : (s.setCtx k v).shares = s.shares := rfl
@[simp] theorem State.setCtx_gmap : (s.setCtx k v).gmap = s.gmap := rfl
@[simp] theorem State.setCtx_rmap : (s.setCtx k v).rmap = s.rmap := rfl
@[simp] theorem State.setCtx_prots : (s.setCtx k v).prots = s.prots := rfl
@[simp] theorem State.setCtx_combs : (s.setCtx k v).combs = s.combs := rfl
@[simp] theorem State.setCtx_group : (s.setCtx k v).group = s.group := rfl
@[simp] theorem State.setCtx_elder : (s.setCtx k v).elder = s.elder := rfl
@[simp] theorem State.setCtx_regions : (s.setCtx k v).regions = s.regions := rfl
@[simp] theorem State.setCtx_slices : (s.setCtx k v).slices = s.slices := rfl
@[simp] theorem State.setCtx_agents : (s.setCtx k v).agents = s.agents := rfl
@[simp] theorem State.setCtx_pred : (s.setCtx k v).pred = s.pred := rfl
@[simp] theorem State.setCtx_orphanScan : (s.setCtx k v).orphanScan = s.orphanScan := rfl
@[simp] theorem State.setCtx_dram : (s.setCtx k v).dram = s.dram := rfl
@[simp] theorem State.setCtx_lines : (s.setCtx k v).lines = s.lines := rfl
@[simp] theorem State.setCtx_splits : (s.setCtx k v).splits = s.splits := rfl
@[simp] theorem State.setCtx_nextSplit : (s.setCtx k v).nextSplit = s.nextSplit := rfl
@[simp] theorem State.setCtx_stks : (s.setCtx k v).stks = s.stks := rfl
@[simp] theorem State.setCtx_mem : (s.setCtx k v).mem = s.mem := rfl
@[simp] theorem State.setCtx_tiles : (s.setCtx k v).tiles = s.tiles := rfl
@[simp] theorem State.setCtx_lands : (s.setCtx k v).lands = s.lands := rfl
@[simp] theorem State.setCtx_walkers : (s.setCtx k v).walkers = s.walkers := rfl
@[simp] theorem State.setCtx_keeper : (s.setCtx k v).keeper = s.keeper := rfl
@[simp] theorem State.setCtx_repl : (s.setCtx k v).repl = s.repl := rfl
@[simp] theorem State.setCtx_sched : (s.setCtx k v).sched = s.sched := rfl
@[simp] theorem State.setCtx_ports : (s.setCtx k v).ports = s.ports := rfl
@[simp] theorem State.setCtx_dies : (s.setCtx k v).dies = s.dies := rfl
@[simp] theorem State.setCtx_node : (s.setCtx k v).node = s.node := rfl
@[simp] theorem State.setCtx_rx : (s.setCtx k v).rx = s.rx := rfl
@[simp] theorem State.setCtx_tx : (s.setCtx k v).tx = s.tx := rfl
@[simp] theorem State.setCtx_origs : (s.setCtx k v).origs = s.origs := rfl
@[simp] theorem State.setCtx_fwds : (s.setCtx k v).fwds = s.fwds := rfl
@[simp] theorem State.setCtx_nextRtag : (s.setCtx k v).nextRtag = s.nextRtag := rfl
@[simp] theorem State.setCtx_released : (s.setCtx k v).released = s.released := rfl
@[simp] theorem State.setCtx_limits : (s.setCtx k v).limits = s.limits := rfl
@[simp] theorem State.setCtx_limHeld : (s.setCtx k v).limHeld = s.limHeld := rfl
@[simp] theorem State.setCtx_admHeld : (s.setCtx k v).admHeld = s.admHeld := rfl
@[simp] theorem State.setCtx_qor : (s.setCtx k v).qor = s.qor := rfl
@[simp] theorem State.setCtx_mboxes : (s.setCtx k v).mboxes = s.mboxes := rfl
@[simp] theorem State.setCtx_cmds : (s.setCtx k v).cmds = s.cmds := rfl
@[simp] theorem State.setCtx_stew : (s.setCtx k v).stew = s.stew := rfl
@[simp] theorem State.setCtx_journal : (s.setCtx k v).journal = s.journal := rfl
@[simp] theorem State.setCtx_vectors : (s.setCtx k v).vectors = s.vectors := rfl
@[simp] theorem State.setCtx_rings : (s.setCtx k v).rings = s.rings := rfl
@[simp] theorem State.setCtx_keys : (s.setCtx k v).keys = s.keys := rfl
@[simp] theorem State.setCtx_derived : (s.setCtx k v).derived = s.derived := rfl
@[simp] theorem State.setCtx_elog : (s.setCtx k v).elog = s.elog := rfl
@[simp] theorem State.setCtx_cnt : (s.setCtx k v).cnt = s.cnt := rfl
end

/-! #### `exts` -/

section
variable (s : State) (k : Nat) (v : Ext)
@[simp] theorem State.modExt_eq (f : Ext → Ext) : s.modExt k f = s.setExt k (f (s.ext k)) := rfl
@[simp] theorem State.setExt_exts : (s.setExt k v).exts = tput {} s.exts k v := rfl
theorem State.setExt_ext (i : Nat) : (s.setExt k v).ext i = if i = k then v else s.ext i := tget_tput _ s.exts k i v
@[simp] theorem State.setExt_ext_same : (s.setExt k v).ext k = v := by simp [State.setExt_ext]
@[simp] theorem State.setExt_pending : (s.setExt k v).pending = s.pending := rfl
@[simp] theorem State.setExt_fresh : (s.setExt k v).fresh = s.fresh := rfl
@[simp] theorem State.setExt_now : (s.setExt k v).now = s.now := rfl
@[simp] theorem State.setExt_nv : (s.setExt k v).nv = s.nv := rfl
@[simp] theorem State.setExt_pwr : (s.setExt k v).pwr = s.pwr := rfl
@[simp] theorem State.setExt_sensors : (s.setExt k v).sensors = s.sensors := rfl
@[simp] theorem State.setExt_parts : (s.setExt k v).parts = s.parts := rfl
@[simp] theorem State.setExt_ctxs : (s.setExt k v).ctxs = s.ctxs := rfl
@[simp] theorem State.setExt_shares : (s.setExt k v).shares = s.shares := rfl
@[simp] theorem State.setExt_gmap : (s.setExt k v).gmap = s.gmap := rfl
@[simp] theorem State.setExt_rmap : (s.setExt k v).rmap = s.rmap := rfl
@[simp] theorem State.setExt_prots : (s.setExt k v).prots = s.prots := rfl
@[simp] theorem State.setExt_combs : (s.setExt k v).combs = s.combs := rfl
@[simp] theorem State.setExt_group : (s.setExt k v).group = s.group := rfl
@[simp] theorem State.setExt_elder : (s.setExt k v).elder = s.elder := rfl
@[simp] theorem State.setExt_regions : (s.setExt k v).regions = s.regions := rfl
@[simp] theorem State.setExt_slices : (s.setExt k v).slices = s.slices := rfl
@[simp] theorem State.setExt_agents : (s.setExt k v).agents = s.agents := rfl
@[simp] theorem State.setExt_pred : (s.setExt k v).pred = s.pred := rfl
@[simp] theorem State.setExt_orphanScan : (s.setExt k v).orphanScan = s.orphanScan := rfl
@[simp] theorem State.setExt_dram : (s.setExt k v).dram = s.dram := rfl
@[simp] theorem State.setExt_lines : (s.setExt k v).lines = s.lines := rfl
@[simp] theorem State.setExt_splits : (s.setExt k v).splits = s.splits := rfl
@[simp] theorem State.setExt_nextSplit : (s.setExt k v).nextSplit = s.nextSplit := rfl
@[simp] theorem State.setExt_stks : (s.setExt k v).stks = s.stks := rfl
@[simp] theorem State.setExt_mem : (s.setExt k v).mem = s.mem := rfl
@[simp] theorem State.setExt_tiles : (s.setExt k v).tiles = s.tiles := rfl
@[simp] theorem State.setExt_lands : (s.setExt k v).lands = s.lands := rfl
@[simp] theorem State.setExt_walkers : (s.setExt k v).walkers = s.walkers := rfl
@[simp] theorem State.setExt_keeper : (s.setExt k v).keeper = s.keeper := rfl
@[simp] theorem State.setExt_repl : (s.setExt k v).repl = s.repl := rfl
@[simp] theorem State.setExt_sched : (s.setExt k v).sched = s.sched := rfl
@[simp] theorem State.setExt_ports : (s.setExt k v).ports = s.ports := rfl
@[simp] theorem State.setExt_dies : (s.setExt k v).dies = s.dies := rfl
@[simp] theorem State.setExt_node : (s.setExt k v).node = s.node := rfl
@[simp] theorem State.setExt_rx : (s.setExt k v).rx = s.rx := rfl
@[simp] theorem State.setExt_tx : (s.setExt k v).tx = s.tx := rfl
@[simp] theorem State.setExt_origs : (s.setExt k v).origs = s.origs := rfl
@[simp] theorem State.setExt_fwds : (s.setExt k v).fwds = s.fwds := rfl
@[simp] theorem State.setExt_nextRtag : (s.setExt k v).nextRtag = s.nextRtag := rfl
@[simp] theorem State.setExt_released : (s.setExt k v).released = s.released := rfl
@[simp] theorem State.setExt_limits : (s.setExt k v).limits = s.limits := rfl
@[simp] theorem State.setExt_limHeld : (s.setExt k v).limHeld = s.limHeld := rfl
@[simp] theorem State.setExt_admHeld : (s.setExt k v).admHeld = s.admHeld := rfl
@[simp] theorem State.setExt_qor : (s.setExt k v).qor = s.qor := rfl
@[simp] theorem State.setExt_mboxes : (s.setExt k v).mboxes = s.mboxes := rfl
@[simp] theorem State.setExt_cmds : (s.setExt k v).cmds = s.cmds := rfl
@[simp] theorem State.setExt_stew : (s.setExt k v).stew = s.stew := rfl
@[simp] theorem State.setExt_journal : (s.setExt k v).journal = s.journal := rfl
@[simp] theorem State.setExt_vectors : (s.setExt k v).vectors = s.vectors := rfl
@[simp] theorem State.setExt_rings : (s.setExt k v).rings = s.rings := rfl
@[simp] theorem State.setExt_keys : (s.setExt k v).keys = s.keys := rfl
@[simp] theorem State.setExt_derived : (s.setExt k v).derived = s.derived := rfl
@[simp] theorem State.setExt_elog : (s.setExt k v).elog = s.elog := rfl
@[simp] theorem State.setExt_cnt : (s.setExt k v).cnt = s.cnt := rfl
end

/-! #### `shares` -/

section
variable (s : State) (k : Nat) (v : Share)
@[simp] theorem State.modShare_eq (f : Share → Share) : s.modShare k f = s.setShare k (f (s.share k)) := rfl
@[simp] theorem State.setShare_shares : (s.setShare k v).shares = tput {} s.shares k v := rfl
theorem State.setShare_share (i : Nat) : (s.setShare k v).share i = if i = k then v else s.share i := tget_tput _ s.shares k i v
@[simp] theorem State.setShare_share_same : (s.setShare k v).share k = v := by simp [State.setShare_share]
@[simp] theorem State.setShare_pending : (s.setShare k v).pending = s.pending := rfl
@[simp] theorem State.setShare_fresh : (s.setShare k v).fresh = s.fresh := rfl
@[simp] theorem State.setShare_now : (s.setShare k v).now = s.now := rfl
@[simp] theorem State.setShare_nv : (s.setShare k v).nv = s.nv := rfl
@[simp] theorem State.setShare_pwr : (s.setShare k v).pwr = s.pwr := rfl
@[simp] theorem State.setShare_sensors : (s.setShare k v).sensors = s.sensors := rfl
@[simp] theorem State.setShare_parts : (s.setShare k v).parts = s.parts := rfl
@[simp] theorem State.setShare_ctxs : (s.setShare k v).ctxs = s.ctxs := rfl
@[simp] theorem State.setShare_exts : (s.setShare k v).exts = s.exts := rfl
@[simp] theorem State.setShare_gmap : (s.setShare k v).gmap = s.gmap := rfl
@[simp] theorem State.setShare_rmap : (s.setShare k v).rmap = s.rmap := rfl
@[simp] theorem State.setShare_prots : (s.setShare k v).prots = s.prots := rfl
@[simp] theorem State.setShare_combs : (s.setShare k v).combs = s.combs := rfl
@[simp] theorem State.setShare_group : (s.setShare k v).group = s.group := rfl
@[simp] theorem State.setShare_elder : (s.setShare k v).elder = s.elder := rfl
@[simp] theorem State.setShare_regions : (s.setShare k v).regions = s.regions := rfl
@[simp] theorem State.setShare_slices : (s.setShare k v).slices = s.slices := rfl
@[simp] theorem State.setShare_agents : (s.setShare k v).agents = s.agents := rfl
@[simp] theorem State.setShare_pred : (s.setShare k v).pred = s.pred := rfl
@[simp] theorem State.setShare_orphanScan : (s.setShare k v).orphanScan = s.orphanScan := rfl
@[simp] theorem State.setShare_dram : (s.setShare k v).dram = s.dram := rfl
@[simp] theorem State.setShare_lines : (s.setShare k v).lines = s.lines := rfl
@[simp] theorem State.setShare_splits : (s.setShare k v).splits = s.splits := rfl
@[simp] theorem State.setShare_nextSplit : (s.setShare k v).nextSplit = s.nextSplit := rfl
@[simp] theorem State.setShare_stks : (s.setShare k v).stks = s.stks := rfl
@[simp] theorem State.setShare_mem : (s.setShare k v).mem = s.mem := rfl
@[simp] theorem State.setShare_tiles : (s.setShare k v).tiles = s.tiles := rfl
@[simp] theorem State.setShare_lands : (s.setShare k v).lands = s.lands := rfl
@[simp] theorem State.setShare_walkers : (s.setShare k v).walkers = s.walkers := rfl
@[simp] theorem State.setShare_keeper : (s.setShare k v).keeper = s.keeper := rfl
@[simp] theorem State.setShare_repl : (s.setShare k v).repl = s.repl := rfl
@[simp] theorem State.setShare_sched : (s.setShare k v).sched = s.sched := rfl
@[simp] theorem State.setShare_ports : (s.setShare k v).ports = s.ports := rfl
@[simp] theorem State.setShare_dies : (s.setShare k v).dies = s.dies := rfl
@[simp] theorem State.setShare_node : (s.setShare k v).node = s.node := rfl
@[simp] theorem State.setShare_rx : (s.setShare k v).rx = s.rx := rfl
@[simp] theorem State.setShare_tx : (s.setShare k v).tx = s.tx := rfl
@[simp] theorem State.setShare_origs : (s.setShare k v).origs = s.origs := rfl
@[simp] theorem State.setShare_fwds : (s.setShare k v).fwds = s.fwds := rfl
@[simp] theorem State.setShare_nextRtag : (s.setShare k v).nextRtag = s.nextRtag := rfl
@[simp] theorem State.setShare_released : (s.setShare k v).released = s.released := rfl
@[simp] theorem State.setShare_limits : (s.setShare k v).limits = s.limits := rfl
@[simp] theorem State.setShare_limHeld : (s.setShare k v).limHeld = s.limHeld := rfl
@[simp] theorem State.setShare_admHeld : (s.setShare k v).admHeld = s.admHeld := rfl
@[simp] theorem State.setShare_qor : (s.setShare k v).qor = s.qor := rfl
@[simp] theorem State.setShare_mboxes : (s.setShare k v).mboxes = s.mboxes := rfl
@[simp] theorem State.setShare_cmds : (s.setShare k v).cmds = s.cmds := rfl
@[simp] theorem State.setShare_stew : (s.setShare k v).stew = s.stew := rfl
@[simp] theorem State.setShare_journal : (s.setShare k v).journal = s.journal := rfl
@[simp] theorem State.setShare_vectors : (s.setShare k v).vectors = s.vectors := rfl
@[simp] theorem State.setShare_rings : (s.setShare k v).rings = s.rings := rfl
@[simp] theorem State.setShare_keys : (s.setShare k v).keys = s.keys := rfl
@[simp] theorem State.setShare_derived : (s.setShare k v).derived = s.derived := rfl
@[simp] theorem State.setShare_elog : (s.setShare k v).elog = s.elog := rfl
@[simp] theorem State.setShare_cnt : (s.setShare k v).cnt = s.cnt := rfl
end

/-! #### `rmap` -/

section
variable (s : State) (k : Nat) (v : RMap)
@[simp] theorem State.modRmapE_eq (f : RMap → RMap) : s.modRmapE k f = s.setRmapE k (f (s.rmapE k)) := rfl
@[simp] theorem State.setRmapE_rmap : (s.setRmapE k v).rmap = tput {} s.rmap k v := rfl
theorem State.setRmapE_rmapE (i : Nat) : (s.setRmapE k v).rmapE i = if i = k then v else s.rmapE i := tget_tput _ s.rmap k i v
@[simp] theorem State.setRmapE_rmapE_same : (s.setRmapE k v).rmapE k = v := by simp [State.setRmapE_rmapE]
@[simp] theorem State.setRmapE_pending : (s.setRmapE k v).pending = s.pending := rfl
@[simp] theorem State.setRmapE_fresh : (s.setRmapE k v).fresh = s.fresh := rfl
@[simp] theorem State.setRmapE_now : (s.setRmapE k v).now = s.now := rfl
@[simp] theorem State.setRmapE_nv : (s.setRmapE k v).nv = s.nv := rfl
@[simp] theorem State.setRmapE_pwr : (s.setRmapE k v).pwr = s.pwr := rfl
@[simp] theorem State.setRmapE_sensors : (s.setRmapE k v).sensors = s.sensors := rfl
@[simp] theorem State.setRmapE_parts : (s.setRmapE k v).parts = s.parts := rfl
@[simp] theorem State.setRmapE_ctxs : (s.setRmapE k v).ctxs = s.ctxs := rfl
@[simp] theorem State.setRmapE_exts : (s.setRmapE k v).exts = s.exts := rfl
@[simp] theorem State.setRmapE_shares : (s.setRmapE k v).shares = s.shares := rfl
@[simp] theorem State.setRmapE_gmap : (s.setRmapE k v).gmap = s.gmap := rfl
@[simp] theorem State.setRmapE_prots : (s.setRmapE k v).prots = s.prots := rfl
@[simp] theorem State.setRmapE_combs : (s.setRmapE k v).combs = s.combs := rfl
@[simp] theorem State.setRmapE_group : (s.setRmapE k v).group = s.group := rfl
@[simp] theorem State.setRmapE_elder : (s.setRmapE k v).elder = s.elder := rfl
@[simp] theorem State.setRmapE_regions : (s.setRmapE k v).regions = s.regions := rfl
@[simp] theorem State.setRmapE_slices : (s.setRmapE k v).slices = s.slices := rfl
@[simp] theorem State.setRmapE_agents : (s.setRmapE k v).agents = s.agents := rfl
@[simp] theorem State.setRmapE_pred : (s.setRmapE k v).pred = s.pred := rfl
@[simp] theorem State.setRmapE_orphanScan : (s.setRmapE k v).orphanScan = s.orphanScan := rfl
@[simp] theorem State.setRmapE_dram : (s.setRmapE k v).dram = s.dram := rfl
@[simp] theorem State.setRmapE_lines : (s.setRmapE k v).lines = s.lines := rfl
@[simp] theorem State.setRmapE_splits : (s.setRmapE k v).splits = s.splits := rfl
@[simp] theorem State.setRmapE_nextSplit : (s.setRmapE k v).nextSplit = s.nextSplit := rfl
@[simp] theorem State.setRmapE_stks : (s.setRmapE k v).stks = s.stks := rfl
@[simp] theorem State.setRmapE_mem : (s.setRmapE k v).mem = s.mem := rfl
@[simp] theorem State.setRmapE_tiles : (s.setRmapE k v).tiles = s.tiles := rfl
@[simp] theorem State.setRmapE_lands : (s.setRmapE k v).lands = s.lands := rfl
@[simp] theorem State.setRmapE_walkers : (s.setRmapE k v).walkers = s.walkers := rfl
@[simp] theorem State.setRmapE_keeper : (s.setRmapE k v).keeper = s.keeper := rfl
@[simp] theorem State.setRmapE_repl : (s.setRmapE k v).repl = s.repl := rfl
@[simp] theorem State.setRmapE_sched : (s.setRmapE k v).sched = s.sched := rfl
@[simp] theorem State.setRmapE_ports : (s.setRmapE k v).ports = s.ports := rfl
@[simp] theorem State.setRmapE_dies : (s.setRmapE k v).dies = s.dies := rfl
@[simp] theorem State.setRmapE_node : (s.setRmapE k v).node = s.node := rfl
@[simp] theorem State.setRmapE_rx : (s.setRmapE k v).rx = s.rx := rfl
@[simp] theorem State.setRmapE_tx : (s.setRmapE k v).tx = s.tx := rfl
@[simp] theorem State.setRmapE_origs : (s.setRmapE k v).origs = s.origs := rfl
@[simp] theorem State.setRmapE_fwds : (s.setRmapE k v).fwds = s.fwds := rfl
@[simp] theorem State.setRmapE_nextRtag : (s.setRmapE k v).nextRtag = s.nextRtag := rfl
@[simp] theorem State.setRmapE_released : (s.setRmapE k v).released = s.released := rfl
@[simp] theorem State.setRmapE_limits : (s.setRmapE k v).limits = s.limits := rfl
@[simp] theorem State.setRmapE_limHeld : (s.setRmapE k v).limHeld = s.limHeld := rfl
@[simp] theorem State.setRmapE_admHeld : (s.setRmapE k v).admHeld = s.admHeld := rfl
@[simp] theorem State.setRmapE_qor : (s.setRmapE k v).qor = s.qor := rfl
@[simp] theorem State.setRmapE_mboxes : (s.setRmapE k v).mboxes = s.mboxes := rfl
@[simp] theorem State.setRmapE_cmds : (s.setRmapE k v).cmds = s.cmds := rfl
@[simp] theorem State.setRmapE_stew : (s.setRmapE k v).stew = s.stew := rfl
@[simp] theorem State.setRmapE_journal : (s.setRmapE k v).journal = s.journal := rfl
@[simp] theorem State.setRmapE_vectors : (s.setRmapE k v).vectors = s.vectors := rfl
@[simp] theorem State.setRmapE_rings : (s.setRmapE k v).rings = s.rings := rfl
@[simp] theorem State.setRmapE_keys : (s.setRmapE k v).keys = s.keys := rfl
@[simp] theorem State.setRmapE_derived : (s.setRmapE k v).derived = s.derived := rfl
@[simp] theorem State.setRmapE_elog : (s.setRmapE k v).elog = s.elog := rfl
@[simp] theorem State.setRmapE_cnt : (s.setRmapE k v).cnt = s.cnt := rfl
end

/-! #### `prots` -/

section
variable (s : State) (k : Nat) (v : Prot)
@[simp] theorem State.modProt_eq (f : Prot → Prot) : s.modProt k f = s.setProt k (f (s.prot k)) := rfl
@[simp] theorem State.setProt_prots : (s.setProt k v).prots = tput {} s.prots k v := rfl
theorem State.setProt_prot (i : Nat) : (s.setProt k v).prot i = if i = k then v else s.prot i := tget_tput _ s.prots k i v
@[simp] theorem State.setProt_prot_same : (s.setProt k v).prot k = v := by simp [State.setProt_prot]
@[simp] theorem State.setProt_pending : (s.setProt k v).pending = s.pending := rfl
@[simp] theorem State.setProt_fresh : (s.setProt k v).fresh = s.fresh := rfl
@[simp] theorem State.setProt_now : (s.setProt k v).now = s.now := rfl
@[simp] theorem State.setProt_nv : (s.setProt k v).nv = s.nv := rfl
@[simp] theorem State.setProt_pwr : (s.setProt k v).pwr = s.pwr := rfl
@[simp] theorem State.setProt_sensors : (s.setProt k v).sensors = s.sensors := rfl
@[simp] theorem State.setProt_parts : (s.setProt k v).parts = s.parts := rfl
@[simp] theorem State.setProt_ctxs : (s.setProt k v).ctxs = s.ctxs := rfl
@[simp] theorem State.setProt_exts : (s.setProt k v).exts = s.exts := rfl
@[simp] theorem State.setProt_shares : (s.setProt k v).shares = s.shares := rfl
@[simp] theorem State.setProt_gmap : (s.setProt k v).gmap = s.gmap := rfl
@[simp] theorem State.setProt_rmap : (s.setProt k v).rmap = s.rmap := rfl
@[simp] theorem State.setProt_combs : (s.setProt k v).combs = s.combs := rfl
@[simp] theorem State.setProt_group : (s.setProt k v).group = s.group := rfl
@[simp] theorem State.setProt_elder : (s.setProt k v).elder = s.elder := rfl
@[simp] theorem State.setProt_regions : (s.setProt k v).regions = s.regions := rfl
@[simp] theorem State.setProt_slices : (s.setProt k v).slices = s.slices := rfl
@[simp] theorem State.setProt_agents : (s.setProt k v).agents = s.agents := rfl
@[simp] theorem State.setProt_pred : (s.setProt k v).pred = s.pred := rfl
@[simp] theorem State.setProt_orphanScan : (s.setProt k v).orphanScan = s.orphanScan := rfl
@[simp] theorem State.setProt_dram : (s.setProt k v).dram = s.dram := rfl
@[simp] theorem State.setProt_lines : (s.setProt k v).lines = s.lines := rfl
@[simp] theorem State.setProt_splits : (s.setProt k v).splits = s.splits := rfl
@[simp] theorem State.setProt_nextSplit : (s.setProt k v).nextSplit = s.nextSplit := rfl
@[simp] theorem State.setProt_stks : (s.setProt k v).stks = s.stks := rfl
@[simp] theorem State.setProt_mem : (s.setProt k v).mem = s.mem := rfl
@[simp] theorem State.setProt_tiles : (s.setProt k v).tiles = s.tiles := rfl
@[simp] theorem State.setProt_lands : (s.setProt k v).lands = s.lands := rfl
@[simp] theorem State.setProt_walkers : (s.setProt k v).walkers = s.walkers := rfl
@[simp] theorem State.setProt_keeper : (s.setProt k v).keeper = s.keeper := rfl
@[simp] theorem State.setProt_repl : (s.setProt k v).repl = s.repl := rfl
@[simp] theorem State.setProt_sched : (s.setProt k v).sched = s.sched := rfl
@[simp] theorem State.setProt_ports : (s.setProt k v).ports = s.ports := rfl
@[simp] theorem State.setProt_dies : (s.setProt k v).dies = s.dies := rfl
@[simp] theorem State.setProt_node : (s.setProt k v).node = s.node := rfl
@[simp] theorem State.setProt_rx : (s.setProt k v).rx = s.rx := rfl
@[simp] theorem State.setProt_tx : (s.setProt k v).tx = s.tx := rfl
@[simp] theorem State.setProt_origs : (s.setProt k v).origs = s.origs := rfl
@[simp] theorem State.setProt_fwds : (s.setProt k v).fwds = s.fwds := rfl
@[simp] theorem State.setProt_nextRtag : (s.setProt k v).nextRtag = s.nextRtag := rfl
@[simp] theorem State.setProt_released : (s.setProt k v).released = s.released := rfl
@[simp] theorem State.setProt_limits : (s.setProt k v).limits = s.limits := rfl
@[simp] theorem State.setProt_limHeld : (s.setProt k v).limHeld = s.limHeld := rfl
@[simp] theorem State.setProt_admHeld : (s.setProt k v).admHeld = s.admHeld := rfl
@[simp] theorem State.setProt_qor : (s.setProt k v).qor = s.qor := rfl
@[simp] theorem State.setProt_mboxes : (s.setProt k v).mboxes = s.mboxes := rfl
@[simp] theorem State.setProt_cmds : (s.setProt k v).cmds = s.cmds := rfl
@[simp] theorem State.setProt_stew : (s.setProt k v).stew = s.stew := rfl
@[simp] theorem State.setProt_journal : (s.setProt k v).journal = s.journal := rfl
@[simp] theorem State.setProt_vectors : (s.setProt k v).vectors = s.vectors := rfl
@[simp] theorem State.setProt_rings : (s.setProt k v).rings = s.rings := rfl
@[simp] theorem State.setProt_keys : (s.setProt k v).keys = s.keys := rfl
@[simp] theorem State.setProt_derived : (s.setProt k v).derived = s.derived := rfl
@[simp] theorem State.setProt_elog : (s.setProt k v).elog = s.elog := rfl
@[simp] theorem State.setProt_cnt : (s.setProt k v).cnt = s.cnt := rfl
end

/-! #### `combs` -/

section
variable (s : State) (k : Nat) (v : Comb)
@[simp] theorem State.modComb_eq (f : Comb → Comb) : s.modComb k f = s.setComb k (f (s.comb k)) := rfl
@[simp] theorem State.setComb_combs : (s.setComb k v).combs = tput {} s.combs k v := rfl
theorem State.setComb_comb (i : Nat) : (s.setComb k v).comb i = if i = k then v else s.comb i := tget_tput _ s.combs k i v
@[simp] theorem State.setComb_comb_same : (s.setComb k v).comb k = v := by simp [State.setComb_comb]
@[simp] theorem State.setComb_pending : (s.setComb k v).pending = s.pending := rfl
@[simp] theorem State.setComb_fresh : (s.setComb k v).fresh = s.fresh := rfl
@[simp] theorem State.setComb_now : (s.setComb k v).now = s.now := rfl
@[simp] theorem State.setComb_nv : (s.setComb k v).nv = s.nv := rfl
@[simp] theorem State.setComb_pwr : (s.setComb k v).pwr = s.pwr := rfl
@[simp] theorem State.setComb_sensors : (s.setComb k v).sensors = s.sensors := rfl
@[simp] theorem State.setComb_parts : (s.setComb k v).parts = s.parts := rfl
@[simp] theorem State.setComb_ctxs : (s.setComb k v).ctxs = s.ctxs := rfl
@[simp] theorem State.setComb_exts : (s.setComb k v).exts = s.exts := rfl
@[simp] theorem State.setComb_shares : (s.setComb k v).shares = s.shares := rfl
@[simp] theorem State.setComb_gmap : (s.setComb k v).gmap = s.gmap := rfl
@[simp] theorem State.setComb_rmap : (s.setComb k v).rmap = s.rmap := rfl
@[simp] theorem State.setComb_prots : (s.setComb k v).prots = s.prots := rfl
@[simp] theorem State.setComb_group : (s.setComb k v).group = s.group := rfl
@[simp] theorem State.setComb_elder : (s.setComb k v).elder = s.elder := rfl
@[simp] theorem State.setComb_regions : (s.setComb k v).regions = s.regions := rfl
@[simp] theorem State.setComb_slices : (s.setComb k v).slices = s.slices := rfl
@[simp] theorem State.setComb_agents : (s.setComb k v).agents = s.agents := rfl
@[simp] theorem State.setComb_pred : (s.setComb k v).pred = s.pred := rfl
@[simp] theorem State.setComb_orphanScan : (s.setComb k v).orphanScan = s.orphanScan := rfl
@[simp] theorem State.setComb_dram : (s.setComb k v).dram = s.dram := rfl
@[simp] theorem State.setComb_lines : (s.setComb k v).lines = s.lines := rfl
@[simp] theorem State.setComb_splits : (s.setComb k v).splits = s.splits := rfl
@[simp] theorem State.setComb_nextSplit : (s.setComb k v).nextSplit = s.nextSplit := rfl
@[simp] theorem State.setComb_stks : (s.setComb k v).stks = s.stks := rfl
@[simp] theorem State.setComb_mem : (s.setComb k v).mem = s.mem := rfl
@[simp] theorem State.setComb_tiles : (s.setComb k v).tiles = s.tiles := rfl
@[simp] theorem State.setComb_lands : (s.setComb k v).lands = s.lands := rfl
@[simp] theorem State.setComb_walkers : (s.setComb k v).walkers = s.walkers := rfl
@[simp] theorem State.setComb_keeper : (s.setComb k v).keeper = s.keeper := rfl
@[simp] theorem State.setComb_repl : (s.setComb k v).repl = s.repl := rfl
@[simp] theorem State.setComb_sched : (s.setComb k v).sched = s.sched := rfl
@[simp] theorem State.setComb_ports : (s.setComb k v).ports = s.ports := rfl
@[simp] theorem State.setComb_dies : (s.setComb k v).dies = s.dies := rfl
@[simp] theorem State.setComb_node : (s.setComb k v).node = s.node := rfl
@[simp] theorem State.setComb_rx : (s.setComb k v).rx = s.rx := rfl
@[simp] theorem State.setComb_tx : (s.setComb k v).tx = s.tx := rfl
@[simp] theorem State.setComb_origs : (s.setComb k v).origs = s.origs := rfl
@[simp] theorem State.setComb_fwds : (s.setComb k v).fwds = s.fwds := rfl
@[simp] theorem State.setComb_nextRtag : (s.setComb k v).nextRtag = s.nextRtag := rfl
@[simp] theorem State.setComb_released : (s.setComb k v).released = s.released := rfl
@[simp] theorem State.setComb_limits : (s.setComb k v).limits = s.limits := rfl
@[simp] theorem State.setComb_limHeld : (s.setComb k v).limHeld = s.limHeld := rfl
@[simp] theorem State.setComb_admHeld : (s.setComb k v).admHeld = s.admHeld := rfl
@[simp] theorem State.setComb_qor : (s.setComb k v).qor = s.qor := rfl
@[simp] theorem State.setComb_mboxes : (s.setComb k v).mboxes = s.mboxes := rfl
@[simp] theorem State.setComb_cmds : (s.setComb k v).cmds = s.cmds := rfl
@[simp] theorem State.setComb_stew : (s.setComb k v).stew = s.stew := rfl
@[simp] theorem State.setComb_journal : (s.setComb k v).journal = s.journal := rfl
@[simp] theorem State.setComb_vectors : (s.setComb k v).vectors = s.vectors := rfl
@[simp] theorem State.setComb_rings : (s.setComb k v).rings = s.rings := rfl
@[simp] theorem State.setComb_keys : (s.setComb k v).keys = s.keys := rfl
@[simp] theorem State.setComb_derived : (s.setComb k v).derived = s.derived := rfl
@[simp] theorem State.setComb_elog : (s.setComb k v).elog = s.elog := rfl
@[simp] theorem State.setComb_cnt : (s.setComb k v).cnt = s.cnt := rfl
end

/-! #### `regions` -/

section
variable (s : State) (k : Nat) (v : ElderReg)
@[simp] theorem State.modRegion_eq (f : ElderReg → ElderReg) : s.modRegion k f = s.setRegion k (f (s.region k)) := rfl
@[simp] theorem State.setRegion_regions : (s.setRegion k v).regions = tput {} s.regions k v := rfl
theorem State.setRegion_region (i : Nat) : (s.setRegion k v).region i = if i = k then v else s.region i := tget_tput _ s.regions k i v
@[simp] theorem State.setRegion_region_same : (s.setRegion k v).region k = v := by simp [State.setRegion_region]
@[simp] theorem State.setRegion_pending : (s.setRegion k v).pending = s.pending := rfl
@[simp] theorem State.setRegion_fresh : (s.setRegion k v).fresh = s.fresh := rfl
@[simp] theorem State.setRegion_now : (s.setRegion k v).now = s.now := rfl
@[simp] theorem State.setRegion_nv : (s.setRegion k v).nv = s.nv := rfl
@[simp] theorem State.setRegion_pwr : (s.setRegion k v).pwr = s.pwr := rfl
@[simp] theorem State.setRegion_sensors : (s.setRegion k v).sensors = s.sensors := rfl
@[simp] theorem State.setRegion_parts : (s.setRegion k v).parts = s.parts := rfl
@[simp] theorem State.setRegion_ctxs : (s.setRegion k v).ctxs = s.ctxs := rfl
@[simp] theorem State.setRegion_exts : (s.setRegion k v).exts = s.exts := rfl
@[simp] theorem State.setRegion_shares : (s.setRegion k v).shares = s.shares := rfl
@[simp] theorem State.setRegion_gmap : (s.setRegion k v).gmap = s.gmap := rfl
@[simp] theorem State.setRegion_rmap : (s.setRegion k v).rmap = s.rmap := rfl
@[simp] theorem State.setRegion_prots : (s.setRegion k v).prots = s.prots := rfl
@[simp] theorem State.setRegion_combs : (s.setRegion k v).combs = s.combs := rfl
@[simp] theorem State.setRegion_group : (s.setRegion k v).group = s.group := rfl
@[simp] theorem State.setRegion_elder : (s.setRegion k v).elder = s.elder := rfl
@[simp] theorem State.setRegion_slices : (s.setRegion k v).slices = s.slices := rfl
@[simp] theorem State.setRegion_agents : (s.setRegion k v).agents = s.agents := rfl
@[simp] theorem State.setRegion_pred : (s.setRegion k v).pred = s.pred := rfl
@[simp] theorem State.setRegion_orphanScan : (s.setRegion k v).orphanScan = s.orphanScan := rfl
@[simp] theorem State.setRegion_dram : (s.setRegion k v).dram = s.dram := rfl
@[simp] theorem State.setRegion_lines : (s.setRegion k v).lines = s.lines := rfl
@[simp] theorem State.setRegion_splits : (s.setRegion k v).splits = s.splits := rfl
@[simp] theorem State.setRegion_nextSplit : (s.setRegion k v).nextSplit = s.nextSplit := rfl
@[simp] theorem State.setRegion_stks : (s.setRegion k v).stks = s.stks := rfl
@[simp] theorem State.setRegion_mem : (s.setRegion k v).mem = s.mem := rfl
@[simp] theorem State.setRegion_tiles : (s.setRegion k v).tiles = s.tiles := rfl
@[simp] theorem State.setRegion_lands : (s.setRegion k v).lands = s.lands := rfl
@[simp] theorem State.setRegion_walkers : (s.setRegion k v).walkers = s.walkers := rfl
@[simp] theorem State.setRegion_keeper : (s.setRegion k v).keeper = s.keeper := rfl
@[simp] theorem State.setRegion_repl : (s.setRegion k v).repl = s.repl := rfl
@[simp] theorem State.setRegion_sched : (s.setRegion k v).sched = s.sched := rfl
@[simp] theorem State.setRegion_ports : (s.setRegion k v).ports = s.ports := rfl
@[simp] theorem State.setRegion_dies : (s.setRegion k v).dies = s.dies := rfl
@[simp] theorem State.setRegion_node : (s.setRegion k v).node = s.node := rfl
@[simp] theorem State.setRegion_rx : (s.setRegion k v).rx = s.rx := rfl
@[simp] theorem State.setRegion_tx : (s.setRegion k v).tx = s.tx := rfl
@[simp] theorem State.setRegion_origs : (s.setRegion k v).origs = s.origs := rfl
@[simp] theorem State.setRegion_fwds : (s.setRegion k v).fwds = s.fwds := rfl
@[simp] theorem State.setRegion_nextRtag : (s.setRegion k v).nextRtag = s.nextRtag := rfl
@[simp] theorem State.setRegion_released : (s.setRegion k v).released = s.released := rfl
@[simp] theorem State.setRegion_limits : (s.setRegion k v).limits = s.limits := rfl
@[simp] theorem State.setRegion_limHeld : (s.setRegion k v).limHeld = s.limHeld := rfl
@[simp] theorem State.setRegion_admHeld : (s.setRegion k v).admHeld = s.admHeld := rfl
@[simp] theorem State.setRegion_qor : (s.setRegion k v).qor = s.qor := rfl
@[simp] theorem State.setRegion_mboxes : (s.setRegion k v).mboxes = s.mboxes := rfl
@[simp] theorem State.setRegion_cmds : (s.setRegion k v).cmds = s.cmds := rfl
@[simp] theorem State.setRegion_stew : (s.setRegion k v).stew = s.stew := rfl
@[simp] theorem State.setRegion_journal : (s.setRegion k v).journal = s.journal := rfl
@[simp] theorem State.setRegion_vectors : (s.setRegion k v).vectors = s.vectors := rfl
@[simp] theorem State.setRegion_rings : (s.setRegion k v).rings = s.rings := rfl
@[simp] theorem State.setRegion_keys : (s.setRegion k v).keys = s.keys := rfl
@[simp] theorem State.setRegion_derived : (s.setRegion k v).derived = s.derived := rfl
@[simp] theorem State.setRegion_elog : (s.setRegion k v).elog = s.elog := rfl
@[simp] theorem State.setRegion_cnt : (s.setRegion k v).cnt = s.cnt := rfl
end

/-! #### `slices` -/

section
variable (s : State) (k : Nat) (v : Slice)
@[simp] theorem State.modSlice_eq (f : Slice → Slice) : s.modSlice k f = s.setSlice k (f (s.slice k)) := rfl
@[simp] theorem State.setSlice_slices : (s.setSlice k v).slices = tput {} s.slices k v := rfl
theorem State.setSlice_slice (i : Nat) : (s.setSlice k v).slice i = if i = k then v else s.slice i := tget_tput _ s.slices k i v
@[simp] theorem State.setSlice_slice_same : (s.setSlice k v).slice k = v := by simp [State.setSlice_slice]
@[simp] theorem State.setSlice_pending : (s.setSlice k v).pending = s.pending := rfl
@[simp] theorem State.setSlice_fresh : (s.setSlice k v).fresh = s.fresh := rfl
@[simp] theorem State.setSlice_now : (s.setSlice k v).now = s.now := rfl
@[simp] theorem State.setSlice_nv : (s.setSlice k v).nv = s.nv := rfl
@[simp] theorem State.setSlice_pwr : (s.setSlice k v).pwr = s.pwr := rfl
@[simp] theorem State.setSlice_sensors : (s.setSlice k v).sensors = s.sensors := rfl
@[simp] theorem State.setSlice_parts : (s.setSlice k v).parts = s.parts := rfl
@[simp] theorem State.setSlice_ctxs : (s.setSlice k v).ctxs = s.ctxs := rfl
@[simp] theorem State.setSlice_exts : (s.setSlice k v).exts = s.exts := rfl
@[simp] theorem State.setSlice_shares : (s.setSlice k v).shares = s.shares := rfl
@[simp] theorem State.setSlice_gmap : (s.setSlice k v).gmap = s.gmap := rfl
@[simp] theorem State.setSlice_rmap : (s.setSlice k v).rmap = s.rmap := rfl
@[simp] theorem State.setSlice_prots : (s.setSlice k v).prots = s.prots := rfl
@[simp] theorem State.setSlice_combs : (s.setSlice k v).combs = s.combs := rfl
@[simp] theorem State.setSlice_group : (s.setSlice k v).group = s.group := rfl
@[simp] theorem State.setSlice_elder : (s.setSlice k v).elder = s.elder := rfl
@[simp] theorem State.setSlice_regions : (s.setSlice k v).regions = s.regions := rfl
@[simp] theorem State.setSlice_agents : (s.setSlice k v).agents = s.agents := rfl
@[simp] theorem State.setSlice_pred : (s.setSlice k v).pred = s.pred := rfl
@[simp] theorem State.setSlice_orphanScan : (s.setSlice k v).orphanScan = s.orphanScan := rfl
@[simp] theorem State.setSlice_dram : (s.setSlice k v).dram = s.dram := rfl
@[simp] theorem State.setSlice_lines : (s.setSlice k v).lines = s.lines := rfl
@[simp] theorem State.setSlice_splits : (s.setSlice k v).splits = s.splits := rfl
@[simp] theorem State.setSlice_nextSplit : (s.setSlice k v).nextSplit = s.nextSplit := rfl
@[simp] theorem State.setSlice_stks : (s.setSlice k v).stks = s.stks := rfl
@[simp] theorem State.setSlice_mem : (s.setSlice k v).mem = s.mem := rfl
@[simp] theorem State.setSlice_tiles : (s.setSlice k v).tiles = s.tiles := rfl
@[simp] theorem State.setSlice_lands : (s.setSlice k v).lands = s.lands := rfl
@[simp] theorem State.setSlice_walkers : (s.setSlice k v).walkers = s.walkers := rfl
@[simp] theorem State.setSlice_keeper : (s.setSlice k v).keeper = s.keeper := rfl
@[simp] theorem State.setSlice_repl : (s.setSlice k v).repl = s.repl := rfl
@[simp] theorem State.setSlice_sched : (s.setSlice k v).sched = s.sched := rfl
@[simp] theorem State.setSlice_ports : (s.setSlice k v).ports = s.ports := rfl
@[simp] theorem State.setSlice_dies : (s.setSlice k v).dies = s.dies := rfl
@[simp] theorem State.setSlice_node : (s.setSlice k v).node = s.node := rfl
@[simp] theorem State.setSlice_rx : (s.setSlice k v).rx = s.rx := rfl
@[simp] theorem State.setSlice_tx : (s.setSlice k v).tx = s.tx := rfl
@[simp] theorem State.setSlice_origs : (s.setSlice k v).origs = s.origs := rfl
@[simp] theorem State.setSlice_fwds : (s.setSlice k v).fwds = s.fwds := rfl
@[simp] theorem State.setSlice_nextRtag : (s.setSlice k v).nextRtag = s.nextRtag := rfl
@[simp] theorem State.setSlice_released : (s.setSlice k v).released = s.released := rfl
@[simp] theorem State.setSlice_limits : (s.setSlice k v).limits = s.limits := rfl
@[simp] theorem State.setSlice_limHeld : (s.setSlice k v).limHeld = s.limHeld := rfl
@[simp] theorem State.setSlice_admHeld : (s.setSlice k v).admHeld = s.admHeld := rfl
@[simp] theorem State.setSlice_qor : (s.setSlice k v).qor = s.qor := rfl
@[simp] theorem State.setSlice_mboxes : (s.setSlice k v).mboxes = s.mboxes := rfl
@[simp] theorem State.setSlice_cmds : (s.setSlice k v).cmds = s.cmds := rfl
@[simp] theorem State.setSlice_stew : (s.setSlice k v).stew = s.stew := rfl
@[simp] theorem State.setSlice_journal : (s.setSlice k v).journal = s.journal := rfl
@[simp] theorem State.setSlice_vectors : (s.setSlice k v).vectors = s.vectors := rfl
@[simp] theorem State.setSlice_rings : (s.setSlice k v).rings = s.rings := rfl
@[simp] theorem State.setSlice_keys : (s.setSlice k v).keys = s.keys := rfl
@[simp] theorem State.setSlice_derived : (s.setSlice k v).derived = s.derived := rfl
@[simp] theorem State.setSlice_elog : (s.setSlice k v).elog = s.elog := rfl
@[simp] theorem State.setSlice_cnt : (s.setSlice k v).cnt = s.cnt := rfl
end

/-! #### `lines` -/

section
variable (s : State) (k : Nat) (v : LineMeta)
@[simp] theorem State.modLineMeta_eq (f : LineMeta → LineMeta) : s.modLineMeta k f = s.setLineMeta k (f (s.lineMeta k)) := rfl
@[simp] theorem State.setLineMeta_lines : (s.setLineMeta k v).lines = tput {} s.lines k v := rfl
theorem State.setLineMeta_lineMeta (i : Nat) : (s.setLineMeta k v).lineMeta i = if i = k then v else s.lineMeta i := tget_tput _ s.lines k i v
@[simp] theorem State.setLineMeta_lineMeta_same : (s.setLineMeta k v).lineMeta k = v := by simp [State.setLineMeta_lineMeta]
@[simp] theorem State.setLineMeta_pending : (s.setLineMeta k v).pending = s.pending := rfl
@[simp] theorem State.setLineMeta_fresh : (s.setLineMeta k v).fresh = s.fresh := rfl
@[simp] theorem State.setLineMeta_now : (s.setLineMeta k v).now = s.now := rfl
@[simp] theorem State.setLineMeta_nv : (s.setLineMeta k v).nv = s.nv := rfl
@[simp] theorem State.setLineMeta_pwr : (s.setLineMeta k v).pwr = s.pwr := rfl
@[simp] theorem State.setLineMeta_sensors : (s.setLineMeta k v).sensors = s.sensors := rfl
@[simp] theorem State.setLineMeta_parts : (s.setLineMeta k v).parts = s.parts := rfl
@[simp] theorem State.setLineMeta_ctxs : (s.setLineMeta k v).ctxs = s.ctxs := rfl
@[simp] theorem State.setLineMeta_exts : (s.setLineMeta k v).exts = s.exts := rfl
@[simp] theorem State.setLineMeta_shares : (s.setLineMeta k v).shares = s.shares := rfl
@[simp] theorem State.setLineMeta_gmap : (s.setLineMeta k v).gmap = s.gmap := rfl
@[simp] theorem State.setLineMeta_rmap : (s.setLineMeta k v).rmap = s.rmap := rfl
@[simp] theorem State.setLineMeta_prots : (s.setLineMeta k v).prots = s.prots := rfl
@[simp] theorem State.setLineMeta_combs : (s.setLineMeta k v).combs = s.combs := rfl
@[simp] theorem State.setLineMeta_group : (s.setLineMeta k v).group = s.group := rfl
@[simp] theorem State.setLineMeta_elder : (s.setLineMeta k v).elder = s.elder := rfl
@[simp] theorem State.setLineMeta_regions : (s.setLineMeta k v).regions = s.regions := rfl
@[simp] theorem State.setLineMeta_slices : (s.setLineMeta k v).slices = s.slices := rfl
@[simp] theorem State.setLineMeta_agents : (s.setLineMeta k v).agents = s.agents := rfl
@[simp] theorem State.setLineMeta_pred : (s.setLineMeta k v).pred = s.pred := rfl
@[simp] theorem State.setLineMeta_orphanScan : (s.setLineMeta k v).orphanScan = s.orphanScan := rfl
@[simp] theorem State.setLineMeta_dram : (s.setLineMeta k v).dram = s.dram := rfl
@[simp] theorem State.setLineMeta_splits : (s.setLineMeta k v).splits = s.splits := rfl
@[simp] theorem State.setLineMeta_nextSplit : (s.setLineMeta k v).nextSplit = s.nextSplit := rfl
@[simp] theorem State.setLineMeta_stks : (s.setLineMeta k v).stks = s.stks := rfl
@[simp] theorem State.setLineMeta_mem : (s.setLineMeta k v).mem = s.mem := rfl
@[simp] theorem State.setLineMeta_tiles : (s.setLineMeta k v).tiles = s.tiles := rfl
@[simp] theorem State.setLineMeta_lands : (s.setLineMeta k v).lands = s.lands := rfl
@[simp] theorem State.setLineMeta_walkers : (s.setLineMeta k v).walkers = s.walkers := rfl
@[simp] theorem State.setLineMeta_keeper : (s.setLineMeta k v).keeper = s.keeper := rfl
@[simp] theorem State.setLineMeta_repl : (s.setLineMeta k v).repl = s.repl := rfl
@[simp] theorem State.setLineMeta_sched : (s.setLineMeta k v).sched = s.sched := rfl
@[simp] theorem State.setLineMeta_ports : (s.setLineMeta k v).ports = s.ports := rfl
@[simp] theorem State.setLineMeta_dies : (s.setLineMeta k v).dies = s.dies := rfl
@[simp] theorem State.setLineMeta_node : (s.setLineMeta k v).node = s.node := rfl
@[simp] theorem State.setLineMeta_rx : (s.setLineMeta k v).rx = s.rx := rfl
@[simp] theorem State.setLineMeta_tx : (s.setLineMeta k v).tx = s.tx := rfl
@[simp] theorem State.setLineMeta_origs : (s.setLineMeta k v).origs = s.origs := rfl
@[simp] theorem State.setLineMeta_fwds : (s.setLineMeta k v).fwds = s.fwds := rfl
@[simp] theorem State.setLineMeta_nextRtag : (s.setLineMeta k v).nextRtag = s.nextRtag := rfl
@[simp] theorem State.setLineMeta_released : (s.setLineMeta k v).released = s.released := rfl
@[simp] theorem State.setLineMeta_limits : (s.setLineMeta k v).limits = s.limits := rfl
@[simp] theorem State.setLineMeta_limHeld : (s.setLineMeta k v).limHeld = s.limHeld := rfl
@[simp] theorem State.setLineMeta_admHeld : (s.setLineMeta k v).admHeld = s.admHeld := rfl
@[simp] theorem State.setLineMeta_qor : (s.setLineMeta k v).qor = s.qor := rfl
@[simp] theorem State.setLineMeta_mboxes : (s.setLineMeta k v).mboxes = s.mboxes := rfl
@[simp] theorem State.setLineMeta_cmds : (s.setLineMeta k v).cmds = s.cmds := rfl
@[simp] theorem State.setLineMeta_stew : (s.setLineMeta k v).stew = s.stew := rfl
@[simp] theorem State.setLineMeta_journal : (s.setLineMeta k v).journal = s.journal := rfl
@[simp] theorem State.setLineMeta_vectors : (s.setLineMeta k v).vectors = s.vectors := rfl
@[simp] theorem State.setLineMeta_rings : (s.setLineMeta k v).rings = s.rings := rfl
@[simp] theorem State.setLineMeta_keys : (s.setLineMeta k v).keys = s.keys := rfl
@[simp] theorem State.setLineMeta_derived : (s.setLineMeta k v).derived = s.derived := rfl
@[simp] theorem State.setLineMeta_elog : (s.setLineMeta k v).elog = s.elog := rfl
@[simp] theorem State.setLineMeta_cnt : (s.setLineMeta k v).cnt = s.cnt := rfl
end

/-! #### `stks` -/

section
variable (s : State) (k : Nat) (v : Stack)
@[simp] theorem State.modStack_eq (f : Stack → Stack) : s.modStack k f = s.setStack k (f (s.stack k)) := rfl
@[simp] theorem State.setStack_stks : (s.setStack k v).stks = tput {} s.stks k v := rfl
theorem State.setStack_stack (i : Nat) : (s.setStack k v).stack i = if i = k then v else s.stack i := tget_tput _ s.stks k i v
@[simp] theorem State.setStack_stack_same : (s.setStack k v).stack k = v := by simp [State.setStack_stack]
@[simp] theorem State.setStack_pending : (s.setStack k v).pending = s.pending := rfl
@[simp] theorem State.setStack_fresh : (s.setStack k v).fresh = s.fresh := rfl
@[simp] theorem State.setStack_now : (s.setStack k v).now = s.now := rfl
@[simp] theorem State.setStack_nv : (s.setStack k v).nv = s.nv := rfl
@[simp] theorem State.setStack_pwr : (s.setStack k v).pwr = s.pwr := rfl
@[simp] theorem State.setStack_sensors : (s.setStack k v).sensors = s.sensors := rfl
@[simp] theorem State.setStack_parts : (s.setStack k v).parts = s.parts := rfl
@[simp] theorem State.setStack_ctxs : (s.setStack k v).ctxs = s.ctxs := rfl
@[simp] theorem State.setStack_exts : (s.setStack k v).exts = s.exts := rfl
@[simp] theorem State.setStack_shares : (s.setStack k v).shares = s.shares := rfl
@[simp] theorem State.setStack_gmap : (s.setStack k v).gmap = s.gmap := rfl
@[simp] theorem State.setStack_rmap : (s.setStack k v).rmap = s.rmap := rfl
@[simp] theorem State.setStack_prots : (s.setStack k v).prots = s.prots := rfl
@[simp] theorem State.setStack_combs : (s.setStack k v).combs = s.combs := rfl
@[simp] theorem State.setStack_group : (s.setStack k v).group = s.group := rfl
@[simp] theorem State.setStack_elder : (s.setStack k v).elder = s.elder := rfl
@[simp] theorem State.setStack_regions : (s.setStack k v).regions = s.regions := rfl
@[simp] theorem State.setStack_slices : (s.setStack k v).slices = s.slices := rfl
@[simp] theorem State.setStack_agents : (s.setStack k v).agents = s.agents := rfl
@[simp] theorem State.setStack_pred : (s.setStack k v).pred = s.pred := rfl
@[simp] theorem State.setStack_orphanScan : (s.setStack k v).orphanScan = s.orphanScan := rfl
@[simp] theorem State.setStack_dram : (s.setStack k v).dram = s.dram := rfl
@[simp] theorem State.setStack_lines : (s.setStack k v).lines = s.lines := rfl
@[simp] theorem State.setStack_splits : (s.setStack k v).splits = s.splits := rfl
@[simp] theorem State.setStack_nextSplit : (s.setStack k v).nextSplit = s.nextSplit := rfl
@[simp] theorem State.setStack_mem : (s.setStack k v).mem = s.mem := rfl
@[simp] theorem State.setStack_tiles : (s.setStack k v).tiles = s.tiles := rfl
@[simp] theorem State.setStack_lands : (s.setStack k v).lands = s.lands := rfl
@[simp] theorem State.setStack_walkers : (s.setStack k v).walkers = s.walkers := rfl
@[simp] theorem State.setStack_keeper : (s.setStack k v).keeper = s.keeper := rfl
@[simp] theorem State.setStack_repl : (s.setStack k v).repl = s.repl := rfl
@[simp] theorem State.setStack_sched : (s.setStack k v).sched = s.sched := rfl
@[simp] theorem State.setStack_ports : (s.setStack k v).ports = s.ports := rfl
@[simp] theorem State.setStack_dies : (s.setStack k v).dies = s.dies := rfl
@[simp] theorem State.setStack_node : (s.setStack k v).node = s.node := rfl
@[simp] theorem State.setStack_rx : (s.setStack k v).rx = s.rx := rfl
@[simp] theorem State.setStack_tx : (s.setStack k v).tx = s.tx := rfl
@[simp] theorem State.setStack_origs : (s.setStack k v).origs = s.origs := rfl
@[simp] theorem State.setStack_fwds : (s.setStack k v).fwds = s.fwds := rfl
@[simp] theorem State.setStack_nextRtag : (s.setStack k v).nextRtag = s.nextRtag := rfl
@[simp] theorem State.setStack_released : (s.setStack k v).released = s.released := rfl
@[simp] theorem State.setStack_limits : (s.setStack k v).limits = s.limits := rfl
@[simp] theorem State.setStack_limHeld : (s.setStack k v).limHeld = s.limHeld := rfl
@[simp] theorem State.setStack_admHeld : (s.setStack k v).admHeld = s.admHeld := rfl
@[simp] theorem State.setStack_qor : (s.setStack k v).qor = s.qor := rfl
@[simp] theorem State.setStack_mboxes : (s.setStack k v).mboxes = s.mboxes := rfl
@[simp] theorem State.setStack_cmds : (s.setStack k v).cmds = s.cmds := rfl
@[simp] theorem State.setStack_stew : (s.setStack k v).stew = s.stew := rfl
@[simp] theorem State.setStack_journal : (s.setStack k v).journal = s.journal := rfl
@[simp] theorem State.setStack_vectors : (s.setStack k v).vectors = s.vectors := rfl
@[simp] theorem State.setStack_rings : (s.setStack k v).rings = s.rings := rfl
@[simp] theorem State.setStack_keys : (s.setStack k v).keys = s.keys := rfl
@[simp] theorem State.setStack_derived : (s.setStack k v).derived = s.derived := rfl
@[simp] theorem State.setStack_elog : (s.setStack k v).elog = s.elog := rfl
@[simp] theorem State.setStack_cnt : (s.setStack k v).cnt = s.cnt := rfl
end

/-! #### `tiles` -/

section
variable (s : State) (k : Nat) (v : Tile)
@[simp] theorem State.modTile_eq (f : Tile → Tile) : s.modTile k f = s.setTile k (f (s.tile k)) := rfl
@[simp] theorem State.setTile_tiles : (s.setTile k v).tiles = tput {} s.tiles k v := rfl
theorem State.setTile_tile (i : Nat) : (s.setTile k v).tile i = if i = k then v else s.tile i := tget_tput _ s.tiles k i v
@[simp] theorem State.setTile_tile_same : (s.setTile k v).tile k = v := by simp [State.setTile_tile]
@[simp] theorem State.setTile_pending : (s.setTile k v).pending = s.pending := rfl
@[simp] theorem State.setTile_fresh : (s.setTile k v).fresh = s.fresh := rfl
@[simp] theorem State.setTile_now : (s.setTile k v).now = s.now := rfl
@[simp] theorem State.setTile_nv : (s.setTile k v).nv = s.nv := rfl
@[simp] theorem State.setTile_pwr : (s.setTile k v).pwr = s.pwr := rfl
@[simp] theorem State.setTile_sensors : (s.setTile k v).sensors = s.sensors := rfl
@[simp] theorem State.setTile_parts : (s.setTile k v).parts = s.parts := rfl
@[simp] theorem State.setTile_ctxs : (s.setTile k v).ctxs = s.ctxs := rfl
@[simp] theorem State.setTile_exts : (s.setTile k v).exts = s.exts := rfl
@[simp] theorem State.setTile_shares : (s.setTile k v).shares = s.shares := rfl
@[simp] theorem State.setTile_gmap : (s.setTile k v).gmap = s.gmap := rfl
@[simp] theorem State.setTile_rmap : (s.setTile k v).rmap = s.rmap := rfl
@[simp] theorem State.setTile_prots : (s.setTile k v).prots = s.prots := rfl
@[simp] theorem State.setTile_combs : (s.setTile k v).combs = s.combs := rfl
@[simp] theorem State.setTile_group : (s.setTile k v).group = s.group := rfl
@[simp] theorem State.setTile_elder : (s.setTile k v).elder = s.elder := rfl
@[simp] theorem State.setTile_regions : (s.setTile k v).regions = s.regions := rfl
@[simp] theorem State.setTile_slices : (s.setTile k v).slices = s.slices := rfl
@[simp] theorem State.setTile_agents : (s.setTile k v).agents = s.agents := rfl
@[simp] theorem State.setTile_pred : (s.setTile k v).pred = s.pred := rfl
@[simp] theorem State.setTile_orphanScan : (s.setTile k v).orphanScan = s.orphanScan := rfl
@[simp] theorem State.setTile_dram : (s.setTile k v).dram = s.dram := rfl
@[simp] theorem State.setTile_lines : (s.setTile k v).lines = s.lines := rfl
@[simp] theorem State.setTile_splits : (s.setTile k v).splits = s.splits := rfl
@[simp] theorem State.setTile_nextSplit : (s.setTile k v).nextSplit = s.nextSplit := rfl
@[simp] theorem State.setTile_stks : (s.setTile k v).stks = s.stks := rfl
@[simp] theorem State.setTile_mem : (s.setTile k v).mem = s.mem := rfl
@[simp] theorem State.setTile_lands : (s.setTile k v).lands = s.lands := rfl
@[simp] theorem State.setTile_walkers : (s.setTile k v).walkers = s.walkers := rfl
@[simp] theorem State.setTile_keeper : (s.setTile k v).keeper = s.keeper := rfl
@[simp] theorem State.setTile_repl : (s.setTile k v).repl = s.repl := rfl
@[simp] theorem State.setTile_sched : (s.setTile k v).sched = s.sched := rfl
@[simp] theorem State.setTile_ports : (s.setTile k v).ports = s.ports := rfl
@[simp] theorem State.setTile_dies : (s.setTile k v).dies = s.dies := rfl
@[simp] theorem State.setTile_node : (s.setTile k v).node = s.node := rfl
@[simp] theorem State.setTile_rx : (s.setTile k v).rx = s.rx := rfl
@[simp] theorem State.setTile_tx : (s.setTile k v).tx = s.tx := rfl
@[simp] theorem State.setTile_origs : (s.setTile k v).origs = s.origs := rfl
@[simp] theorem State.setTile_fwds : (s.setTile k v).fwds = s.fwds := rfl
@[simp] theorem State.setTile_nextRtag : (s.setTile k v).nextRtag = s.nextRtag := rfl
@[simp] theorem State.setTile_released : (s.setTile k v).released = s.released := rfl
@[simp] theorem State.setTile_limits : (s.setTile k v).limits = s.limits := rfl
@[simp] theorem State.setTile_limHeld : (s.setTile k v).limHeld = s.limHeld := rfl
@[simp] theorem State.setTile_admHeld : (s.setTile k v).admHeld = s.admHeld := rfl
@[simp] theorem State.setTile_qor : (s.setTile k v).qor = s.qor := rfl
@[simp] theorem State.setTile_mboxes : (s.setTile k v).mboxes = s.mboxes := rfl
@[simp] theorem State.setTile_cmds : (s.setTile k v).cmds = s.cmds := rfl
@[simp] theorem State.setTile_stew : (s.setTile k v).stew = s.stew := rfl
@[simp] theorem State.setTile_journal : (s.setTile k v).journal = s.journal := rfl
@[simp] theorem State.setTile_vectors : (s.setTile k v).vectors = s.vectors := rfl
@[simp] theorem State.setTile_rings : (s.setTile k v).rings = s.rings := rfl
@[simp] theorem State.setTile_keys : (s.setTile k v).keys = s.keys := rfl
@[simp] theorem State.setTile_derived : (s.setTile k v).derived = s.derived := rfl
@[simp] theorem State.setTile_elog : (s.setTile k v).elog = s.elog := rfl
@[simp] theorem State.setTile_cnt : (s.setTile k v).cnt = s.cnt := rfl
end

/-! #### `lands` -/

section
variable (s : State) (k : Nat) (v : Land)
@[simp] theorem State.modLand_eq (f : Land → Land) : s.modLand k f = s.setLand k (f (s.land k)) := rfl
@[simp] theorem State.setLand_lands : (s.setLand k v).lands = tput {} s.lands k v := rfl
theorem State.setLand_land (i : Nat) : (s.setLand k v).land i = if i = k then v else s.land i := tget_tput _ s.lands k i v
@[simp] theorem State.setLand_land_same : (s.setLand k v).land k = v := by simp [State.setLand_land]
@[simp] theorem State.setLand_pending : (s.setLand k v).pending = s.pending := rfl
@[simp] theorem State.setLand_fresh : (s.setLand k v).fresh = s.fresh := rfl
@[simp] theorem State.setLand_now : (s.setLand k v).now = s.now := rfl
@[simp] theorem State.setLand_nv : (s.setLand k v).nv = s.nv := rfl
@[simp] theorem State.setLand_pwr : (s.setLand k v).pwr = s.pwr := rfl
@[simp] theorem State.setLand_sensors : (s.setLand k v).sensors = s.sensors := rfl
@[simp] theorem State.setLand_parts : (s.setLand k v).parts = s.parts := rfl
@[simp] theorem State.setLand_ctxs : (s.setLand k v).ctxs = s.ctxs := rfl
@[simp] theorem State.setLand_exts : (s.setLand k v).exts = s.exts := rfl
@[simp] theorem State.setLand_shares : (s.setLand k v).shares = s.shares := rfl
@[simp] theorem State.setLand_gmap : (s.setLand k v).gmap = s.gmap := rfl
@[simp] theorem State.setLand_rmap : (s.setLand k v).rmap = s.rmap := rfl
@[simp] theorem State.setLand_prots : (s.setLand k v).prots = s.prots := rfl
@[simp] theorem State.setLand_combs : (s.setLand k v).combs = s.combs := rfl
@[simp] theorem State.setLand_group : (s.setLand k v).group = s.group := rfl
@[simp] theorem State.setLand_elder : (s.setLand k v).elder = s.elder := rfl
@[simp] theorem State.setLand_regions : (s.setLand k v).regions = s.regions := rfl
@[simp] theorem State.setLand_slices : (s.setLand k v).slices = s.slices := rfl
@[simp] theorem State.setLand_agents : (s.setLand k v).agents = s.agents := rfl
@[simp] theorem State.setLand_pred : (s.setLand k v).pred = s.pred := rfl
@[simp] theorem State.setLand_orphanScan : (s.setLand k v).orphanScan = s.orphanScan := rfl
@[simp] theorem State.setLand_dram : (s.setLand k v).dram = s.dram := rfl
@[simp] theorem State.setLand_lines : (s.setLand k v).lines = s.lines := rfl
@[simp] theorem State.setLand_splits : (s.setLand k v).splits = s.splits := rfl
@[simp] theorem State.setLand_nextSplit : (s.setLand k v).nextSplit = s.nextSplit := rfl
@[simp] theorem State.setLand_stks : (s.setLand k v).stks = s.stks := rfl
@[simp] theorem State.setLand_mem : (s.setLand k v).mem = s.mem := rfl
@[simp] theorem State.setLand_tiles : (s.setLand k v).tiles = s.tiles := rfl
@[simp] theorem State.setLand_walkers : (s.setLand k v).walkers = s.walkers := rfl
@[simp] theorem State.setLand_keeper : (s.setLand k v).keeper = s.keeper := rfl
@[simp] theorem State.setLand_repl : (s.setLand k v).repl = s.repl := rfl
@[simp] theorem State.setLand_sched : (s.setLand k v).sched = s.sched := rfl
@[simp] theorem State.setLand_ports : (s.setLand k v).ports = s.ports := rfl
@[simp] theorem State.setLand_dies : (s.setLand k v).dies = s.dies := rfl
@[simp] theorem State.setLand_node : (s.setLand k v).node = s.node := rfl
@[simp] theorem State.setLand_rx : (s.setLand k v).rx = s.rx := rfl
@[simp] theorem State.setLand_tx : (s.setLand k v).tx = s.tx := rfl
@[simp] theorem State.setLand_origs : (s.setLand k v).origs = s.origs := rfl
@[simp] theorem State.setLand_fwds : (s.setLand k v).fwds = s.fwds := rfl
@[simp] theorem State.setLand_nextRtag : (s.setLand k v).nextRtag = s.nextRtag := rfl
@[simp] theorem State.setLand_released : (s.setLand k v).released = s.released := rfl
@[simp] theorem State.setLand_limits : (s.setLand k v).limits = s.limits := rfl
@[simp] theorem State.setLand_limHeld : (s.setLand k v).limHeld = s.limHeld := rfl
@[simp] theorem State.setLand_admHeld : (s.setLand k v).admHeld = s.admHeld := rfl
@[simp] theorem State.setLand_qor : (s.setLand k v).qor = s.qor := rfl
@[simp] theorem State.setLand_mboxes : (s.setLand k v).mboxes = s.mboxes := rfl
@[simp] theorem State.setLand_cmds : (s.setLand k v).cmds = s.cmds := rfl
@[simp] theorem State.setLand_stew : (s.setLand k v).stew = s.stew := rfl
@[simp] theorem State.setLand_journal : (s.setLand k v).journal = s.journal := rfl
@[simp] theorem State.setLand_vectors : (s.setLand k v).vectors = s.vectors := rfl
@[simp] theorem State.setLand_rings : (s.setLand k v).rings = s.rings := rfl
@[simp] theorem State.setLand_keys : (s.setLand k v).keys = s.keys := rfl
@[simp] theorem State.setLand_derived : (s.setLand k v).derived = s.derived := rfl
@[simp] theorem State.setLand_elog : (s.setLand k v).elog = s.elog := rfl
@[simp] theorem State.setLand_cnt : (s.setLand k v).cnt = s.cnt := rfl
end

/-! #### `walkers` -/

section
variable (s : State) (k : Nat) (v : Walker)
@[simp] theorem State.modWalker_eq (f : Walker → Walker) : s.modWalker k f = s.setWalker k (f (s.walker k)) := rfl
@[simp] theorem State.setWalker_walkers : (s.setWalker k v).walkers = tput {} s.walkers k v := rfl
theorem State.setWalker_walker (i : Nat) : (s.setWalker k v).walker i = if i = k then v else s.walker i := tget_tput _ s.walkers k i v
@[simp] theorem State.setWalker_walker_same : (s.setWalker k v).walker k = v := by simp [State.setWalker_walker]
@[simp] theorem State.setWalker_pending : (s.setWalker k v).pending = s.pending := rfl
@[simp] theorem State.setWalker_fresh : (s.setWalker k v).fresh = s.fresh := rfl
@[simp] theorem State.setWalker_now : (s.setWalker k v).now = s.now := rfl
@[simp] theorem State.setWalker_nv : (s.setWalker k v).nv = s.nv := rfl
@[simp] theorem State.setWalker_pwr : (s.setWalker k v).pwr = s.pwr := rfl
@[simp] theorem State.setWalker_sensors : (s.setWalker k v).sensors = s.sensors := rfl
@[simp] theorem State.setWalker_parts : (s.setWalker k v).parts = s.parts := rfl
@[simp] theorem State.setWalker_ctxs : (s.setWalker k v).ctxs = s.ctxs := rfl
@[simp] theorem State.setWalker_exts : (s.setWalker k v).exts = s.exts := rfl
@[simp] theorem State.setWalker_shares : (s.setWalker k v).shares = s.shares := rfl
@[simp] theorem State.setWalker_gmap : (s.setWalker k v).gmap = s.gmap := rfl
@[simp] theorem State.setWalker_rmap : (s.setWalker k v).rmap = s.rmap := rfl
@[simp] theorem State.setWalker_prots : (s.setWalker k v).prots = s.prots := rfl
@[simp] theorem State.setWalker_combs : (s.setWalker k v).combs = s.combs := rfl
@[simp] theorem State.setWalker_group : (s.setWalker k v).group = s.group := rfl
@[simp] theorem State.setWalker_elder : (s.setWalker k v).elder = s.elder := rfl
@[simp] theorem State.setWalker_regions : (s.setWalker k v).regions = s.regions := rfl
@[simp] theorem State.setWalker_slices : (s.setWalker k v).slices = s.slices := rfl
@[simp] theorem State.setWalker_agents : (s.setWalker k v).agents = s.agents := rfl
@[simp] theorem State.setWalker_pred : (s.setWalker k v).pred = s.pred := rfl
@[simp] theorem State.setWalker_orphanScan : (s.setWalker k v).orphanScan = s.orphanScan := rfl
@[simp] theorem State.setWalker_dram : (s.setWalker k v).dram = s.dram := rfl
@[simp] theorem State.setWalker_lines : (s.setWalker k v).lines = s.lines := rfl
@[simp] theorem State.setWalker_splits : (s.setWalker k v).splits = s.splits := rfl
@[simp] theorem State.setWalker_nextSplit : (s.setWalker k v).nextSplit = s.nextSplit := rfl
@[simp] theorem State.setWalker_stks : (s.setWalker k v).stks = s.stks := rfl
@[simp] theorem State.setWalker_mem : (s.setWalker k v).mem = s.mem := rfl
@[simp] theorem State.setWalker_tiles : (s.setWalker k v).tiles = s.tiles := rfl
@[simp] theorem State.setWalker_lands : (s.setWalker k v).lands = s.lands := rfl
@[simp] theorem State.setWalker_keeper : (s.setWalker k v).keeper = s.keeper := rfl
@[simp] theorem State.setWalker_repl : (s.setWalker k v).repl = s.repl := rfl
@[simp] theorem State.setWalker_sched : (s.setWalker k v).sched = s.sched := rfl
@[simp] theorem State.setWalker_ports : (s.setWalker k v).ports = s.ports := rfl
@[simp] theorem State.setWalker_dies : (s.setWalker k v).dies = s.dies := rfl
@[simp] theorem State.setWalker_node : (s.setWalker k v).node = s.node := rfl
@[simp] theorem State.setWalker_rx : (s.setWalker k v).rx = s.rx := rfl
@[simp] theorem State.setWalker_tx : (s.setWalker k v).tx = s.tx := rfl
@[simp] theorem State.setWalker_origs : (s.setWalker k v).origs = s.origs := rfl
@[simp] theorem State.setWalker_fwds : (s.setWalker k v).fwds = s.fwds := rfl
@[simp] theorem State.setWalker_nextRtag : (s.setWalker k v).nextRtag = s.nextRtag := rfl
@[simp] theorem State.setWalker_released : (s.setWalker k v).released = s.released := rfl
@[simp] theorem State.setWalker_limits : (s.setWalker k v).limits = s.limits := rfl
@[simp] theorem State.setWalker_limHeld : (s.setWalker k v).limHeld = s.limHeld := rfl
@[simp] theorem State.setWalker_admHeld : (s.setWalker k v).admHeld = s.admHeld := rfl
@[simp] theorem State.setWalker_qor : (s.setWalker k v).qor = s.qor := rfl
@[simp] theorem State.setWalker_mboxes : (s.setWalker k v).mboxes = s.mboxes := rfl
@[simp] theorem State.setWalker_cmds : (s.setWalker k v).cmds = s.cmds := rfl
@[simp] theorem State.setWalker_stew : (s.setWalker k v).stew = s.stew := rfl
@[simp] theorem State.setWalker_journal : (s.setWalker k v).journal = s.journal := rfl
@[simp] theorem State.setWalker_vectors : (s.setWalker k v).vectors = s.vectors := rfl
@[simp] theorem State.setWalker_rings : (s.setWalker k v).rings = s.rings := rfl
@[simp] theorem State.setWalker_keys : (s.setWalker k v).keys = s.keys := rfl
@[simp] theorem State.setWalker_derived : (s.setWalker k v).derived = s.derived := rfl
@[simp] theorem State.setWalker_elog : (s.setWalker k v).elog = s.elog := rfl
@[simp] theorem State.setWalker_cnt : (s.setWalker k v).cnt = s.cnt := rfl
end

/-! #### `ports` -/

section
variable (s : State) (k : Nat) (v : Port)
@[simp] theorem State.modPort_eq (f : Port → Port) : s.modPort k f = s.setPort k (f (s.port k)) := rfl
@[simp] theorem State.setPort_ports : (s.setPort k v).ports = tput {} s.ports k v := rfl
theorem State.setPort_port (i : Nat) : (s.setPort k v).port i = if i = k then v else s.port i := tget_tput _ s.ports k i v
@[simp] theorem State.setPort_port_same : (s.setPort k v).port k = v := by simp [State.setPort_port]
@[simp] theorem State.setPort_pending : (s.setPort k v).pending = s.pending := rfl
@[simp] theorem State.setPort_fresh : (s.setPort k v).fresh = s.fresh := rfl
@[simp] theorem State.setPort_now : (s.setPort k v).now = s.now := rfl
@[simp] theorem State.setPort_nv : (s.setPort k v).nv = s.nv := rfl
@[simp] theorem State.setPort_pwr : (s.setPort k v).pwr = s.pwr := rfl
@[simp] theorem State.setPort_sensors : (s.setPort k v).sensors = s.sensors := rfl
@[simp] theorem State.setPort_parts : (s.setPort k v).parts = s.parts := rfl
@[simp] theorem State.setPort_ctxs : (s.setPort k v).ctxs = s.ctxs := rfl
@[simp] theorem State.setPort_exts : (s.setPort k v).exts = s.exts := rfl
@[simp] theorem State.setPort_shares : (s.setPort k v).shares = s.shares := rfl
@[simp] theorem State.setPort_gmap : (s.setPort k v).gmap = s.gmap := rfl
@[simp] theorem State.setPort_rmap : (s.setPort k v).rmap = s.rmap := rfl
@[simp] theorem State.setPort_prots : (s.setPort k v).prots = s.prots := rfl
@[simp] theorem State.setPort_combs : (s.setPort k v).combs = s.combs := rfl
@[simp] theorem State.setPort_group : (s.setPort k v).group = s.group := rfl
@[simp] theorem State.setPort_elder : (s.setPort k v).elder = s.elder := rfl
@[simp] theorem State.setPort_regions : (s.setPort k v).regions = s.regions := rfl
@[simp] theorem State.setPort_slices : (s.setPort k v).slices = s.slices := rfl
@[simp] theorem State.setPort_agents : (s.setPort k v).agents = s.agents := rfl
@[simp] theorem State.setPort_pred : (s.setPort k v).pred = s.pred := rfl
@[simp] theorem State.setPort_orphanScan : (s.setPort k v).orphanScan = s.orphanScan := rfl
@[simp] theorem State.setPort_dram : (s.setPort k v).dram = s.dram := rfl
@[simp] theorem State.setPort_lines : (s.setPort k v).lines = s.lines := rfl
@[simp] theorem State.setPort_splits : (s.setPort k v).splits = s.splits := rfl
@[simp] theorem State.setPort_nextSplit : (s.setPort k v).nextSplit = s.nextSplit := rfl
@[simp] theorem State.setPort_stks : (s.setPort k v).stks = s.stks := rfl
@[simp] theorem State.setPort_mem : (s.setPort k v).mem = s.mem := rfl
@[simp] theorem State.setPort_tiles : (s.setPort k v).tiles = s.tiles := rfl
@[simp] theorem State.setPort_lands : (s.setPort k v).lands = s.lands := rfl
@[simp] theorem State.setPort_walkers : (s.setPort k v).walkers = s.walkers := rfl
@[simp] theorem State.setPort_keeper : (s.setPort k v).keeper = s.keeper := rfl
@[simp] theorem State.setPort_repl : (s.setPort k v).repl = s.repl := rfl
@[simp] theorem State.setPort_sched : (s.setPort k v).sched = s.sched := rfl
@[simp] theorem State.setPort_dies : (s.setPort k v).dies = s.dies := rfl
@[simp] theorem State.setPort_node : (s.setPort k v).node = s.node := rfl
@[simp] theorem State.setPort_rx : (s.setPort k v).rx = s.rx := rfl
@[simp] theorem State.setPort_tx : (s.setPort k v).tx = s.tx := rfl
@[simp] theorem State.setPort_origs : (s.setPort k v).origs = s.origs := rfl
@[simp] theorem State.setPort_fwds : (s.setPort k v).fwds = s.fwds := rfl
@[simp] theorem State.setPort_nextRtag : (s.setPort k v).nextRtag = s.nextRtag := rfl
@[simp] theorem State.setPort_released : (s.setPort k v).released = s.released := rfl
@[simp] theorem State.setPort_limits : (s.setPort k v).limits = s.limits := rfl
@[simp] theorem State.setPort_limHeld : (s.setPort k v).limHeld = s.limHeld := rfl
@[simp] theorem State.setPort_admHeld : (s.setPort k v).admHeld = s.admHeld := rfl
@[simp] theorem State.setPort_qor : (s.setPort k v).qor = s.qor := rfl
@[simp] theorem State.setPort_mboxes : (s.setPort k v).mboxes = s.mboxes := rfl
@[simp] theorem State.setPort_cmds : (s.setPort k v).cmds = s.cmds := rfl
@[simp] theorem State.setPort_stew : (s.setPort k v).stew = s.stew := rfl
@[simp] theorem State.setPort_journal : (s.setPort k v).journal = s.journal := rfl
@[simp] theorem State.setPort_vectors : (s.setPort k v).vectors = s.vectors := rfl
@[simp] theorem State.setPort_rings : (s.setPort k v).rings = s.rings := rfl
@[simp] theorem State.setPort_keys : (s.setPort k v).keys = s.keys := rfl
@[simp] theorem State.setPort_derived : (s.setPort k v).derived = s.derived := rfl
@[simp] theorem State.setPort_elog : (s.setPort k v).elog = s.elog := rfl
@[simp] theorem State.setPort_cnt : (s.setPort k v).cnt = s.cnt := rfl
end

/-! #### `dies` -/

section
variable (s : State) (k : Nat) (v : Die)
@[simp] theorem State.modDie_eq (f : Die → Die) : s.modDie k f = s.setDie k (f (s.die k)) := rfl
@[simp] theorem State.setDie_dies : (s.setDie k v).dies = tput {} s.dies k v := rfl
theorem State.setDie_die (i : Nat) : (s.setDie k v).die i = if i = k then v else s.die i := tget_tput _ s.dies k i v
@[simp] theorem State.setDie_die_same : (s.setDie k v).die k = v := by simp [State.setDie_die]
@[simp] theorem State.setDie_pending : (s.setDie k v).pending = s.pending := rfl
@[simp] theorem State.setDie_fresh : (s.setDie k v).fresh = s.fresh := rfl
@[simp] theorem State.setDie_now : (s.setDie k v).now = s.now := rfl
@[simp] theorem State.setDie_nv : (s.setDie k v).nv = s.nv := rfl
@[simp] theorem State.setDie_pwr : (s.setDie k v).pwr = s.pwr := rfl
@[simp] theorem State.setDie_sensors : (s.setDie k v).sensors = s.sensors := rfl
@[simp] theorem State.setDie_parts : (s.setDie k v).parts = s.parts := rfl
@[simp] theorem State.setDie_ctxs : (s.setDie k v).ctxs = s.ctxs := rfl
@[simp] theorem State.setDie_exts : (s.setDie k v).exts = s.exts := rfl
@[simp] theorem State.setDie_shares : (s.setDie k v).shares = s.shares := rfl
@[simp] theorem State.setDie_gmap : (s.setDie k v).gmap = s.gmap := rfl
@[simp] theorem State.setDie_rmap : (s.setDie k v).rmap = s.rmap := rfl
@[simp] theorem State.setDie_prots : (s.setDie k v).prots = s.prots := rfl
@[simp] theorem State.setDie_combs : (s.setDie k v).combs = s.combs := rfl
@[simp] theorem State.setDie_group : (s.setDie k v).group = s.group := rfl
@[simp] theorem State.setDie_elder : (s.setDie k v).elder = s.elder := rfl
@[simp] theorem State.setDie_regions : (s.setDie k v).regions = s.regions := rfl
@[simp] theorem State.setDie_slices : (s.setDie k v).slices = s.slices := rfl
@[simp] theorem State.setDie_agents : (s.setDie k v).agents = s.agents := rfl
@[simp] theorem State.setDie_pred : (s.setDie k v).pred = s.pred := rfl
@[simp] theorem State.setDie_orphanScan : (s.setDie k v).orphanScan = s.orphanScan := rfl
@[simp] theorem State.setDie_dram : (s.setDie k v).dram = s.dram := rfl
@[simp] theorem State.setDie_lines : (s.setDie k v).lines = s.lines := rfl
@[simp] theorem State.setDie_splits : (s.setDie k v).splits = s.splits := rfl
@[simp] theorem State.setDie_nextSplit : (s.setDie k v).nextSplit = s.nextSplit := rfl
@[simp] theorem State.setDie_stks : (s.setDie k v).stks = s.stks := rfl
@[simp] theorem State.setDie_mem : (s.setDie k v).mem = s.mem := rfl
@[simp] theorem State.setDie_tiles : (s.setDie k v).tiles = s.tiles := rfl
@[simp] theorem State.setDie_lands : (s.setDie k v).lands = s.lands := rfl
@[simp] theorem State.setDie_walkers : (s.setDie k v).walkers = s.walkers := rfl
@[simp] theorem State.setDie_keeper : (s.setDie k v).keeper = s.keeper := rfl
@[simp] theorem State.setDie_repl : (s.setDie k v).repl = s.repl := rfl
@[simp] theorem State.setDie_sched : (s.setDie k v).sched = s.sched := rfl
@[simp] theorem State.setDie_ports : (s.setDie k v).ports = s.ports := rfl
@[simp] theorem State.setDie_node : (s.setDie k v).node = s.node := rfl
@[simp] theorem State.setDie_rx : (s.setDie k v).rx = s.rx := rfl
@[simp] theorem State.setDie_tx : (s.setDie k v).tx = s.tx := rfl
@[simp] theorem State.setDie_origs : (s.setDie k v).origs = s.origs := rfl
@[simp] theorem State.setDie_fwds : (s.setDie k v).fwds = s.fwds := rfl
@[simp] theorem State.setDie_nextRtag : (s.setDie k v).nextRtag = s.nextRtag := rfl
@[simp] theorem State.setDie_released : (s.setDie k v).released = s.released := rfl
@[simp] theorem State.setDie_limits : (s.setDie k v).limits = s.limits := rfl
@[simp] theorem State.setDie_limHeld : (s.setDie k v).limHeld = s.limHeld := rfl
@[simp] theorem State.setDie_admHeld : (s.setDie k v).admHeld = s.admHeld := rfl
@[simp] theorem State.setDie_qor : (s.setDie k v).qor = s.qor := rfl
@[simp] theorem State.setDie_mboxes : (s.setDie k v).mboxes = s.mboxes := rfl
@[simp] theorem State.setDie_cmds : (s.setDie k v).cmds = s.cmds := rfl
@[simp] theorem State.setDie_stew : (s.setDie k v).stew = s.stew := rfl
@[simp] theorem State.setDie_journal : (s.setDie k v).journal = s.journal := rfl
@[simp] theorem State.setDie_vectors : (s.setDie k v).vectors = s.vectors := rfl
@[simp] theorem State.setDie_rings : (s.setDie k v).rings = s.rings := rfl
@[simp] theorem State.setDie_keys : (s.setDie k v).keys = s.keys := rfl
@[simp] theorem State.setDie_derived : (s.setDie k v).derived = s.derived := rfl
@[simp] theorem State.setDie_elog : (s.setDie k v).elog = s.elog := rfl
@[simp] theorem State.setDie_cnt : (s.setDie k v).cnt = s.cnt := rfl
end

/-! #### `rx` -/

section
variable (s : State) (k : Nat) (v : PairRx)
@[simp] theorem State.modPairRx_eq (f : PairRx → PairRx) : s.modPairRx k f = s.setPairRx k (f (s.pairRx k)) := rfl
@[simp] theorem State.setPairRx_rx : (s.setPairRx k v).rx = tput {} s.rx k v := rfl
theorem State.setPairRx_pairRx (i : Nat) : (s.setPairRx k v).pairRx i = if i = k then v else s.pairRx i := tget_tput _ s.rx k i v
@[simp] theorem State.setPairRx_pairRx_same : (s.setPairRx k v).pairRx k = v := by simp [State.setPairRx_pairRx]
@[simp] theorem State.setPairRx_pending : (s.setPairRx k v).pending = s.pending := rfl
@[simp] theorem State.setPairRx_fresh : (s.setPairRx k v).fresh = s.fresh := rfl
@[simp] theorem State.setPairRx_now : (s.setPairRx k v).now = s.now := rfl
@[simp] theorem State.setPairRx_nv : (s.setPairRx k v).nv = s.nv := rfl
@[simp] theorem State.setPairRx_pwr : (s.setPairRx k v).pwr = s.pwr := rfl
@[simp] theorem State.setPairRx_sensors : (s.setPairRx k v).sensors = s.sensors := rfl
@[simp] theorem State.setPairRx_parts : (s.setPairRx k v).parts = s.parts := rfl
@[simp] theorem State.setPairRx_ctxs : (s.setPairRx k v).ctxs = s.ctxs := rfl
@[simp] theorem State.setPairRx_exts : (s.setPairRx k v).exts = s.exts := rfl
@[simp] theorem State.setPairRx_shares : (s.setPairRx k v).shares = s.shares := rfl
@[simp] theorem State.setPairRx_gmap : (s.setPairRx k v).gmap = s.gmap := rfl
@[simp] theorem State.setPairRx_rmap : (s.setPairRx k v).rmap = s.rmap := rfl
@[simp] theorem State.setPairRx_prots : (s.setPairRx k v).prots = s.prots := rfl
@[simp] theorem State.setPairRx_combs : (s.setPairRx k v).combs = s.combs := rfl
@[simp] theorem State.setPairRx_group : (s.setPairRx k v).group = s.group := rfl
@[simp] theorem State.setPairRx_elder : (s.setPairRx k v).elder = s.elder := rfl
@[simp] theorem State.setPairRx_regions : (s.setPairRx k v).regions = s.regions := rfl
@[simp] theorem State.setPairRx_slices : (s.setPairRx k v).slices = s.slices := rfl
@[simp] theorem State.setPairRx_agents : (s.setPairRx k v).agents = s.agents := rfl
@[simp] theorem State.setPairRx_pred : (s.setPairRx k v).pred = s.pred := rfl
@[simp] theorem State.setPairRx_orphanScan : (s.setPairRx k v).orphanScan = s.orphanScan := rfl
@[simp] theorem State.setPairRx_dram : (s.setPairRx k v).dram = s.dram := rfl
@[simp] theorem State.setPairRx_lines : (s.setPairRx k v).lines = s.lines := rfl
@[simp] theorem State.setPairRx_splits : (s.setPairRx k v).splits = s.splits := rfl
@[simp] theorem State.setPairRx_nextSplit : (s.setPairRx k v).nextSplit = s.nextSplit := rfl
@[simp] theorem State.setPairRx_stks : (s.setPairRx k v).stks = s.stks := rfl
@[simp] theorem State.setPairRx_mem : (s.setPairRx k v).mem = s.mem := rfl
@[simp] theorem State.setPairRx_tiles : (s.setPairRx k v).tiles = s.tiles := rfl
@[simp] theorem State.setPairRx_lands : (s.setPairRx k v).lands = s.lands := rfl
@[simp] theorem State.setPairRx_walkers : (s.setPairRx k v).walkers = s.walkers := rfl
@[simp] theorem State.setPairRx_keeper : (s.setPairRx k v).keeper = s.keeper := rfl
@[simp] theorem State.setPairRx_repl : (s.setPairRx k v).repl = s.repl := rfl
@[simp] theorem State.setPairRx_sched : (s.setPairRx k v).sched = s.sched := rfl
@[simp] theorem State.setPairRx_ports : (s.setPairRx k v).ports = s.ports := rfl
@[simp] theorem State.setPairRx_dies : (s.setPairRx k v).dies = s.dies := rfl
@[simp] theorem State.setPairRx_node : (s.setPairRx k v).node = s.node := rfl
@[simp] theorem State.setPairRx_tx : (s.setPairRx k v).tx = s.tx := rfl
@[simp] theorem State.setPairRx_origs : (s.setPairRx k v).origs = s.origs := rfl
@[simp] theorem State.setPairRx_fwds : (s.setPairRx k v).fwds = s.fwds := rfl
@[simp] theorem State.setPairRx_nextRtag : (s.setPairRx k v).nextRtag = s.nextRtag := rfl
@[simp] theorem State.setPairRx_released : (s.setPairRx k v).released = s.released := rfl
@[simp] theorem State.setPairRx_limits : (s.setPairRx k v).limits = s.limits := rfl
@[simp] theorem State.setPairRx_limHeld : (s.setPairRx k v).limHeld = s.limHeld := rfl
@[simp] theorem State.setPairRx_admHeld : (s.setPairRx k v).admHeld = s.admHeld := rfl
@[simp] theorem State.setPairRx_qor : (s.setPairRx k v).qor = s.qor := rfl
@[simp] theorem State.setPairRx_mboxes : (s.setPairRx k v).mboxes = s.mboxes := rfl
@[simp] theorem State.setPairRx_cmds : (s.setPairRx k v).cmds = s.cmds := rfl
@[simp] theorem State.setPairRx_stew : (s.setPairRx k v).stew = s.stew := rfl
@[simp] theorem State.setPairRx_journal : (s.setPairRx k v).journal = s.journal := rfl
@[simp] theorem State.setPairRx_vectors : (s.setPairRx k v).vectors = s.vectors := rfl
@[simp] theorem State.setPairRx_rings : (s.setPairRx k v).rings = s.rings := rfl
@[simp] theorem State.setPairRx_keys : (s.setPairRx k v).keys = s.keys := rfl
@[simp] theorem State.setPairRx_derived : (s.setPairRx k v).derived = s.derived := rfl
@[simp] theorem State.setPairRx_elog : (s.setPairRx k v).elog = s.elog := rfl
@[simp] theorem State.setPairRx_cnt : (s.setPairRx k v).cnt = s.cnt := rfl
end

/-! #### `tx` -/

section
variable (s : State) (k : Nat) (v : PairTx)
@[simp] theorem State.modPairTx_eq (f : PairTx → PairTx) : s.modPairTx k f = s.setPairTx k (f (s.pairTx k)) := rfl
@[simp] theorem State.setPairTx_tx : (s.setPairTx k v).tx = tput {} s.tx k v := rfl
theorem State.setPairTx_pairTx (i : Nat) : (s.setPairTx k v).pairTx i = if i = k then v else s.pairTx i := tget_tput _ s.tx k i v
@[simp] theorem State.setPairTx_pairTx_same : (s.setPairTx k v).pairTx k = v := by simp [State.setPairTx_pairTx]
@[simp] theorem State.setPairTx_pending : (s.setPairTx k v).pending = s.pending := rfl
@[simp] theorem State.setPairTx_fresh : (s.setPairTx k v).fresh = s.fresh := rfl
@[simp] theorem State.setPairTx_now : (s.setPairTx k v).now = s.now := rfl
@[simp] theorem State.setPairTx_nv : (s.setPairTx k v).nv = s.nv := rfl
@[simp] theorem State.setPairTx_pwr : (s.setPairTx k v).pwr = s.pwr := rfl
@[simp] theorem State.setPairTx_sensors : (s.setPairTx k v).sensors = s.sensors := rfl
@[simp] theorem State.setPairTx_parts : (s.setPairTx k v).parts = s.parts := rfl
@[simp] theorem State.setPairTx_ctxs : (s.setPairTx k v).ctxs = s.ctxs := rfl
@[simp] theorem State.setPairTx_exts : (s.setPairTx k v).exts = s.exts := rfl
@[simp] theorem State.setPairTx_shares : (s.setPairTx k v).shares = s.shares := rfl
@[simp] theorem State.setPairTx_gmap : (s.setPairTx k v).gmap = s.gmap := rfl
@[simp] theorem State.setPairTx_rmap : (s.setPairTx k v).rmap = s.rmap := rfl
@[simp] theorem State.setPairTx_prots : (s.setPairTx k v).prots = s.prots := rfl
@[simp] theorem State.setPairTx_combs : (s.setPairTx k v).combs = s.combs := rfl
@[simp] theorem State.setPairTx_group : (s.setPairTx k v).group = s.group := rfl
@[simp] theorem State.setPairTx_elder : (s.setPairTx k v).elder = s.elder := rfl
@[simp] theorem State.setPairTx_regions : (s.setPairTx k v).regions = s.regions := rfl
@[simp] theorem State.setPairTx_slices : (s.setPairTx k v).slices = s.slices := rfl
@[simp] theorem State.setPairTx_agents : (s.setPairTx k v).agents = s.agents := rfl
@[simp] theorem State.setPairTx_pred : (s.setPairTx k v).pred = s.pred := rfl
@[simp] theorem State.setPairTx_orphanScan : (s.setPairTx k v).orphanScan = s.orphanScan := rfl
@[simp] theorem State.setPairTx_dram : (s.setPairTx k v).dram = s.dram := rfl
@[simp] theorem State.setPairTx_lines : (s.setPairTx k v).lines = s.lines := rfl
@[simp] theorem State.setPairTx_splits : (s.setPairTx k v).splits = s.splits := rfl
@[simp] theorem State.setPairTx_nextSplit : (s.setPairTx k v).nextSplit = s.nextSplit := rfl
@[simp] theorem State.setPairTx_stks : (s.setPairTx k v).stks = s.stks := rfl
@[simp] theorem State.setPairTx_mem : (s.setPairTx k v).mem = s.mem := rfl
@[simp] theorem State.setPairTx_tiles : (s.setPairTx k v).tiles = s.tiles := rfl
@[simp] theorem State.setPairTx_lands : (s.setPairTx k v).lands = s.lands := rfl
@[simp] theorem State.setPairTx_walkers : (s.setPairTx k v).walkers = s.walkers := rfl
@[simp] theorem State.setPairTx_keeper : (s.setPairTx k v).keeper = s.keeper := rfl
@[simp] theorem State.setPairTx_repl : (s.setPairTx k v).repl = s.repl := rfl
@[simp] theorem State.setPairTx_sched : (s.setPairTx k v).sched = s.sched := rfl
@[simp] theorem State.setPairTx_ports : (s.setPairTx k v).ports = s.ports := rfl
@[simp] theorem State.setPairTx_dies : (s.setPairTx k v).dies = s.dies := rfl
@[simp] theorem State.setPairTx_node : (s.setPairTx k v).node = s.node := rfl
@[simp] theorem State.setPairTx_rx : (s.setPairTx k v).rx = s.rx := rfl
@[simp] theorem State.setPairTx_origs : (s.setPairTx k v).origs = s.origs := rfl
@[simp] theorem State.setPairTx_fwds : (s.setPairTx k v).fwds = s.fwds := rfl
@[simp] theorem State.setPairTx_nextRtag : (s.setPairTx k v).nextRtag = s.nextRtag := rfl
@[simp] theorem State.setPairTx_released : (s.setPairTx k v).released = s.released := rfl
@[simp] theorem State.setPairTx_limits : (s.setPairTx k v).limits = s.limits := rfl
@[simp] theorem State.setPairTx_limHeld : (s.setPairTx k v).limHeld = s.limHeld := rfl
@[simp] theorem State.setPairTx_admHeld : (s.setPairTx k v).admHeld = s.admHeld := rfl
@[simp] theorem State.setPairTx_qor : (s.setPairTx k v).qor = s.qor := rfl
@[simp] theorem State.setPairTx_mboxes : (s.setPairTx k v).mboxes = s.mboxes := rfl
@[simp] theorem State.setPairTx_cmds : (s.setPairTx k v).cmds = s.cmds := rfl
@[simp] theorem State.setPairTx_stew : (s.setPairTx k v).stew = s.stew := rfl
@[simp] theorem State.setPairTx_journal : (s.setPairTx k v).journal = s.journal := rfl
@[simp] theorem State.setPairTx_vectors : (s.setPairTx k v).vectors = s.vectors := rfl
@[simp] theorem State.setPairTx_rings : (s.setPairTx k v).rings = s.rings := rfl
@[simp] theorem State.setPairTx_keys : (s.setPairTx k v).keys = s.keys := rfl
@[simp] theorem State.setPairTx_derived : (s.setPairTx k v).derived = s.derived := rfl
@[simp] theorem State.setPairTx_elog : (s.setPairTx k v).elog = s.elog := rfl
@[simp] theorem State.setPairTx_cnt : (s.setPairTx k v).cnt = s.cnt := rfl
end

/-! #### `limits` -/

section
variable (s : State) (k : Nat) (v : EidLimit)
@[simp] theorem State.modLimit_eq (f : EidLimit → EidLimit) : s.modLimit k f = s.setLimit k (f (s.limit k)) := rfl
@[simp] theorem State.setLimit_limits : (s.setLimit k v).limits = tput {} s.limits k v := rfl
theorem State.setLimit_limit (i : Nat) : (s.setLimit k v).limit i = if i = k then v else s.limit i := tget_tput _ s.limits k i v
@[simp] theorem State.setLimit_limit_same : (s.setLimit k v).limit k = v := by simp [State.setLimit_limit]
@[simp] theorem State.setLimit_pending : (s.setLimit k v).pending = s.pending := rfl
@[simp] theorem State.setLimit_fresh : (s.setLimit k v).fresh = s.fresh := rfl
@[simp] theorem State.setLimit_now : (s.setLimit k v).now = s.now := rfl
@[simp] theorem State.setLimit_nv : (s.setLimit k v).nv = s.nv := rfl
@[simp] theorem State.setLimit_pwr : (s.setLimit k v).pwr = s.pwr := rfl
@[simp] theorem State.setLimit_sensors : (s.setLimit k v).sensors = s.sensors := rfl
@[simp] theorem State.setLimit_parts : (s.setLimit k v).parts = s.parts := rfl
@[simp] theorem State.setLimit_ctxs : (s.setLimit k v).ctxs = s.ctxs := rfl
@[simp] theorem State.setLimit_exts : (s.setLimit k v).exts = s.exts := rfl
@[simp] theorem State.setLimit_shares : (s.setLimit k v).shares = s.shares := rfl
@[simp] theorem State.setLimit_gmap : (s.setLimit k v).gmap = s.gmap := rfl
@[simp] theorem State.setLimit_rmap : (s.setLimit k v).rmap = s.rmap := rfl
@[simp] theorem State.setLimit_prots : (s.setLimit k v).prots = s.prots := rfl
@[simp] theorem State.setLimit_combs : (s.setLimit k v).combs = s.combs := rfl
@[simp] theorem State.setLimit_group : (s.setLimit k v).group = s.group := rfl
@[simp] theorem State.setLimit_elder : (s.setLimit k v).elder = s.elder := rfl
@[simp] theorem State.setLimit_regions : (s.setLimit k v).regions = s.regions := rfl
@[simp] theorem State.setLimit_slices : (s.setLimit k v).slices = s.slices := rfl
@[simp] theorem State.setLimit_agents : (s.setLimit k v).agents = s.agents := rfl
@[simp] theorem State.setLimit_pred : (s.setLimit k v).pred = s.pred := rfl
@[simp] theorem State.setLimit_orphanScan : (s.setLimit k v).orphanScan = s.orphanScan := rfl
@[simp] theorem State.setLimit_dram : (s.setLimit k v).dram = s.dram := rfl
@[simp] theorem State.setLimit_lines : (s.setLimit k v).lines = s.lines := rfl
@[simp] theorem State.setLimit_splits : (s.setLimit k v).splits = s.splits := rfl
@[simp] theorem State.setLimit_nextSplit : (s.setLimit k v).nextSplit = s.nextSplit := rfl
@[simp] theorem State.setLimit_stks : (s.setLimit k v).stks = s.stks := rfl
@[simp] theorem State.setLimit_mem : (s.setLimit k v).mem = s.mem := rfl
@[simp] theorem State.setLimit_tiles : (s.setLimit k v).tiles = s.tiles := rfl
@[simp] theorem State.setLimit_lands : (s.setLimit k v).lands = s.lands := rfl
@[simp] theorem State.setLimit_walkers : (s.setLimit k v).walkers = s.walkers := rfl
@[simp] theorem State.setLimit_keeper : (s.setLimit k v).keeper = s.keeper := rfl
@[simp] theorem State.setLimit_repl : (s.setLimit k v).repl = s.repl := rfl
@[simp] theorem State.setLimit_sched : (s.setLimit k v).sched = s.sched := rfl
@[simp] theorem State.setLimit_ports : (s.setLimit k v).ports = s.ports := rfl
@[simp] theorem State.setLimit_dies : (s.setLimit k v).dies = s.dies := rfl
@[simp] theorem State.setLimit_node : (s.setLimit k v).node = s.node := rfl
@[simp] theorem State.setLimit_rx : (s.setLimit k v).rx = s.rx := rfl
@[simp] theorem State.setLimit_tx : (s.setLimit k v).tx = s.tx := rfl
@[simp] theorem State.setLimit_origs : (s.setLimit k v).origs = s.origs := rfl
@[simp] theorem State.setLimit_fwds : (s.setLimit k v).fwds = s.fwds := rfl
@[simp] theorem State.setLimit_nextRtag : (s.setLimit k v).nextRtag = s.nextRtag := rfl
@[simp] theorem State.setLimit_released : (s.setLimit k v).released = s.released := rfl
@[simp] theorem State.setLimit_limHeld : (s.setLimit k v).limHeld = s.limHeld := rfl
@[simp] theorem State.setLimit_admHeld : (s.setLimit k v).admHeld = s.admHeld := rfl
@[simp] theorem State.setLimit_qor : (s.setLimit k v).qor = s.qor := rfl
@[simp] theorem State.setLimit_mboxes : (s.setLimit k v).mboxes = s.mboxes := rfl
@[simp] theorem State.setLimit_cmds : (s.setLimit k v).cmds = s.cmds := rfl
@[simp] theorem State.setLimit_stew : (s.setLimit k v).stew = s.stew := rfl
@[simp] theorem State.setLimit_journal : (s.setLimit k v).journal = s.journal := rfl
@[simp] theorem State.setLimit_vectors : (s.setLimit k v).vectors = s.vectors := rfl
@[simp] theorem State.setLimit_rings : (s.setLimit k v).rings = s.rings := rfl
@[simp] theorem State.setLimit_keys : (s.setLimit k v).keys = s.keys := rfl
@[simp] theorem State.setLimit_derived : (s.setLimit k v).derived = s.derived := rfl
@[simp] theorem State.setLimit_elog : (s.setLimit k v).elog = s.elog := rfl
@[simp] theorem State.setLimit_cnt : (s.setLimit k v).cnt = s.cnt := rfl
end

/-! #### `mboxes` -/

section
variable (s : State) (k : Nat) (v : Mbox)
@[simp] theorem State.modMbox_eq (f : Mbox → Mbox) : s.modMbox k f = s.setMbox k (f (s.mbox k)) := rfl
@[simp] theorem State.setMbox_mboxes : (s.setMbox k v).mboxes = tput {} s.mboxes k v := rfl
theorem State.setMbox_mbox (i : Nat) : (s.setMbox k v).mbox i = if i = k then v else s.mbox i := tget_tput _ s.mboxes k i v
@[simp] theorem State.setMbox_mbox_same : (s.setMbox k v).mbox k = v := by simp [State.setMbox_mbox]
@[simp] theorem State.setMbox_pending : (s.setMbox k v).pending = s.pending := rfl
@[simp] theorem State.setMbox_fresh : (s.setMbox k v).fresh = s.fresh := rfl
@[simp] theorem State.setMbox_now : (s.setMbox k v).now = s.now := rfl
@[simp] theorem State.setMbox_nv : (s.setMbox k v).nv = s.nv := rfl
@[simp] theorem State.setMbox_pwr : (s.setMbox k v).pwr = s.pwr := rfl
@[simp] theorem State.setMbox_sensors : (s.setMbox k v).sensors = s.sensors := rfl
@[simp] theorem State.setMbox_parts : (s.setMbox k v).parts = s.parts := rfl
@[simp] theorem State.setMbox_ctxs : (s.setMbox k v).ctxs = s.ctxs := rfl
@[simp] theorem State.setMbox_exts : (s.setMbox k v).exts = s.exts := rfl
@[simp] theorem State.setMbox_shares : (s.setMbox k v).shares = s.shares := rfl
@[simp] theorem State.setMbox_gmap : (s.setMbox k v).gmap = s.gmap := rfl
@[simp] theorem State.setMbox_rmap : (s.setMbox k v).rmap = s.rmap := rfl
@[simp] theorem State.setMbox_prots : (s.setMbox k v).prots = s.prots := rfl
@[simp] theorem State.setMbox_combs : (s.setMbox k v).combs = s.combs := rfl
@[simp] theorem State.setMbox_group : (s.setMbox k v).group = s.group := rfl
@[simp] theorem State.setMbox_elder : (s.setMbox k v).elder = s.elder := rfl
@[simp] theorem State.setMbox_regions : (s.setMbox k v).regions = s.regions := rfl
@[simp] theorem State.setMbox_slices : (s.setMbox k v).slices = s.slices := rfl
@[simp] theorem State.setMbox_agents : (s.setMbox k v).agents = s.agents := rfl
@[simp] theorem State.setMbox_pred : (s.setMbox k v).pred = s.pred := rfl
@[simp] theorem State.setMbox_orphanScan : (s.setMbox k v).orphanScan = s.orphanScan := rfl
@[simp] theorem State.setMbox_dram : (s.setMbox k v).dram = s.dram := rfl
@[simp] theorem State.setMbox_lines : (s.setMbox k v).lines = s.lines := rfl
@[simp] theorem State.setMbox_splits : (s.setMbox k v).splits = s.splits := rfl
@[simp] theorem State.setMbox_nextSplit : (s.setMbox k v).nextSplit = s.nextSplit := rfl
@[simp] theorem State.setMbox_stks : (s.setMbox k v).stks = s.stks := rfl
@[simp] theorem State.setMbox_mem : (s.setMbox k v).mem = s.mem := rfl
@[simp] theorem State.setMbox_tiles : (s.setMbox k v).tiles = s.tiles := rfl
@[simp] theorem State.setMbox_lands : (s.setMbox k v).lands = s.lands := rfl
@[simp] theorem State.setMbox_walkers : (s.setMbox k v).walkers = s.walkers := rfl
@[simp] theorem State.setMbox_keeper : (s.setMbox k v).keeper = s.keeper := rfl
@[simp] theorem State.setMbox_repl : (s.setMbox k v).repl = s.repl := rfl
@[simp] theorem State.setMbox_sched : (s.setMbox k v).sched = s.sched := rfl
@[simp] theorem State.setMbox_ports : (s.setMbox k v).ports = s.ports := rfl
@[simp] theorem State.setMbox_dies : (s.setMbox k v).dies = s.dies := rfl
@[simp] theorem State.setMbox_node : (s.setMbox k v).node = s.node := rfl
@[simp] theorem State.setMbox_rx : (s.setMbox k v).rx = s.rx := rfl
@[simp] theorem State.setMbox_tx : (s.setMbox k v).tx = s.tx := rfl
@[simp] theorem State.setMbox_origs : (s.setMbox k v).origs = s.origs := rfl
@[simp] theorem State.setMbox_fwds : (s.setMbox k v).fwds = s.fwds := rfl
@[simp] theorem State.setMbox_nextRtag : (s.setMbox k v).nextRtag = s.nextRtag := rfl
@[simp] theorem State.setMbox_released : (s.setMbox k v).released = s.released := rfl
@[simp] theorem State.setMbox_limits : (s.setMbox k v).limits = s.limits := rfl
@[simp] theorem State.setMbox_limHeld : (s.setMbox k v).limHeld = s.limHeld := rfl
@[simp] theorem State.setMbox_admHeld : (s.setMbox k v).admHeld = s.admHeld := rfl
@[simp] theorem State.setMbox_qor : (s.setMbox k v).qor = s.qor := rfl
@[simp] theorem State.setMbox_cmds : (s.setMbox k v).cmds = s.cmds := rfl
@[simp] theorem State.setMbox_stew : (s.setMbox k v).stew = s.stew := rfl
@[simp] theorem State.setMbox_journal : (s.setMbox k v).journal = s.journal := rfl
@[simp] theorem State.setMbox_vectors : (s.setMbox k v).vectors = s.vectors := rfl
@[simp] theorem State.setMbox_rings : (s.setMbox k v).rings = s.rings := rfl
@[simp] theorem State.setMbox_keys : (s.setMbox k v).keys = s.keys := rfl
@[simp] theorem State.setMbox_derived : (s.setMbox k v).derived = s.derived := rfl
@[simp] theorem State.setMbox_elog : (s.setMbox k v).elog = s.elog := rfl
@[simp] theorem State.setMbox_cnt : (s.setMbox k v).cnt = s.cnt := rfl
end

/-! #### `rings` -/

section
variable (s : State) (k : Nat) (v : Ring)
@[simp] theorem State.modRing_eq (f : Ring → Ring) : s.modRing k f = s.setRing k (f (s.ring k)) := rfl
@[simp] theorem State.setRing_rings : (s.setRing k v).rings = tput {} s.rings k v := rfl
theorem State.setRing_ring (i : Nat) : (s.setRing k v).ring i = if i = k then v else s.ring i := tget_tput _ s.rings k i v
@[simp] theorem State.setRing_ring_same : (s.setRing k v).ring k = v := by simp [State.setRing_ring]
@[simp] theorem State.setRing_pending : (s.setRing k v).pending = s.pending := rfl
@[simp] theorem State.setRing_fresh : (s.setRing k v).fresh = s.fresh := rfl
@[simp] theorem State.setRing_now : (s.setRing k v).now = s.now := rfl
@[simp] theorem State.setRing_nv : (s.setRing k v).nv = s.nv := rfl
@[simp] theorem State.setRing_pwr : (s.setRing k v).pwr = s.pwr := rfl
@[simp] theorem State.setRing_sensors : (s.setRing k v).sensors = s.sensors := rfl
@[simp] theorem State.setRing_parts : (s.setRing k v).parts = s.parts := rfl
@[simp] theorem State.setRing_ctxs : (s.setRing k v).ctxs = s.ctxs := rfl
@[simp] theorem State.setRing_exts : (s.setRing k v).exts = s.exts := rfl
@[simp] theorem State.setRing_shares : (s.setRing k v).shares = s.shares := rfl
@[simp] theorem State.setRing_gmap : (s.setRing k v).gmap = s.gmap := rfl
@[simp] theorem State.setRing_rmap : (s.setRing k v).rmap = s.rmap := rfl
@[simp] theorem State.setRing_prots : (s.setRing k v).prots = s.prots := rfl
@[simp] theorem State.setRing_combs : (s.setRing k v).combs = s.combs := rfl
@[simp] theorem State.setRing_group : (s.setRing k v).group = s.group := rfl
@[simp] theorem State.setRing_elder : (s.setRing k v).elder = s.elder := rfl
@[simp] theorem State.setRing_regions : (s.setRing k v).regions = s.regions := rfl
@[simp] theorem State.setRing_slices : (s.setRing k v).slices = s.slices := rfl
@[simp] theorem State.setRing_agents : (s.setRing k v).agents = s.agents := rfl
@[simp] theorem State.setRing_pred : (s.setRing k v).pred = s.pred := rfl
@[simp] theorem State.setRing_orphanScan : (s.setRing k v).orphanScan = s.orphanScan := rfl
@[simp] theorem State.setRing_dram : (s.setRing k v).dram = s.dram := rfl
@[simp] theorem State.setRing_lines : (s.setRing k v).lines = s.lines := rfl
@[simp] theorem State.setRing_splits : (s.setRing k v).splits = s.splits := rfl
@[simp] theorem State.setRing_nextSplit : (s.setRing k v).nextSplit = s.nextSplit := rfl
@[simp] theorem State.setRing_stks : (s.setRing k v).stks = s.stks := rfl
@[simp] theorem State.setRing_mem : (s.setRing k v).mem = s.mem := rfl
@[simp] theorem State.setRing_tiles : (s.setRing k v).tiles = s.tiles := rfl
@[simp] theorem State.setRing_lands : (s.setRing k v).lands = s.lands := rfl
@[simp] theorem State.setRing_walkers : (s.setRing k v).walkers = s.walkers := rfl
@[simp] theorem State.setRing_keeper : (s.setRing k v).keeper = s.keeper := rfl
@[simp] theorem State.setRing_repl : (s.setRing k v).repl = s.repl := rfl
@[simp] theorem State.setRing_sched : (s.setRing k v).sched = s.sched := rfl
@[simp] theorem State.setRing_ports : (s.setRing k v).ports = s.ports := rfl
@[simp] theorem State.setRing_dies : (s.setRing k v).dies = s.dies := rfl
@[simp] theorem State.setRing_node : (s.setRing k v).node = s.node := rfl
@[simp] theorem State.setRing_rx : (s.setRing k v).rx = s.rx := rfl
@[simp] theorem State.setRing_tx : (s.setRing k v).tx = s.tx := rfl
@[simp] theorem State.setRing_origs : (s.setRing k v).origs = s.origs := rfl
@[simp] theorem State.setRing_fwds : (s.setRing k v).fwds = s.fwds := rfl
@[simp] theorem State.setRing_nextRtag : (s.setRing k v).nextRtag = s.nextRtag := rfl
@[simp] theorem State.setRing_released : (s.setRing k v).released = s.released := rfl
@[simp] theorem State.setRing_limits : (s.setRing k v).limits = s.limits := rfl
@[simp] theorem State.setRing_limHeld : (s.setRing k v).limHeld = s.limHeld := rfl
@[simp] theorem State.setRing_admHeld : (s.setRing k v).admHeld = s.admHeld := rfl
@[simp] theorem State.setRing_qor : (s.setRing k v).qor = s.qor := rfl
@[simp] theorem State.setRing_mboxes : (s.setRing k v).mboxes = s.mboxes := rfl
@[simp] theorem State.setRing_cmds : (s.setRing k v).cmds = s.cmds := rfl
@[simp] theorem State.setRing_stew : (s.setRing k v).stew = s.stew := rfl
@[simp] theorem State.setRing_journal : (s.setRing k v).journal = s.journal := rfl
@[simp] theorem State.setRing_vectors : (s.setRing k v).vectors = s.vectors := rfl
@[simp] theorem State.setRing_keys : (s.setRing k v).keys = s.keys := rfl
@[simp] theorem State.setRing_derived : (s.setRing k v).derived = s.derived := rfl
@[simp] theorem State.setRing_elog : (s.setRing k v).elog = s.elog := rfl
@[simp] theorem State.setRing_cnt : (s.setRing k v).cnt = s.cnt := rfl
end

/-! #### `keys` -/

section
variable (s : State) (k : Nat) (v : Sctr)
@[simp] theorem State.modSctr_eq (f : Sctr → Sctr) : s.modSctr k f = s.setSctr k (f (s.sctr k)) := rfl
@[simp] theorem State.setSctr_keys : (s.setSctr k v).keys = tput {} s.keys k v := rfl
theorem State.setSctr_sctr (i : Nat) : (s.setSctr k v).sctr i = if i = k then v else s.sctr i := tget_tput _ s.keys k i v
@[simp] theorem State.setSctr_sctr_same : (s.setSctr k v).sctr k = v := by simp [State.setSctr_sctr]
@[simp] theorem State.setSctr_pending : (s.setSctr k v).pending = s.pending := rfl
@[simp] theorem State.setSctr_fresh : (s.setSctr k v).fresh = s.fresh := rfl
@[simp] theorem State.setSctr_now : (s.setSctr k v).now = s.now := rfl
@[simp] theorem State.setSctr_nv : (s.setSctr k v).nv = s.nv := rfl
@[simp] theorem State.setSctr_pwr : (s.setSctr k v).pwr = s.pwr := rfl
@[simp] theorem State.setSctr_sensors : (s.setSctr k v).sensors = s.sensors := rfl
@[simp] theorem State.setSctr_parts : (s.setSctr k v).parts = s.parts := rfl
@[simp] theorem State.setSctr_ctxs : (s.setSctr k v).ctxs = s.ctxs := rfl
@[simp] theorem State.setSctr_exts : (s.setSctr k v).exts = s.exts := rfl
@[simp] theorem State.setSctr_shares : (s.setSctr k v).shares = s.shares := rfl
@[simp] theorem State.setSctr_gmap : (s.setSctr k v).gmap = s.gmap := rfl
@[simp] theorem State.setSctr_rmap : (s.setSctr k v).rmap = s.rmap := rfl
@[simp] theorem State.setSctr_prots : (s.setSctr k v).prots = s.prots := rfl
@[simp] theorem State.setSctr_combs : (s.setSctr k v).combs = s.combs := rfl
@[simp] theorem State.setSctr_group : (s.setSctr k v).group = s.group := rfl
@[simp] theorem State.setSctr_elder : (s.setSctr k v).elder = s.elder := rfl
@[simp] theorem State.setSctr_regions : (s.setSctr k v).regions = s.regions := rfl
@[simp] theorem State.setSctr_slices : (s.setSctr k v).slices = s.slices := rfl
@[simp] theorem State.setSctr_agents : (s.setSctr k v).agents = s.agents := rfl
@[simp] theorem State.setSctr_pred : (s.setSctr k v).pred = s.pred := rfl
@[simp] theorem State.setSctr_orphanScan : (s.setSctr k v).orphanScan = s.orphanScan := rfl
@[simp] theorem State.setSctr_dram : (s.setSctr k v).dram = s.dram := rfl
@[simp] theorem State.setSctr_lines : (s.setSctr k v).lines = s.lines := rfl
@[simp] theorem State.setSctr_splits : (s.setSctr k v).splits = s.splits := rfl
@[simp] theorem State.setSctr_nextSplit : (s.setSctr k v).nextSplit = s.nextSplit := rfl
@[simp] theorem State.setSctr_stks : (s.setSctr k v).stks = s.stks := rfl
@[simp] theorem State.setSctr_mem : (s.setSctr k v).mem = s.mem := rfl
@[simp] theorem State.setSctr_tiles : (s.setSctr k v).tiles = s.tiles := rfl
@[simp] theorem State.setSctr_lands : (s.setSctr k v).lands = s.lands := rfl
@[simp] theorem State.setSctr_walkers : (s.setSctr k v).walkers = s.walkers := rfl
@[simp] theorem State.setSctr_keeper : (s.setSctr k v).keeper = s.keeper := rfl
@[simp] theorem State.setSctr_repl : (s.setSctr k v).repl = s.repl := rfl
@[simp] theorem State.setSctr_sched : (s.setSctr k v).sched = s.sched := rfl
@[simp] theorem State.setSctr_ports : (s.setSctr k v).ports = s.ports := rfl
@[simp] theorem State.setSctr_dies : (s.setSctr k v).dies = s.dies := rfl
@[simp] theorem State.setSctr_node : (s.setSctr k v).node = s.node := rfl
@[simp] theorem State.setSctr_rx : (s.setSctr k v).rx = s.rx := rfl
@[simp] theorem State.setSctr_tx : (s.setSctr k v).tx = s.tx := rfl
@[simp] theorem State.setSctr_origs : (s.setSctr k v).origs = s.origs := rfl
@[simp] theorem State.setSctr_fwds : (s.setSctr k v).fwds = s.fwds := rfl
@[simp] theorem State.setSctr_nextRtag : (s.setSctr k v).nextRtag = s.nextRtag := rfl
@[simp] theorem State.setSctr_released : (s.setSctr k v).released = s.released := rfl
@[simp] theorem State.setSctr_limits : (s.setSctr k v).limits = s.limits := rfl
@[simp] theorem State.setSctr_limHeld : (s.setSctr k v).limHeld = s.limHeld := rfl
@[simp] theorem State.setSctr_admHeld : (s.setSctr k v).admHeld = s.admHeld := rfl
@[simp] theorem State.setSctr_qor : (s.setSctr k v).qor = s.qor := rfl
@[simp] theorem State.setSctr_mboxes : (s.setSctr k v).mboxes = s.mboxes := rfl
@[simp] theorem State.setSctr_cmds : (s.setSctr k v).cmds = s.cmds := rfl
@[simp] theorem State.setSctr_stew : (s.setSctr k v).stew = s.stew := rfl
@[simp] theorem State.setSctr_journal : (s.setSctr k v).journal = s.journal := rfl
@[simp] theorem State.setSctr_vectors : (s.setSctr k v).vectors = s.vectors := rfl
@[simp] theorem State.setSctr_rings : (s.setSctr k v).rings = s.rings := rfl
@[simp] theorem State.setSctr_derived : (s.setSctr k v).derived = s.derived := rfl
@[simp] theorem State.setSctr_elog : (s.setSctr k v).elog = s.elog := rfl
@[simp] theorem State.setSctr_cnt : (s.setSctr k v).cnt = s.cnt := rfl
end

/-! #### `gmap` -/

section
variable (s : State) (k : Nat) (v : (BitVec 19))
@[simp] theorem State.modGranule_eq (f : (BitVec 19) → (BitVec 19)) : s.modGranule k f = s.setGranule k (f (s.granule k)) := rfl
@[simp] theorem State.setGranule_gmap : (s.setGranule k v).gmap = tput 0 s.gmap k v := rfl
theorem State.setGranule_granule (i : Nat) : (s.setGranule k v).granule i = if i = k then v else s.granule i := tget_tput _ s.gmap k i v
@[simp] theorem State.setGranule_granule_same : (s.setGranule k v).granule k = v := by simp [State.setGranule_granule]
@[simp] theorem State.setGranule_pending : (s.setGranule k v).pending = s.pending := rfl
@[simp] theorem State.setGranule_fresh : (s.setGranule k v).fresh = s.fresh := rfl
@[simp] theorem State.setGranule_now : (s.setGranule k v).now = s.now := rfl
@[simp] theorem State.setGranule_nv : (s.setGranule k v).nv = s.nv := rfl
@[simp] theorem State.setGranule_pwr : (s.setGranule k v).pwr = s.pwr := rfl
@[simp] theorem State.setGranule_sensors : (s.setGranule k v).sensors = s.sensors := rfl
@[simp] theorem State.setGranule_parts : (s.setGranule k v).parts = s.parts := rfl
@[simp] theorem State.setGranule_ctxs : (s.setGranule k v).ctxs = s.ctxs := rfl
@[simp] theorem State.setGranule_exts : (s.setGranule k v).exts = s.exts := rfl
@[simp] theorem State.setGranule_shares : (s.setGranule k v).shares = s.shares := rfl
@[simp] theorem State.setGranule_rmap : (s.setGranule k v).rmap = s.rmap := rfl
@[simp] theorem State.setGranule_prots : (s.setGranule k v).prots = s.prots := rfl
@[simp] theorem State.setGranule_combs : (s.setGranule k v).combs = s.combs := rfl
@[simp] theorem State.setGranule_group : (s.setGranule k v).group = s.group := rfl
@[simp] theorem State.setGranule_elder : (s.setGranule k v).elder = s.elder := rfl
@[simp] theorem State.setGranule_regions : (s.setGranule k v).regions = s.regions := rfl
@[simp] theorem State.setGranule_slices : (s.setGranule k v).slices = s.slices := rfl
@[simp] theorem State.setGranule_agents : (s.setGranule k v).agents = s.agents := rfl
@[simp] theorem State.setGranule_pred : (s.setGranule k v).pred = s.pred := rfl
@[simp] theorem State.setGranule_orphanScan : (s.setGranule k v).orphanScan = s.orphanScan := rfl
@[simp] theorem State.setGranule_dram : (s.setGranule k v).dram = s.dram := rfl
@[simp] theorem State.setGranule_lines : (s.setGranule k v).lines = s.lines := rfl
@[simp] theorem State.setGranule_splits : (s.setGranule k v).splits = s.splits := rfl
@[simp] theorem State.setGranule_nextSplit : (s.setGranule k v).nextSplit = s.nextSplit := rfl
@[simp] theorem State.setGranule_stks : (s.setGranule k v).stks = s.stks := rfl
@[simp] theorem State.setGranule_mem : (s.setGranule k v).mem = s.mem := rfl
@[simp] theorem State.setGranule_tiles : (s.setGranule k v).tiles = s.tiles := rfl
@[simp] theorem State.setGranule_lands : (s.setGranule k v).lands = s.lands := rfl
@[simp] theorem State.setGranule_walkers : (s.setGranule k v).walkers = s.walkers := rfl
@[simp] theorem State.setGranule_keeper : (s.setGranule k v).keeper = s.keeper := rfl
@[simp] theorem State.setGranule_repl : (s.setGranule k v).repl = s.repl := rfl
@[simp] theorem State.setGranule_sched : (s.setGranule k v).sched = s.sched := rfl
@[simp] theorem State.setGranule_ports : (s.setGranule k v).ports = s.ports := rfl
@[simp] theorem State.setGranule_dies : (s.setGranule k v).dies = s.dies := rfl
@[simp] theorem State.setGranule_node : (s.setGranule k v).node = s.node := rfl
@[simp] theorem State.setGranule_rx : (s.setGranule k v).rx = s.rx := rfl
@[simp] theorem State.setGranule_tx : (s.setGranule k v).tx = s.tx := rfl
@[simp] theorem State.setGranule_origs : (s.setGranule k v).origs = s.origs := rfl
@[simp] theorem State.setGranule_fwds : (s.setGranule k v).fwds = s.fwds := rfl
@[simp] theorem State.setGranule_nextRtag : (s.setGranule k v).nextRtag = s.nextRtag := rfl
@[simp] theorem State.setGranule_released : (s.setGranule k v).released = s.released := rfl
@[simp] theorem State.setGranule_limits : (s.setGranule k v).limits = s.limits := rfl
@[simp] theorem State.setGranule_limHeld : (s.setGranule k v).limHeld = s.limHeld := rfl
@[simp] theorem State.setGranule_admHeld : (s.setGranule k v).admHeld = s.admHeld := rfl
@[simp] theorem State.setGranule_qor : (s.setGranule k v).qor = s.qor := rfl
@[simp] theorem State.setGranule_mboxes : (s.setGranule k v).mboxes = s.mboxes := rfl
@[simp] theorem State.setGranule_cmds : (s.setGranule k v).cmds = s.cmds := rfl
@[simp] theorem State.setGranule_stew : (s.setGranule k v).stew = s.stew := rfl
@[simp] theorem State.setGranule_journal : (s.setGranule k v).journal = s.journal := rfl
@[simp] theorem State.setGranule_vectors : (s.setGranule k v).vectors = s.vectors := rfl
@[simp] theorem State.setGranule_rings : (s.setGranule k v).rings = s.rings := rfl
@[simp] theorem State.setGranule_keys : (s.setGranule k v).keys = s.keys := rfl
@[simp] theorem State.setGranule_derived : (s.setGranule k v).derived = s.derived := rfl
@[simp] theorem State.setGranule_elog : (s.setGranule k v).elog = s.elog := rfl
@[simp] theorem State.setGranule_cnt : (s.setGranule k v).cnt = s.cnt := rfl
end

/-! #### `agents` -/

section
variable (s : State) (k : Nat) (v : Bool)
@[simp] theorem State.modAgent_eq (f : Bool → Bool) : s.modAgent k f = s.setAgent k (f (s.agent k)) := rfl
@[simp] theorem State.setAgent_agents : (s.setAgent k v).agents = tput false s.agents k v := rfl
theorem State.setAgent_agent (i : Nat) : (s.setAgent k v).agent i = if i = k then v else s.agent i := tget_tput _ s.agents k i v
@[simp] theorem State.setAgent_agent_same : (s.setAgent k v).agent k = v := by simp [State.setAgent_agent]
@[simp] theorem State.setAgent_pending : (s.setAgent k v).pending = s.pending := rfl
@[simp] theorem State.setAgent_fresh : (s.setAgent k v).fresh = s.fresh := rfl
@[simp] theorem State.setAgent_now : (s.setAgent k v).now = s.now := rfl
@[simp] theorem State.setAgent_nv : (s.setAgent k v).nv = s.nv := rfl
@[simp] theorem State.setAgent_pwr : (s.setAgent k v).pwr = s.pwr := rfl
@[simp] theorem State.setAgent_sensors : (s.setAgent k v).sensors = s.sensors := rfl
@[simp] theorem State.setAgent_parts : (s.setAgent k v).parts = s.parts := rfl
@[simp] theorem State.setAgent_ctxs : (s.setAgent k v).ctxs = s.ctxs := rfl
@[simp] theorem State.setAgent_exts : (s.setAgent k v).exts = s.exts := rfl
@[simp] theorem State.setAgent_shares : (s.setAgent k v).shares = s.shares := rfl
@[simp] theorem State.setAgent_gmap : (s.setAgent k v).gmap = s.gmap := rfl
@[simp] theorem State.setAgent_rmap : (s.setAgent k v).rmap = s.rmap := rfl
@[simp] theorem State.setAgent_prots : (s.setAgent k v).prots = s.prots := rfl
@[simp] theorem State.setAgent_combs : (s.setAgent k v).combs = s.combs := rfl
@[simp] theorem State.setAgent_group : (s.setAgent k v).group = s.group := rfl
@[simp] theorem State.setAgent_elder : (s.setAgent k v).elder = s.elder := rfl
@[simp] theorem State.setAgent_regions : (s.setAgent k v).regions = s.regions := rfl
@[simp] theorem State.setAgent_slices : (s.setAgent k v).slices = s.slices := rfl
@[simp] theorem State.setAgent_pred : (s.setAgent k v).pred = s.pred := rfl
@[simp] theorem State.setAgent_orphanScan : (s.setAgent k v).orphanScan = s.orphanScan := rfl
@[simp] theorem State.setAgent_dram : (s.setAgent k v).dram = s.dram := rfl
@[simp] theorem State.setAgent_lines : (s.setAgent k v).lines = s.lines := rfl
@[simp] theorem State.setAgent_splits : (s.setAgent k v).splits = s.splits := rfl
@[simp] theorem State.setAgent_nextSplit : (s.setAgent k v).nextSplit = s.nextSplit := rfl
@[simp] theorem State.setAgent_stks : (s.setAgent k v).stks = s.stks := rfl
@[simp] theorem State.setAgent_mem : (s.setAgent k v).mem = s.mem := rfl
@[simp] theorem State.setAgent_tiles : (s.setAgent k v).tiles = s.tiles := rfl
@[simp] theorem State.setAgent_lands : (s.setAgent k v).lands = s.lands := rfl
@[simp] theorem State.setAgent_walkers : (s.setAgent k v).walkers = s.walkers := rfl
@[simp] theorem State.setAgent_keeper : (s.setAgent k v).keeper = s.keeper := rfl
@[simp] theorem State.setAgent_repl : (s.setAgent k v).repl = s.repl := rfl
@[simp] theorem State.setAgent_sched : (s.setAgent k v).sched = s.sched := rfl
@[simp] theorem State.setAgent_ports : (s.setAgent k v).ports = s.ports := rfl
@[simp] theorem State.setAgent_dies : (s.setAgent k v).dies = s.dies := rfl
@[simp] theorem State.setAgent_node : (s.setAgent k v).node = s.node := rfl
@[simp] theorem State.setAgent_rx : (s.setAgent k v).rx = s.rx := rfl
@[simp] theorem State.setAgent_tx : (s.setAgent k v).tx = s.tx := rfl
@[simp] theorem State.setAgent_origs : (s.setAgent k v).origs = s.origs := rfl
@[simp] theorem State.setAgent_fwds : (s.setAgent k v).fwds = s.fwds := rfl
@[simp] theorem State.setAgent_nextRtag : (s.setAgent k v).nextRtag = s.nextRtag := rfl
@[simp] theorem State.setAgent_released : (s.setAgent k v).released = s.released := rfl
@[simp] theorem State.setAgent_limits : (s.setAgent k v).limits = s.limits := rfl
@[simp] theorem State.setAgent_limHeld : (s.setAgent k v).limHeld = s.limHeld := rfl
@[simp] theorem State.setAgent_admHeld : (s.setAgent k v).admHeld = s.admHeld := rfl
@[simp] theorem State.setAgent_qor : (s.setAgent k v).qor = s.qor := rfl
@[simp] theorem State.setAgent_mboxes : (s.setAgent k v).mboxes = s.mboxes := rfl
@[simp] theorem State.setAgent_cmds : (s.setAgent k v).cmds = s.cmds := rfl
@[simp] theorem State.setAgent_stew : (s.setAgent k v).stew = s.stew := rfl
@[simp] theorem State.setAgent_journal : (s.setAgent k v).journal = s.journal := rfl
@[simp] theorem State.setAgent_vectors : (s.setAgent k v).vectors = s.vectors := rfl
@[simp] theorem State.setAgent_rings : (s.setAgent k v).rings = s.rings := rfl
@[simp] theorem State.setAgent_keys : (s.setAgent k v).keys = s.keys := rfl
@[simp] theorem State.setAgent_derived : (s.setAgent k v).derived = s.derived := rfl
@[simp] theorem State.setAgent_elog : (s.setAgent k v).elog = s.elog := rfl
@[simp] theorem State.setAgent_cnt : (s.setAgent k v).cnt = s.cnt := rfl
end

end Sys2Proof.Machine
end

