-- ==== Sys2Proof/Laws/Ops.lean ====
section
/-! SUPPORT. What each shared operation can change, once: counting, the error log, the rings of notifications and the posting of replies. Each
operation has its frame (the state after it, with what it may change named), and the fields that it leaves follow for `simp`. -/
namespace Sys2Proof.Machine
open Sys2Proof

/-! ### Counting and the error log (R494 to R498, R509) -/

/-- A record offered to the log changes the log, and the sticky log of fatal records. -/
theorem State.pushErr_frame (s : State) (r : ErrRec) : ∃ e f, s.pushErr r = { s with elog := e, nv := { s.nv with fatal := f } } := by
  unfold State.pushErr
  simp only []
  split
  · split
    · exact ⟨_, _, rfl⟩
    · exact ⟨_, s.nv.fatal, rfl⟩
  · exact ⟨_, s.nv.fatal, rfl⟩

/-- Counting changes the counters. -/
theorem State.countTo_frame (s : State) (off n : Nat) : ∃ c, (s.countTo off n).1 = { s with cnt := c } := ⟨_, rfl⟩

/-- What the log of a record, or a counted event, changes. -/
def State.Logged (s t : State) : Prop := ∃ e f c, t = { s with elog := e, nv := { s.nv with fatal := f }, cnt := c }

theorem State.Logged.refl (s : State) : s.Logged s := ⟨s.elog, s.nv.fatal, s.cnt, rfl⟩

theorem State.Logged.trans {s t u : State} (h : s.Logged t) (k : t.Logged u) : s.Logged u := by
  obtain ⟨e, f, c, rfl⟩ := h
  obtain ⟨e', f', c', rfl⟩ := k
  exact ⟨e', f', c', rfl⟩

theorem State.Logged.of_pushErr (s : State) (r : ErrRec) : s.Logged (s.pushErr r) := by
  obtain ⟨e, f, h⟩ := s.pushErr_frame r
  exact ⟨e, f, s.cnt, h⟩

theorem State.Logged.of_countTo (s : State) (off n : Nat) : s.Logged (s.countTo off n).1 := ⟨s.elog, s.nv.fatal, _, rfl⟩

/-- A record logged changes the log, the sticky log and the counters. -/
theorem State.logErr_frame (s : State) (r : ErrRec) : s.Logged (s.logErr r) := by
  unfold State.logErr
  simp only []
  split
  · split
    · exact ((State.Logged.of_pushErr s r).trans (State.Logged.of_countTo _ _ _)).trans (State.Logged.of_pushErr _ _)
    · exact (State.Logged.of_pushErr s r).trans (State.Logged.of_countTo _ _ _)
  · exact State.Logged.of_pushErr s r

/-- An event counted changes the counters, and the logs when it saturates. -/
theorem State.bumpBy_frame (s : State) (off n : Nat) : s.Logged (s.bumpBy off n) := by
  unfold State.bumpBy
  simp only []
  split
  · exact (State.Logged.of_countTo s off n).trans (State.logErr_frame _ _)
  · exact State.Logged.of_countTo s off n

theorem State.bump_frame (s : State) (blk k : Nat) : s.Logged (s.bump blk k) := s.bumpBy_frame _ 1
theorem State.bin_frame (s : State) (blk k : Nat) : s.Logged (s.bin blk k) := s.bumpBy_frame _ 1
theorem State.time_frame (s : State) (blk k n : Nat) : s.Logged (s.time blk k n) := ⟨s.elog, s.nv.fatal, _, rfl⟩

/-- An event record changes the rings, and the counters and logs when it is dropped (R415). -/
theorem State.event_frame (s : State) (t : Nat) (r : NtfRec) : ∃ g, { s with rings := g }.Logged (s.event t r) := by
  unfold State.event State.setRing
  simp only []
  split
  · exact ⟨_, .refl _⟩
  · split
    · exact ⟨_, .refl _⟩
    · exact ⟨_, State.bump_frame _ _ _⟩

/-- A completion record changes the rings. -/
theorem State.doneRec_frame (s : State) (t : Nat) (r : NtfRec) (j : Option (Nat × Nat)) : ∃ g, s.doneRec t r j = { s with rings := g } := by
  unfold State.doneRec State.setRing
  simp only []
  split
  · exact ⟨_, rfl⟩
  · exact ⟨_, rfl⟩

/-! ### Replies (R408, R409, R413) -/

/-- A reply posted changes the commands in progress, the mailboxes, the rings and the journal. -/
theorem State.postReply_frame (s : State) (c : Cmd) : ∃ cm mx rg jn, s.postReply c = { s with cmds := cm, mboxes := mx, rings := rg, journal := jn } := by
  unfold State.postReply State.doneRec State.setRing State.setMbox
  simp only []
  split
  · split
    · cases c.mb.part <;> simp only [] <;> split <;> exact ⟨_, _, _, _, rfl⟩
    · exact ⟨_, _, _, _, rfl⟩
  · exact ⟨_, s.mboxes, s.rings, _, rfl⟩

/-- The replies that are ready change the same. -/
theorem State.postReady_frame (s : State) : ∃ cm mx rg jn, s.postReady = { s with cmds := cm, mboxes := mx, rings := rg, journal := jn } := by
  have key : ∀ (l : List Cmd) (u : State), ∃ cm mx rg jn, u.each l (fun s c => s.postReply c) = { u with cmds := cm, mboxes := mx, rings := rg, journal := jn } := by
    intro l
    induction l with
    | nil => exact fun u => ⟨u.cmds, u.mboxes, u.rings, u.journal, rfl⟩
    | cons a l ih =>
      intro u
      obtain ⟨cm, mx, rg, jn, h⟩ := u.postReply_frame a
      obtain ⟨cm', mx', rg', jn', h'⟩ := ih (u.postReply a)
      exact ⟨cm', mx', rg', jn', by rw [show u.each (a :: l) (fun s c => s.postReply c) = (u.postReply a).each l (fun s c => s.postReply c) from rfl, h', h]⟩
  unfold State.postReady
  split
  · exact key _ s
  · exact ⟨s.cmds, s.mboxes, s.rings, s.journal, rfl⟩

/-- What has come for a command that waits changes the same. -/
theorem State.wake_frame (s : State) (w : Wait) : ∃ cm mx rg jn, s.wake w = { s with cmds := cm, mboxes := mx, rings := rg, journal := jn } := by
  unfold State.wake
  simp only []
  split
  · obtain ⟨cm, mx, rg, jn, h⟩ := State.postReady_frame { s with cmds := s.cmds.map fun c => { c with waits := c.waits.filter (· ≠ w) } }
    exact ⟨cm, mx, rg, jn, h⟩
  · exact ⟨s.cmds, s.mboxes, s.rings, s.journal, rfl⟩

/-- What holds of a state and is kept by every turn holds after all of them. -/
theorem State.each_induction {α : Type} (P : State → Prop) (l : List α) (f : State → α → State) (s : State) (h : P s)
    (k : ∀ u, ∀ a ∈ l, P u → P (f u a)) : P (s.each l f) := by
  unfold State.each
  induction l generalizing s with
  | nil => exact h
  | cons a l ih => exact ih (f s a) (k s a List.mem_cons_self h) fun u b hb hu => k u b (List.mem_cons_of_mem _ hb) hu

/-! ### The fields that they leave -/

section
variable (s : State) (r : ErrRec)
@[simp] theorem State.logErr_pending : (s.logErr r).pending = s.pending := by obtain ⟨e, f, c, h⟩ := s.logErr_frame r; rw [h]
@[simp] theorem State.logErr_fresh : (s.logErr r).fresh = s.fresh := by obtain ⟨e, f, c, h⟩ := s.logErr_frame r; rw [h]
@[simp] theorem State.logErr_now : (s.logErr r).now = s.now := by obtain ⟨e, f, c, h⟩ := s.logErr_frame r; rw [h]
@[simp] theorem State.logErr_pwr : (s.logErr r).pwr = s.pwr := by obtain ⟨e, f, c, h⟩ := s.logErr_frame r; rw [h]
@[simp] theorem State.logErr_sensors : (s.logErr r).sensors = s.sensors := by obtain ⟨e, f, c, h⟩ := s.logErr_frame r; rw [h]
@[simp] theorem State.logErr_parts : (s.logErr r).parts = s.parts := by obtain ⟨e, f, c, h⟩ := s.logErr_frame r; rw [h]
@[simp] theorem State.logErr_ctxs : (s.logErr r).ctxs = s.ctxs := by obtain ⟨e, f, c, h⟩ := s.logErr_frame r; rw [h]
@[simp] theorem State.logErr_exts : (s.logErr r).exts = s.exts := by obtain ⟨e, f, c, h⟩ := s.logErr_frame r; rw [h]
@[simp] theorem State.logErr_shares : (s.logErr r).shares = s.shares := by obtain ⟨e, f, c, h⟩ := s.logErr_frame r; rw [h]
@[simp] theorem State.logErr_gmap : (s.logErr r).gmap = s.gmap := by obtain ⟨e, f, c, h⟩ := s.logErr_frame r; rw [h]
@[simp] theorem State.logErr_rmap : (s.logErr r).rmap = s.rmap := by obtain ⟨e, f, c, h⟩ := s.logErr_frame r; rw [h]
@[simp] theorem State.logErr_prots : (s.logErr r).prots = s.prots := by obtain ⟨e, f, c, h⟩ := s.logErr_frame r; rw [h]
@[simp] theorem State.logErr_combs : (s.logErr r).combs = s.combs := by obtain ⟨e, f, c, h⟩ := s.logErr_frame r; rw [h]
@[simp] theorem State.logErr_group : (s.logErr r).group = s.group := by obtain ⟨e, f, c, h⟩ := s.logErr_frame r; rw [h]
@[simp] theorem State.logErr_elder : (s.logErr r).elder = s.elder := by obtain ⟨e, f, c, h⟩ := s.logErr_frame r; rw [h]
@[simp] theorem State.logErr_regions : (s.logErr r).regions = s.regions := by obtain ⟨e, f, c, h⟩ := s.logErr_frame r; rw [h]
@[simp] theorem State.logErr_slices : (s.logErr r).slices = s.slices := by obtain ⟨e, f, c, h⟩ := s.logErr_frame r; rw [h]
@[simp] theorem State.logErr_agents : (s.logErr r).agents = s.agents := by obtain ⟨e, f, c, h⟩ := s.logErr_frame r; rw [h]
@[simp] theorem State.logErr_pred : (s.logErr r).pred = s.pred := by obtain ⟨e, f, c, h⟩ := s.logErr_frame r; rw [h]
@[simp] theorem State.logErr_orphanScan : (s.logErr r).orphanScan = s.orphanScan := by obtain ⟨e, f, c, h⟩ := s.logErr_frame r; rw [h]
@[simp] theorem State.logErr_dram : (s.logErr r).dram = s.dram := by obtain ⟨e, f, c, h⟩ := s.logErr_frame r; rw [h]
@[simp] theorem State.logErr_lines : (s.logErr r).lines = s.lines := by obtain ⟨e, f, c, h⟩ := s.logErr_frame r; rw [h]
@[simp] theorem State.logErr_splits : (s.logErr r).splits = s.splits := by obtain ⟨e, f, c, h⟩ := s.logErr_frame r; rw [h]
@[simp] theorem State.logErr_nextSplit : (s.logErr r).nextSplit = s.nextSplit := by obtain ⟨e, f, c, h⟩ := s.logErr_frame r; rw [h]
@[simp] theorem State.logErr_stks : (s.logErr r).stks = s.stks := by obtain ⟨e, f, c, h⟩ := s.logErr_frame r; rw [h]
@[simp] theorem State.logErr_mem : (s.logErr r).mem = s.mem := by obtain ⟨e, f, c, h⟩ := s.logErr_frame r; rw [h]
@[simp] theorem State.logErr_tiles : (s.logErr r).tiles = s.tiles := by obtain ⟨e, f, c, h⟩ := s.logErr_frame r; rw [h]
@[simp] theorem State.logErr_lands : (s.logErr r).lands = s.lands := by obtain ⟨e, f, c, h⟩ := s.logErr_frame r; rw [h]
@[simp] theorem State.logErr_walkers : (s.logErr r).walkers = s.walkers := by obtain ⟨e, f, c, h⟩ := s.logErr_frame r; rw [h]
@[simp] theorem State.logErr_keeper : (s.logErr r).keeper = s.keeper := by obtain ⟨e, f, c, h⟩ := s.logErr_frame r; rw [h]
@[simp] theorem State.logErr_repl : (s.logErr r).repl = s.repl := by obtain ⟨e, f, c, h⟩ := s.logErr_frame r; rw [h]
@[simp] theorem State.logErr_sched : (s.logErr r).sched = s.sched := by obtain ⟨e, f, c, h⟩ := s.logErr_frame r; rw [h]
@[simp] theorem State.logErr_ports : (s.logErr r).ports = s.ports := by obtain ⟨e, f, c, h⟩ := s.logErr_frame r; rw [h]
@[simp] theorem State.logErr_dies : (s.logErr r).dies = s.dies := by obtain ⟨e, f, c, h⟩ := s.logErr_frame r; rw [h]
@[simp] theorem State.logErr_node : (s.logErr r).node = s.node := by obtain ⟨e, f, c, h⟩ := s.logErr_frame r; rw [h]
@[simp] theorem State.logErr_rx : (s.logErr r).rx = s.rx := by obtain ⟨e, f, c, h⟩ := s.logErr_frame r; rw [h]
@[simp] theorem State.logErr_tx : (s.logErr r).tx = s.tx := by obtain ⟨e, f, c, h⟩ := s.logErr_frame r; rw [h]
@[simp] theorem State.logErr_origs : (s.logErr r).origs = s.origs := by obtain ⟨e, f, c, h⟩ := s.logErr_frame r; rw [h]
@[simp] theorem State.logErr_fwds : (s.logErr r).fwds = s.fwds := by obtain ⟨e, f, c, h⟩ := s.logErr_frame r; rw [h]
@[simp] theorem State.logErr_nextRtag : (s.logErr r).nextRtag = s.nextRtag := by obtain ⟨e, f, c, h⟩ := s.logErr_frame r; rw [h]
@[simp] theorem State.logErr_released : (s.logErr r).released = s.released := by obtain ⟨e, f, c, h⟩ := s.logErr_frame r; rw [h]
@[simp] theorem State.logErr_limits : (s.logErr r).limits = s.limits := by obtain ⟨e, f, c, h⟩ := s.logErr_frame r; rw [h]
@[simp] theorem State.logErr_limHeld : (s.logErr r).limHeld = s.limHeld := by obtain ⟨e, f, c, h⟩ := s.logErr_frame r; rw [h]
@[simp] theorem State.logErr_admHeld : (s.logErr r).admHeld = s.admHeld := by obtain ⟨e, f, c, h⟩ := s.logErr_frame r; rw [h]
@[simp] theorem State.logErr_qor : (s.logErr r).qor = s.qor := by obtain ⟨e, f, c, h⟩ := s.logErr_frame r; rw [h]
@[simp] theorem State.logErr_mboxes : (s.logErr r).mboxes = s.mboxes := by obtain ⟨e, f, c, h⟩ := s.logErr_frame r; rw [h]
@[simp] theorem State.logErr_cmds : (s.logErr r).cmds = s.cmds := by obtain ⟨e, f, c, h⟩ := s.logErr_frame r; rw [h]
@[simp] theorem State.logErr_stew : (s.logErr r).stew = s.stew := by obtain ⟨e, f, c, h⟩ := s.logErr_frame r; rw [h]
@[simp] theorem State.logErr_journal : (s.logErr r).journal = s.journal := by obtain ⟨e, f, c, h⟩ := s.logErr_frame r; rw [h]
@[simp] theorem State.logErr_vectors : (s.logErr r).vectors = s.vectors := by obtain ⟨e, f, c, h⟩ := s.logErr_frame r; rw [h]
@[simp] theorem State.logErr_rings : (s.logErr r).rings = s.rings := by obtain ⟨e, f, c, h⟩ := s.logErr_frame r; rw [h]
@[simp] theorem State.logErr_keys : (s.logErr r).keys = s.keys := by obtain ⟨e, f, c, h⟩ := s.logErr_frame r; rw [h]
@[simp] theorem State.logErr_derived : (s.logErr r).derived = s.derived := by obtain ⟨e, f, c, h⟩ := s.logErr_frame r; rw [h]
end

section
variable (s : State) (off n : Nat)
@[simp] theorem State.bumpBy_pending : (s.bumpBy off n).pending = s.pending := by obtain ⟨e, f, c, h⟩ := s.bumpBy_frame off n; rw [h]
@[simp] theorem State.bumpBy_fresh : (s.bumpBy off n).fresh = s.fresh := by obtain ⟨e, f, c, h⟩ := s.bumpBy_frame off n; rw [h]
@[simp] theorem State.bumpBy_now : (s.bumpBy off n).now = s.now := by obtain ⟨e, f, c, h⟩ := s.bumpBy_frame off n; rw [h]
@[simp] theorem State.bumpBy_pwr : (s.bumpBy off n).pwr = s.pwr := by obtain ⟨e, f, c, h⟩ := s.bumpBy_frame off n; rw [h]
@[simp] theorem State.bumpBy_sensors : (s.bumpBy off n).sensors = s.sensors := by obtain ⟨e, f, c, h⟩ := s.bumpBy_frame off n; rw [h]
@[simp] theorem State.bumpBy_parts : (s.bumpBy off n).parts = s.parts := by obtain ⟨e, f, c, h⟩ := s.bumpBy_frame off n; rw [h]
@[simp] theorem State.bumpBy_ctxs : (s.bumpBy off n).ctxs = s.ctxs := by obtain ⟨e, f, c, h⟩ := s.bumpBy_frame off n; rw [h]
@[simp] theorem State.bumpBy_exts : (s.bumpBy off n).exts = s.exts := by obtain ⟨e, f, c, h⟩ := s.bumpBy_frame off n; rw [h]
@[simp] theorem State.bumpBy_shares : (s.bumpBy off n).shares = s.shares := by obtain ⟨e, f, c, h⟩ := s.bumpBy_frame off n; rw [h]
@[simp] theorem State.bumpBy_gmap : (s.bumpBy off n).gmap = s.gmap := by obtain ⟨e, f, c, h⟩ := s.bumpBy_frame off n; rw [h]
@[simp] theorem State.bumpBy_rmap : (s.bumpBy off n).rmap = s.rmap := by obtain ⟨e, f, c, h⟩ := s.bumpBy_frame off n; rw [h]
@[simp] theorem State.bumpBy_prots : (s.bumpBy off n).prots = s.prots := by obtain ⟨e, f, c, h⟩ := s.bumpBy_frame off n; rw [h]
@[simp] theorem State.bumpBy_combs : (s.bumpBy off n).combs = s.combs := by obtain ⟨e, f, c, h⟩ := s.bumpBy_frame off n; rw [h]
@[simp] theorem State.bumpBy_group : (s.bumpBy off n).group = s.group := by obtain ⟨e, f, c, h⟩ := s.bumpBy_frame off n; rw [h]
@[simp] theorem State.bumpBy_elder : (s.bumpBy off n).elder = s.elder := by obtain ⟨e, f, c, h⟩ := s.bumpBy_frame off n; rw [h]
@[simp] theorem State.bumpBy_regions : (s.bumpBy off n).regions = s.regions := by obtain ⟨e, f, c, h⟩ := s.bumpBy_frame off n; rw [h]
@[simp] theorem State.bumpBy_slices : (s.bumpBy off n).slices = s.slices := by obtain ⟨e, f, c, h⟩ := s.bumpBy_frame off n; rw [h]
@[simp] theorem State.bumpBy_agents : (s.bumpBy off n).agents = s.agents := by obtain ⟨e, f, c, h⟩ := s.bumpBy_frame off n; rw [h]
@[simp] theorem State.bumpBy_pred : (s.bumpBy off n).pred = s.pred := by obtain ⟨e, f, c, h⟩ := s.bumpBy_frame off n; rw [h]
@[simp] theorem State.bumpBy_orphanScan : (s.bumpBy off n).orphanScan = s.orphanScan := by obtain ⟨e, f, c, h⟩ := s.bumpBy_frame off n; rw [h]
@[simp] theorem State.bumpBy_dram : (s.bumpBy off n).dram = s.dram := by obtain ⟨e, f, c, h⟩ := s.bumpBy_frame off n; rw [h]
@[simp] theorem State.bumpBy_lines : (s.bumpBy off n).lines = s.lines := by obtain ⟨e, f, c, h⟩ := s.bumpBy_frame off n; rw [h]
@[simp] theorem State.bumpBy_splits : (s.bumpBy off n).splits = s.splits := by obtain ⟨e, f, c, h⟩ := s.bumpBy_frame off n; rw [h]
@[simp] theorem State.bumpBy_nextSplit : (s.bumpBy off n).nextSplit = s.nextSplit := by obtain ⟨e, f, c, h⟩ := s.bumpBy_frame off n; rw [h]
@[simp] theorem State.bumpBy_stks : (s.bumpBy off n).stks = s.stks := by obtain ⟨e, f, c, h⟩ := s.bumpBy_frame off n; rw [h]
@[simp] theorem State.bumpBy_mem : (s.bumpBy off n).mem = s.mem := by obtain ⟨e, f, c, h⟩ := s.bumpBy_frame off n; rw [h]
@[simp] theorem State.bumpBy_tiles : (s.bumpBy off n).tiles = s.tiles := by obtain ⟨e, f, c, h⟩ := s.bumpBy_frame off n; rw [h]
@[simp] theorem State.bumpBy_lands : (s.bumpBy off n).lands = s.lands := by obtain ⟨e, f, c, h⟩ := s.bumpBy_frame off n; rw [h]
@[simp] theorem State.bumpBy_walkers : (s.bumpBy off n).walkers = s.walkers := by obtain ⟨e, f, c, h⟩ := s.bumpBy_frame off n; rw [h]
@[simp] theorem State.bumpBy_keeper : (s.bumpBy off n).keeper = s.keeper := by obtain ⟨e, f, c, h⟩ := s.bumpBy_frame off n; rw [h]
@[simp] theorem State.bumpBy_repl : (s.bumpBy off n).repl = s.repl := by obtain ⟨e, f, c, h⟩ := s.bumpBy_frame off n; rw [h]
@[simp] theorem State.bumpBy_sched : (s.bumpBy off n).sched = s.sched := by obtain ⟨e, f, c, h⟩ := s.bumpBy_frame off n; rw [h]
@[simp] theorem State.bumpBy_ports : (s.bumpBy off n).ports = s.ports := by obtain ⟨e, f, c, h⟩ := s.bumpBy_frame off n; rw [h]
@[simp] theorem State.bumpBy_dies : (s.bumpBy off n).dies = s.dies := by obtain ⟨e, f, c, h⟩ := s.bumpBy_frame off n; rw [h]
@[simp] theorem State.bumpBy_node : (s.bumpBy off n).node = s.node := by obtain ⟨e, f, c, h⟩ := s.bumpBy_frame off n; rw [h]
@[simp] theorem State.bumpBy_rx : (s.bumpBy off n).rx = s.rx := by obtain ⟨e, f, c, h⟩ := s.bumpBy_frame off n; rw [h]
@[simp] theorem State.bumpBy_tx : (s.bumpBy off n).tx = s.tx := by obtain ⟨e, f, c, h⟩ := s.bumpBy_frame off n; rw [h]
@[simp] theorem State.bumpBy_origs : (s.bumpBy off n).origs = s.origs := by obtain ⟨e, f, c, h⟩ := s.bumpBy_frame off n; rw [h]
@[simp] theorem State.bumpBy_fwds : (s.bumpBy off n).fwds = s.fwds := by obtain ⟨e, f, c, h⟩ := s.bumpBy_frame off n; rw [h]
@[simp] theorem State.bumpBy_nextRtag : (s.bumpBy off n).nextRtag = s.nextRtag := by obtain ⟨e, f, c, h⟩ := s.bumpBy_frame off n; rw [h]
@[simp] theorem State.bumpBy_released : (s.bumpBy off n).released = s.released := by obtain ⟨e, f, c, h⟩ := s.bumpBy_frame off n; rw [h]
@[simp] theorem State.bumpBy_limits : (s.bumpBy off n).limits = s.limits := by obtain ⟨e, f, c, h⟩ := s.bumpBy_frame off n; rw [h]
@[simp] theorem State.bumpBy_limHeld : (s.bumpBy off n).limHeld = s.limHeld := by obtain ⟨e, f, c, h⟩ := s.bumpBy_frame off n; rw [h]
@[simp] theorem State.bumpBy_admHeld : (s.bumpBy off n).admHeld = s.admHeld := by obtain ⟨e, f, c, h⟩ := s.bumpBy_frame off n; rw [h]
@[simp] theorem State.bumpBy_qor : (s.bumpBy off n).qor = s.qor := by obtain ⟨e, f, c, h⟩ := s.bumpBy_frame off n; rw [h]
@[simp] theorem State.bumpBy_mboxes : (s.bumpBy off n).mboxes = s.mboxes := by obtain ⟨e, f, c, h⟩ := s.bumpBy_frame off n; rw [h]
@[simp] theorem State.bumpBy_cmds : (s.bumpBy off n).cmds = s.cmds := by obtain ⟨e, f, c, h⟩ := s.bumpBy_frame off n; rw [h]
@[simp] theorem State.bumpBy_stew : (s.bumpBy off n).stew = s.stew := by obtain ⟨e, f, c, h⟩ := s.bumpBy_frame off n; rw [h]
@[simp] theorem State.bumpBy_journal : (s.bumpBy off n).journal = s.journal := by obtain ⟨e, f, c, h⟩ := s.bumpBy_frame off n; rw [h]
@[simp] theorem State.bumpBy_vectors : (s.bumpBy off n).vectors = s.vectors := by obtain ⟨e, f, c, h⟩ := s.bumpBy_frame off n; rw [h]
@[simp] theorem State.bumpBy_rings : (s.bumpBy off n).rings = s.rings := by obtain ⟨e, f, c, h⟩ := s.bumpBy_frame off n; rw [h]
@[simp] theorem State.bumpBy_keys : (s.bumpBy off n).keys = s.keys := by obtain ⟨e, f, c, h⟩ := s.bumpBy_frame off n; rw [h]
@[simp] theorem State.bumpBy_derived : (s.bumpBy off n).derived = s.derived := by obtain ⟨e, f, c, h⟩ := s.bumpBy_frame off n; rw [h]
end

section
variable (s : State) (blk k : Nat)
@[simp] theorem State.bump_pending : (s.bump blk k).pending = s.pending := by obtain ⟨e, f, c, h⟩ := s.bump_frame blk k; rw [h]
@[simp] theorem State.bump_fresh : (s.bump blk k).fresh = s.fresh := by obtain ⟨e, f, c, h⟩ := s.bump_frame blk k; rw [h]
@[simp] theorem State.bump_now : (s.bump blk k).now = s.now := by obtain ⟨e, f, c, h⟩ := s.bump_frame blk k; rw [h]
@[simp] theorem State.bump_pwr : (s.bump blk k).pwr = s.pwr := by obtain ⟨e, f, c, h⟩ := s.bump_frame blk k; rw [h]
@[simp] theorem State.bump_sensors : (s.bump blk k).sensors = s.sensors := by obtain ⟨e, f, c, h⟩ := s.bump_frame blk k; rw [h]
@[simp] theorem State.bump_parts : (s.bump blk k).parts = s.parts := by obtain ⟨e, f, c, h⟩ := s.bump_frame blk k; rw [h]
@[simp] theorem State.bump_ctxs : (s.bump blk k).ctxs = s.ctxs := by obtain ⟨e, f, c, h⟩ := s.bump_frame blk k; rw [h]
@[simp] theorem State.bump_exts : (s.bump blk k).exts = s.exts := by obtain ⟨e, f, c, h⟩ := s.bump_frame blk k; rw [h]
@[simp] theorem State.bump_shares : (s.bump blk k).shares = s.shares := by obtain ⟨e, f, c, h⟩ := s.bump_frame blk k; rw [h]
@[simp] theorem State.bump_gmap : (s.bump blk k).gmap = s.gmap := by obtain ⟨e, f, c, h⟩ := s.bump_frame blk k; rw [h]
@[simp] theorem State.bump_rmap : (s.bump blk k).rmap = s.rmap := by obtain ⟨e, f, c, h⟩ := s.bump_frame blk k; rw [h]
@[simp] theorem State.bump_prots : (s.bump blk k).prots = s.prots := by obtain ⟨e, f, c, h⟩ := s.bump_frame blk k; rw [h]
@[simp] theorem State.bump_combs : (s.bump blk k).combs = s.combs := by obtain ⟨e, f, c, h⟩ := s.bump_frame blk k; rw [h]
@[simp] theorem State.bump_group : (s.bump blk k).group = s.group := by obtain ⟨e, f, c, h⟩ := s.bump_frame blk k; rw [h]
@[simp] theorem State.bump_elder : (s.bump blk k).elder = s.elder := by obtain ⟨e, f, c, h⟩ := s.bump_frame blk k; rw [h]
@[simp] theorem State.bump_regions : (s.bump blk k).regions = s.regions := by obtain ⟨e, f, c, h⟩ := s.bump_frame blk k; rw [h]
@[simp] theorem State.bump_slices : (s.bump blk k).slices = s.slices := by obtain ⟨e, f, c, h⟩ := s.bump_frame blk k; rw [h]
@[simp] theorem State.bump_agents : (s.bump blk k).agents = s.agents := by obtain ⟨e, f, c, h⟩ := s.bump_frame blk k; rw [h]
@[simp] theorem State.bump_pred : (s.bump blk k).pred = s.pred := by obtain ⟨e, f, c, h⟩ := s.bump_frame blk k; rw [h]
@[simp] theorem State.bump_orphanScan : (s.bump blk k).orphanScan = s.orphanScan := by obtain ⟨e, f, c, h⟩ := s.bump_frame blk k; rw [h]
@[simp] theorem State.bump_dram : (s.bump blk k).dram = s.dram := by obtain ⟨e, f, c, h⟩ := s.bump_frame blk k; rw [h]
@[simp] theorem State.bump_lines : (s.bump blk k).lines = s.lines := by obtain ⟨e, f, c, h⟩ := s.bump_frame blk k; rw [h]
@[simp] theorem State.bump_splits : (s.bump blk k).splits = s.splits := by obtain ⟨e, f, c, h⟩ := s.bump_frame blk k; rw [h]
@[simp] theorem State.bump_nextSplit : (s.bump blk k).nextSplit = s.nextSplit := by obtain ⟨e, f, c, h⟩ := s.bump_frame blk k; rw [h]
@[simp] theorem State.bump_stks : (s.bump blk k).stks = s.stks := by obtain ⟨e, f, c, h⟩ := s.bump_frame blk k; rw [h]
@[simp] theorem State.bump_mem : (s.bump blk k).mem = s.mem := by obtain ⟨e, f, c, h⟩ := s.bump_frame blk k; rw [h]
@[simp] theorem State.bump_tiles : (s.bump blk k).tiles = s.tiles := by obtain ⟨e, f, c, h⟩ := s.bump_frame blk k; rw [h]
@[simp] theorem State.bump_lands : (s.bump blk k).lands = s.lands := by obtain ⟨e, f, c, h⟩ := s.bump_frame blk k; rw [h]
@[simp] theorem State.bump_walkers : (s.bump blk k).walkers = s.walkers := by obtain ⟨e, f, c, h⟩ := s.bump_frame blk k; rw [h]
@[simp] theorem State.bump_keeper : (s.bump blk k).keeper = s.keeper := by obtain ⟨e, f, c, h⟩ := s.bump_frame blk k; rw [h]
@[simp] theorem State.bump_repl : (s.bump blk k).repl = s.repl := by obtain ⟨e, f, c, h⟩ := s.bump_frame blk k; rw [h]
@[simp] theorem State.bump_sched : (s.bump blk k).sched = s.sched := by obtain ⟨e, f, c, h⟩ := s.bump_frame blk k; rw [h]
@[simp] theorem State.bump_ports : (s.bump blk k).ports = s.ports := by obtain ⟨e, f, c, h⟩ := s.bump_frame blk k; rw [h]
@[simp] theorem State.bump_dies : (s.bump blk k).dies = s.dies := by obtain ⟨e, f, c, h⟩ := s.bump_frame blk k; rw [h]
@[simp] theorem State.bump_node : (s.bump blk k).node = s.node := by obtain ⟨e, f, c, h⟩ := s.bump_frame blk k; rw [h]
@[simp] theorem State.bump_rx : (s.bump blk k).rx = s.rx := by obtain ⟨e, f, c, h⟩ := s.bump_frame blk k; rw [h]
@[simp] theorem State.bump_tx : (s.bump blk k).tx = s.tx := by obtain ⟨e, f, c, h⟩ := s.bump_frame blk k; rw [h]
@[simp] theorem State.bump_origs : (s.bump blk k).origs = s.origs := by obtain ⟨e, f, c, h⟩ := s.bump_frame blk k; rw [h]
@[simp] theorem State.bump_fwds : (s.bump blk k).fwds = s.fwds := by obtain ⟨e, f, c, h⟩ := s.bump_frame blk k; rw [h]
@[simp] theorem State.bump_nextRtag : (s.bump blk k).nextRtag = s.nextRtag := by obtain ⟨e, f, c, h⟩ := s.bump_frame blk k; rw [h]
@[simp] theorem State.bump_released : (s.bump blk k).released = s.released := by obtain ⟨e, f, c, h⟩ := s.bump_frame blk k; rw [h]
@[simp] theorem State.bump_limits : (s.bump blk k).limits = s.limits := by obtain ⟨e, f, c, h⟩ := s.bump_frame blk k; rw [h]
@[simp] theorem State.bump_limHeld : (s.bump blk k).limHeld = s.limHeld := by obtain ⟨e, f, c, h⟩ := s.bump_frame blk k; rw [h]
@[simp] theorem State.bump_admHeld : (s.bump blk k).admHeld = s.admHeld := by obtain ⟨e, f, c, h⟩ := s.bump_frame blk k; rw [h]
@[simp] theorem State.bump_qor : (s.bump blk k).qor = s.qor := by obtain ⟨e, f, c, h⟩ := s.bump_frame blk k; rw [h]
@[simp] theorem State.bump_mboxes : (s.bump blk k).mboxes = s.mboxes := by obtain ⟨e, f, c, h⟩ := s.bump_frame blk k; rw [h]
@[simp] theorem State.bump_cmds : (s.bump blk k).cmds = s.cmds := by obtain ⟨e, f, c, h⟩ := s.bump_frame blk k; rw [h]
@[simp] theorem State.bump_stew : (s.bump blk k).stew = s.stew := by obtain ⟨e, f, c, h⟩ := s.bump_frame blk k; rw [h]
@[simp] theorem State.bump_journal : (s.bump blk k).journal = s.journal := by obtain ⟨e, f, c, h⟩ := s.bump_frame blk k; rw [h]
@[simp] theorem State.bump_vectors : (s.bump blk k).vectors = s.vectors := by obtain ⟨e, f, c, h⟩ := s.bump_frame blk k; rw [h]
@[simp] theorem State.bump_rings : (s.bump blk k).rings = s.rings := by obtain ⟨e, f, c, h⟩ := s.bump_frame blk k; rw [h]
@[simp] theorem State.bump_keys : (s.bump blk k).keys = s.keys := by obtain ⟨e, f, c, h⟩ := s.bump_frame blk k; rw [h]
@[simp] theorem State.bump_derived : (s.bump blk k).derived = s.derived := by obtain ⟨e, f, c, h⟩ := s.bump_frame blk k; rw [h]
end

section
variable (s : State) (blk k : Nat)
@[simp] theorem State.bin_pending : (s.bin blk k).pending = s.pending := by obtain ⟨e, f, c, h⟩ := s.bin_frame blk k; rw [h]
@[simp] theorem State.bin_fresh : (s.bin blk k).fresh = s.fresh := by obtain ⟨e, f, c, h⟩ := s.bin_frame blk k; rw [h]
@[simp] theorem State.bin_now : (s.bin blk k).now = s.now := by obtain ⟨e, f, c, h⟩ := s.bin_frame blk k; rw [h]
@[simp] theorem State.bin_pwr : (s.bin blk k).pwr = s.pwr := by obtain ⟨e, f, c, h⟩ := s.bin_frame blk k; rw [h]
@[simp] theorem State.bin_sensors : (s.bin blk k).sensors = s.sensors := by obtain ⟨e, f, c, h⟩ := s.bin_frame blk k; rw [h]
@[simp] theorem State.bin_parts : (s.bin blk k).parts = s.parts := by obtain ⟨e, f, c, h⟩ := s.bin_frame blk k; rw [h]
@[simp] theorem State.bin_ctxs : (s.bin blk k).ctxs = s.ctxs := by obtain ⟨e, f, c, h⟩ := s.bin_frame blk k; rw [h]
@[simp] theorem State.bin_exts : (s.bin blk k).exts = s.exts := by obtain ⟨e, f, c, h⟩ := s.bin_frame blk k; rw [h]
@[simp] theorem State.bin_shares : (s.bin blk k).shares = s.shares := by obtain ⟨e, f, c, h⟩ := s.bin_frame blk k; rw [h]
@[simp] theorem State.bin_gmap : (s.bin blk k).gmap = s.gmap := by obtain ⟨e, f, c, h⟩ := s.bin_frame blk k; rw [h]
@[simp] theorem State.bin_rmap : (s.bin blk k).rmap = s.rmap := by obtain ⟨e, f, c, h⟩ := s.bin_frame blk k; rw [h]
@[simp] theorem State.bin_prots : (s.bin blk k).prots = s.prots := by obtain ⟨e, f, c, h⟩ := s.bin_frame blk k; rw [h]
@[simp] theorem State.bin_combs : (s.bin blk k).combs = s.combs := by obtain ⟨e, f, c, h⟩ := s.bin_frame blk k; rw [h]
@[simp] theorem State.bin_group : (s.bin blk k).group = s.group := by obtain ⟨e, f, c, h⟩ := s.bin_frame blk k; rw [h]
@[simp] theorem State.bin_elder : (s.bin blk k).elder = s.elder := by obtain ⟨e, f, c, h⟩ := s.bin_frame blk k; rw [h]
@[simp] theorem State.bin_regions : (s.bin blk k).regions = s.regions := by obtain ⟨e, f, c, h⟩ := s.bin_frame blk k; rw [h]
@[simp] theorem State.bin_slices : (s.bin blk k).slices = s.slices := by obtain ⟨e, f, c, h⟩ := s.bin_frame blk k; rw [h]
@[simp] theorem State.bin_agents : (s.bin blk k).agents = s.agents := by obtain ⟨e, f, c, h⟩ := s.bin_frame blk k; rw [h]
@[simp] theorem State.bin_pred : (s.bin blk k).pred = s.pred := by obtain ⟨e, f, c, h⟩ := s.bin_frame blk k; rw [h]
@[simp] theorem State.bin_orphanScan : (s.bin blk k).orphanScan = s.orphanScan := by obtain ⟨e, f, c, h⟩ := s.bin_frame blk k; rw [h]
@[simp] theorem State.bin_dram : (s.bin blk k).dram = s.dram := by obtain ⟨e, f, c, h⟩ := s.bin_frame blk k; rw [h]
@[simp] theorem State.bin_lines : (s.bin blk k).lines = s.lines := by obtain ⟨e, f, c, h⟩ := s.bin_frame blk k; rw [h]
@[simp] theorem State.bin_splits : (s.bin blk k).splits = s.splits := by obtain ⟨e, f, c, h⟩ := s.bin_frame blk k; rw [h]
@[simp] theorem State.bin_nextSplit : (s.bin blk k).nextSplit = s.nextSplit := by obtain ⟨e, f, c, h⟩ := s.bin_frame blk k; rw [h]
@[simp] theorem State.bin_stks : (s.bin blk k).stks = s.stks := by obtain ⟨e, f, c, h⟩ := s.bin_frame blk k; rw [h]
@[simp] theorem State.bin_mem : (s.bin blk k).mem = s.mem := by obtain ⟨e, f, c, h⟩ := s.bin_frame blk k; rw [h]
@[simp] theorem State.bin_tiles : (s.bin blk k).tiles = s.tiles := by obtain ⟨e, f, c, h⟩ := s.bin_frame blk k; rw [h]
@[simp] theorem State.bin_lands : (s.bin blk k).lands = s.lands := by obtain ⟨e, f, c, h⟩ := s.bin_frame blk k; rw [h]
@[simp] theorem State.bin_walkers : (s.bin blk k).walkers = s.walkers := by obtain ⟨e, f, c, h⟩ := s.bin_frame blk k; rw [h]
@[simp] theorem State.bin_keeper : (s.bin blk k).keeper = s.keeper := by obtain ⟨e, f, c, h⟩ := s.bin_frame blk k; rw [h]
@[simp] theorem State.bin_repl : (s.bin blk k).repl = s.repl := by obtain ⟨e, f, c, h⟩ := s.bin_frame blk k; rw [h]
@[simp] theorem State.bin_sched : (s.bin blk k).sched = s.sched := by obtain ⟨e, f, c, h⟩ := s.bin_frame blk k; rw [h]
@[simp] theorem State.bin_ports : (s.bin blk k).ports = s.ports := by obtain ⟨e, f, c, h⟩ := s.bin_frame blk k; rw [h]
@[simp] theorem State.bin_dies : (s.bin blk k).dies = s.dies := by obtain ⟨e, f, c, h⟩ := s.bin_frame blk k; rw [h]
@[simp] theorem State.bin_node : (s.bin blk k).node = s.node := by obtain ⟨e, f, c, h⟩ := s.bin_frame blk k; rw [h]
@[simp] theorem State.bin_rx : (s.bin blk k).rx = s.rx := by obtain ⟨e, f, c, h⟩ := s.bin_frame blk k; rw [h]
@[simp] theorem State.bin_tx : (s.bin blk k).tx = s.tx := by obtain ⟨e, f, c, h⟩ := s.bin_frame blk k; rw [h]
@[simp] theorem State.bin_origs : (s.bin blk k).origs = s.origs := by obtain ⟨e, f, c, h⟩ := s.bin_frame blk k; rw [h]
@[simp] theorem State.bin_fwds : (s.bin blk k).fwds = s.fwds := by obtain ⟨e, f, c, h⟩ := s.bin_frame blk k; rw [h]
@[simp] theorem State.bin_nextRtag : (s.bin blk k).nextRtag = s.nextRtag := by obtain ⟨e, f, c, h⟩ := s.bin_frame blk k; rw [h]
@[simp] theorem State.bin_released : (s.bin blk k).released = s.released := by obtain ⟨e, f, c, h⟩ := s.bin_frame blk k; rw [h]
@[simp] theorem State.bin_limits : (s.bin blk k).limits = s.limits := by obtain ⟨e, f, c, h⟩ := s.bin_frame blk k; rw [h]
@[simp] theorem State.bin_limHeld : (s.bin blk k).limHeld = s.limHeld := by obtain ⟨e, f, c, h⟩ := s.bin_frame blk k; rw [h]
@[simp] theorem State.bin_admHeld : (s.bin blk k).admHeld = s.admHeld := by obtain ⟨e, f, c, h⟩ := s.bin_frame blk k; rw [h]
@[simp] theorem State.bin_qor : (s.bin blk k).qor = s.qor := by obtain ⟨e, f, c, h⟩ := s.bin_frame blk k; rw [h]
@[simp] theorem State.bin_mboxes : (s.bin blk k).mboxes = s.mboxes := by obtain ⟨e, f, c, h⟩ := s.bin_frame blk k; rw [h]
@[simp] theorem State.bin_cmds : (s.bin blk k).cmds = s.cmds := by obtain ⟨e, f, c, h⟩ := s.bin_frame blk k; rw [h]
@[simp] theorem State.bin_stew : (s.bin blk k).stew = s.stew := by obtain ⟨e, f, c, h⟩ := s.bin_frame blk k; rw [h]
@[simp] theorem State.bin_journal : (s.bin blk k).journal = s.journal := by obtain ⟨e, f, c, h⟩ := s.bin_frame blk k; rw [h]
@[simp] theorem State.bin_vectors : (s.bin blk k).vectors = s.vectors := by obtain ⟨e, f, c, h⟩ := s.bin_frame blk k; rw [h]
@[simp] theorem State.bin_rings : (s.bin blk k).rings = s.rings := by obtain ⟨e, f, c, h⟩ := s.bin_frame blk k; rw [h]
@[simp] theorem State.bin_keys : (s.bin blk k).keys = s.keys := by obtain ⟨e, f, c, h⟩ := s.bin_frame blk k; rw [h]
@[simp] theorem State.bin_derived : (s.bin blk k).derived = s.derived := by obtain ⟨e, f, c, h⟩ := s.bin_frame blk k; rw [h]
end

section
variable (s : State) (blk k n : Nat)
@[simp] theorem State.time_pending : (s.time blk k n).pending = s.pending := by obtain ⟨e, f, c, h⟩ := s.time_frame blk k n; rw [h]
@[simp] theorem State.time_fresh : (s.time blk k n).fresh = s.fresh := by obtain ⟨e, f, c, h⟩ := s.time_frame blk k n; rw [h]
@[simp] theorem State.time_now : (s.time blk k n).now = s.now := by obtain ⟨e, f, c, h⟩ := s.time_frame blk k n; rw [h]
@[simp] theorem State.time_pwr : (s.time blk k n).pwr = s.pwr := by obtain ⟨e, f, c, h⟩ := s.time_frame blk k n; rw [h]
@[simp] theorem State.time_sensors : (s.time blk k n).sensors = s.sensors := by obtain ⟨e, f, c, h⟩ := s.time_frame blk k n; rw [h]
@[simp] theorem State.time_parts : (s.time blk k n).parts = s.parts := by obtain ⟨e, f, c, h⟩ := s.time_frame blk k n; rw [h]
@[simp] theorem State.time_ctxs : (s.time blk k n).ctxs = s.ctxs := by obtain ⟨e, f, c, h⟩ := s.time_frame blk k n; rw [h]
@[simp] theorem State.time_exts : (s.time blk k n).exts = s.exts := by obtain ⟨e, f, c, h⟩ := s.time_frame blk k n; rw [h]
@[simp] theorem State.time_shares : (s.time blk k n).shares = s.shares := by obtain ⟨e, f, c, h⟩ := s.time_frame blk k n; rw [h]
@[simp] theorem State.time_gmap : (s.time blk k n).gmap = s.gmap := by obtain ⟨e, f, c, h⟩ := s.time_frame blk k n; rw [h]
@[simp] theorem State.time_rmap : (s.time blk k n).rmap = s.rmap := by obtain ⟨e, f, c, h⟩ := s.time_frame blk k n; rw [h]
@[simp] theorem State.time_prots : (s.time blk k n).prots = s.prots := by obtain ⟨e, f, c, h⟩ := s.time_frame blk k n; rw [h]
@[simp] theorem State.time_combs : (s.time blk k n).combs = s.combs := by obtain ⟨e, f, c, h⟩ := s.time_frame blk k n; rw [h]
@[simp] theorem State.time_group : (s.time blk k n).group = s.group := by obtain ⟨e, f, c, h⟩ := s.time_frame blk k n; rw [h]
@[simp] theorem State.time_elder : (s.time blk k n).elder = s.elder := by obtain ⟨e, f, c, h⟩ := s.time_frame blk k n; rw [h]
@[simp] theorem State.time_regions : (s.time blk k n).regions = s.regions := by obtain ⟨e, f, c, h⟩ := s.time_frame blk k n; rw [h]
@[simp] theorem State.time_slices : (s.time blk k n).slices = s.slices := by obtain ⟨e, f, c, h⟩ := s.time_frame blk k n; rw [h]
@[simp] theorem State.time_agents : (s.time blk k n).agents = s.agents := by obtain ⟨e, f, c, h⟩ := s.time_frame blk k n; rw [h]
@[simp] theorem State.time_pred : (s.time blk k n).pred = s.pred := by obtain ⟨e, f, c, h⟩ := s.time_frame blk k n; rw [h]
@[simp] theorem State.time_orphanScan : (s.time blk k n).orphanScan = s.orphanScan := by obtain ⟨e, f, c, h⟩ := s.time_frame blk k n; rw [h]
@[simp] theorem State.time_dram : (s.time blk k n).dram = s.dram := by obtain ⟨e, f, c, h⟩ := s.time_frame blk k n; rw [h]
@[simp] theorem State.time_lines : (s.time blk k n).lines = s.lines := by obtain ⟨e, f, c, h⟩ := s.time_frame blk k n; rw [h]
@[simp] theorem State.time_splits : (s.time blk k n).splits = s.splits := by obtain ⟨e, f, c, h⟩ := s.time_frame blk k n; rw [h]
@[simp] theorem State.time_nextSplit : (s.time blk k n).nextSplit = s.nextSplit := by obtain ⟨e, f, c, h⟩ := s.time_frame blk k n; rw [h]
@[simp] theorem State.time_stks : (s.time blk k n).stks = s.stks := by obtain ⟨e, f, c, h⟩ := s.time_frame blk k n; rw [h]
@[simp] theorem State.time_mem : (s.time blk k n).mem = s.mem := by obtain ⟨e, f, c, h⟩ := s.time_frame blk k n; rw [h]
@[simp] theorem State.time_tiles : (s.time blk k n).tiles = s.tiles := by obtain ⟨e, f, c, h⟩ := s.time_frame blk k n; rw [h]
@[simp] theorem State.time_lands : (s.time blk k n).lands = s.lands := by obtain ⟨e, f, c, h⟩ := s.time_frame blk k n; rw [h]
@[simp] theorem State.time_walkers : (s.time blk k n).walkers = s.walkers := by obtain ⟨e, f, c, h⟩ := s.time_frame blk k n; rw [h]
@[simp] theorem State.time_keeper : (s.time blk k n).keeper = s.keeper := by obtain ⟨e, f, c, h⟩ := s.time_frame blk k n; rw [h]
@[simp] theorem State.time_repl : (s.time blk k n).repl = s.repl := by obtain ⟨e, f, c, h⟩ := s.time_frame blk k n; rw [h]
@[simp] theorem State.time_sched : (s.time blk k n).sched = s.sched := by obtain ⟨e, f, c, h⟩ := s.time_frame blk k n; rw [h]
@[simp] theorem State.time_ports : (s.time blk k n).ports = s.ports := by obtain ⟨e, f, c, h⟩ := s.time_frame blk k n; rw [h]
@[simp] theorem State.time_dies : (s.time blk k n).dies = s.dies := by obtain ⟨e, f, c, h⟩ := s.time_frame blk k n; rw [h]
@[simp] theorem State.time_node : (s.time blk k n).node = s.node := by obtain ⟨e, f, c, h⟩ := s.time_frame blk k n; rw [h]
@[simp] theorem State.time_rx : (s.time blk k n).rx = s.rx := by obtain ⟨e, f, c, h⟩ := s.time_frame blk k n; rw [h]
@[simp] theorem State.time_tx : (s.time blk k n).tx = s.tx := by obtain ⟨e, f, c, h⟩ := s.time_frame blk k n; rw [h]
@[simp] theorem State.time_origs : (s.time blk k n).origs = s.origs := by obtain ⟨e, f, c, h⟩ := s.time_frame blk k n; rw [h]
@[simp] theorem State.time_fwds : (s.time blk k n).fwds = s.fwds := by obtain ⟨e, f, c, h⟩ := s.time_frame blk k n; rw [h]
@[simp] theorem State.time_nextRtag : (s.time blk k n).nextRtag = s.nextRtag := by obtain ⟨e, f, c, h⟩ := s.time_frame blk k n; rw [h]
@[simp] theorem State.time_released : (s.time blk k n).released = s.released := by obtain ⟨e, f, c, h⟩ := s.time_frame blk k n; rw [h]
@[simp] theorem State.time_limits : (s.time blk k n).limits = s.limits := by obtain ⟨e, f, c, h⟩ := s.time_frame blk k n; rw [h]
@[simp] theorem State.time_limHeld : (s.time blk k n).limHeld = s.limHeld := by obtain ⟨e, f, c, h⟩ := s.time_frame blk k n; rw [h]
@[simp] theorem State.time_admHeld : (s.time blk k n).admHeld = s.admHeld := by obtain ⟨e, f, c, h⟩ := s.time_frame blk k n; rw [h]
@[simp] theorem State.time_qor : (s.time blk k n).qor = s.qor := by obtain ⟨e, f, c, h⟩ := s.time_frame blk k n; rw [h]
@[simp] theorem State.time_mboxes : (s.time blk k n).mboxes = s.mboxes := by obtain ⟨e, f, c, h⟩ := s.time_frame blk k n; rw [h]
@[simp] theorem State.time_cmds : (s.time blk k n).cmds = s.cmds := by obtain ⟨e, f, c, h⟩ := s.time_frame blk k n; rw [h]
@[simp] theorem State.time_stew : (s.time blk k n).stew = s.stew := by obtain ⟨e, f, c, h⟩ := s.time_frame blk k n; rw [h]
@[simp] theorem State.time_journal : (s.time blk k n).journal = s.journal := by obtain ⟨e, f, c, h⟩ := s.time_frame blk k n; rw [h]
@[simp] theorem State.time_vectors : (s.time blk k n).vectors = s.vectors := by obtain ⟨e, f, c, h⟩ := s.time_frame blk k n; rw [h]
@[simp] theorem State.time_rings : (s.time blk k n).rings = s.rings := by obtain ⟨e, f, c, h⟩ := s.time_frame blk k n; rw [h]
@[simp] theorem State.time_keys : (s.time blk k n).keys = s.keys := by obtain ⟨e, f, c, h⟩ := s.time_frame blk k n; rw [h]
@[simp] theorem State.time_derived : (s.time blk k n).derived = s.derived := by obtain ⟨e, f, c, h⟩ := s.time_frame blk k n; rw [h]
end

section
variable (s : State) (t : Nat) (r : NtfRec)
@[simp] theorem State.event_pending : (s.event t r).pending = s.pending := by obtain ⟨g, e, f, c, h⟩ := s.event_frame t r; rw [h]
@[simp] theorem State.event_fresh : (s.event t r).fresh = s.fresh := by obtain ⟨g, e, f, c, h⟩ := s.event_frame t r; rw [h]
@[simp] theorem State.event_now : (s.event t r).now = s.now := by obtain ⟨g, e, f, c, h⟩ := s.event_frame t r; rw [h]
@[simp] theorem State.event_pwr : (s.event t r).pwr = s.pwr := by obtain ⟨g, e, f, c, h⟩ := s.event_frame t r; rw [h]
@[simp] theorem State.event_sensors : (s.event t r).sensors = s.sensors := by obtain ⟨g, e, f, c, h⟩ := s.event_frame t r; rw [h]
@[simp] theorem State.event_parts : (s.event t r).parts = s.parts := by obtain ⟨g, e, f, c, h⟩ := s.event_frame t r; rw [h]
@[simp] theorem State.event_ctxs : (s.event t r).ctxs = s.ctxs := by obtain ⟨g, e, f, c, h⟩ := s.event_frame t r; rw [h]
@[simp] theorem State.event_exts : (s.event t r).exts = s.exts := by obtain ⟨g, e, f, c, h⟩ := s.event_frame t r; rw [h]
@[simp] theorem State.event_shares : (s.event t r).shares = s.shares := by obtain ⟨g, e, f, c, h⟩ := s.event_frame t r; rw [h]
@[simp] theorem State.event_gmap : (s.event t r).gmap = s.gmap := by obtain ⟨g, e, f, c, h⟩ := s.event_frame t r; rw [h]
@[simp] theorem State.event_rmap : (s.event t r).rmap = s.rmap := by obtain ⟨g, e, f, c, h⟩ := s.event_frame t r; rw [h]
@[simp] theorem State.event_prots : (s.event t r).prots = s.prots := by obtain ⟨g, e, f, c, h⟩ := s.event_frame t r; rw [h]
@[simp] theorem State.event_combs : (s.event t r).combs = s.combs := by obtain ⟨g, e, f, c, h⟩ := s.event_frame t r; rw [h]
@[simp] theorem State.event_group : (s.event t r).group = s.group := by obtain ⟨g, e, f, c, h⟩ := s.event_frame t r; rw [h]
@[simp] theorem State.event_elder : (s.event t r).elder = s.elder := by obtain ⟨g, e, f, c, h⟩ := s.event_frame t r; rw [h]
@[simp] theorem State.event_regions : (s.event t r).regions = s.regions := by obtain ⟨g, e, f, c, h⟩ := s.event_frame t r; rw [h]
@[simp] theorem State.event_slices : (s.event t r).slices = s.slices := by obtain ⟨g, e, f, c, h⟩ := s.event_frame t r; rw [h]
@[simp] theorem State.event_agents : (s.event t r).agents = s.agents := by obtain ⟨g, e, f, c, h⟩ := s.event_frame t r; rw [h]
@[simp] theorem State.event_pred : (s.event t r).pred = s.pred := by obtain ⟨g, e, f, c, h⟩ := s.event_frame t r; rw [h]
@[simp] theorem State.event_orphanScan : (s.event t r).orphanScan = s.orphanScan := by obtain ⟨g, e, f, c, h⟩ := s.event_frame t r; rw [h]
@[simp] theorem State.event_dram : (s.event t r).dram = s.dram := by obtain ⟨g, e, f, c, h⟩ := s.event_frame t r; rw [h]
@[simp] theorem State.event_lines : (s.event t r).lines = s.lines := by obtain ⟨g, e, f, c, h⟩ := s.event_frame t r; rw [h]
@[simp] theorem State.event_splits : (s.event t r).splits = s.splits := by obtain ⟨g, e, f, c, h⟩ := s.event_frame t r; rw [h]
@[simp] theorem State.event_nextSplit : (s.event t r).nextSplit = s.nextSplit := by obtain ⟨g, e, f, c, h⟩ := s.event_frame t r; rw [h]
@[simp] theorem State.event_stks : (s.event t r).stks = s.stks := by obtain ⟨g, e, f, c, h⟩ := s.event_frame t r; rw [h]
@[simp] theorem State.event_mem : (s.event t r).mem = s.mem := by obtain ⟨g, e, f, c, h⟩ := s.event_frame t r; rw [h]
@[simp] theorem State.event_tiles : (s.event t r).tiles = s.tiles := by obtain ⟨g, e, f, c, h⟩ := s.event_frame t r; rw [h]
@[simp] theorem State.event_lands : (s.event t r).lands = s.lands := by obtain ⟨g, e, f, c, h⟩ := s.event_frame t r; rw [h]
@[simp] theorem State.event_walkers : (s.event t r).walkers = s.walkers := by obtain ⟨g, e, f, c, h⟩ := s.event_frame t r; rw [h]
@[simp] theorem State.event_keeper : (s.event t r).keeper = s.keeper := by obtain ⟨g, e, f, c, h⟩ := s.event_frame t r; rw [h]
@[simp] theorem State.event_repl : (s.event t r).repl = s.repl := by obtain ⟨g, e, f, c, h⟩ := s.event_frame t r; rw [h]
@[simp] theorem State.event_sched : (s.event t r).sched = s.sched := by obtain ⟨g, e, f, c, h⟩ := s.event_frame t r; rw [h]
@[simp] theorem State.event_ports : (s.event t r).ports = s.ports := by obtain ⟨g, e, f, c, h⟩ := s.event_frame t r; rw [h]
@[simp] theorem State.event_dies : (s.event t r).dies = s.dies := by obtain ⟨g, e, f, c, h⟩ := s.event_frame t r; rw [h]
@[simp] theorem State.event_node : (s.event t r).node = s.node := by obtain ⟨g, e, f, c, h⟩ := s.event_frame t r; rw [h]
@[simp] theorem State.event_rx : (s.event t r).rx = s.rx := by obtain ⟨g, e, f, c, h⟩ := s.event_frame t r; rw [h]
@[simp] theorem State.event_tx : (s.event t r).tx = s.tx := by obtain ⟨g, e, f, c, h⟩ := s.event_frame t r; rw [h]
@[simp] theorem State.event_origs : (s.event t r).origs = s.origs := by obtain ⟨g, e, f, c, h⟩ := s.event_frame t r; rw [h]
@[simp] theorem State.event_fwds : (s.event t r).fwds = s.fwds := by obtain ⟨g, e, f, c, h⟩ := s.event_frame t r; rw [h]
@[simp] theorem State.event_nextRtag : (s.event t r).nextRtag = s.nextRtag := by obtain ⟨g, e, f, c, h⟩ := s.event_frame t r; rw [h]
@[simp] theorem State.event_released : (s.event t r).released = s.released := by obtain ⟨g, e, f, c, h⟩ := s.event_frame t r; rw [h]
@[simp] theorem State.event_limits : (s.event t r).limits = s.limits := by obtain ⟨g, e, f, c, h⟩ := s.event_frame t r; rw [h]
@[simp] theorem State.event_limHeld : (s.event t r).limHeld = s.limHeld := by obtain ⟨g, e, f, c, h⟩ := s.event_frame t r; rw [h]
@[simp] theorem State.event_admHeld : (s.event t r).admHeld = s.admHeld := by obtain ⟨g, e, f, c, h⟩ := s.event_frame t r; rw [h]
@[simp] theorem State.event_qor : (s.event t r).qor = s.qor := by obtain ⟨g, e, f, c, h⟩ := s.event_frame t r; rw [h]
@[simp] theorem State.event_mboxes : (s.event t r).mboxes = s.mboxes := by obtain ⟨g, e, f, c, h⟩ := s.event_frame t r; rw [h]
@[simp] theorem State.event_cmds : (s.event t r).cmds = s.cmds := by obtain ⟨g, e, f, c, h⟩ := s.event_frame t r; rw [h]
@[simp] theorem State.event_stew : (s.event t r).stew = s.stew := by obtain ⟨g, e, f, c, h⟩ := s.event_frame t r; rw [h]
@[simp] theorem State.event_journal : (s.event t r).journal = s.journal := by obtain ⟨g, e, f, c, h⟩ := s.event_frame t r; rw [h]
@[simp] theorem State.event_vectors : (s.event t r).vectors = s.vectors := by obtain ⟨g, e, f, c, h⟩ := s.event_frame t r; rw [h]
@[simp] theorem State.event_keys : (s.event t r).keys = s.keys := by obtain ⟨g, e, f, c, h⟩ := s.event_frame t r; rw [h]
@[simp] theorem State.event_derived : (s.event t r).derived = s.derived := by obtain ⟨g, e, f, c, h⟩ := s.event_frame t r; rw [h]
end

section
variable (s : State) (t : Nat) (r : NtfRec) (j : Option (Nat × Nat))
@[simp] theorem State.doneRec_pending : (s.doneRec t r j).pending = s.pending := by obtain ⟨g, h⟩ := s.doneRec_frame t r j; rw [h]
@[simp] theorem State.doneRec_fresh : (s.doneRec t r j).fresh = s.fresh := by obtain ⟨g, h⟩ := s.doneRec_frame t r j; rw [h]
@[simp] theorem State.doneRec_now : (s.doneRec t r j).now = s.now := by obtain ⟨g, h⟩ := s.doneRec_frame t r j; rw [h]
@[simp] theorem State.doneRec_nv : (s.doneRec t r j).nv = s.nv := by obtain ⟨g, h⟩ := s.doneRec_frame t r j; rw [h]
@[simp] theorem State.doneRec_pwr : (s.doneRec t r j).pwr = s.pwr := by obtain ⟨g, h⟩ := s.doneRec_frame t r j; rw [h]
@[simp] theorem State.doneRec_sensors : (s.doneRec t r j).sensors = s.sensors := by obtain ⟨g, h⟩ := s.doneRec_frame t r j; rw [h]
@[simp] theorem State.doneRec_parts : (s.doneRec t r j).parts = s.parts := by obtain ⟨g, h⟩ := s.doneRec_frame t r j; rw [h]
@[simp] theorem State.doneRec_ctxs : (s.doneRec t r j).ctxs = s.ctxs := by obtain ⟨g, h⟩ := s.doneRec_frame t r j; rw [h]
@[simp] theorem State.doneRec_exts : (s.doneRec t r j).exts = s.exts := by obtain ⟨g, h⟩ := s.doneRec_frame t r j; rw [h]
@[simp] theorem State.doneRec_shares : (s.doneRec t r j).shares = s.shares := by obtain ⟨g, h⟩ := s.doneRec_frame t r j; rw [h]
@[simp] theorem State.doneRec_gmap : (s.doneRec t r j).gmap = s.gmap := by obtain ⟨g, h⟩ := s.doneRec_frame t r j; rw [h]
@[simp] theorem State.doneRec_rmap : (s.doneRec t r j).rmap = s.rmap := by obtain ⟨g, h⟩ := s.doneRec_frame t r j; rw [h]
@[simp] theorem State.doneRec_prots : (s.doneRec t r j).prots = s.prots := by obtain ⟨g, h⟩ := s.doneRec_frame t r j; rw [h]
@[simp] theorem State.doneRec_combs : (s.doneRec t r j).combs = s.combs := by obtain ⟨g, h⟩ := s.doneRec_frame t r j; rw [h]
@[simp] theorem State.doneRec_group : (s.doneRec t r j).group = s.group := by obtain ⟨g, h⟩ := s.doneRec_frame t r j; rw [h]
@[simp] theorem State.doneRec_elder : (s.doneRec t r j).elder = s.elder := by obtain ⟨g, h⟩ := s.doneRec_frame t r j; rw [h]
@[simp] theorem State.doneRec_regions : (s.doneRec t r j).regions = s.regions := by obtain ⟨g, h⟩ := s.doneRec_frame t r j; rw [h]
@[simp] theorem State.doneRec_slices : (s.doneRec t r j).slices = s.slices := by obtain ⟨g, h⟩ := s.doneRec_frame t r j; rw [h]
@[simp] theorem State.doneRec_agents : (s.doneRec t r j).agents = s.agents := by obtain ⟨g, h⟩ := s.doneRec_frame t r j; rw [h]
@[simp] theorem State.doneRec_pred : (s.doneRec t r j).pred = s.pred := by obtain ⟨g, h⟩ := s.doneRec_frame t r j; rw [h]
@[simp] theorem State.doneRec_orphanScan : (s.doneRec t r j).orphanScan = s.orphanScan := by obtain ⟨g, h⟩ := s.doneRec_frame t r j; rw [h]
@[simp] theorem State.doneRec_dram : (s.doneRec t r j).dram = s.dram := by obtain ⟨g, h⟩ := s.doneRec_frame t r j; rw [h]
@[simp] theorem State.doneRec_lines : (s.doneRec t r j).lines = s.lines := by obtain ⟨g, h⟩ := s.doneRec_frame t r j; rw [h]
@[simp] theorem State.doneRec_splits : (s.doneRec t r j).splits = s.splits := by obtain ⟨g, h⟩ := s.doneRec_frame t r j; rw [h]
@[simp] theorem State.doneRec_nextSplit : (s.doneRec t r j).nextSplit = s.nextSplit := by obtain ⟨g, h⟩ := s.doneRec_frame t r j; rw [h]
@[simp] theorem State.doneRec_stks : (s.doneRec t r j).stks = s.stks := by obtain ⟨g, h⟩ := s.doneRec_frame t r j; rw [h]
@[simp] theorem State.doneRec_mem : (s.doneRec t r j).mem = s.mem := by obtain ⟨g, h⟩ := s.doneRec_frame t r j; rw [h]
@[simp] theorem State.doneRec_tiles : (s.doneRec t r j).tiles = s.tiles := by obtain ⟨g, h⟩ := s.doneRec_frame t r j; rw [h]
@[simp] theorem State.doneRec_lands : (s.doneRec t r j).lands = s.lands := by obtain ⟨g, h⟩ := s.doneRec_frame t r j; rw [h]
@[simp] theorem State.doneRec_walkers : (s.doneRec t r j).walkers = s.walkers := by obtain ⟨g, h⟩ := s.doneRec_frame t r j; rw [h]
@[simp] theorem State.doneRec_keeper : (s.doneRec t r j).keeper = s.keeper := by obtain ⟨g, h⟩ := s.doneRec_frame t r j; rw [h]
@[simp] theorem State.doneRec_repl : (s.doneRec t r j).repl = s.repl := by obtain ⟨g, h⟩ := s.doneRec_frame t r j; rw [h]
@[simp] theorem State.doneRec_sched : (s.doneRec t r j).sched = s.sched := by obtain ⟨g, h⟩ := s.doneRec_frame t r j; rw [h]
@[simp] theorem State.doneRec_ports : (s.doneRec t r j).ports = s.ports := by obtain ⟨g, h⟩ := s.doneRec_frame t r j; rw [h]
@[simp] theorem State.doneRec_dies : (s.doneRec t r j).dies = s.dies := by obtain ⟨g, h⟩ := s.doneRec_frame t r j; rw [h]
@[simp] theorem State.doneRec_node : (s.doneRec t r j).node = s.node := by obtain ⟨g, h⟩ := s.doneRec_frame t r j; rw [h]
@[simp] theorem State.doneRec_rx : (s.doneRec t r j).rx = s.rx := by obtain ⟨g, h⟩ := s.doneRec_frame t r j; rw [h]
@[simp] theorem State.doneRec_tx : (s.doneRec t r j).tx = s.tx := by obtain ⟨g, h⟩ := s.doneRec_frame t r j; rw [h]
@[simp] theorem State.doneRec_origs : (s.doneRec t r j).origs = s.origs := by obtain ⟨g, h⟩ := s.doneRec_frame t r j; rw [h]
@[simp] theorem State.doneRec_fwds : (s.doneRec t r j).fwds = s.fwds := by obtain ⟨g, h⟩ := s.doneRec_frame t r j; rw [h]
@[simp] theorem State.doneRec_nextRtag : (s.doneRec t r j).nextRtag = s.nextRtag := by obtain ⟨g, h⟩ := s.doneRec_frame t r j; rw [h]
@[simp] theorem State.doneRec_released : (s.doneRec t r j).released = s.released := by obtain ⟨g, h⟩ := s.doneRec_frame t r j; rw [h]
@[simp] theorem State.doneRec_limits : (s.doneRec t r j).limits = s.limits := by obtain ⟨g, h⟩ := s.doneRec_frame t r j; rw [h]
@[simp] theorem State.doneRec_limHeld : (s.doneRec t r j).limHeld = s.limHeld := by obtain ⟨g, h⟩ := s.doneRec_frame t r j; rw [h]
@[simp] theorem State.doneRec_admHeld : (s.doneRec t r j).admHeld = s.admHeld := by obtain ⟨g, h⟩ := s.doneRec_frame t r j; rw [h]
@[simp] theorem State.doneRec_qor : (s.doneRec t r j).qor = s.qor := by obtain ⟨g, h⟩ := s.doneRec_frame t r j; rw [h]
@[simp] theorem State.doneRec_mboxes : (s.doneRec t r j).mboxes = s.mboxes := by obtain ⟨g, h⟩ := s.doneRec_frame t r j; rw [h]
@[simp] theorem State.doneRec_cmds : (s.doneRec t r j).cmds = s.cmds := by obtain ⟨g, h⟩ := s.doneRec_frame t r j; rw [h]
@[simp] theorem State.doneRec_stew : (s.doneRec t r j).stew = s.stew := by obtain ⟨g, h⟩ := s.doneRec_frame t r j; rw [h]
@[simp] theorem State.doneRec_journal : (s.doneRec t r j).journal = s.journal := by obtain ⟨g, h⟩ := s.doneRec_frame t r j; rw [h]
@[simp] theorem State.doneRec_vectors : (s.doneRec t r j).vectors = s.vectors := by obtain ⟨g, h⟩ := s.doneRec_frame t r j; rw [h]
@[simp] theorem State.doneRec_keys : (s.doneRec t r j).keys = s.keys := by obtain ⟨g, h⟩ := s.doneRec_frame t r j; rw [h]
@[simp] theorem State.doneRec_derived : (s.doneRec t r j).derived = s.derived := by obtain ⟨g, h⟩ := s.doneRec_frame t r j; rw [h]
@[simp] theorem State.doneRec_elog : (s.doneRec t r j).elog = s.elog := by obtain ⟨g, h⟩ := s.doneRec_frame t r j; rw [h]
@[simp] theorem State.doneRec_cnt : (s.doneRec t r j).cnt = s.cnt := by obtain ⟨g, h⟩ := s.doneRec_frame t r j; rw [h]
end

section
variable (s : State) (c : Cmd)
@[simp] theorem State.postReply_pending : (s.postReply c).pending = s.pending := by obtain ⟨cm, mx, rg, jn, h⟩ := s.postReply_frame c; rw [h]
@[simp] theorem State.postReply_fresh : (s.postReply c).fresh = s.fresh := by obtain ⟨cm, mx, rg, jn, h⟩ := s.postReply_frame c; rw [h]
@[simp] theorem State.postReply_now : (s.postReply c).now = s.now := by obtain ⟨cm, mx, rg, jn, h⟩ := s.postReply_frame c; rw [h]
@[simp] theorem State.postReply_nv : (s.postReply c).nv = s.nv := by obtain ⟨cm, mx, rg, jn, h⟩ := s.postReply_frame c; rw [h]
@[simp] theorem State.postReply_pwr : (s.postReply c).pwr = s.pwr := by obtain ⟨cm, mx, rg, jn, h⟩ := s.postReply_frame c; rw [h]
@[simp] theorem State.postReply_sensors : (s.postReply c).sensors = s.sensors := by obtain ⟨cm, mx, rg, jn, h⟩ := s.postReply_frame c; rw [h]
@[simp] theorem State.postReply_parts : (s.postReply c).parts = s.parts := by obtain ⟨cm, mx, rg, jn, h⟩ := s.postReply_frame c; rw [h]
@[simp] theorem State.postReply_ctxs : (s.postReply c).ctxs = s.ctxs := by obtain ⟨cm, mx, rg, jn, h⟩ := s.postReply_frame c; rw [h]
@[simp] theorem State.postReply_exts : (s.postReply c).exts = s.exts := by obtain ⟨cm, mx, rg, jn, h⟩ := s.postReply_frame c; rw [h]
@[simp] theorem State.postReply_shares : (s.postReply c).shares = s.shares := by obtain ⟨cm, mx, rg, jn, h⟩ := s.postReply_frame c; rw [h]
@[simp] theorem State.postReply_gmap : (s.postReply c).gmap = s.gmap := by obtain ⟨cm, mx, rg, jn, h⟩ := s.postReply_frame c; rw [h]
@[simp] theorem State.postReply_rmap : (s.postReply c).rmap = s.rmap := by obtain ⟨cm, mx, rg, jn, h⟩ := s.postReply_frame c; rw [h]
@[simp] theorem State.postReply_prots : (s.postReply c).prots = s.prots := by obtain ⟨cm, mx, rg, jn, h⟩ := s.postReply_frame c; rw [h]
@[simp] theorem State.postReply_combs : (s.postReply c).combs = s.combs := by obtain ⟨cm, mx, rg, jn, h⟩ := s.postReply_frame c; rw [h]
@[simp] theorem State.postReply_group : (s.postReply c).group = s.group := by obtain ⟨cm, mx, rg, jn, h⟩ := s.postReply_frame c; rw [h]
@[simp] theorem State.postReply_elder : (s.postReply c).elder = s.elder := by obtain ⟨cm, mx, rg, jn, h⟩ := s.postReply_frame c; rw [h]
@[simp] theorem State.postReply_regions : (s.postReply c).regions = s.regions := by obtain ⟨cm, mx, rg, jn, h⟩ := s.postReply_frame c; rw [h]
@[simp] theorem State.postReply_slices : (s.postReply c).slices = s.slices := by obtain ⟨cm, mx, rg, jn, h⟩ := s.postReply_frame c; rw [h]
@[simp] theorem State.postReply_agents : (s.postReply c).agents = s.agents := by obtain ⟨cm, mx, rg, jn, h⟩ := s.postReply_frame c; rw [h]
@[simp] theorem State.postReply_pred : (s.postReply c).pred = s.pred := by obtain ⟨cm, mx, rg, jn, h⟩ := s.postReply_frame c; rw [h]
@[simp] theorem State.postReply_orphanScan : (s.postReply c).orphanScan = s.orphanScan := by obtain ⟨cm, mx, rg, jn, h⟩ := s.postReply_frame c; rw [h]
@[simp] theorem State.postReply_dram : (s.postReply c).dram = s.dram := by obtain ⟨cm, mx, rg, jn, h⟩ := s.postReply_frame c; rw [h]
@[simp] theorem State.postReply_lines : (s.postReply c).lines = s.lines := by obtain ⟨cm, mx, rg, jn, h⟩ := s.postReply_frame c; rw [h]
@[simp] theorem State.postReply_splits : (s.postReply c).splits = s.splits := by obtain ⟨cm, mx, rg, jn, h⟩ := s.postReply_frame c; rw [h]
@[simp] theorem State.postReply_nextSplit : (s.postReply c).nextSplit = s.nextSplit := by obtain ⟨cm, mx, rg, jn, h⟩ := s.postReply_frame c; rw [h]
@[simp] theorem State.postReply_stks : (s.postReply c).stks = s.stks := by obtain ⟨cm, mx, rg, jn, h⟩ := s.postReply_frame c; rw [h]
@[simp] theorem State.postReply_mem : (s.postReply c).mem = s.mem := by obtain ⟨cm, mx, rg, jn, h⟩ := s.postReply_frame c; rw [h]
@[simp] theorem State.postReply_tiles : (s.postReply c).tiles = s.tiles := by obtain ⟨cm, mx, rg, jn, h⟩ := s.postReply_frame c; rw [h]
@[simp] theorem State.postReply_lands : (s.postReply c).lands = s.lands := by obtain ⟨cm, mx, rg, jn, h⟩ := s.postReply_frame c; rw [h]
@[simp] theorem State.postReply_walkers : (s.postReply c).walkers = s.walkers := by obtain ⟨cm, mx, rg, jn, h⟩ := s.postReply_frame c; rw [h]
@[simp] theorem State.postReply_keeper : (s.postReply c).keeper = s.keeper := by obtain ⟨cm, mx, rg, jn, h⟩ := s.postReply_frame c; rw [h]
@[simp] theorem State.postReply_repl : (s.postReply c).repl = s.repl := by obtain ⟨cm, mx, rg, jn, h⟩ := s.postReply_frame c; rw [h]
@[simp] theorem State.postReply_sched : (s.postReply c).sched = s.sched := by obtain ⟨cm, mx, rg, jn, h⟩ := s.postReply_frame c; rw [h]
@[simp] theorem State.postReply_ports : (s.postReply c).ports = s.ports := by obtain ⟨cm, mx, rg, jn, h⟩ := s.postReply_frame c; rw [h]
@[simp] theorem State.postReply_dies : (s.postReply c).dies = s.dies := by obtain ⟨cm, mx, rg, jn, h⟩ := s.postReply_frame c; rw [h]
@[simp] theorem State.postReply_node : (s.postReply c).node = s.node := by obtain ⟨cm, mx, rg, jn, h⟩ := s.postReply_frame c; rw [h]
@[simp] theorem State.postReply_rx : (s.postReply c).rx = s.rx := by obtain ⟨cm, mx, rg, jn, h⟩ := s.postReply_frame c; rw [h]
@[simp] theorem State.postReply_tx : (s.postReply c).tx = s.tx := by obtain ⟨cm, mx, rg, jn, h⟩ := s.postReply_frame c; rw [h]
@[simp] theorem State.postReply_origs : (s.postReply c).origs = s.origs := by obtain ⟨cm, mx, rg, jn, h⟩ := s.postReply_frame c; rw [h]
@[simp] theorem State.postReply_fwds : (s.postReply c).fwds = s.fwds := by obtain ⟨cm, mx, rg, jn, h⟩ := s.postReply_frame c; rw [h]
@[simp] theorem State.postReply_nextRtag : (s.postReply c).nextRtag = s.nextRtag := by obtain ⟨cm, mx, rg, jn, h⟩ := s.postReply_frame c; rw [h]
@[simp] theorem State.postReply_released : (s.postReply c).released = s.released := by obtain ⟨cm, mx, rg, jn, h⟩ := s.postReply_frame c; rw [h]
@[simp] theorem State.postReply_limits : (s.postReply c).limits = s.limits := by obtain ⟨cm, mx, rg, jn, h⟩ := s.postReply_frame c; rw [h]
@[simp] theorem State.postReply_limHeld : (s.postReply c).limHeld = s.limHeld := by obtain ⟨cm, mx, rg, jn, h⟩ := s.postReply_frame c; rw [h]
@[simp] theorem State.postReply_admHeld : (s.postReply c).admHeld = s.admHeld := by obtain ⟨cm, mx, rg, jn, h⟩ := s.postReply_frame c; rw [h]
@[simp] theorem State.postReply_qor : (s.postReply c).qor = s.qor := by obtain ⟨cm, mx, rg, jn, h⟩ := s.postReply_frame c; rw [h]
@[simp] theorem State.postReply_stew : (s.postReply c).stew = s.stew := by obtain ⟨cm, mx, rg, jn, h⟩ := s.postReply_frame c; rw [h]
@[simp] theorem State.postReply_vectors : (s.postReply c).vectors = s.vectors := by obtain ⟨cm, mx, rg, jn, h⟩ := s.postReply_frame c; rw [h]
@[simp] theorem State.postReply_keys : (s.postReply c).keys = s.keys := by obtain ⟨cm, mx, rg, jn, h⟩ := s.postReply_frame c; rw [h]
@[simp] theorem State.postReply_derived : (s.postReply c).derived = s.derived := by obtain ⟨cm, mx, rg, jn, h⟩ := s.postReply_frame c; rw [h]
@[simp] theorem State.postReply_elog : (s.postReply c).elog = s.elog := by obtain ⟨cm, mx, rg, jn, h⟩ := s.postReply_frame c; rw [h]
@[simp] theorem State.postReply_cnt : (s.postReply c).cnt = s.cnt := by obtain ⟨cm, mx, rg, jn, h⟩ := s.postReply_frame c; rw [h]
end

section
variable (s : State) 
@[simp] theorem State.postReady_pending : s.postReady.pending = s.pending := by obtain ⟨cm, mx, rg, jn, h⟩ := s.postReady_frame; rw [h]
@[simp] theorem State.postReady_fresh : s.postReady.fresh = s.fresh := by obtain ⟨cm, mx, rg, jn, h⟩ := s.postReady_frame; rw [h]
@[simp] theorem State.postReady_now : s.postReady.now = s.now := by obtain ⟨cm, mx, rg, jn, h⟩ := s.postReady_frame; rw [h]
@[simp] theorem State.postReady_nv : s.postReady.nv = s.nv := by obtain ⟨cm, mx, rg, jn, h⟩ := s.postReady_frame; rw [h]
@[simp] theorem State.postReady_pwr : s.postReady.pwr = s.pwr := by obtain ⟨cm, mx, rg, jn, h⟩ := s.postReady_frame; rw [h]
@[simp] theorem State.postReady_sensors : s.postReady.sensors = s.sensors := by obtain ⟨cm, mx, rg, jn, h⟩ := s.postReady_frame; rw [h]
@[simp] theorem State.postReady_parts : s.postReady.parts = s.parts := by obtain ⟨cm, mx, rg, jn, h⟩ := s.postReady_frame; rw [h]
@[simp] theorem State.postReady_ctxs : s.postReady.ctxs = s.ctxs := by obtain ⟨cm, mx, rg, jn, h⟩ := s.postReady_frame; rw [h]
@[simp] theorem State.postReady_exts : s.postReady.exts = s.exts := by obtain ⟨cm, mx, rg, jn, h⟩ := s.postReady_frame; rw [h]
@[simp] theorem State.postReady_shares : s.postReady.shares = s.shares := by obtain ⟨cm, mx, rg, jn, h⟩ := s.postReady_frame; rw [h]
@[simp] theorem State.postReady_gmap : s.postReady.gmap = s.gmap := by obtain ⟨cm, mx, rg, jn, h⟩ := s.postReady_frame; rw [h]
@[simp] theorem State.postReady_rmap : s.postReady.rmap = s.rmap := by obtain ⟨cm, mx, rg, jn, h⟩ := s.postReady_frame; rw [h]
@[simp] theorem State.postReady_prots : s.postReady.prots = s.prots := by obtain ⟨cm, mx, rg, jn, h⟩ := s.postReady_frame; rw [h]
@[simp] theorem State.postReady_combs : s.postReady.combs = s.combs := by obtain ⟨cm, mx, rg, jn, h⟩ := s.postReady_frame; rw [h]
@[simp] theorem State.postReady_group : s.postReady.group = s.group := by obtain ⟨cm, mx, rg, jn, h⟩ := s.postReady_frame; rw [h]
@[simp] theorem State.postReady_elder : s.postReady.elder = s.elder := by obtain ⟨cm, mx, rg, jn, h⟩ := s.postReady_frame; rw [h]
@[simp] theorem State.postReady_regions : s.postReady.regions = s.regions := by obtain ⟨cm, mx, rg, jn, h⟩ := s.postReady_frame; rw [h]
@[simp] theorem State.postReady_slices : s.postReady.slices = s.slices := by obtain ⟨cm, mx, rg, jn, h⟩ := s.postReady_frame; rw [h]
@[simp] theorem State.postReady_agents : s.postReady.agents = s.agents := by obtain ⟨cm, mx, rg, jn, h⟩ := s.postReady_frame; rw [h]
@[simp] theorem State.postReady_pred : s.postReady.pred = s.pred := by obtain ⟨cm, mx, rg, jn, h⟩ := s.postReady_frame; rw [h]
@[simp] theorem State.postReady_orphanScan : s.postReady.orphanScan = s.orphanScan := by obtain ⟨cm, mx, rg, jn, h⟩ := s.postReady_frame; rw [h]
@[simp] theorem State.postReady_dram : s.postReady.dram = s.dram := by obtain ⟨cm, mx, rg, jn, h⟩ := s.postReady_frame; rw [h]
@[simp] theorem State.postReady_lines : s.postReady.lines = s.lines := by obtain ⟨cm, mx, rg, jn, h⟩ := s.postReady_frame; rw [h]
@[simp] theorem State.postReady_splits : s.postReady.splits = s.splits := by obtain ⟨cm, mx, rg, jn, h⟩ := s.postReady_frame; rw [h]
@[simp] theorem State.postReady_nextSplit : s.postReady.nextSplit = s.nextSplit := by obtain ⟨cm, mx, rg, jn, h⟩ := s.postReady_frame; rw [h]
@[simp] theorem State.postReady_stks : s.postReady.stks = s.stks := by obtain ⟨cm, mx, rg, jn, h⟩ := s.postReady_frame; rw [h]
@[simp] theorem State.postReady_mem : s.postReady.mem = s.mem := by obtain ⟨cm, mx, rg, jn, h⟩ := s.postReady_frame; rw [h]
@[simp] theorem State.postReady_tiles : s.postReady.tiles = s.tiles := by obtain ⟨cm, mx, rg, jn, h⟩ := s.postReady_frame; rw [h]
@[simp] theorem State.postReady_lands : s.postReady.lands = s.lands := by obtain ⟨cm, mx, rg, jn, h⟩ := s.postReady_frame; rw [h]
@[simp] theorem State.postReady_walkers : s.postReady.walkers = s.walkers := by obtain ⟨cm, mx, rg, jn, h⟩ := s.postReady_frame; rw [h]
@[simp] theorem State.postReady_keeper : s.postReady.keeper = s.keeper := by obtain ⟨cm, mx, rg, jn, h⟩ := s.postReady_frame; rw [h]
@[simp] theorem State.postReady_repl : s.postReady.repl = s.repl := by obtain ⟨cm, mx, rg, jn, h⟩ := s.postReady_frame; rw [h]
@[simp] theorem State.postReady_sched : s.postReady.sched = s.sched := by obtain ⟨cm, mx, rg, jn, h⟩ := s.postReady_frame; rw [h]
@[simp] theorem State.postReady_ports : s.postReady.ports = s.ports := by obtain ⟨cm, mx, rg, jn, h⟩ := s.postReady_frame; rw [h]
@[simp] theorem State.postReady_dies : s.postReady.dies = s.dies := by obtain ⟨cm, mx, rg, jn, h⟩ := s.postReady_frame; rw [h]
@[simp] theorem State.postReady_node : s.postReady.node = s.node := by obtain ⟨cm, mx, rg, jn, h⟩ := s.postReady_frame; rw [h]
@[simp] theorem State.postReady_rx : s.postReady.rx = s.rx := by obtain ⟨cm, mx, rg, jn, h⟩ := s.postReady_frame; rw [h]
@[simp] theorem State.postReady_tx : s.postReady.tx = s.tx := by obtain ⟨cm, mx, rg, jn, h⟩ := s.postReady_frame; rw [h]
@[simp] theorem State.postReady_origs : s.postReady.origs = s.origs := by obtain ⟨cm, mx, rg, jn, h⟩ := s.postReady_frame; rw [h]
@[simp] theorem State.postReady_fwds : s.postReady.fwds = s.fwds := by obtain ⟨cm, mx, rg, jn, h⟩ := s.postReady_frame; rw [h]
@[simp] theorem State.postReady_nextRtag : s.postReady.nextRtag = s.nextRtag := by obtain ⟨cm, mx, rg, jn, h⟩ := s.postReady_frame; rw [h]
@[simp] theorem State.postReady_released : s.postReady.released = s.released := by obtain ⟨cm, mx, rg, jn, h⟩ := s.postReady_frame; rw [h]
@[simp] theorem State.postReady_limits : s.postReady.limits = s.limits := by obtain ⟨cm, mx, rg, jn, h⟩ := s.postReady_frame; rw [h]
@[simp] theorem State.postReady_limHeld : s.postReady.limHeld = s.limHeld := by obtain ⟨cm, mx, rg, jn, h⟩ := s.postReady_frame; rw [h]
@[simp] theorem State.postReady_admHeld : s.postReady.admHeld = s.admHeld := by obtain ⟨cm, mx, rg, jn, h⟩ := s.postReady_frame; rw [h]
@[simp] theorem State.postReady_qor : s.postReady.qor = s.qor := by obtain ⟨cm, mx, rg, jn, h⟩ := s.postReady_frame; rw [h]
@[simp] theorem State.postReady_stew : s.postReady.stew = s.stew := by obtain ⟨cm, mx, rg, jn, h⟩ := s.postReady_frame; rw [h]
@[simp] theorem State.postReady_vectors : s.postReady.vectors = s.vectors := by obtain ⟨cm, mx, rg, jn, h⟩ := s.postReady_frame; rw [h]
@[simp] theorem State.postReady_keys : s.postReady.keys = s.keys := by obtain ⟨cm, mx, rg, jn, h⟩ := s.postReady_frame; rw [h]
@[simp] theorem State.postReady_derived : s.postReady.derived = s.derived := by obtain ⟨cm, mx, rg, jn, h⟩ := s.postReady_frame; rw [h]
@[simp] theorem State.postReady_elog : s.postReady.elog = s.elog := by obtain ⟨cm, mx, rg, jn, h⟩ := s.postReady_frame; rw [h]
@[simp] theorem State.postReady_cnt : s.postReady.cnt = s.cnt := by obtain ⟨cm, mx, rg, jn, h⟩ := s.postReady_frame; rw [h]
end

section
variable (s : State) (w : Wait)
@[simp] theorem State.wake_pending : (s.wake w).pending = s.pending := by obtain ⟨cm, mx, rg, jn, h⟩ := s.wake_frame w; rw [h]
@[simp] theorem State.wake_fresh : (s.wake w).fresh = s.fresh := by obtain ⟨cm, mx, rg, jn, h⟩ := s.wake_frame w; rw [h]
@[simp] theorem State.wake_now : (s.wake w).now = s.now := by obtain ⟨cm, mx, rg, jn, h⟩ := s.wake_frame w; rw [h]
@[simp] theorem State.wake_nv : (s.wake w).nv = s.nv := by obtain ⟨cm, mx, rg, jn, h⟩ := s.wake_frame w; rw [h]
@[simp] theorem State.wake_pwr : (s.wake w).pwr = s.pwr := by obtain ⟨cm, mx, rg, jn, h⟩ := s.wake_frame w; rw [h]
@[simp] theorem State.wake_sensors : (s.wake w).sensors = s.sensors := by obtain ⟨cm, mx, rg, jn, h⟩ := s.wake_frame w; rw [h]
@[simp] theorem State.wake_parts : (s.wake w).parts = s.parts := by obtain ⟨cm, mx, rg, jn, h⟩ := s.wake_frame w; rw [h]
@[simp] theorem State.wake_ctxs : (s.wake w).ctxs = s.ctxs := by obtain ⟨cm, mx, rg, jn, h⟩ := s.wake_frame w; rw [h]
@[simp] theorem State.wake_exts : (s.wake w).exts = s.exts := by obtain ⟨cm, mx, rg, jn, h⟩ := s.wake_frame w; rw [h]
@[simp] theorem State.wake_shares : (s.wake w).shares = s.shares := by obtain ⟨cm, mx, rg, jn, h⟩ := s.wake_frame w; rw [h]
@[simp] theorem State.wake_gmap : (s.wake w).gmap = s.gmap := by obtain ⟨cm, mx, rg, jn, h⟩ := s.wake_frame w; rw [h]
@[simp] theorem State.wake_rmap : (s.wake w).rmap = s.rmap := by obtain ⟨cm, mx, rg, jn, h⟩ := s.wake_frame w; rw [h]
@[simp] theorem State.wake_prots : (s.wake w).prots = s.prots := by obtain ⟨cm, mx, rg, jn, h⟩ := s.wake_frame w; rw [h]
@[simp] theorem State.wake_combs : (s.wake w).combs = s.combs := by obtain ⟨cm, mx, rg, jn, h⟩ := s.wake_frame w; rw [h]
@[simp] theorem State.wake_group : (s.wake w).group = s.group := by obtain ⟨cm, mx, rg, jn, h⟩ := s.wake_frame w; rw [h]
@[simp] theorem State.wake_elder : (s.wake w).elder = s.elder := by obtain ⟨cm, mx, rg, jn, h⟩ := s.wake_frame w; rw [h]
@[simp] theorem State.wake_regions : (s.wake w).regions = s.regions := by obtain ⟨cm, mx, rg, jn, h⟩ := s.wake_frame w; rw [h]
@[simp] theorem State.wake_slices : (s.wake w).slices = s.slices := by obtain ⟨cm, mx, rg, jn, h⟩ := s.wake_frame w; rw [h]
@[simp] theorem State.wake_agents : (s.wake w).agents = s.agents := by obtain ⟨cm, mx, rg, jn, h⟩ := s.wake_frame w; rw [h]
@[simp] theorem State.wake_pred : (s.wake w).pred = s.pred := by obtain ⟨cm, mx, rg, jn, h⟩ := s.wake_frame w; rw [h]
@[simp] theorem State.wake_orphanScan : (s.wake w).orphanScan = s.orphanScan := by obtain ⟨cm, mx, rg, jn, h⟩ := s.wake_frame w; rw [h]
@[simp] theorem State.wake_dram : (s.wake w).dram = s.dram := by obtain ⟨cm, mx, rg, jn, h⟩ := s.wake_frame w; rw [h]
@[simp] theorem State.wake_lines : (s.wake w).lines = s.lines := by obtain ⟨cm, mx, rg, jn, h⟩ := s.wake_frame w; rw [h]
@[simp] theorem State.wake_splits : (s.wake w).splits = s.splits := by obtain ⟨cm, mx, rg, jn, h⟩ := s.wake_frame w; rw [h]
@[simp] theorem State.wake_nextSplit : (s.wake w).nextSplit = s.nextSplit := by obtain ⟨cm, mx, rg, jn, h⟩ := s.wake_frame w; rw [h]
@[simp] theorem State.wake_stks : (s.wake w).stks = s.stks := by obtain ⟨cm, mx, rg, jn, h⟩ := s.wake_frame w; rw [h]
@[simp] theorem State.wake_mem : (s.wake w).mem = s.mem := by obtain ⟨cm, mx, rg, jn, h⟩ := s.wake_frame w; rw [h]
@[simp] theorem State.wake_tiles : (s.wake w).tiles = s.tiles := by obtain ⟨cm, mx, rg, jn, h⟩ := s.wake_frame w; rw [h]
@[simp] theorem State.wake_lands : (s.wake w).lands = s.lands := by obtain ⟨cm, mx, rg, jn, h⟩ := s.wake_frame w; rw [h]
@[simp] theorem State.wake_walkers : (s.wake w).walkers = s.walkers := by obtain ⟨cm, mx, rg, jn, h⟩ := s.wake_frame w; rw [h]
@[simp] theorem State.wake_keeper : (s.wake w).keeper = s.keeper := by obtain ⟨cm, mx, rg, jn, h⟩ := s.wake_frame w; rw [h]
@[simp] theorem State.wake_repl : (s.wake w).repl = s.repl := by obtain ⟨cm, mx, rg, jn, h⟩ := s.wake_frame w; rw [h]
@[simp] theorem State.wake_sched : (s.wake w).sched = s.sched := by obtain ⟨cm, mx, rg, jn, h⟩ := s.wake_frame w; rw [h]
@[simp] theorem State.wake_ports : (s.wake w).ports = s.ports := by obtain ⟨cm, mx, rg, jn, h⟩ := s.wake_frame w; rw [h]
@[simp] theorem State.wake_dies : (s.wake w).dies = s.dies := by obtain ⟨cm, mx, rg, jn, h⟩ := s.wake_frame w; rw [h]
@[simp] theorem State.wake_node : (s.wake w).node = s.node := by obtain ⟨cm, mx, rg, jn, h⟩ := s.wake_frame w; rw [h]
@[simp] theorem State.wake_rx : (s.wake w).rx = s.rx := by obtain ⟨cm, mx, rg, jn, h⟩ := s.wake_frame w; rw [h]
@[simp] theorem State.wake_tx : (s.wake w).tx = s.tx := by obtain ⟨cm, mx, rg, jn, h⟩ := s.wake_frame w; rw [h]
@[simp] theorem State.wake_origs : (s.wake w).origs = s.origs := by obtain ⟨cm, mx, rg, jn, h⟩ := s.wake_frame w; rw [h]
@[simp] theorem State.wake_fwds : (s.wake w).fwds = s.fwds := by obtain ⟨cm, mx, rg, jn, h⟩ := s.wake_frame w; rw [h]
@[simp] theorem State.wake_nextRtag : (s.wake w).nextRtag = s.nextRtag := by obtain ⟨cm, mx, rg, jn, h⟩ := s.wake_frame w; rw [h]
@[simp] theorem State.wake_released : (s.wake w).released = s.released := by obtain ⟨cm, mx, rg, jn, h⟩ := s.wake_frame w; rw [h]
@[simp] theorem State.wake_limits : (s.wake w).limits = s.limits := by obtain ⟨cm, mx, rg, jn, h⟩ := s.wake_frame w; rw [h]
@[simp] theorem State.wake_limHeld : (s.wake w).limHeld = s.limHeld := by obtain ⟨cm, mx, rg, jn, h⟩ := s.wake_frame w; rw [h]
@[simp] theorem State.wake_admHeld : (s.wake w).admHeld = s.admHeld := by obtain ⟨cm, mx, rg, jn, h⟩ := s.wake_frame w; rw [h]
@[simp] theorem State.wake_qor : (s.wake w).qor = s.qor := by obtain ⟨cm, mx, rg, jn, h⟩ := s.wake_frame w; rw [h]
@[simp] theorem State.wake_stew : (s.wake w).stew = s.stew := by obtain ⟨cm, mx, rg, jn, h⟩ := s.wake_frame w; rw [h]
@[simp] theorem State.wake_vectors : (s.wake w).vectors = s.vectors := by obtain ⟨cm, mx, rg, jn, h⟩ := s.wake_frame w; rw [h]
@[simp] theorem State.wake_keys : (s.wake w).keys = s.keys := by obtain ⟨cm, mx, rg, jn, h⟩ := s.wake_frame w; rw [h]
@[simp] theorem State.wake_derived : (s.wake w).derived = s.derived := by obtain ⟨cm, mx, rg, jn, h⟩ := s.wake_frame w; rw [h]
@[simp] theorem State.wake_elog : (s.wake w).elog = s.elog := by obtain ⟨cm, mx, rg, jn, h⟩ := s.wake_frame w; rw [h]
@[simp] theorem State.wake_cnt : (s.wake w).cnt = s.cnt := by obtain ⟨cm, mx, rg, jn, h⟩ := s.wake_frame w; rw [h]
end

end Sys2Proof.Machine
end

