-- ==== Sys2Proof/Laws/Commands.lean ====
section
/-! SUPPORT. How a command of a mailbox runs: what Steward takes and runs at once answers with its row, so that a statement about a command
follows from an equation between its row and the answer stated. -/
namespace Sys2Proof.Machine
open Sys2Proof

/-- What the acceptance of a command says, part by part. -/
theorem State.accepts_iff (s : State) (f : CmdForm) (mb : MbId) :
    s.accepts f mb = true ↔ s.stewardUp = true ∧ (s.cmds.any fun c => c.mb == mb && c.deferred) = false ∧ s.nextMb = some mb.idx
      ∧ (s.mbox mb.idx).opcode.toNat = f.op ∧ s.cmds.length < 64 ∧ s.stew.step ≠ .swWait
      ∧ (s.takeCmd mb f.names).2.common f (s.takeCmd mb f.names).1 ((s.takeCmd mb f.names).2.mbox mb.idx).arglen
          ((s.takeCmd mb f.names).2.mbox mb.idx).args = none
      ∧ (s.takeCmd mb f.names).2.blocked (s.takeCmd mb f.names).1 = false := by
  unfold State.accepts
  simp [-List.any_eq_false, -List.any_eq_true, and_assoc]

/-- A command that is accepted runs its row on the state in which it was taken. -/
theorem State.command_of_accepts {s : State} {f : CmdForm} {mb : MbId} {body : State → Cmd → Nat → Answer}
    (h : s.accepts f mb = true) :
    s.command f mb body = ((s.takeCmd mb f.names).2.runBody f (s.takeCmd mb f.names).1 body
      ((s.takeCmd mb f.names).2.mbox mb.idx).args).post (s.takeCmd mb f.names).1 := by
  obtain ⟨up, idle, next, op, room, noWait, checks, free⟩ := (s.accepts_iff f mb).mp h
  have none_waits : (s.cmds.find? fun c => c.mb == mb && c.deferred) = none := by
    rw [List.find?_eq_none]
    exact fun c hc => by simpa using List.any_eq_false.mp idle c hc
  unfold State.command State.runCmd
  rw [none_waits]
  simp [up, next, op, room, noWait, show (s.takeCmd mb f.names).1.mb = mb from rfl, checks, free]

/-- Where a body and a row agree before and after the journal's entry, they run alike. -/
theorem State.runBody_congr {s : State} {f : CmdForm} {c : Cmd} {body row : State → Cmd → Nat → Answer} {a : Nat}
    (h : body s c a = row s c a) (h' : body (s.note c.token .write) c a = row (s.note c.token .write) c a) :
    s.runBody f c body a = s.runBody f c row a := by
  simp only [State.runBody, h, h']

/-- A statement of a command follows from its row, when its condition does not look at the journal. -/
theorem Runs.of_row {i : Instr} {s : State} {f : CmdForm} {mb : MbId} {ok : State → Cmd → Nat → Prop}
    {body row : State → Cmd → Nat → Answer} (hx : exec i s = s.ran f mb body)
    (hb : ∀ u c a, ok u c a → body u c a = row u c a) (hn : ∀ (u : State) c a, ok u c a → ok (u.note c.token .write) c a) :
    Runs i s f mb ok row := by
  intro ha hk
  rw [hx, State.ran, State.command_of_accepts ha, State.runBody_congr (hb _ _ _ hk) (hb _ _ _ (hn _ _ _ hk))]

/-- The same where the condition is asked of both states. -/
theorem RunsNoted.of_row {i : Instr} {s : State} {f : CmdForm} {mb : MbId} {ok : State → Cmd → Nat → Prop}
    {body row : State → Cmd → Nat → Answer} (hx : exec i s = s.ran f mb body)
    (hb : ∀ u c a, ok u c a → body u c a = row u c a) : RunsNoted i s f mb ok row := by
  intro hn ha hk
  rw [hx, State.ran, State.command_of_accepts ha, State.runBody_congr (hb _ _ _ hk) (hb _ _ _ hn)]

/-- The same of a row that answers no OK, or has still to run: nothing is written before it. -/
theorem Runs.of_refusal {i : Instr} {s : State} {f : CmdForm} {mb : MbId} {ok : State → Cmd → Nat → Prop}
    {body row : State → Cmd → Nat → Answer} (hx : exec i s = s.ran f mb body)
    (hb : ∀ u c a, ok u c a → body u c a = row u c a) (hr : ∀ u c a, ok u c a → (row u c a).status ≠ csOk ∨ (row u c a).again = true) :
    Runs i s f mb ok row := by
  intro ha hk
  have h := hr _ _ _ hk
  rw [hx, State.ran, State.command_of_accepts ha]
  simp only [State.runBody, hb _ _ _ hk]
  rcases h with h | h <;> simp [h]

end Sys2Proof.Machine
end

