-- ==== Sys2Proof/WellFormed.lean ====
section
/-! DEFINITION. Which command terms are well formed: the packet of a row carries that row's opcode and a LEN of R110, an index
lies in its table, and a list has the length its rule gives. The meanings are total and do not need it; it says what a sender may
send. -/
namespace Sys2Proof

/-- The LEN values a packet body may have (R110, R294): up to 160 bytes of body, 16 more when it is protected. -/
def Packet.lenOk (p : Packet) : Bool := decide (p.len.toNat ≤ if p.enc then 176 else 160) && decide (p.rest.length ≤ 16)

/-- A packet that carries a given opcode. -/
def Packet.isOp (p : Packet) (o : Byte) : Bool := p.opc == o && p.lenOk

/-- Whether a command is well formed. -/
def Instr.wf : Instr → Bool
  | .rdOnce p => p.isOp oRdOnce
  | .rdShared p => p.isOp oRdShared
  | .rdOwn p => p.isOp oRdOwn
  | .upgrade p => p.isOp oUpgrade
  | .wrLine p => p.isOp oWrLine
  | .wrPartial p => p.isOp oWrPartial
  | .atomic p => p.isOp oAtomic
  | .wbDirty p => p.isOp oWbDirty
  | .evictClean p => p.isOp oEvictClean
  | .lineReclaim p => p.isOp oReclaim
  | .snpAck p => p.isOp oSnpAck
  | .snpAckData p => p.isOp oSnpAckData
  | .grantAck p => p.isOp oGrantAck
  | .ctlRd p | .ftNowNsRead p | .fqAckRead p | .elogAckRead p => p.isOp oCtlRd
  | .ctlWr p | .mailboxPost p | .mailboxReplyClear p | .partAbortWrite p => p.isOp oCtlWr
  | .mcmp p => p.isOp oMcmp
  | .mcmpData p => p.isOp oMcmpData
  | .breakNotice p => p.brk && p.lenOk
  | .originatedCompletion p => (p.isCmp || p.syn) && p.lenOk
  | .elderRequest p => isMemOpc p.opc && p.lenOk
  | .routePacket _ _ p => p.lenOk
  | .reservationExpire _ line => decide (line < 2 ^ 33)
  | .fecBlockReceive _ b => decide (b.corrected.length ≤ 30) && b.corrected.all fun e => decide (e.1 < 1088) && decide (e.2 ≤ 10)
  | .sensorSample v => decide (v.length = 27)
  | .down _ r => decide (r.toNat ≤ 15)
  | .retrainReq _ c => decide (c.toNat ≤ 15)
  | _ => true

end Sys2Proof
end

