-- ==== Sys2Proof/Tests/Slice0.lean ====
section
/-! SUPPORT. Tests: ill-formed commands refused, worked examples of the spec, and for every statement states and operands that meet its
hypotheses. -/
namespace Sys2Proof.Tests
open Sys2Proof Sys2Proof.Machine
set_option Elab.async false

/-- A device that is READY in D0 with every unit enabled and Steward serving. -/
def base : State :=
  { pwr := { phase := .ready, build := 0x1FFFFFFFFFFE0, tested := {}, fused := {}, cap := 450, ceiling := 450, floor := 250 }
    stew := { released := true } }

/-! ### What each statement assumes, met -/

theorem witness_StepRunsFront : ∃ (c : Instr) (rest : List Instr) (s : State), s.pending = c :: rest :=
  ⟨.powerOn, [], { base with pending := [.powerOn] }, by decide +kernel⟩

theorem witness_StepIdles : ∃ (s : State), s.pending = [] :=
  ⟨base, by decide +kernel⟩

theorem witness_EveryCommandCompletes :
    (∃ (c : Instr) (_s : State), ((∀ mv us, c = .inputFault mv us → mv ≤ 80000 ∧ (mv ≤ 66000 ∨ us ≤ 100000))))
    ∧ (∃ (mv us : Nat) (_s : State), (80000 < mv ∨ (66000 < mv ∧ 100000 < us))) :=
  ⟨⟨.powerOn, base, by intro mv us h; cases h⟩,
   ⟨80001, 0, base, by decide +kernel⟩⟩

theorem witness_QueueUntouched : ∃ (c : Instr) (s t : State), exec c s = .next t :=
  ⟨.coreFault, {}, {}, rfl⟩

theorem witness_FusesPermanent : ∃ (c : Instr) (s t : State), exec c s = .next t :=
  ⟨.coreFault, {}, {}, rfl⟩

theorem witness_DramFrame : ∃ (c : Instr) (s t : State), c.writesDram = false ∧ exec c s = .next t :=
  ⟨.coreFault, {}, {}, ⟨rfl, rfl⟩⟩

theorem witness_StartUp :
    (∃ (s : State), (s.pwr.phase = .off ∨ s.pwr.phase = .dead ∨ s.pwr.phase = .tripped))
    ∧ (∃ (s : State), s.pwr.phase = .rails ∧ s.pwr.rail + 1 < 6)
    ∧ (∃ (s : State), s.pwr.phase = .rails ∧ s.pwr.rail + 1 = 6)
    ∧ (∃ (s : State), s.pwr.phase = .rails ∧ s.pwr.railAt + 2000000 ≤ s.now)
    ∧ (∃ (s : State), s.pwr.phase = .retryWait ∧ s.pwr.railAt + 100000000 ≤ s.now)
    ∧ (∃ (s : State), s.pwr.phase = .osc)
    ∧ (∃ (s : State), s.pwr.phase ≠ .rails ∧ s.pwr.pstep = .w1 ∧ s.pwr.fallen ≠ [])
    ∧ (∃ (s : State), s.pwr.phase ≠ .rails ∧ s.pwr.pstep = .w1 ∧ s.pwr.fallen ≠ [] ∧ s.pwr.railAt + 2000000 ≤ s.now)
    ∧ (∃ (_m : UnitMap) (s : State), s.pwr.phase = .selftest ∧ s.pwr.logicDone = false)
    ∧ (∃ (s : State), s.pwr.phase = .selftest ∧ s.pwr.phyDone = false)
    ∧ (∃ (_l : List RowFail) (s : State), s.pwr.phase = .selftest ∧ s.pwr.phyDone = true ∧ s.pwr.memDone = false)
    ∧ (∃ (a : Tbl (List (Option Nat)) × BitVec 8) (f : RowFail) (l : List (Option Nat)), l = tget [] a.1 (bankOfRow f))
    ∧ (∃ (_a _b : Bool) (s : State), s.pwr.phase = .selftest ∧ s.pwr.memDone = true ∧ s.pwr.logicDone = true ∧ s.pwr.tested.hubs.getLsbD 0 = false)
    ∧ (∃ (_a _b : Bool) (s : State), s.pwr.phase = .selftest ∧ s.pwr.memDone = true ∧ s.pwr.logicDone = true ∧ s.pwr.tested.hubs.getLsbD 0 = true)
    ∧ (∃ (_k : BitVec 32) (_g : Bool) (s : State), s.pwr.phase = .boot ∧ s.stew.released = true ∧ s.stew.noFw = false)
    ∧ (∃ (s : State), s.stew.released = true ∧ s.stew.noFw = false) :=
  ⟨⟨{}, by decide +kernel⟩,
   ⟨{ pwr := { phase := .rails, rail := 4 } }, by decide +kernel⟩,
   ⟨{ pwr := { phase := .rails, rail := 5 } }, by decide +kernel⟩,
   ⟨{ now := 2000000, pwr := { phase := .rails } }, by decide +kernel⟩,
   ⟨{ now := 100000000, pwr := { phase := .retryWait } }, by decide +kernel⟩,
   ⟨{ pwr := { phase := .osc } }, by decide +kernel⟩,
   ⟨{ pwr := { phase := .ready, pstep := .w1, fallen := [5] } }, by decide +kernel⟩,
   ⟨{ now := 2000000, pwr := { phase := .ready, pstep := .w1, fallen := [5] } }, by decide +kernel⟩,
   ⟨{}, { pwr := { phase := .selftest } }, by decide +kernel⟩,
   ⟨{ pwr := { phase := .selftest } }, by decide +kernel⟩,
   ⟨[], { pwr := { phase := .selftest, phyDone := true } }, by decide +kernel⟩,
   ⟨([], 0), { bad := 4 }, [], by decide +kernel⟩,
   ⟨true, true, { pwr := { phase := .selftest, memDone := true, logicDone := true } }, by decide +kernel⟩,
   ⟨true, true, { pwr := { phase := .selftest, memDone := true, logicDone := true, tested := {} } }, by decide +kernel⟩,
   ⟨1, false, { pwr := { phase := .boot }, stew := { released := true } }, by decide +kernel⟩,
   ⟨base, by decide +kernel⟩⟩

theorem witness_WholeChipResets :
    (∃ (us : Nat) (s : State), 10 ≤ us ∧ s.pwr.running = true ∧ s.pwr.state ≠ 4)
    ∧ (∃ (us : Nat) (s : State), 10 ≤ us ∧ s.pwr.running = true ∧ s.pwr.state = 4)
    ∧ (∃ (us : Nat) (_s : State), us < 10)
    ∧ (∃ (t : Nat) (s : State), s.stew.resetAt = some t ∧ t ≤ s.now)
    ∧ (∃ (g : Nat) (s : State), g ≤ 1000 ∧ s.pwr.running = true ∧ s.pwr.state ≠ 4)
    ∧ (∃ (g : Nat) (s : State), g ≤ 1000 ∧ s.pwr.running = true ∧ s.pwr.state = 4)
    ∧ (∃ (g : Nat) (s : State), g ≤ 1000 ∧ s.pwr.phase = .tripped)
    ∧ (∃ (b c : Byte) (g : Nat) (_s : State), ((b, c) ≠ (0x5A, 0xA5) ∨ 1000 < g))
    ∧ (∃ (s : State), s.pwr.running = true ∧ s.nv.dbgdis = false)
    ∧ (∃ (us : Nat) (s : State), 10 ≤ us ∧ ((s.pwr.phase = .rails ∧ 1 ≤ s.pwr.rail) ∨ s.pwr.phase = .osc))
    ∧ (∃ (g : Nat) (s : State), g ≤ 1000 ∧ ((s.pwr.phase = .rails ∧ 1 ≤ s.pwr.rail) ∨ s.pwr.phase = .osc))
    ∧ (∃ (_g : Nat) (s : State), (s.pwr.phase = .off ∨ s.pwr.phase = .retryWait ∨ s.pwr.phase = .dead)) :=
  ⟨⟨10, base, by decide +kernel⟩,
   ⟨10, { pwr := { phase := .ready, state := 4 } }, by decide +kernel⟩,
   ⟨9, base, by decide +kernel⟩,
   ⟨5, { base with now := 5, stew := { resetAt := some 5 } }, by decide +kernel⟩,
   ⟨1000, base, by decide +kernel⟩,
   ⟨1000, { pwr := { phase := .ready, state := 4 } }, by decide +kernel⟩,
   ⟨1000, { pwr := { phase := .tripped } }, by decide +kernel⟩,
   ⟨0x5A, 0xA5, 1001, base, by decide +kernel⟩,
   ⟨base, by decide +kernel⟩,
   ⟨10, { pwr := { phase := .osc } }, by decide +kernel⟩,
   ⟨1000, { pwr := { phase := .rails, rail := 1 } }, by decide +kernel⟩,
   ⟨1000, { pwr := { phase := .dead } }, by decide +kernel⟩⟩

theorem witness_InputAndTrip :
    (∃ (mv us : Nat) (s : State), mv ≤ 80000 ∧ ((mv ≤ 66000 ∨ us ≤ 100000)) ∧ (((64000 < mv ∧ 1000 ≤ us) ∨ (mv < 38000 ∧ 100 ≤ us)))
      ∧ s.pwr.phase ≠ .off)
    ∧ (∃ (mv _us : Nat) (_s : State), 38000 ≤ mv ∧ mv ≤ 64000)
    ∧ (∃ (s : State), s.pwr.running = true ∧ (∃ e ∈ s.sensors, 3 ≤ e.2.trip))
    ∧ (∃ (d : Bool) (_a : BitVec 7) (s : State), 1 ≤ s.pwr.rail ∧ s.pwr.i3cAddr = none ∧ (d = true → s.pwr.addrS ≠ none)) :=
  ⟨⟨64001, 1000, base, by decide +kernel⟩,
   ⟨38000, 5, base, by decide +kernel⟩,
   ⟨{ base with sensors := [(3, { trip := 3 })] }, by decide +kernel⟩,
   ⟨true, 8, { base with pwr := { base.pwr with rail := 7, addrS := some 0 } }, by decide +kernel⟩⟩

theorem witness_KeeperAndTsx :
    (∃ (s : State), s.now % 256 = 0 ∧ s.pwr.phase ≠ .off)
    ∧ (∃ (s : State), (s.keeper.state = 1 ∨ s.keeper.state = 3) ∧ 64 ≤ s.keeper.good)
    ∧ (∃ (s : State), s.keeper.state = 2 ∧ 16 ≤ s.keeper.bad)
    ∧ (∃ (s : State), s.keeper.state = 3 ∧ s.keeper.holdSince + s.keeper.holdMax.toNat * 10000000 < s.ftNs)
    ∧ (∃ (s u v w x : State), (s.sched.running ≠ none ∨ s.sched.pending = true ∨ s.sched.next ≠ none)
      ∧ u = { s with keeper := { s.keeper with state := 4, followAlt := false, good := 0, bad := 0, slew := 0, freqAdj := 0 } }.bump devBlk 4
      ∧ v = u.abandonArm csBadState
      ∧ w = { v with sched := { v.sched with running := none, syncLost := s.sched.running.isSome, alt := 0, lost := 0 } }.gatesOpen
      ∧ x = (w.each w.tileList fun s n => s.modTile n fun t => { t with swait := [] }).endLands)
    ∧ (∃ (_s : State) (p : Nat), p < 16)
    ∧ (∃ (s : State) (n : Nat), n ∈ s.tileList)
    ∧ (∃ (s : State), s.sched.armToken = none)
    ∧ (∃ (s : State), s.sched.running = none ∧ s.sched.pending = false ∧ s.sched.next = none)
    ∧ (∃ (p : Fin 17) (s : State), p.val < 16 ∧ (s.port p.val).state = 3 ∧ (s.port p.val).tsxAt + 3500 ≤ s.now)
    ∧ (∃ (s : State), s.pwr.running = true ∧ (s.pwr.state = 0 ∨ s.pwr.state = 1) ∧ s.pwr.fts < s.ftNs / 1000000)
    ∧ (∃ (p : Fin 17) (_x : TsxBody) (_a : BitVec 80) (s : State), p.val < 16 ∧ (s.port p.val).state = 3) :=
  ⟨⟨{ base with now := 256 }, by decide +kernel⟩,
   ⟨{ base with keeper := { state := 1, good := 64 } }, by decide +kernel⟩,
   ⟨{ base with keeper := { state := 2, bad := 16 } }, by decide +kernel⟩,
   ⟨{ base with keeper := { state := 3, ft := 2621440065536 } }, by decide +kernel⟩,
   ⟨{ base with sched := { pending := true } }, _, _, _, _, by decide +kernel, rfl, rfl, rfl, rfl⟩,
   ⟨base, 15, by decide +kernel⟩,
   ⟨base, 31, by decide +kernel⟩,
   ⟨base, by decide +kernel⟩,
   ⟨base, by decide +kernel⟩,
   ⟨15, { base with now := 3500, ports := [(15, { state := 3 })] }, by decide +kernel⟩,
   ⟨{ base with keeper := { ft := 65536000000 } }, by decide +kernel⟩,
   ⟨15, {}, 0, { base with ports := [(15, { state := 3 })] }, by decide +kernel⟩⟩

theorem witness_ControlReadRows :
    (∃ (c : Instr) (p : Packet) (_s : State), ((c = .ctlRd p ∨ c = .ftNowNsRead p ∨ c = .fqAckRead p ∨ c = .elogAckRead p)))
    ∧ (∃ (_k : Packet) (o : Nat) (_s : State), locOf o = .dev 0x6000)
    ∧ (∃ (_k : Packet) (o i : Nat) (r : ErrRec) (rest : List ErrRec) (s : State), i < 1024 ∧ locOf o = .dev (0x51000 + 8 * i)
      ∧ s.elog.recs = r :: rest)
    ∧ (∃ (k : Packet) (o i p : Nat) (n : BitVec 32) (r : FaultRec) (rest : List (BitVec 32 × FaultRec)) (s : State), i < 256
      ∧ locOf o = .part p (0x2800 + 8 * i) ∧ s.partReq p k = true ∧ (s.part p).fq = (n, r) :: rest)
    ∧ (∃ (k : Packet) (o i p : Nat) (s : State), locOf o = .part p i ∧ s.partReq p k = false)
    ∧ (∃ (_k : Packet) (o : Nat) (_s : State), ((∀ i, locOf o ≠ .dev i ∨ (i ≠ 0x6000 ∧ (i < 0x51000 ∨ 0x53000 ≤ i))))
      ∧ ((∀ p i, locOf o ≠ .part p i ∨ i < 0x2800 ∨ 0x3000 ≤ i))) :=
  ⟨⟨.ctlRd { opc := oCtlRd }, { opc := oCtlRd }, base, by decide +kernel⟩,
   ⟨{}, 0x6000, base, by decide +kernel⟩,
   ⟨{}, 0x52FF8, 1023, { seq := 1023 }, [], { base with elog := { recs := [{ seq := 1023 }] } }, by decide +kernel⟩,
   ⟨{ src := 5 }, 0x102FF8, 255, 0, 255, {}, [], { base with parts := [(0, { state := 1, admCfg := 0x1FFF005, fq := [(255, {})] })] },
      by decide +kernel⟩,
   ⟨{}, 0x102800, 0x2800, 0, base, by decide +kernel⟩,
   ⟨{}, 0x6008, base, by rw [show locOf 0x6008 = .dev 0x6008 by decide +kernel]; exact ⟨fun i => (em (i = 0x6008)).elim
      (fun h => .inr (by subst h; decide)) fun h => .inl fun h2 => by cases h2; exact h rfl, fun p i => .inl (by simp)⟩⟩⟩

theorem witness_ControlWriteRows :
    (∃ (c : Instr) (p : Packet) (_s : State), ((c = .ctlWr p ∨ c = .mailboxPost p ∨ c = .mailboxReplyClear p ∨ c = .partAbortWrite p)))
    ∧ (∃ (p : Nat) (_k : BitVec 2) (s : State), (s.part p).state ≠ 1 ∧ (s.part p).state ≠ 2)
    ∧ (∃ (p : Nat) (_k : BitVec 2) (s : State), ((s.part p).state = 1 ∨ (s.part p).state = 2)) :=
  ⟨⟨.ctlWr { opc := oCtlWr }, { opc := oCtlWr }, base, by decide +kernel⟩,
   ⟨0, 1, base, by decide +kernel⟩,
   ⟨0, 1, { base with parts := [(0, { state := 2 })] }, by decide +kernel⟩⟩

theorem witness_DrainsEnd :
    (∃ (p : Fin 64) (s u : State), u = ((((s.abortQueues p.val).abortHeld p.val).abortTxns p.val).abortFwds p.val).dropHostReqs
      ∧ (s.part p.val).abortAt.isSome = true ∧ u.abortBusy p.val = false ∧ (s.part p.val).conf = false)
    ∧ (∃ (p : Fin 64) (s u : State), u = ((((s.abortQueues p.val).abortHeld p.val).abortTxns p.val).abortFwds p.val).dropHostReqs
      ∧ (s.part p.val).abortAt.isSome = true ∧ u.abortBusy p.val = false ∧ (s.part p.val).conf = true)
    ∧ (∃ (p : Fin 64) (s u : State), u = ((((s.abortQueues p.val).abortHeld p.val).abortTxns p.val).abortFwds p.val).dropHostReqs
      ∧ (s.part p.val).abortAt.isSome = true ∧ u.abortBusy p.val = true)
    ∧ (∃ (e : Fin 262144) (s : State), (s.ext e.val).counter (!(s.ext e.val).phase) = 0
      ∧ (s.cmds.any fun c => c.waits.contains (.phase e.val (s.ext e.val).phase) || c.waits.contains (.phase e.val (!(s.ext e.val).phase))) = false)
    ∧ (∃ (e : Fin 262144) (s : State), (s.ext e.val).state = 2 ∧ (s.ext e.val).ctrA = 0 ∧ (s.ext e.val).ctrB = 0 ∧ (s.ext e.val).coherent = false
      ∧ s.stew.commit = false)
    ∧ (∃ (c : Cid) (s : State), (s.ctx c.toNat).state = 3 ∧ (s.ctx c.toNat).inflight = 0
      ∧ (∀ n ∈ s.tileList, ∀ k ∈ (s.tile n).slots, (s.job n k).cid ≠ c))
    ∧ (∃ (p : Fin 64) (s : State), (s.part p.val).state = 3 ∧ (s.part p.val).abortAt = none ∧ s.ctxsOf p.val = [] ∧ s.extsOf p.val 1 = []
      ∧ s.extsOf p.val 2 = [] ∧ s.closeDrains p.val true = false
      ∧ ((∀ c ∈ s.group.calls, c.create = true ∨ (s.ext (c.xh.extractLsb' 0 18).toNat).owner.toNat ≠ p.val))) :=
  ⟨⟨63, { base with parts := [(63, { state := 4, abortAt := some 0 })] }, _, rfl, by decide +kernel, by decide +kernel, by decide +kernel⟩,
   ⟨63, { base with parts := [(63, { state := 4, abortAt := some 0, cfg := 1 })] }, _, rfl, by decide +kernel, by decide +kernel, by decide +kernel⟩,
   ⟨63, { base with parts := [(63, { state := 4, abortAt := some 0 })], stks := [(0, { chans := [(0, { entries := [{ pkt := { cid := 64512 } }] })] })] }, _, rfl, by decide +kernel, by decide +kernel⟩,
   ⟨262143, base, by decide +kernel⟩,
   ⟨262143, { base with exts := [(262143, { state := 2 })] }, by decide +kernel⟩,
   ⟨0xFFFF, { base with ctxs := [(0xFFFF, { state := 3 })] }, by decide +kernel⟩,
   ⟨63, { base with parts := [(63, { state := 3 })] }, by decide +kernel⟩⟩

theorem witness_FaultRecords :
    (∃ (p : Fin 64) (r : FaultRec) (l : List FaultRec) (s : State), (s.part p.val).fq.length < 256 ∧ s.discards p.val = false
      ∧ (s.part p.val).overflow = r :: l)
    ∧ (∃ (p : Fin 64) (k : Nat × Nat) (n : Nat) (o : List (Nat × Nat)) (b : Nat × FaultRec) (s : State), (s.part p.val).fq.length < 256
      ∧ s.discards p.val = false ∧ (s.part p.val).overflow = [] ∧ s.pendOf p.val = (k.1, n) :: o ∧ (s.tile n).pend = some b)
    ∧ (∃ (p : Fin 64) (r : FaultRec) (l : List FaultRec) (s : State), (s.part p.val).fq.length < 256 ∧ s.discards p.val = false
      ∧ (s.part p.val).overflow = [] ∧ s.pendOf p.val = [] ∧ (s.part p.val).held = r :: l)
    ∧ (∃ (p : Fin 64) (s : State), 256 ≤ (s.part p.val).fq.length)
    ∧ (∃ (t : Fin 32) (k : Nat) (r : FaultRec) (s : State), (s.tile t.val).pend = some (k, r) ∧ (s.tile t.val).pendAt + 1000000 ≤ s.now
      ∧ s.stewardUp = true ∧ (s.part (cidPart r.cid)).overflow.length < 1024) :=
  ⟨⟨0, {}, [], { base with parts := [(0, { state := 1, overflow := [{}] })] }, by decide +kernel⟩,
   ⟨0, (0, 0), 5, [], (3, {}), { base with parts := [(0, { state := 1 })], tiles := [(5, { pend := some (3, {}) })] }, by decide +kernel⟩,
   ⟨0, {}, [], { base with parts := [(0, { state := 1, held := [{}] })] }, by decide +kernel⟩,
   ⟨0, { base with parts := [(0, { state := 1, fq := List.replicate 256 (0, {}) })] }, by decide +kernel⟩,
   ⟨31, 0, {}, { base with now := 1000000, tiles := [(31, { pend := some (0, {}) })] }, by decide +kernel⟩⟩

theorem witness_RoutingRows :
    (∃ (d i : Fin 4) (p : Packet) (s : State), s.dieEn d.val = true ∧ (s.die d.val).nextOn i p = true ∧ badHeader p = true)
    ∧ (∃ (d i : Fin 4) (p : Packet) (s : State), s.dieEn d.val = true ∧ (s.die d.val).nextOn i p = true ∧ p.typ = 1 ∧ p.dst ≠ hostEid)
    ∧ (∃ (d i : Fin 4) (p : Packet) (s : State), s.dieEn d.val = true ∧ (s.die d.val).nextOn i p = true ∧ p.typ = 0 ∧ p.dst ≠ hostEid ∧ p.dst ≠ 0xFFF
      ∧ s.outranked d.val { pkt := p, inp := some i } = false)
    ∧ (∃ (d i : Fin 4) (p : Packet) (s : State), ((s.die d.val).nextOn i p = false ∨ (p.typ = 0 ∧ p.dst ≠ hostEid ∧ p.dst ≠ 0xFFF
      ∧ s.outranked d.val { pkt := p, inp := some i } = true)))
    ∧ (∃ (d : Fin 4) (p : Packet) (s : State), ((s.die d.val).nextOrig p = false ∨ 2048 ≤ (s.die d.val).transitFlits true ∨ s.outranked d.val { pkt := { p with epoch := (s.die d.val).cur } } = true))
    ∧ (∃ (d : Fin 4) (s : State), s.dieEn d.val = true)
    ∧ (∃ (d : Nat) (t : Transit) (s : State), t.pkt.dst ≠ s.node.eid ∧ t.pkt.tc ≠ 7 ∧ (s.die d).slotState t.pkt.epoch ≠ 0
      ∧ (s.die d).slotState t.pkt.epoch ≠ 3) :=
  ⟨⟨3, 0, { typ := 2 }, { base with dies := [(3, { arrived := [(0, { typ := 2 })] })] }, by decide +kernel⟩,
   ⟨3, 3, { typ := 1, dst := 0xFFF }, { base with dies := [(3, { arrived := [(3, { typ := 1, dst := 0xFFF })] })] }, by decide +kernel⟩,
   ⟨3, 3, { dst := 5 }, { base with dies := [(3, { arrived := [(3, { dst := 5 })] })] }, by decide +kernel⟩,
   ⟨3, 3, { dst := 5 }, base, by decide +kernel⟩,
   ⟨3, { dst := 5 }, base, by decide +kernel⟩,
   ⟨3, base, by decide +kernel⟩,
   ⟨0, { pkt := { dst := 5 } }, { base with dies := [(0, { s0 := 1 })] }, by decide +kernel⟩⟩

theorem witness_FlipsAndDrains :
    (∃ (tf : Nat) (s u : State), s.node.flip = some tf ∧ (∀ d ∈ s.dieList, tf ≤ s.dieNs d)
      ∧ u = ({ s with node := { s.node with flip := none } }).each s.dieList (fun s d => s.modDie d fun x => x.flip tf))
    ∧ (∃ (tf d : Nat) (s : State), s.node.flip = some tf ∧ d ∈ s.dieList ∧ s.dieNs d < tf)
    ∧ (∃ (x : Die) (_tf : Nat), x.s1 = 1)
    ∧ (∃ (x : Die) (_tf : Nat), x.s1 ≠ 1 ∧ x.s0 = 1)
    ∧ (∃ (d : Fin 4) (s : State), (s.die d.val).flipAt ≠ 0 ∧ (s.die d.val).restamped = false
      ∧ (s.die d.val).flipAt + s.node.restampDelay.toNat * 1000 ≤ s.dieNs d.val)
    ∧ (∃ (d p : Fin 4) (s : State), (∀ e ∈ (s.die d.val).arrived, e.1 ≠ p))
    ∧ (∃ (d p : Fin 4) (e : Fin 4 × Packet) (s : State), s.dieEn d.val = true ∧ (s.die d.val).arrived.find? (fun e => e.1 = p) = some e ∧ e.2.typ = 1
      ∧ e.2.dst = hostEid)
    ∧ (∃ (d p : Fin 4) (e : Fin 4 × Packet) (s : State), s.dieEn d.val = true ∧ (s.die d.val).arrived.find? (fun e => e.1 = p) = some e ∧ e.2.typ = 1
      ∧ e.2.dst ≠ hostEid)
    ∧ (∃ (d : Fin 4) (s : State), ((s.die d.val).s0 = 3 ∨ (s.die d.val).s1 = 3) ∧ (s.die d.val).flipAt + 10000000 ≤ s.dieNs d.val) :=
  ⟨⟨0, { base with node := { flip := some 0 } }, _, by decide +kernel, by decide +kernel, rfl⟩,
   ⟨1, 0, { base with node := { flip := some 1 } }, by decide +kernel⟩,
   ⟨{ s1 := 1 }, 5, by decide +kernel⟩,
   ⟨{ s0 := 1, cur := true, s1 := 2 }, 5, by decide +kernel⟩,
   ⟨3, { base with dies := [(3, { flipAt := 1 })], repl := { die := [(3, 1310785536)] } }, by decide +kernel⟩,
   ⟨0, 0, base, by decide +kernel⟩,
   ⟨0, 3, (3, { typ := 1, dst := hostEid }), { base with dies := [(0, { arrived := [(3, { typ := 1, dst := hostEid })] })] }, by decide +kernel⟩,
   ⟨0, 3, (3, { typ := 1 }), { base with dies := [(0, { arrived := [(3, { typ := 1 })] })] }, by decide +kernel⟩,
   ⟨0, { base with dies := [(0, { s0 := 3 })], repl := { die := [(0, 655360000000)] } }, by decide +kernel⟩⟩

theorem witness_PairsAndLimiter :
    (∃ (e : Eid) (t : Nat) (s : State), (s.pairRx (pairIdx e false)).timer = some t ∧ t + s.pt ≤ s.now)
    ∧ (∃ (e : Eid) (t : Nat) (s : State), (s.pairRx (pairIdx e true)).timer = some t ∧ t + s.pt ≤ s.now)
    ∧ (∃ (p : Packet) (s : State), s.turn p = true ∧ p.brk = true
      ∧ ((∀ o ∈ s.origs, o.sent = false ∨ o.kind = .delta ∨ o.pkt.dst ≠ p.src ∨ seqDiff o.pkt.pseq p.pseq < 0)))
    ∧ (∃ (p : Packet) (s : State), s.turn p = true ∧ p.brk = true)
    ∧ (∃ (p : Packet) (s : State), s.turn p = false)
    ∧ (∃ (p : Packet) (o : OrigReq) (s : State), s.turn p = true ∧ p.brk = false ∧ s.origs.find? (·.rtag = p.rtag) = some o
      ∧ ((s.take p).2.sessionIn p).2 = true)
    ∧ (∃ (p : Packet) (s : State), s.turn p = true ∧ p.brk = false ∧ s.origs.find? (·.rtag = p.rtag) = none ∧ ((s.take p).2.sessionIn p).2 = true)
    ∧ (∃ (r : BitVec 32) (o : OrigReq) (s : State), s.origs.find? (·.rtag = r) = some o ∧ o.sent = true ∧ o.sentAt + 4 * s.pt ≤ s.now)
    ∧ (∃ (r : BitVec 32) (o : OrigReq) (s : State), s.origs.find? (·.rtag = r) = some o ∧ o.sent = false)
    ∧ (∃ (e : Eid) (s : State), s.limHeld.find? (·.pkt.src = e) = none)
    ∧ (∃ (e : Eid) (h : Held) (s : State), s.limHeld.find? (·.pkt.src = e) = some h ∧ (s.limit e.toNat).rate ≠ 0
      ∧ 0 ≤ ((s.limit e.toNat).refill s.hubNs).tokens)
    ∧ (∃ (p : Packet) (s : State), s.turn p = true ∧ p.brk = false ∧ ((s.take p).2.sessionIn p).2 = false) :=
  ⟨⟨7, 0, { base with now := 200000, rx := [(14, { timer := some 0 })] }, by decide +kernel⟩,
   ⟨7, 0, { base with now := 200000, rx := [(15, { timer := some 0 })] }, by decide +kernel⟩,
   ⟨{ src := 5, pseq := 2, brk := true },
      { base with released := [{ pkt := { src := 5, pseq := 2, brk := true } }], origs := [{ pkt := { dst := 5, pseq := 1 }, sent := true }] },
      by decide +kernel⟩,
   ⟨{ src := 5, brk := true }, { base with released := [{ pkt := { src := 5, brk := true } }] }, by decide +kernel⟩,
   ⟨{ rtag := 9 }, base, by decide +kernel⟩,
   ⟨{ rtag := 9 }, { rtag := 9 }, { base with released := [{ pkt := { rtag := 9 } }], origs := [{ rtag := 9 }] }, by decide +kernel⟩,
   ⟨{ rtag := 9 }, { base with released := [{ pkt := { rtag := 9 } }] }, by decide +kernel⟩,
   ⟨9, { rtag := 9, sent := true }, { base with now := 800000, origs := [{ rtag := 9, sent := true }] }, by decide +kernel⟩,
   ⟨9, { rtag := 9 }, { base with origs := [{ rtag := 9 }] }, by decide +kernel⟩,
   ⟨5, base, by decide +kernel⟩,
   ⟨5, { pkt := { src := 5 } }, { base with limHeld := [{ pkt := { src := 5 } }], limits := [(5, { rate := 1 })] }, by decide +kernel⟩,
   ⟨{ rtag := 9 }, { base with released := [{ pkt := { rtag := 9 } }], parts := [(0, { cfg := 1, sess := 1 })] }, by decide +kernel⟩⟩

theorem witness_MemoryRows : ∃ (c : Instr) (o : Byte) (p : Packet) (s : State), c.memReq = some (o, p) ∧ p.opc = o ∧ s.filtered p.src = false
      ∧ s.turn p = true :=
  ⟨.rdOnce { opc := oRdOnce }, oRdOnce, { opc := oRdOnce }, { base with released := [{ pkt := { opc := oRdOnce } }] }, by decide +kernel⟩

theorem witness_DirectoryRequests :
    (∃ (r : Req) (s : State), isCaching r.pkt.opc = false ∧ (r.pkt.opc = oAtomic → s.isAgent r.pkt.src = false)
      ∧ (s.slice (lineQuad r.line)).scanning = false ∧ (∀ v ∈ (s.slice (lineQuad r.line)).resv, v.line ≠ r.line) ∧ r.atReq = false)
    ∧ (∃ (r : Req) (_s : State), isCaching r.pkt.opc = true ∧ r.atReq = false)
    ∧ (∃ (r : Req) (s : State), (isCaching r.pkt.opc = true → s.isAgent r.pkt.src = true) ∧ r.atReq = false
      ∧ (s.slice (lineQuad r.line)).scanning = false ∧ (∀ v ∈ (s.slice (lineQuad r.line)).resv, v.line ≠ r.line)
      ∧ (∀ w, (s.slice (lineQuad r.line)).find r.line = some w → ((s.slice (lineQuad r.line)).way w).opn = false))
    ∧ (∃ (r : Req) (s : State) (q w : Nat), (s.slice q).find r.line = some w ∧ r.pkt.opc ≠ oAtomic ∧ r.atReq = false)
    ∧ (∃ (r : Req) (s : State) (q w : Nat), (s.slice q).find r.line = some w ∧ (((s.slice q).way w).state = 2 ∨ ((s.slice q).way w).state = 3)
      ∧ ((s.slice q).way w).owner = r.pkt.src ∧ r.pkt.opc ≠ oWbDirty ∧ r.pkt.opc ≠ oEvictClean)
    ∧ (∃ (r : Req) (s : State) (q w : Nat), (s.slice q).find r.line = some w
      ∧ (r.pkt.opc = oRdOwn ∨ r.pkt.opc = oUpgrade ∨ r.pkt.opc = oWrLine ∨ r.pkt.opc = oWrPartial ∨ r.pkt.opc = oAtomic)
      ∧ (((s.slice q).way w).state = 1 ∨ (((s.slice q).way w).state = 2 ∨ ((s.slice q).way w).state = 3) ∧ ((s.slice q).way w).owner ≠ r.pkt.src)) :=
  ⟨⟨{ pkt := { opc := oRdOnce } }, base, by decide +kernel⟩,
   ⟨{ pkt := { opc := oRdShared, src := 5 } }, { base with agents := [(5, true)] }, by decide +kernel⟩,
   ⟨{ pkt := { opc := oRdOnce } }, base, by decide +kernel⟩,
   ⟨{ pkt := { opc := oRdOnce, src := 6 } }, { base with slices := [(0, { ways := [(0, { state := 3, sharers := 5 })] })] }, 0, 0, by decide +kernel⟩,
   ⟨{ pkt := { opc := oRdOnce, src := 5 } }, { base with slices := [(0, { ways := [(0, { state := 3, sharers := 5 })] })] }, 0, 0, by decide +kernel⟩,
   ⟨{ pkt := { opc := oRdOwn, src := 6 } }, { base with slices := [(0, { ways := [(0, { state := 2, sharers := 5 })] })] }, 0, 0, by decide +kernel⟩⟩

theorem witness_DirectoryRows :
    (∃ (p : Packet) (s : State), s.filtered p.src = true ∧ p.vc = false ∧ s.turn p = true ∧ isMemOpc p.opc = true
      ∧ (s.take p).2.mustHold (s.take p).1 = false)
    ∧ (∃ (p : Packet) (s : State), s.filtered p.src = true ∧ p.vc = false ∧ s.turn p = true ∧ isMemOpc p.opc = false)
    ∧ (∃ (n : Fin 8) (s : State), s.stackEn n.val = true ∧ s.admHeld = [] ∧ (s.stack n.val).wait = [])
    ∧ (∃ (n : Fin 8) (h : Held) (l : List Held) (s : State), s.stackEn n.val = true ∧ (s.stack n.val).wait = [] ∧ s.admHeld = h :: l
      ∧ s.pairWaits h.pkt.src = false ∧ (h.pkt.isCtl = true ∨ isRowRequest h.pkt.opc = false ∨ s.roomFor (s.reqOf h) = true))
    ∧ (∃ (n : Fin 8) (r : Req) (l : List Req) (s : State), s.stackEn n.val = true ∧ (s.stack n.val).wait = r :: l
      ∧ (s.stack n.val).room r.flow = true)
    ∧ (∃ (p : Packet) (s : State), s.turn p = true ∧ p.opc = oSnpAck ∧ ((s.take p).2.sessionIn p).2 = true)
    ∧ (∃ (p : Packet) (s : State), s.turn p = true ∧ p.opc = oSnpAckData ∧ ((s.take p).2.sessionIn p).2 = true)
    ∧ (∃ (p : Packet) (s : State), s.turn p = true ∧ p.opc = oGrantAck ∧ ((s.take p).2.sessionIn p).2 = true
      ∧ ((((s.take p).2.sessionIn p).1.slice (tagSlice p.tag)).txn (tagTxn p.tag)).kind = .grantWait
      ∧ ((((s.take p).2.sessionIn p).1.slice (tagSlice p.tag)).txn (tagTxn p.tag)).eid = p.src)
    ∧ (∃ (p : Packet) (s : State), s.turn p = true ∧ p.opc = oGrantAck ∧ ((s.take p).2.sessionIn p).2 = true
      ∧ (((((s.take p).2.sessionIn p).1.slice (tagSlice p.tag)).txn (tagTxn p.tag)).kind ≠ .grantWait ∨ ((((s.take p).2.sessionIn p).1.slice (tagSlice p.tag)).txn (tagTxn p.tag)).eid ≠ p.src))
    ∧ (∃ (q : Fin 4) (t : Fin 1024) (s : State), ((s.slice q.val).txn t.val).since + s.pt ≤ s.now ∧ s.qor.retrainAt = none
      ∧ ((s.slice q.val).txn t.val).kind = .grantWait)
    ∧ (∃ (q : Fin 4) (t : Fin 1024) (s : State), ((s.slice q.val).txn t.val).since + s.pt ≤ s.now ∧ s.qor.retrainAt = none
      ∧ (((s.slice q.val).txn t.val).kind = .shareWait ∨ ((s.slice q.val).txn t.val).kind = .invWait ∨ ((s.slice q.val).txn t.val).kind = .evictWait))
    ∧ (∃ (q : Fin 4) (l : Nat) (v : Resv) (s : State), (s.slice q.val).resv.find? (·.line = l) = some v ∧ v.since + 50000 ≤ s.now)
    ∧ (∃ (q o : Fin 4) (s : State), (s.slice q.val).scanning = true ∧ (s.slice o.val).scanning = true ∧ o ≠ q)
    ∧ (∃ (p : Packet) (s : State), s.turn p = true ∧ p.opc = oSnpAck ∧ ((s.take p).2.sessionIn p).2 = false)
    ∧ (∃ (p : Packet) (s : State), s.turn p = true ∧ p.opc = oSnpAckData ∧ ((s.take p).2.sessionIn p).2 = false)
    ∧ (∃ (p : Packet) (s : State), s.turn p = true ∧ p.opc = oGrantAck ∧ ((s.take p).2.sessionIn p).2 = false)
    ∧ (∃ (p : Packet) (_s : State), p.syn = false ∧ (p.isCmp = false ∨ p.stat ≠ stAborted)) :=
  ⟨⟨{ src := 5, opc := oRdOnce }, { base with elder := { filter := true }, released := [{ pkt := { src := 5, opc := oRdOnce } }] },
      by decide +kernel⟩,
   ⟨{ src := 5, opc := oCtlRd }, { base with elder := { filter := true }, released := [{ pkt := { src := 5, opc := oCtlRd } }] }, by decide +kernel⟩,
   ⟨7, base, by decide +kernel⟩,
   ⟨7, { pkt := { opc := oCtlRd } }, [], { base with admHeld := [{ pkt := { opc := oCtlRd } }] }, by decide +kernel⟩,
   ⟨7, {}, [], { base with stks := [(7, { wait := [{}] })] }, by decide +kernel⟩,
   ⟨{ opc := oSnpAck }, { base with released := [{ pkt := { opc := oSnpAck } }] }, by decide +kernel⟩,
   ⟨{ opc := oSnpAckData }, { base with released := [{ pkt := { opc := oSnpAckData } }] }, by decide +kernel⟩,
   ⟨{ opc := oGrantAck, tag := 3, src := 5 },
      { base with released := [{ pkt := { opc := oGrantAck, tag := 3, src := 5 } }], slices := [(3, { txns := [(0, { kind := .grantWait, eid := 5 })] })] }, by decide +kernel⟩,
   ⟨{ opc := oGrantAck, tag := 3, src := 6 },
      { base with released := [{ pkt := { opc := oGrantAck, tag := 3, src := 6 } }], slices := [(3, { txns := [(0, { kind := .grantWait, eid := 5 })] })] }, by decide +kernel⟩,
   ⟨3, 1023, { base with now := 200000, slices := [(3, { txns := [(1023, { kind := .grantWait })] })] }, by decide +kernel⟩,
   ⟨3, 1023, { base with now := 200000, slices := [(3, { txns := [(1023, { kind := .invWait })] })] }, by decide +kernel⟩,
   ⟨0, 7, { line := 7 }, { base with now := 50000, slices := [(0, { resv := [{ line := 7 }] })] }, by decide +kernel⟩,
   ⟨0, 1, { base with slices := [(0, { scanning := true }), (1, { scanning := true })] }, by decide +kernel⟩,
   ⟨{ opc := oSnpAck }, { base with released := [{ pkt := { opc := oSnpAck } }], parts := [(0, { cfg := 1, sess := 1 })] }, by decide +kernel⟩,
   ⟨{ opc := oSnpAckData }, { base with released := [{ pkt := { opc := oSnpAckData } }], parts := [(0, { cfg := 1, sess := 1 })] },
      by decide +kernel⟩,
   ⟨{ opc := oGrantAck }, { base with released := [{ pkt := { opc := oGrantAck } }], parts := [(0, { cfg := 1, sess := 1 })] }, by decide +kernel⟩,
   ⟨{}, base, by decide +kernel⟩⟩

theorem witness_ChannelRows :
    (∃ (n : Fin 8) (f : Nat) (r : Req) (s : State), (s.stack n.val).paused = false ∧ (s.stack n.val).state = 2 ∧ s.pickFlow n.val = some f
      ∧ s.flowHead n.val f = some r)
    ∧ (∃ (n : Fin 8) (s : State), (s.stack n.val).state ≠ 2)
    ∧ (∃ (n : Fin 8) (c : Fin 16) (m : BitVec 64) (r : Req) (s : State), ((s.stack n.val).chan c.val).blackout = false
      ∧ ((s.stack n.val).state = 2 ∨ (s.stack n.val).state = 3)
      ∧ ((s.stack n.val).chan c.val).pick m (((s.stack n.val).chan c.val).drains || ((s.stack n.val).chan c.val).entries.all Req.isWrite) s.now = some r)
    ∧ (∃ (n : Fin 8) (c : Fin 16) (_a _b : RawEcc) (r : Req) (l : List Req) (s : State), ((s.stack n.val).chan c.val).issued = r :: l)
    ∧ (∃ (n : Fin 8) (c : Fin 16) (b : Fin 64) (s : State), (s.stack n.val).state = 2 ∧ ((s.stack n.val).chan c.val).blackout = false
      ∧ tget 0 ((s.stack n.val).chan c.val).refreshed b.val + (tget 0 ((s.stack n.val).chan c.val).postponed b.val + 1) * (s.stack n.val).refreshNs ≤ s.now)
    ∧ (∃ (n : Fin 8) (c : Fin 16) (b : Fin 64) (s : State), ((s.stack n.val).state = 2
      ∧ ((s.stack n.val).chan c.val).blackout = true ∨ (s.stack n.val).state = 3)
      ∧ tget 0 ((s.stack n.val).chan c.val).refreshed b.val + (tget 0 ((s.stack n.val).chan c.val).postponed b.val + 1) * (s.stack n.val).refreshNs ≤ s.now)
    ∧ (∃ (n : Fin 8) (c : Fin 16) (b : Fin 64) (s : State), s.now < tget 0 ((s.stack n.val).chan c.val).refreshed b.val + (tget 0 ((s.stack n.val).chan c.val).postponed b.val + 1) * (s.stack n.val).refreshNs)
    ∧ (∃ (n : Fin 8) (c : Fin 16) (s : State), (s.stack n.val).state = 2 ∧ (s.stack n.val).failed.getLsbD c.val = false
      ∧ (s.stack n.val).dark = false ∧ ((s.stack n.val).chan c.val).issued = [] ∧ (s.schedState = 0 ∨ s.quiet = true))
    ∧ (∃ (n : Fin 8) (c : Fin 16) (s : State), (s.stack n.val).state = 2 ∧ (s.stack n.val).failed.getLsbD c.val = false
      ∧ ((s.stack n.val).dark = true ∨ ((s.stack n.val).chan c.val).issued ≠ [] ∨ (s.schedState ≠ 0 ∧ s.quiet = false)))
    ∧ (∃ (n : Fin 8) (c : Fin 16) (s : State), (s.stack n.val).state = 2 ∧ (s.stack n.val).failed.getLsbD c.val = false ∧ s.schedState ≠ 0
      ∧ s.schedBusy = false ∧ (s.stack n.val).dark = false ∧ ((s.stack n.val).chan c.val).issued = []
      ∧ ((s.stack n.val).chan c.val).lastCal + 200000000 ≤ s.now)
    ∧ (∃ (n : Fin 8) (c : Fin 16) (s : State), ((s.stack n.val).chan c.val).blackout = true)
    ∧ (∃ (n : Fin 8) (c : Fin 16) (s : State), ((s.stack n.val).chan c.val).blackout = true ∧ ((s.stack n.val).chan c.val).phyFails < 2)
    ∧ (∃ (n : Fin 8) (s : State), s.stackEn n.val = true ∧ 2 ≤ (s.stack n.val).state.toNat ∧ (s.stack n.val).state ≠ 5)
    ∧ (∃ (s : State), s.hubNs % 1000 = 0)
    ∧ (∃ (n : Fin 8) (_a _b : RawEcc) (s : State), s.stackEn n.val = true ∧ (s.stack n.val).state = 2 ∧ (s.stack n.val).patrolAt + s.patrolNs ≤ s.now
      ∧ ((s.stack n.val).diag = true → lineChan (n.val * stackLines + (s.stack n.val).patrol) ≠ 15)
      ∧ (s.stack n.val).failed.getLsbD (lineChan (n.val * stackLines + (s.stack n.val).patrol)) = false)
    ∧ (∃ (n : Nat) (s : State), (List.range 8).find? s.mem.rcMask.getLsbD = some n ∧ s.mem.rcOn = true ∧ (s.stack n).state = 3
      ∧ (∀ c ∈ (s.stack n).chans, c.2.entries = [] ∧ c.2.issued = [] ∧ c.2.blackout = false)) :=
  ⟨⟨0, 3, { flow := 3 }, { base with stks := [(0, { state := 2, queue := [{ flow := 3 }] })] }, by decide +kernel⟩,
   ⟨0, base, by decide +kernel⟩,
   ⟨0, 0, 0xFFFFFFFFFFFFFFFF, {}, { base with stks := [(0, { state := 2, chans := [(0, { entries := [{}] })] })] }, by decide +kernel⟩,
   ⟨0, 15, .clean, .clean, {}, [], { base with stks := [(0, { state := 2, chans := [(15, { issued := [{}] })] })] }, by decide +kernel⟩,
   ⟨7, 15, 63, { base with now := 4000, stks := [(7, { state := 2 })] }, by decide +kernel⟩,
   ⟨7, 15, 63, { base with now := 4000, stks := [(7, { state := 3 })] }, by decide +kernel⟩,
   ⟨7, 15, 63, base, by decide +kernel⟩,
   ⟨7, 15, { base with stks := [(7, { state := 2 })] }, by decide +kernel⟩,
   ⟨7, 15, { base with stks := [(7, { state := 2, chans := [(0, { blackout := true })] })] }, by decide +kernel⟩,
   ⟨7, 15, { base with now := 200000000, stks := [(7, { state := 2 })], sched := { running := some {} } }, by decide +kernel⟩,
   ⟨7, 15, { base with stks := [(7, { state := 2, chans := [(15, { blackout := true })] })] }, by decide +kernel⟩,
   ⟨7, 15, { base with stks := [(7, { state := 2, chans := [(15, { blackout := true, phyFails := 1 })] })] }, by decide +kernel⟩,
   ⟨7, { base with stks := [(7, { state := 2 })] }, by decide +kernel⟩,
   ⟨base, by decide +kernel⟩,
   ⟨7, .clean, .clean, { base with now := 200000, stks := [(7, { state := 2 })] }, by decide +kernel⟩,
   ⟨7, { base with stks := [(7, { state := 3 })], mem := { rcMask := 0x80, rcOn := true } }, by decide +kernel⟩⟩

theorem witness_AtomicDone :
    (∃ (n : Fin 8) (c : Fin 16) (r : Req) (l : List Req) (s : State), ((s.stack n.val).chan c.val).issued = r :: l ∧ r.act = .atom
      ∧ ((s.stack n.val).chan c.val).blackout = false ∧ (∀ p q h w, r.org ≠ .spill p q h w) ∧ (s.ext r.ext).mirror = false
      ∧ (s.ext r.ext).parity = false ∧ lineCls (clsOf (s.lineMeta r.line).mark .clean) (clsOf (s.lineMeta r.line).mark .clean) = .clean)
    ∧ (∃ (p : Packet) (_d : Line), p.formOk false = true ∧ p.opc = oAtomic ∧ p.offset.toNat % 128 + p.accLen ≤ 128)
    ∧ (∃ (w old c v : Nat), old < 2 ^ w ∧ c < 2 ^ w ∧ v < 2 ^ w ∧ (w = 32 ∨ w = 64))
    ∧ (∃ (f : Fp) (_d : Rnd) (n : Nat) (g : Bool) (m : Nat) (e : Int), f ∈ [fp64, fp32, bf16, fp16, fp8e4m3, fp8e5m2, e3m2, e2m3, e2m1]
      ∧ n < 2 ^ (1 + f.ebits + f.fbits) ∧ f.dec n = .fin g m e)
    ∧ (∃ (_a _c : Nat) (b2 b1 b0 t2 d1 d0 : Int), -(2 ^ 23) ≤ d0 ∧ d0 < 2 ^ 23 ∧ -(2 ^ 23) ≤ d1 ∧ d1 < 2 ^ 23
      ∧ t2 * 2 ^ 48 + d1 * 2 ^ 24 + d0 = b2 * 2 ^ 48 + b1 * 2 ^ 24 + b0)
    ∧ (∃ (_a : Nat) (l k : List Val), l.Perm k ∧ l.length < 2 ^ 24) :=
  ⟨⟨0, 0, { act := .atom }, [], { base with stks := [(0, { state := 2, chans := [(0, { issued := [{ act := .atom }] })] })] }, rfl, rfl, rfl,
      (fun _ _ _ _ h => by cases h), by decide +kernel⟩,
   ⟨{ opc := oAtomic, offset := 124, opnd := 0 }, 0, by decide +kernel⟩,
   ⟨64, 2 ^ 64 - 1, 0, 2 ^ 64 - 1, by decide +kernel⟩,
   ⟨fp64, {}, 1, false, 1, -1074, by decide +kernel⟩,
   ⟨0, 0, 0, 0, 2 ^ 23, 0, 1, -(2 ^ 23), by decide +kernel⟩,
   ⟨0, [.nan, .inf true], [.inf true, .nan], List.Perm.swap _ _ _, by decide⟩⟩

theorem witness_GranuleAndGroupRows :
    (∃ (e : Fin 262144) (s : State), (s.ext e.val).state = 3 ∧ (s.ext e.val).scrub < (s.ext e.val).localSize)
    ∧ (∃ (e : Fin 262144) (s : State), (s.ext e.val).state = 3 ∧ (s.ext e.val).scrub = (s.ext e.val).localSize)
    ∧ (∃ (e : Fin 262144) (s : State), (s.ext e.val).combine = true ∧ (s.ext e.val).state = 1 ∧ (s.comb (s.ext e.val).protRef.toNat).clearing = true
      ∧ (s.comb (s.ext e.val).protRef.toNat).fillEnd ≤ s.now
      ∧ ((∀ g ∈ s.extGrans (s.ext e.val), (s.stack (granStack g)).state = 5 ∨ s.bgClear (granStack g) = true)))
    ∧ (∃ (h : Xh) (o : BitVec 40) (d : DeltaIn) (s : State), s.group.on = true ∧ d.src.val ∈ s.peers ∧ (s.ext (h.extractLsb' 0 18).toNat).state = 1
      ∧ (s.ext (h.extractLsb' 0 18).toNat).gen = h.extractLsb' 18 6 ∧ s.standIn (s.ext (h.extractLsb' 0 18).toNat) o.toNat = true
      ∧ o.toNat < (s.ext (h.extractLsb' 0 18).toNat).size.toNat * 2 ^ 21)
    ∧ (∃ (h : Xh) (o : BitVec 40) (d : DeltaIn) (s : State), s.group.on = true ∧ d.src.val ∈ s.peers
      ∧ ((s.ext (h.extractLsb' 0 18).toNat).state ≠ 1 ∨ (s.ext (h.extractLsb' 0 18).toNat).gen ≠ h.extractLsb' 18 6 ∨ s.standIn (s.ext (h.extractLsb' 0 18).toNat) o.toNat = false))
    ∧ (∃ (e : Fin 262144) (i : Nat) (s : State), (s.ext e.val).state = 1 ∧ ((s.ext e.val).mirror = true ∨ (s.ext e.val).parity = true)
      ∧ (s.prot (s.ext e.val).protRef.toNat).rstate = 1 ∧ (s.prot (s.ext e.val).protRef.toNat).target = false
      ∧ i = (if (s.ext e.val).parity then (s.prot (s.ext e.val).protRef.toNat).cursor.toNat / (if (s.ext e.val).pwidth then 7 else 3) else (s.prot (s.ext e.val).protRef.toNat).cursor.toNat))
    ∧ (∃ (e : Fin 262144) (g : Nat) (s : State), (s.ext e.val).state = 1 ∧ (s.ext e.val).mirror = true ∧ (s.ext e.val).parity = false
      ∧ (s.prot (s.ext e.val).protRef.toNat).rstate = 1 ∧ (s.prot (s.ext e.val).protRef.toNat).target = true
      ∧ (s.prot (s.ext e.val).protRef.toNat).cursor.toNat + 1 < (s.ext e.val).size.toNat
      ∧ (s.stack (granStack (s.extGran (s.ext e.val) (s.prot (s.ext e.val).protRef.toNat).cursor.toNat))).state = 5 ∧ s.spare = some g
      ∧ s.granOk g = true)
    ∧ (∃ (m : Fin 8) (h : Xh) (g : Nat) (_l : List (Nat × Line)) (s _u : State), s.group.on = true ∧ m.val ∈ s.peers
      ∧ (s.ext (h.extractLsb' 0 18).toNat).state = 1 ∧ (s.ext (h.extractLsb' 0 18).toNat).gen = h.extractLsb' 18 6
      ∧ ((s.ext (h.extractLsb' 0 18).toNat).mirror = true ∨ (s.ext (h.extractLsb' 0 18).toNat).parity = true)
      ∧ s.isTarget (s.ext (h.extractLsb' 0 18).toNat) = true ∧ g < (s.ext (h.extractLsb' 0 18).toNat).size.toNat)
    ∧ (∃ (s : State), s.group.on = true ∧ s.group.lastSent + 1000000 ≤ s.ftNs)
    ∧ (∃ (m : Fin 8) (s : State), s.group.on = true ∧ m.val ∈ s.peers ∧ s.group.acted.getLsbD m.val = true)
    ∧ (∃ (m : Fin 8) (s : State), s.group.on = true ∧ m.val ∈ s.peers ∧ s.group.acted.getLsbD m.val = false)
    ∧ (∃ (m : Fin 8) (s : State), s.group.on = true ∧ m.val ∈ s.peers ∧ s.group.lost.getLsbD m.val = false
      ∧ tget 0 s.group.lastHb m.val + 4000000 ≤ s.ftNs)
    ∧ (∃ (s : State), (s.majority = false ∨ s.group.toAct = []))
    ∧ (∃ (m : Nat) (s : State), s.majority = true ∧ s.group.toAct = [m]) :=
  ⟨⟨5, { base with exts := [(5, { state := 3, size := 1 })] }, by decide +kernel⟩,
   ⟨5, { base with exts := [(5, { state := 3, size := 1, scrub := 1 })] }, by decide +kernel⟩,
   ⟨5, { base with exts := [(5, { state := 1, combine := true })], combs := [(0, { used := true, clearing := true })] }, by decide +kernel⟩,
   ⟨9, 0, { src := 1, tc := 0, cid := 0, rtag := 0, data := 0 },
      { base with group := { on := true, nmemb := 2 }, exts := [(9, { state := 1, size := 1, parity := true })], prots := [(0, { used := true, parity := true, slots := 0x53977 })] }, by decide +kernel⟩,
   ⟨9, 0, { src := 1, tc := 0, cid := 0, rtag := 0, data := 0 }, { base with group := { on := true, nmemb := 2 } }, by decide +kernel⟩,
   ⟨5, 0, { base with exts := [(5, { state := 1, mirror := true, size := 2 })], prots := [(0, { used := true, rstate := 1 })] }, by decide +kernel⟩,
   ⟨5, 32768, { base with exts := [(5, { state := 1, mirror := true, size := 2 })], prots := [(0, { used := true, rstate := 1, target := true })], stks := [(0, { state := 5 }), (1, { state := 2 })], gmap := [] }, by decide +kernel⟩,
   ⟨1, 9, 0, [],
      { base with group := { on := true, nmemb := 2 }, exts := [(9, { state := 1, size := 2, mirror := true })], prots := [(0, { used := true, lost := 1, slots := 8 })] }, base, by decide +kernel⟩,
   ⟨{ base with group := { on := true }, keeper := { ft := 65536000000 } }, by decide +kernel⟩,
   ⟨1, { base with group := { on := true, nmemb := 2, acted := 2 } }, by decide +kernel⟩,
   ⟨1, { base with group := { on := true, nmemb := 2 } }, by decide +kernel⟩,
   ⟨1, { base with group := { on := true, nmemb := 2 }, keeper := { ft := 262144000000 } }, by decide +kernel⟩,
   ⟨base, by decide +kernel⟩,
   ⟨1, { base with group := { on := true, nmemb := 3, lost := 2 } }, by decide +kernel⟩⟩

theorem witness_SampleRows :
    (∃ (_l : List Int) (s : State), s.stew.released = true)
    ∧ (∃ (_l : List Int) (s : State), s.stew.released = false ∧ s.pwr.phase = .ready ∧ s.pwr.state = 4)
    ∧ (∃ (_w : BitVec 16) (s : State), s.stew.released = true)
    ∧ (∃ (s u : State), s.cnt.pending = true ∧ u = s.latch (s.cnt.todo.filter fun b => decide (s.cnt.snapFt.toNat ≤ s.unitNs b))) :=
  ⟨⟨[], base, by decide +kernel⟩,
   ⟨[25], { base with pwr := { base.pwr with state := 4 }, stew := {} }, by decide +kernel⟩,
   ⟨100, base, by decide +kernel⟩,
   ⟨{ base with cnt := { pending := true, todo := [0] } }, _, by decide +kernel, rfl⟩⟩

theorem witness_CapperRows :
    (∃ (s : State), s.pwr.pos = 47 ∧ s.pwr.overAt.isSome = true ∧ s.pwr.stepAt + 10000000 ≤ s.now ∧ s.schedState = 0 ∧ s.mem.rcOn = false
      ∧ s.lowerable ≠ [])
    ∧ (∃ (s : State), s.pwr.pos = 48 ∧ s.pwr.overAt.isSome = true ∧ s.pwr.stepAt + 10000000 ≤ s.now ∧ s.schedState = 0 ∧ s.mem.rcOn = false
      ∧ s.lowerable ≠ [])
    ∧ (∃ (t : Nat) (s : State), s.pwr.belowAt = some t ∧ t + 1000000 ≤ s.now ∧ s.pwr.pos = 0 ∧ s.pwr.lowered = true ∧ s.mem.rcOn = false
      ∧ s.schedState = 0)
    ∧ (∃ (t : Nat) (s : State), s.pwr.belowAt = some t ∧ t + 1000000 ≤ s.now ∧ s.pwr.pos = 1)
    ∧ (∃ (t : Nat) (s : State), s.pwr.belowAt = some t ∧ t + 1000000 ≤ s.now ∧ 1 < s.pwr.pos ∧ s.pwr.pos ≠ 33 ∧ s.pwr.pos ≠ 48)
    ∧ (∃ (t : Nat) (s : State), s.pwr.belowAt = some t ∧ t + 1000000 ≤ s.now ∧ (s.pwr.pos = 33 ∨ s.pwr.pos = 48)) :=
  ⟨⟨{ base with now := 10000000, pwr := { base.pwr with level := 2, step := 14, schedThr := 16, overAt := some 0 }, stks := [(7, { state := 2 })] },
      by decide +kernel⟩,
   ⟨{ base with now := 10000000, pwr := { base.pwr with level := 3, overAt := some 0 }, stks := [(7, { state := 2 })] }, by decide +kernel⟩,
   ⟨0, { base with now := 1000000, pwr := { phase := .ready, belowAt := some 0, lowered := true } }, by decide +kernel⟩,
   ⟨0, { base with now := 1000000, pwr := { phase := .ready, level := 1, belowAt := some 0 } }, by decide +kernel⟩,
   ⟨0, { base with now := 1000000, pwr := { phase := .ready, level := 1, step := 1, belowAt := some 0 } }, by decide +kernel⟩,
   ⟨0, { base with now := 1000000, pwr := { phase := .ready, level := 3, belowAt := some 0 } }, by decide +kernel⟩⟩

theorem witness_WalkerRows :
    (∃ (t : Fin 32) (k : Nat) (s : State), (s.tile t.val).walk = none ∧ (s.tile t.val).parked = false ∧ s.tileDead t.val = false
      ∧ s.walkersOff = false ∧ least
      (fun k => ((s.tile t.val).job k).order) ((s.tile t.val).slots.filter fun k => ((s.tile t.val).job k).st == .queued || (((s.tile t.val).job k).st == .suspended && ((s.tile t.val).job k).reres)) = some k ∧ (s.ctx ((s.tile t.val).job k).cid.toNat).state = 2)
    ∧ (∃ (t : Fin 32) (s : State), (s.tile t.val).walk.isSome = true)
    ∧ (∃ (q : Fin 4) (n : Nat) (w : Walk) (d : EDone) (s : State), (((List.range 8).map (8 * q.val + ·)).filterMap fun n => (s.tile n).walk.map fun w => (n, w)).find? (fun x => x.2.ready.isSome) = some (n, w) ∧ w.ready = some d)
    ∧ (∃ (q : Fin 4) (n : Nat) (w : Walk) (s : State), (((List.range 8).map (8 * q.val + ·)).filterMap fun n => (s.tile n).walk.map fun w => (n, w)).find? (fun x => x.2.ready.isSome) = none ∧ (((List.range 8).map (8 * q.val + ·)).filterMap fun n => (s.tile n).walk.map fun w => (n, w)).filter (fun x => !x.2.waiting) = [(n, w)])
    ∧ (∃ (q : Fin 4) (s : State), (((List.range 8).map (8 * q.val + ·)).filterMap fun n => (s.tile n).walk.map fun w => (n, w)).find?
      (fun x => x.2.ready.isSome) = none)
    ∧ (∃ (_host : Bool) (level : Nat) (_e : Word), level < 4) :=
  ⟨⟨31, 63, { base with tiles := [(31, { jobs := [(63, { st := .queued })] })], ctxs := [(0, { state := 2 })] }, by decide +kernel⟩,
   ⟨31, { base with tiles := [(31, { walk := some {} })] }, by decide +kernel⟩,
   ⟨3, 31, { ready := some {} }, {}, { base with tiles := [(31, { walk := some { ready := some {} } })] }, by decide +kernel⟩,
   ⟨3, 31, {}, { base with tiles := [(31, { walk := some {} })] }, by decide +kernel⟩,
   ⟨3, base, by decide +kernel⟩,
   ⟨true, 3, 0, by decide +kernel⟩⟩

theorem witness_EngineRows :
    (∃ (t : Fin 32) (k : Nat) (s : State), s.engineFree t.val = true ∧ s.selects t.val = some k)
    ∧ (∃ (t : Fin 32) (s : State), (s.engineFree t.val = false ∨ s.selects t.val = none))
    ∧ (∃ (t : Fin 32) (_e _p : Nat) (s : State), (s.tile t.val).srun.isSome = true)
    ∧ (∃ (t : Fin 32) (_e _p k : Nat) (s : State), (s.tile t.val).srun = none ∧ (s.tile t.val).running = some k)
    ∧ (∃ (t : Fin 32) (r : SRun) (d : EDone) (l : List EDone) (s : State), (s.tile t.val).srun = some r ∧ r.eng.done = d :: l)
    ∧ (∃ (t : Fin 32) (k : Nat) (d : EDone) (l : List EDone) (s : State), (s.tile t.val).srun = none ∧ (s.tile t.val).slots.find?
      (fun k => !((s.tile t.val).job k).eng.done.isEmpty) = some k ∧ ((s.tile t.val).job k).eng.done = d :: l)
    ∧ (∃ (t : Fin 32) (s : State), s.pwr.issue (s.tile t.val).srun.isSome 1 = 0)
    ∧ (∃ (t : Fin 32) (k : Nat) (s : State), (s.tile t.val).running = some k ∧ (s.job t.val k).budget ≠ 0
      ∧ (s.job t.val k).budget * 1000 ≤ (s.job t.val k).engNs + (s.hubNs - (s.job t.val k).eng.blockFt) ∧ (s.job t.val k).mark = none)
    ∧ (∃ (t : Fin 32) (k i : Nat) (s : State), (s.tile t.val).running = some k
      ∧ 1000000 ≤ (s.job t.val k).quantNs + (s.now - (s.job t.val k).eng.blockAt) ∧ i ∈ s.candidates t.val
      ∧ cidPart (s.job t.val i).cid ≠ cidPart (s.job t.val k).cid)
    ∧ (∃ (t : Fin 32) (k : Nat) (s : State), (s.tile t.val).running = some k
      ∧ 1000000 ≤ (s.job t.val k).quantNs + (s.now - (s.job t.val k).eng.blockAt)
      ∧ (∀ i ∈ s.candidates t.val, cidPart (s.job t.val i).cid = cidPart (s.job t.val k).cid))
    ∧ (∃ (t : Fin 32) (x : Landed) (l : List Landed) (s : State), (s.tile t.val).lands = x :: l)
    ∧ (∃ (t : Fin 32) (s : State), (s.tile t.val).lands = [])
    ∧ (∃ (t : Fin 32) (w : Fin 16) (s : State), (s.land (16 * t.val + w.val)).v = true ∧ (s.land (16 * t.val + w.val)).draining = true
      ∧ tget 0 (s.tile t.val).consumed w.val = 2048) :=
  ⟨⟨31, 63, { base with tiles := [(31, { jobs := [(63, { st := .ready })] })] }, by decide +kernel⟩,
   ⟨31, base, by decide +kernel⟩,
   ⟨31, 0, 0, { base with tiles := [(31, { srun := some {} })] }, by decide +kernel⟩,
   ⟨31, 0, 0, 63, { base with tiles := [(31, { running := some 63 })] }, by decide +kernel⟩,
   ⟨31, { eng := { done := [{}] } }, {}, [], { base with tiles := [(31, { srun := some { eng := { done := [{}] } } })] }, by decide +kernel⟩,
   ⟨31, 63, {}, [], { base with tiles := [(31, { jobs := [(63, { st := .running, eng := { done := [{}] } })] })] }, by decide +kernel⟩,
   ⟨31, { base with pwr := { base.pwr with level := 1, step := 15 } }, by decide +kernel⟩,
   ⟨31, 63, { base with repl := { hub := 65536000 }, tiles := [(31, { running := some 63, jobs := [(63, { budget := 1 })] })] }, by decide +kernel⟩,
   ⟨31, 63, 5, { base with now := 1000000, tiles := [(31, { running := some 63, jobs := [(5, { st := .ready, cid := 1024 }), (63, { st := .running })] })] }, by decide +kernel⟩,
   ⟨31, 63, { base with now := 1000000, tiles := [(31, { running := some 63, jobs := [(63, { st := .running })] })] }, by decide +kernel⟩,
   ⟨31, {}, [], { base with tiles := [(31, { lands := [{}] })] }, by decide +kernel⟩,
   ⟨31, base, by decide +kernel⟩,
   ⟨31, 15, { base with lands := [(511, { v := true, draining := true })], tiles := [(31, { consumed := [(15, 2048)] })] }, by decide +kernel⟩⟩

theorem witness_TestRows :
    (∃ (t : Fin 32) (s : State), s.stew.released = true ∧ s.tileDead t.val = false ∧ (s.tile t.val).kat.due = false
      ∧ (s.tile t.val).kat.running = false ∧ ((s.tile t.val).kat.jobs = 256 ∨ (s.tile t.val).kat.lastNs + 600000000000 ≤ s.ftNs))
    ∧ (∃ (t : Fin 32) (s : State), s.tileEn t.val = true ∧ (s.tile t.val).kat.health = 1 ∧ (s.tile t.val).kat.due = false
      ∧ (s.tile t.val).kat.running = false ∧ (s.tile t.val).kat.lastNs + 1000000000 ≤ s.ftNs)
    ∧ (∃ (t : Fin 32) (s : State), (s.tile t.val).kat.due = true ∧ (s.tile t.val).kat.running = false ∧ s.tileDead t.val = false
      ∧ (s.tile t.val).running = none ∧ (s.tile t.val).srun = none ∧ (s.tile t.val).swait = [] ∧ (s.tile t.val).gated = false ∧ (∀ w, w < 16
      → (s.land (16 * t.val + w)).v = true → (s.land (16 * t.val + w)).sched = true))
    ∧ (∃ (t : Fin 32) (s : State), (s.tile t.val).kat.running = true ∧ (s.tile t.val).kat.paused = false)
    ∧ (∃ (t : Fin 32) (s : State), (s.tile t.val).kat.running = true)
    ∧ (∃ (t : Fin 32) (_a : Byte) (_b : BitVec 32) (_c _d : BitVec 64) (s : State), (s.tile t.val).kat.running = true)
    ∧ (∃ (t : Fin 32) (_b : Byte) (s : State), (s.tile t.val).running = none ∧ (s.tile t.val).srun = none ∧ (s.tile t.val).kat.running = true
      ∧ (s.tile t.val).kat.paused = false)
    ∧ (∃ (t : Fin 32) (_b : Byte) (k : Nat) (s : State), (s.tile t.val).running = some k ∧ (s.job t.val k).mark = none
      ∧ (s.tile t.val).kat.health ≠ 1)
    ∧ (∃ (n : Nat) (s : State), (s.tile n).kat.fails ≤ 3) :=
  ⟨⟨31, { base with tiles := [(31, { kat := { jobs := 256 } })] }, by decide +kernel⟩,
   ⟨31, { base with tiles := [(31, { kat := { health := 1 } })], keeper := { ft := 65536000000000 } }, by decide +kernel⟩,
   ⟨31, { base with tiles := [(31, { kat := { due := true } })] }, by decide +kernel⟩,
   ⟨31, { base with tiles := [(31, { kat := { running := true } })] }, by decide +kernel⟩,
   ⟨31, { base with tiles := [(31, { kat := { running := true } })] }, by decide +kernel⟩,
   ⟨31, 0, 0, 0, 0, { base with tiles := [(31, { kat := { running := true } })] }, by decide +kernel⟩,
   ⟨31, 0, { base with tiles := [(31, { kat := { running := true } })] }, by decide +kernel⟩,
   ⟨31, 0, 63, { base with tiles := [(31, { running := some 63 })] }, by decide +kernel⟩,
   ⟨31, { base with tiles := [(31, { kat := { fails := 3 } })] }, by decide +kernel⟩⟩

theorem witness_ImageRows :
    (∃ (im : Image) (s : State), s.sched.next = some im ∧ s.sched.pending = false ∧ s.winsFreed = true ∧ s.ftNs + 100000 < s.sched.tx)
    ∧ (∃ (im : Image) (s : State), s.sched.next = some im ∧ s.sched.pending = false ∧ s.sched.tx ≤ s.ftNs + 100000)
    ∧ (∃ (im : Image) (s : State), s.sched.pending = true ∧ s.sched.next = some im ∧ s.sched.tx ≤ s.tileNs ∧ s.sched.tx ≤ s.hubNs
      ∧ (∀ d ∈ s.dieList, s.sched.tx ≤ s.dieNs d))
    ∧ (∃ (s : State), s.sched.pending = true ∧ s.sched.next = none ∧ s.sched.disarm = true ∧ s.sched.tx ≤ s.tileNs ∧ s.sched.tx ≤ s.hubNs
      ∧ (∀ d ∈ s.dieList, s.sched.tx ≤ s.dieNs d))
    ∧ (∃ (s : State), s.tileNs < s.sched.tx)
    ∧ (∃ (s : State), s.sched.syncLost = true ∧ s.landsDrain = false ∧ (∀ n ∈ s.tileList, (s.tile n).srun = none)) :=
  ⟨⟨{}, { base with sched := { next := some {}, tx := 100001 } }, by decide +kernel⟩,
   ⟨{}, { base with sched := { next := some {}, tx := 100000 } }, by decide +kernel⟩,
   ⟨{}, { base with sched := { next := some {}, pending := true } }, by decide +kernel⟩,
   ⟨{ base with sched := { disarm := true, pending := true } }, by decide +kernel⟩,
   ⟨{ base with sched := { tx := 1 } }, by decide +kernel⟩,
   ⟨{ base with sched := { syncLost := true } }, by decide +kernel⟩⟩

theorem witness_RunningRows :
    (∃ (im : Image) (s : State), s.sched.running = some im ∧ (∀ d ∈ s.dieList, s.sched.lastSwitch + 16 * max 1 im.cycle ≤ s.dieNs d))
    ∧ (∃ (s : State), s.sched.running = none)
    ∧ (∃ (p : Fin 17) (l : List GateEntry) (e : GateEntry) (s : State), s.gateList p.val = some l ∧ l[(s.port p.val).gateIdx]? = some e
      ∧ (s.port p.val).gateStart + 16 * e.dur ≤ s.dieNs (p.val / 4) ∧ (s.port p.val).gateIdx + 1 < l.length)
    ∧ (∃ (t : Fin 32) (i : Fin 512) (im : Image) (e : SEntry) (k : Nat) (s : State), s.sched.running = some im
      ∧ (s.tile t.val).armed.entries[i.val]? = some e ∧ k = (s.tileNs - s.sched.runStart) / (16 * max 1 im.cycle) ∧ e.valid = true
      ∧ s.sched.runStart + k * (16 * max 1 im.cycle) + 16 * e.start ≤ s.tileNs ∧ k % max 1 e.every = e.phase
      ∧ tget 0 (s.tile t.val).fired i.val ≠ k + 1 ∧ s.sched.pending = false)
    ∧ (∃ (t : Fin 32) (r : SRun) (s : State), (s.tile t.val).srun = some r ∧ r.overrun = false ∧ r.deadline ≤ s.tileNs)
    ∧ (∃ (t : Fin 32) (r : SRun) (s : State), (s.tile t.val).srun = some r ∧ r.overrun = true) :=
  ⟨⟨{ cycle := 0 },
      { base with sched := { running := some { cycle := 0 } }, repl := { die := [(0, 1048576), (1, 1048576), (2, 1048576), (3, 1048576)] } },
      by decide +kernel⟩,
   ⟨base, by decide +kernel⟩,
   ⟨15, [{}, {}], {}, { base with sched := { running := some { lists := [(15, [{}, {}])] } }, repl := { die := [(3, 1048576)] } }, by decide +kernel⟩,
   ⟨31, 0, {}, { valid := true }, 0, { base with sched := { running := some {} }, tiles := [(31, { armed := { entries := [{ valid := true }] } })] },
      by decide +kernel⟩,
   ⟨31, {}, { base with tiles := [(31, { srun := some {} })] }, by decide +kernel⟩,
   ⟨31, { overrun := true }, { base with tiles := [(31, { srun := some { overrun := true } })] }, by decide +kernel⟩⟩

theorem witness_TrainingRows :
    (∃ (p : Fin 17) (g : TrainTrigger) (s : State), s.portEn p.val = true ∧ s.portsOn = true ∧ (s.port p.val).state = 1 ∧ (s.port p.val).en = true
      ∧ (g = .signal p ∨ (g = .retry p ∧ (s.port p.val).retryDue s.now = true)))
    ∧ (∃ (p : Fin 17) (g : TrainTrigger) (s : State), (((g = .signal p ∨ g = .retry p) ∧ (s.port p.val).state ≠ 1) ∨ (g = .retry p
      ∧ (s.port p.val).retryDue s.now = false)))
    ∧ (∃ (p : Fin 17) (_v : BitVec 16) (_l : Byte) (s : State), (s.port p.val).state = 2 ∧ (s.port p.val).train.step = 1)
    ∧ (∃ (p : Fin 17) (_v : BitVec 16) (_l : Byte) (s : State), (s.port p.val).state = 2 ∧ (s.port p.val).train.step = 2)
    ∧ (∃ (p : Fin 17) (_v : BitVec 16) (s : State), (s.port p.val).state = 2 ∧ (s.port p.val).train.step = 4)
    ∧ (∃ (p : Fin 17) (v : BitVec 16) (_l : Byte) (s u : State), (s.port p.val).state = 2 ∧ (s.port p.val).train.step = 5
      ∧ u = s.setPort p.val { s.port p.val with rtt := v, train := { (s.port p.val).train with gotRtt := true } })
    ∧ (∃ (p : Fin 17) (_l : Byte) (s : State), (s.port p.val).state = 2)
    ∧ (∃ (p : Fin 17) (s : State), (s.port p.val).state = 2
      ∧ (s.port p.val).train.at_ + stepBound (s.port p.val).train.step (s.port p.val).train.short < s.now)
    ∧ (∃ (p : Fin 17) (b : ParamBody) (s : State), (s.port p.val).state = 2 ∧ (s.port p.val).train.step = 5 ∧ paramBodyOk p.val b = false)
    ∧ (∃ (p : Fin 17) (b : ParamBody) (s u : State), p.val < 16 ∧ (s.port p.val).state = 2 ∧ (s.port p.val).train.step = 5
      ∧ paramBodyOk p.val b = true
      ∧ u = s.setPort p.val { s.port p.val with train := { (s.port p.val).train with gotParam := true }, peerEid := b.eid, peerCaps := b.caps, credReq := b.credReq.setWidth 15, credRsp := b.credRsp.setWidth 15, credSnp := 0, cred := tput 0 (tput 0 (tput 0 [] 0 b.credReq.toNat) 1 b.credRsp.toNat) 2 0 })
    ∧ (∃ (p : Nat) (_s : State), p < 16) :=
  ⟨⟨16, .signal 16, { base with ports := [(16, { state := 1, en := true })] }, by decide +kernel⟩,
   ⟨16, .signal 16, base, by decide +kernel⟩,
   ⟨16, 0, 0, { base with ports := [(16, { state := 2, train := { step := 1 } })] }, by decide +kernel⟩,
   ⟨16, 0, 0, { base with ports := [(16, { state := 2, train := { step := 2 } })] }, by decide +kernel⟩,
   ⟨16, 0, { base with ports := [(16, { state := 2, train := { step := 4 } })] }, by decide +kernel⟩,
   ⟨16, 7, 0, { base with ports := [(16, { state := 2, train := { step := 5 } })] }, _, by decide +kernel, by decide +kernel, rfl⟩,
   ⟨16, 0, { base with ports := [(16, { state := 2, train := { step := 4 } })] }, by decide +kernel⟩,
   ⟨16, { base with now := 1000001, ports := [(16, { state := 2, train := { step := 1 } })] }, by decide +kernel⟩,
   ⟨16, {}, { base with ports := [(16, { state := 2, train := { step := 5 } })] }, by decide +kernel⟩,
   ⟨15, { credReq := 64, credRsp := 16384 }, { base with ports := [(15, { state := 2, train := { step := 5 } })] }, _, by decide +kernel,
      by decide +kernel, by decide +kernel, by decide +kernel, rfl⟩,
   ⟨15, base, by decide +kernel⟩⟩

theorem witness_RetrainRows :
    (∃ (p : Fin 17) (c : RetrainCause) (s : State), p.val < 16 ∧ (s.port p.val).triggered c = true ∧ (s.port p.val).state = 3
      ∧ ((s.port p.val).retrains.filter fun t => decide (s.now < t + 100000000)).length < 3)
    ∧ (∃ (p : Fin 17) (c : RetrainCause) (s : State), (s.port p.val).triggered c = true ∧ (s.port p.val).state = 3
      ∧ 3 ≤ ((s.port p.val).retrains.filter fun t => decide (s.now < t + 100000000)).length)
    ∧ (∃ (p : Fin 17) (_b : Byte) (s : State), p.val < 16 ∧ (s.port p.val).state = 3
      ∧ ((s.port p.val).retrains.filter fun t => decide (s.now < t + 100000000)).length < 3)
    ∧ (∃ (p : Fin 17) (_v : BitVec 16) (_l : Byte) (s : State), (s.port p.val).state = 4 ∧ (s.port p.val).train.step + 1 < 5)
    ∧ (∃ (p : Fin 17) (_v : BitVec 16) (s : State), (s.port p.val).state = 4 ∧ (s.port p.val).train.step = 4 ∧ (s.port p.val).gotResume = none)
    ∧ (∃ (p : Fin 17) (_l : Byte) (s : State), (s.port p.val).state = 4 ∧ (s.port p.val).train.step < 5)
    ∧ (∃ (p : Fin 17) (_a : BitVec 16) (s : State), (s.port p.val).state = 4 ∧ (s.port p.val).train.step ≠ 5)
    ∧ (∃ (p : Fin 17) (_a : BitVec 16) (s : State), (s.port p.val).state = 4 ∧ (s.port p.val).train.step = 5)
    ∧ (∃ (p : Nat) (h : BitVec 16 × List (Nat × BitVec 16)) (s : State), s.resumeHeader p h = none)
    ∧ (∃ (p : Fin 17) (s : State), (s.port p.val).state = 4 ∧ (s.port p.val).train.at_ + 50000 < s.now)
    ∧ (∃ (p : Fin 17) (s : State), ((s.port p.val).state = 3 ∨ (s.port p.val).state = 4) ∧ (s.port p.val).lastBlock + 2000 ≤ s.now)
    ∧ (∃ (p : Fin 17) (_r : Byte) (s : State), ((s.port p.val).state = 3 ∨ (s.port p.val).state = 4))
    ∧ (∃ (p : Fin 17) (_r : Byte) (s : State), (s.port p.val).state ≠ 3 ∧ (s.port p.val).state ≠ 4)
    ∧ (∃ (p : Fin 17) (s : State), s.pwr.state = 1 ∧ (s.port p.val).state = 3 ∧ (s.port p.val).lastData + 100000 ≤ s.now ∧ (s.port p.val).store = []
      ∧ s.frameQueued p.val = false) :=
  ⟨⟨15, .lock, { base with ports := [(15, { state := 3, retrains := [0, 0] })] }, by decide +kernel⟩,
   ⟨16, .lock, { base with ports := [(16, { state := 3, retrains := [0, 0, 0] })] }, by decide +kernel⟩,
   ⟨15, 1, { base with ports := [(15, { state := 3 })] }, by decide +kernel⟩,
   ⟨16, 0, 0, { base with ports := [(16, { state := 4, train := { step := 3 } })] }, by decide +kernel⟩,
   ⟨16, 0, { base with ports := [(16, { state := 4, train := { step := 4 } })] }, by decide +kernel⟩,
   ⟨16, 0, { base with ports := [(16, { state := 4, train := { step := 4 } })] }, by decide +kernel⟩,
   ⟨16, 0, { base with ports := [(16, { state := 4, train := { step := 4 } })] }, by decide +kernel⟩,
   ⟨16, 0, { base with ports := [(16, { state := 4, train := { step := 5 } })] }, by decide +kernel⟩,
   ⟨15, (9, []), { base with ports := [(15, { state := 4 })] }, by decide +kernel⟩,
   ⟨16, { base with now := 50001, ports := [(16, { state := 4 })] }, by decide +kernel⟩,
   ⟨16, { base with now := 2000, ports := [(16, { state := 3 })] }, by decide +kernel⟩,
   ⟨16, 15, { base with ports := [(16, { state := 3 })] }, by decide +kernel⟩,
   ⟨16, 15, base, by decide +kernel⟩,
   ⟨16, { base with now := 100000, pwr := { phase := .ready, state := 1 }, ports := [(16, { state := 3 })] }, by decide +kernel⟩⟩

theorem witness_FlitRows :
    (∃ (p : Fin 17) (_f : Flit) (s : State), (s.port p.val).state.toNat < 2)
    ∧ (∃ (p : Nat) (f : Flit) (s : State), p < 16 ∧ 0 < seqDiff f.seq (s.port p).exp)
    ∧ (∃ (p : Nat) (f : Flit) (s : State), p < 16 ∧ seqDiff f.seq (s.port p).exp < 0)
    ∧ (∃ (p : Nat) (f : Flit) (s : State), p < 16 ∧ seqDiff f.seq (s.port p).exp = 0)
    ∧ (∃ (_p : Nat) (f : Flit) (_s : State), (5 < (f.byte 0).toNat ∨ (f.byte 0).toNat = 0)) :=
  ⟨⟨16, {}, { base with ports := [(16, { state := 1 })] }, by decide +kernel⟩,
   ⟨15, { seq := 1 }, base, by decide +kernel⟩,
   ⟨15, { seq := 0xFFFF }, base, by decide +kernel⟩,
   ⟨15, { seq := 0 }, base, by decide +kernel⟩,
   ⟨15, { body := 6 }, base, by decide +kernel⟩⟩

theorem witness_BlockRows :
    (∃ (p : Fin 17) (b : FecBlock) (s : State), 2 ≤ (s.port p.val).state.toNat ∧ b.bad0 = false ∧ b.bad1 = false)
    ∧ (∃ (p : Fin 17) (b : FecBlock) (s : State), (s.port p.val).state = 3 ∧ (b.bad0 = true ∨ b.bad1 = true))
    ∧ (∃ (p : Fin 17) (s : State), p.val < 16 ∧ (s.port p.val).state = 3 ∧ (s.port p.val).replay = none
      ∧ (∀ f ∈ (s.port p.val).store, f.sentAt ≠ none))
    ∧ (∃ (s : State), (s.port 16).state = 3 ∧ (s.port 16).replay = none ∧ (∀ f ∈ (s.port 16).store, f.sentAt ≠ none))
    ∧ (∃ (p : Fin 17) (s : State), ((s.port p.val).state = 3 ∨ (s.port p.val).state = 4 ∨ ((s.port p.val).state = 2 ∧ (s.port p.val).train.step = 5)))
    ∧ (∃ (p : Fin 17) (s : State), (s.port p.val).state = 3 ∧ (s.port p.val).nakHold = true
      ∧ (s.port p.val).nakAt + 2000 + (s.port p.val).rtt.toNat ≤ s.now)
    ∧ (∃ (p : Fin 17) (f : TxFlit) (l : List TxFlit) (t : Nat) (s : State), (s.port p.val).store = f :: l ∧ f.sentAt = some t
      ∧ (s.port p.val).state = 3 ∧ (s.port p.val).replay = none ∧ t + 8000 + (s.port p.val).rtt.toNat < s.now)
    ∧ (∃ (p : Fin 17) (s : State), p.val < 16 ∧ 2048 ≤ ((s.port p.val).store.filter fun f => !f.spill).length) :=
  ⟨⟨16, {}, { base with ports := [(16, { state := 2 })] }, by decide +kernel⟩,
   ⟨16, { bad1 := true }, { base with ports := [(16, { state := 3 })] }, by decide +kernel⟩,
   ⟨15, { base with ports := [(15, { state := 3, store := [{ sentAt := some 0 }] })] }, by decide +kernel⟩,
   ⟨{ base with ports := [(16, { state := 3, store := [{ sentAt := some 0 }] })] }, by decide +kernel⟩,
   ⟨16, { base with ports := [(16, { state := 4 })] }, by decide +kernel⟩,
   ⟨16, { base with now := 2000, ports := [(16, { state := 3, nakHold := true })] }, by decide +kernel⟩,
   ⟨16, { sentAt := some 0 }, [], 0, { base with now := 8001, ports := [(16, { state := 3, store := [{ sentAt := some 0 }] })] }, by decide +kernel⟩,
   ⟨15, { base with ports := [(15, { state := 3, store := List.replicate 2048 {} })] }, by decide +kernel⟩⟩

theorem witness_HostRows :
    (∃ (p : Packet) (q : HostReq) (s : State), s.turn p = true ∧ (s.take p).2.qor.reqs.find? (fun q => q.tag = p.tag && q.write = true) = some q)
    ∧ (∃ (p : Packet) (q : HostReq) (s : State), s.turn p = true ∧ (s.take p).2.qor.reqs.find? (fun q => q.tag = p.tag && q.write = false) = some q)
    ∧ (∃ (p : Packet) (s : State), s.turn p = true ∧ s.qor.reqs = [])
    ∧ (∃ (t : BitVec 16) (q : HostReq) (s : State), s.qor.reqs.find? (·.tag = t) = some q ∧ q.sentAt + 4 * s.pt ≤ s.now)
    ∧ (∃ (s : State), (s.port 16).state = 3 ∧ s.qor.linkUp = false ∧ s.orphanScan = false ∧ s.stewardUp = true)
    ∧ (∃ (s : State), s.qor.linkUp = true)
    ∧ (∃ (t : Fin 65) (r : NtfRec) (l : List NtfRec) (s : State), (s.ring t.val).recs = r :: l ∧ ntfEn (s.ntfReg t.val) = true ∧ s.inService = true
      ∧ r.kind ≠ 0)
    ∧ (∃ (t : Fin 65) (r : NtfRec) (l : List NtfRec) (s : State), (s.ring t.val).recs = r :: l ∧ ntfEn (s.ntfReg t.val) = true ∧ s.inService = true
      ∧ r.kind = 0)
    ∧ (∃ (t : Fin 65) (s : State), ((s.ring t.val).recs = [] ∨ ntfEn (s.ntfReg t.val) = false ∨ s.inService = false))
    ∧ (∃ (t : Fin 65) (r : NtfRec) (l : List (NtfRec × Option (Nat × Nat))) (s : State), (s.ring t.val).waiting = (r, none) :: l
      ∧ (s.ring t.val).recs.length < 1024)
    ∧ (∃ (t : Fin 65) (r : NtfRec) (n k : Nat) (l : List (NtfRec × Option (Nat × Nat))) (s : State), (s.ring t.val).waiting = (r, some (n, k)) :: l
      ∧ (s.ring t.val).recs.length < 1024) :=
  ⟨⟨{}, { write := true }, { base with released := [{}], qor := { reqs := [{ write := true }] } }, by decide +kernel⟩,
   ⟨{}, {}, { base with released := [{}], qor := { reqs := [{}] } }, by decide +kernel⟩,
   ⟨{}, { base with released := [{}] }, by decide +kernel⟩,
   ⟨0, {}, { base with now := 800000, qor := { reqs := [{}] } }, by decide +kernel⟩,
   ⟨{ base with ports := [(16, { state := 3 })] }, by decide +kernel⟩,
   ⟨{ base with qor := { linkUp := true } }, by decide +kernel⟩,
   ⟨64, { kind := 1 }, [], { base with rings := [(64, { recs := [{ kind := 1 }] })], stew := { released := true, devNtf := 1 } }, by decide +kernel⟩,
   ⟨64, {}, [], { base with rings := [(64, { recs := [{}] })], stew := { released := true, devNtf := 1 } }, by decide +kernel⟩,
   ⟨64, base, by decide +kernel⟩,
   ⟨64, {}, [], { base with rings := [(64, { waiting := [({}, none)] })] }, by decide +kernel⟩,
   ⟨63, {}, 31, 5, [], { base with rings := [(63, { waiting := [({}, some (31, 5))] })] }, by decide +kernel⟩⟩

theorem witness_CoreTakeoverRows :
    (∃ (s : State), s.stew.step ≠ .booting ∧ s.stew.heartbeat + 20000000 ≤ s.now ∧ s.stew.released = true ∧ s.stew.noFw = false
      ∧ s.pwr.state.toNat < 2 ∧ s.stew.standby = 0 ∧ s.stew.claim ≠ 0xFFFFFFFF)
    ∧ (∃ (s : State), s.now < s.stew.heartbeat + 20000000)
    ∧ (∃ (s : State), s.stew.released = true ∧ s.stew.noFw = false ∧ s.pwr.state.toNat < 2 ∧ s.stew.standby = 0 ∧ s.stew.claim ≠ 0xFFFFFFFF)
    ∧ (∃ (s : State), s.stew.released = true ∧ s.stew.noFw = false ∧ s.pwr.state.toNat < 2 ∧ s.stew.standby ≠ 0)
    ∧ (∃ (s : State), s.stew.released = true ∧ s.stew.noFw = false ∧ s.pwr.state.toNat < 2 ∧ s.stew.standby = 0 ∧ s.stew.claim = 0xFFFFFFFF)
    ∧ (∃ (s t : State), s.stew.step = .booting
      ∧ t = { s with stew := { s.stew with claim := s.stew.claim + 1, claimReply := s.stew.claim + 1, claimLink := s.stew.claim + 1, active := !s.stew.active, step := .replay, heartbeat := s.now, takeovers := if s.stew.takeovers = 0xFFFF then s.stew.takeovers else s.stew.takeovers + 1 } })
    ∧ (∃ (g : OutStage) (c : BitVec 32) (s : State), g ≠ .warden ∧ c.toNat < (s.stew.held g).toNat)
    ∧ (∃ (g : OutStage) (c : BitVec 32) (s : State), (s.stew.held g).toNat ≤ c.toNat)
    ∧ (∃ (s : State), s.stew.step = .booting)
    ∧ (∃ (s : State), s.stew.step = .replay ∧ s.cmds = [] ∧ s.stew.commitToken = none ∧ s.sched.next = none ∧ s.pwr.pstep = .none ∧ s.stew.late = []
      ∧ s.mem.rcOn = false)
    ∧ (∃ (_ok : Bool) (s : State), s.stew.step = .oldCheck)
    ∧ (∃ (s : State), s.stew.step = .swWait ∧ s.commitReady = true)
    ∧ (∃ (s : State), s.stew.step = .swBoot ∧ s.sessionsOver = true ∧ s.stew.claim ≠ 0xFFFFFFFF)
    ∧ (∃ (s : State), s.stew.step = .swBoot ∧ s.sessionsOver = true ∧ s.stew.commitToken = none)
    ∧ (∃ (s u : State), s.stew.step = .swLoad
      ∧ u = (({ s with nv := s.nv.switched, stew := { s.stew with step := .swCarry }, journal := s.journal.loaded }).replayCmds.replayArm).postReady
      ∧ u.stew.step = .swCarry)
    ∧ (∃ (s : State), s.stew.step = .swCarry) :=
  ⟨⟨{ base with now := 20000000 }, by decide +kernel⟩,
   ⟨{ base with now := 19999999 }, by decide +kernel⟩,
   ⟨base, by decide +kernel⟩,
   ⟨{ base with stew := { released := true, standby := 2 } }, by decide +kernel⟩,
   ⟨{ base with stew := { released := true, claim := 0xFFFFFFFF } }, by decide +kernel⟩,
   ⟨{ base with stew := { step := .booting } }, _, by decide +kernel, rfl⟩,
   ⟨.reply, 0, { base with stew := { claimReply := 1 } }, by decide +kernel⟩,
   ⟨.reply, 1, { base with stew := { claimReply := 1 } }, by decide +kernel⟩,
   ⟨{ base with stew := { step := .booting } }, by decide +kernel⟩,
   ⟨{ base with stew := { step := .replay } }, by decide +kernel⟩,
   ⟨true, { base with stew := { step := .oldCheck } }, by decide +kernel⟩,
   ⟨{ base with stew := { step := .swWait } }, by decide +kernel⟩,
   ⟨{ base with stew := { step := .swBoot } }, by decide +kernel⟩,
   ⟨{ base with stew := { step := .swBoot } }, by decide +kernel⟩,
   ⟨{ base with stew := { step := .swLoad }, cmds := [{ deferred := true }] }, _, by decide +kernel, rfl, by decide +kernel⟩,
   ⟨{ base with stew := { step := .swCarry } }, by decide +kernel⟩⟩

theorem witness_HandshakeRows :
    (∃ (u : BitVec 16) (s : State), s.unitAsked u.toNat = true)
    ∧ (∃ (u : BitVec 16) (_us : Nat) (s : State), s.unitAsked u.toNat = true)
    ∧ (∃ (u : BitVec 16) (_r : Byte) (s : State), s.unitAsked u.toNat = true ∧ s.pwr.refuse = none)
    ∧ (∃ (u : BitVec 16) (_a : UnitAnswer) (s : State), s.unitAsked u.toNat = false)
    ∧ (∃ (u : BitVec 16) (s : State), s.unitAsked u.toNat = true ∧ tget 0 s.pwr.delays u.toNat ≠ 0 ∧ tget 0 s.pwr.delays u.toNat ≤ s.now)
    ∧ (∃ (u : BitVec 16) (s : State), s.unitAsked u.toNat = true ∧ s.pwr.askAt + 1000000 ≤ s.now ∧ s.pwr.refuse = none) :=
  ⟨⟨0x8001, { base with pwr := { base.pwr with pstep := .s2 } }, by decide +kernel⟩,
   ⟨0x8001, 1000, { base with pwr := { base.pwr with pstep := .s2 } }, by decide +kernel⟩,
   ⟨0x8001, 1, { base with pwr := { base.pwr with pstep := .s2 } }, by decide +kernel⟩,
   ⟨0x8001, .accept, base, by decide +kernel⟩,
   ⟨0x8001, { base with now := 5, pwr := { base.pwr with pstep := .s2, delays := [(0x8001, 5)] } }, by decide +kernel⟩,
   ⟨0x8001, { base with now := 1000000, pwr := { base.pwr with pstep := .s2 } }, by decide +kernel⟩⟩

theorem witness_PowerStepRows :
    (∃ (s : State), s.coreUp = true ∧ s.pwr.pstep = .s1 ∧ s.pwr.wake = false ∧ s.pwr.refuse = none ∧ s.entryRefusal s.pwr.target.toNat = none)
    ∧ (∃ (u : BitVec 16 × Byte) (s : State), s.coreUp = true ∧ s.pwr.pstep = .s1 ∧ s.pwr.wake = false ∧ s.pwr.refuse = none
      ∧ s.entryRefusal s.pwr.target.toNat = some u)
    ∧ (∃ (s : State), s.coreUp = true ∧ s.pwr.pstep = .s2 ∧ s.pwr.wake = false ∧ s.pwr.refuse = none ∧ s.handshaken = true)
    ∧ (∃ (s : State), s.coreUp = true ∧ s.pwr.pstep = .s2 ∧ s.pwr.wake = true)
    ∧ (∃ (s : State), s.coreUp = true ∧ s.pwr.pstep = .s3 ∧ s.flushed = true)
    ∧ (∃ (s : State), s.coreUp = true ∧ s.pwr.pstep = .s4 ∧ s.drained = true)
    ∧ (∃ (s : State), s.coreUp = true ∧ s.pwr.pstep = .s5)
    ∧ (∃ (s : State), s.coreUp = true ∧ s.pwr.pstep = .s6 ∧ s.pwr.wake = false ∧ s.pwr.target ≠ 4)
    ∧ (∃ (s : State), s.coreUp = true ∧ s.pwr.pstep = .s6 ∧ s.pwr.wake = false ∧ s.pwr.target = 4)
    ∧ (∃ (s : State), s.pwr.phase = .ready ∧ s.pwr.pstep = .none ∧ (s.pwr.state = 2 ∨ s.pwr.state = 3))
    ∧ (∃ (s : State), s.pwr.phase = .ready ∧ s.pwr.pstep = .none ∧ s.pwr.state = 4)
    ∧ (∃ (s : State), s.pwr.phase = .ready ∧ s.pwr.pstep.entry = true)
    ∧ (∃ (s : State), s.pwr.pstep = .w1 ∧ s.pwr.fallen = [])
    ∧ (∃ (s : State), s.pwr.pstep = .w2)
    ∧ (∃ (s : State), s.pwr.pstep = .w3)
    ∧ (∃ (s : State), s.pwr.pstep = .w4)
    ∧ (∃ (s : State), s.pwr.pstep = .w5)
    ∧ (∃ (s : State), s.pwr.pstep = .w6)
    ∧ (∃ (s : State), s.coreUp = true ∧ s.pwr.pstep = .s1 ∧ s.pwr.wake = true)
    ∧ (∃ (u : BitVec 16 × Byte) (s : State), s.coreUp = true ∧ s.pwr.pstep = .s2 ∧ s.pwr.wake = false ∧ s.pwr.refuse = some u)
    ∧ (∃ (s : State), s.coreUp = true ∧ ((s.pwr.pstep = .s2 ∧ s.handshaken = false) ∨ (s.pwr.pstep = .s3 ∧ s.flushed = false) ∨ (s.pwr.pstep = .s4
      ∧ s.drained = false)))
    ∧ (∃ (s : State), s.coreUp = true ∧ s.pwr.pstep = .s6 ∧ s.pwr.wake = true)
    ∧ (∃ (s : State), s.pwr.phase = .ready ∧ s.pwr.pstep = .none ∧ s.pwr.state = 1)
    ∧ (∃ (s : State), (s.pwr.phase ≠ .ready ∨ (s.pwr.pstep = .none ∧ s.pwr.state = 0)))
    ∧ (∃ (s : State), s.pwr.pstep = .w1 ∧ s.pwr.fallen ≠ []) :=
  ⟨⟨{ base with pwr := { base.pwr with pstep := .s1, target := 1 } }, by decide +kernel⟩,
   ⟨(0, 0x01), { base with pwr := { base.pwr with pstep := .s1, target := 1 }, sched := { running := some {} } }, by decide +kernel⟩,
   ⟨{ base with pwr := { phase := .ready, pstep := .s2, target := 1 } }, by decide +kernel⟩,
   ⟨{ base with pwr := { base.pwr with pstep := .s2, wake := true } }, by decide +kernel⟩,
   ⟨{ base with pwr := { base.pwr with pstep := .s3, target := 2 } }, by decide +kernel⟩,
   ⟨{ base with pwr := { base.pwr with pstep := .s4, target := 2 } }, by decide +kernel⟩,
   ⟨{ base with pwr := { base.pwr with pstep := .s5, target := 2 } }, by decide +kernel⟩,
   ⟨{ base with pwr := { base.pwr with pstep := .s6, target := 3 } }, by decide +kernel⟩,
   ⟨{ base with pwr := { base.pwr with pstep := .s6, target := 4 } }, by decide +kernel⟩,
   ⟨{ base with pwr := { base.pwr with state := 3 } }, by decide +kernel⟩,
   ⟨{ base with pwr := { base.pwr with state := 4 } }, by decide +kernel⟩,
   ⟨{ base with pwr := { base.pwr with pstep := .s6 } }, by decide +kernel⟩,
   ⟨{ base with pwr := { base.pwr with pstep := .w1 } }, by decide +kernel⟩,
   ⟨{ base with pwr := { base.pwr with pstep := .w2 } }, by decide +kernel⟩,
   ⟨{ base with pwr := { base.pwr with pstep := .w3 } }, by decide +kernel⟩,
   ⟨{ base with pwr := { base.pwr with pstep := .w4 } }, by decide +kernel⟩,
   ⟨{ base with pwr := { base.pwr with pstep := .w5 } }, by decide +kernel⟩,
   ⟨{ base with pwr := { base.pwr with pstep := .w6 } }, by decide +kernel⟩,
   ⟨{ base with pwr := { base.pwr with pstep := .s1, target := 2, wake := true } }, by decide +kernel⟩,
   ⟨(0x17, 5), { base with pwr := { base.pwr with pstep := .s2, target := 2, refuse := some (0x17, 5) } }, by decide +kernel⟩,
   ⟨{ base with pwr := { base.pwr with pstep := .s4, target := 2 }, admHeld := [{ pkt := {} }] }, by decide +kernel⟩,
   ⟨{ base with pwr := { base.pwr with pstep := .s6, target := 2, wake := true } }, by decide +kernel⟩,
   ⟨{ base with pwr := { base.pwr with state := 1 } }, by decide +kernel⟩,
   ⟨base, by decide +kernel⟩,
   ⟨{ base with pwr := { base.pwr with pstep := .w1, fallen := [5] } }, by decide +kernel⟩⟩

theorem witness_GroupCommands :
    (∃ (_m : Fin 8) (_xh : Xh) (_st : BitVec 16) (s : State), s.stewardUp = true)
    ∧ (∃ (m : Fin 8) (xh : Xh) (s : State), s.stewardUp = true ∧ s.noAnswer m.val xh true = true)
    ∧ (∃ (xh : Xh) (s : State), (∃ c ∈ s.group.calls, c.create = true ∧ c.xh = xh ∧ c.ans = none))
    ∧ (∃ (xh : Xh) (l : List Carried) (s : State), l = s.group.calls.filter (fun c => c.create && c.xh == xh) ∧ l ≠ [] ∧ (∀ c ∈ l, c.ans = some 0))
    ∧ (∃ (m : Fin 8) (xh : Xh) (s : State), s.stewardUp = true ∧ s.group.on = true ∧ m.val ∈ s.peers ∧ s.live xh.toNat = true
      ∧ ((s.ext (xhIdx xh.toNat)).mirror = true ∨ (s.ext (xhIdx xh.toNat)).parity = true))
    ∧ (∃ (_m : Fin 8) (_xh : Xh) (_st : BitVec 16) (s : State), s.stewardUp = true) :=
  ⟨⟨1, 9, 0, base, by decide +kernel⟩,
   ⟨1, 9, { base with now := 800000, group := { calls := [{ member := 1, xh := 9, at_ := 0, create := true }] } }, by decide +kernel⟩,
   ⟨9, { base with group := { calls := [{ member := 1, xh := 9, at_ := 0, create := true }] } }, by decide +kernel⟩,
   ⟨9, _, { base with group := { calls := [{ member := 1, xh := 9, at_ := 0, create := true, ans := some 0 }] } }, rfl, by decide +kernel,
      by decide +kernel⟩,
   ⟨1, 9, { base with group := { on := true, nmemb := 2 }, exts := [(9, { state := 1, size := 1, mirror := true })] }, by decide +kernel⟩,
   ⟨1, 9, 0, base, by decide +kernel⟩⟩

theorem witness_MemCfgRegister : ∃ (n : Nat) (_s : State), n ≤ 24 :=
  ⟨24, base, by decide +kernel⟩

theorem witness_IdHashRegisters : ∃ (k : Nat) (_q : Packet) (_s : State), k < 6 :=
  ⟨5, {}, base, by decide +kernel⟩

theorem witness_CountersSaturate : ∃ (_s : State) (off _n : Nat), off ≠ elogDroppedOff :=
  ⟨base, 8, 1, by decide +kernel⟩

/-! ### Commands of mailboxes that run -/

/-- The state with a request in mailbox `i`: its opcode, the length of ARGS and the fields of ARGS by offset, length and value. -/
def post (i op len : Nat) (args : List (Nat × Nat × Nat)) (s : State) : State :=
  s.setMbox i { req := BitVec.ofNat 2048 (1 + op <<< 16 + len <<< 64 + packBytes args <<< 128), mseq := 1 }

/-- A command that Steward takes and runs at once, and whose condition holds. -/
abbrev Takes (s : State) (f : CmdForm) (mb : MbId) (ok : State → Cmd → Nat → Prop) : Prop :=
  s.accepts f mb = true ∧ ok (s.takeCmd mb f.names).2 (s.takeCmd mb f.names).1 ((s.takeCmd mb f.names).2.mbox mb.idx).args

/-- The same of a command whose condition is asked also of the state with the journal's entry. -/
abbrev TakesNoted (s : State) (f : CmdForm) (mb : MbId) (ok : State → Cmd → Nat → Prop) : Prop :=
  Takes s f mb ok ∧ ok ((s.takeCmd mb f.names).2.note (s.takeCmd mb f.names).1.token .write) (s.takeCmd mb f.names).1
    ((s.takeCmd mb f.names).2.mbox mb.idx).args

theorem runs_PartitionCommands :
    (∃ (mb : MbId) (s : State), Takes s createForm mb (fun u _ a => arg a 0 1 < 64 ∧ (u.part (arg a 0 1)).state = 0 ∧ cfgOk (arg a 8 8) = true
      ∧ admitOk (arg a 16 8) = true ∧ shapeOk (arg a 24 8) = true ∧ ntfOk (arg a 32 8) = true
      ∧ ((arg a 8 8).testBit 0 = false ∨ (arg a 32 8).testBit 1 = false)))
    ∧ (∃ (mb : MbId) (s : State), Takes s armForm mb (fun u _ a => arg a 0 1 < 64 ∧ (u.part (arg a 0 1)).state = 1
      ∧ ((u.part (arg a 0 1)).conf = true → (u.part (arg a 0 1)).sess = 1)))
    ∧ (∃ (mb : MbId) (s : State), Takes s recoverForm mb (fun u _ a => arg a 0 1 < 64 ∧ (u.part (arg a 0 1)).state = 4
      ∧ (u.part (arg a 0 1)).done = true))
    ∧ (∃ (mb : MbId) (s : State), Takes s recoverForm mb (fun u _ a => arg a 0 1 < 64 ∧ (u.part (arg a 0 1)).state = 4
      ∧ (u.part (arg a 0 1)).done = false))
    ∧ (∃ (mb : MbId) (s : State), TakesNoted s closeForm mb (fun u _ a => arg a 0 1 < 64 ∧ (u.part (arg a 0 1)).state ≠ 0
      ∧ (u.part (arg a 0 1)).state ≠ 3 ∧ ((u.modPart (arg a 0 1) fun x => { x with state := 3 }).dropRecords (arg a 0 1)).slotsOf (arg a 0 1) = []))
    ∧ (∃ (mb : MbId) (s : State), Takes s closeForm mb (fun u _ a => (u.part (arg a 0 1)).state = 0 ∧ arg a 0 1 < 64)) :=
  ⟨⟨{}, post 0 0x0101 40 [(0,1,5),(8,8,7)] base, by refine ⟨by decide +kernel, ?_⟩; decide +kernel⟩,
   ⟨{}, post 0 0x0102 1 [(0,1,5)] ({ base with parts := [(5, { state := 1 })] }), by refine ⟨by decide +kernel, ?_⟩; decide +kernel⟩,
   ⟨{}, post 0 0x0103 1 [(0,1,5)] ({ base with parts := [(5, { state := 4, done := true })], ctxs := [(5120, { state := 2 })] }),
      by refine ⟨by decide +kernel, ?_⟩; decide +kernel⟩,
   ⟨{}, post 0 0x0103 1 [(0,1,5)] ({ base with parts := [(5, { state := 4 })] }), by refine ⟨by decide +kernel, ?_⟩; decide +kernel⟩,
   ⟨{}, post 0 0x0104 1 [(0,1,5)] ({ base with parts := [(5, { state := 2 })] }), by refine ⟨⟨by decide +kernel, ?_⟩, ?_⟩ <;> decide +kernel⟩,
   ⟨{}, post 0 0x0104 1 [(0,1,63)] base, by refine ⟨by decide +kernel, ?_⟩; decide +kernel⟩⟩

theorem runs_ExtentCommands :
    (∃ (mb : MbId) (s : State), Takes s extRevokeForm mb (fun u c a => u.byOwner c (xhIdx (arg a 0 3)) = true ∧ u.live (arg a 0 3) = true
      ∧ (u.ext (xhIdx (arg a 0 3))).mirror = false ∧ (u.ext (xhIdx (arg a 0 3))).parity = false))
    ∧ (∃ (mb : MbId) (s : State), Takes s queryForm mb (fun u c a => (u.ext (xhIdx (arg a 0 3))).state ≠ 0 ∧ u.byOwner c (xhIdx (arg a 0 3)) = true))
    ∧ (∃ (mb : MbId) (s : State), Takes s scrubForm mb (fun _ _ a => 5 ≤ arg a 0 1 ∧ arg a 0 1 ≤ 50))
    ∧ (∃ (mb : MbId) (s : State), Takes s scrubForm mb (fun _ _ a => arg a 0 1 < 5 ∨ 50 < arg a 0 1)) :=
  ⟨⟨{}, post 0 0x0202 3 [(0,3,9)] ({ base with exts := [(9, { state := 1, size := 1 })] }), by refine ⟨by decide +kernel, ?_⟩; decide +kernel⟩,
   ⟨{}, post 0 0x0207 3 [(0,3,9)] ({ base with exts := [(9, { state := 2, size := 1 })] }), by refine ⟨by decide +kernel, ?_⟩; decide +kernel⟩,
   ⟨{}, post 0 0x0208 1 [(0,1,50)] base, by refine ⟨by decide +kernel, ?_⟩; decide +kernel⟩,
   ⟨{}, post 0 0x0208 1 [(0,1,51)] base, by refine ⟨by decide +kernel, ?_⟩; decide +kernel⟩⟩

theorem runs_ShareCommands :
    (∃ (mb : MbId) (s : State) (k : Nat), Takes s offerForm mb (fun u c a => u.byOwner c (xhIdx (arg a 0 3)) = true ∧ arg a 4 1 < 64
      ∧ u.live (arg a 0 3) = true ∧ (u.ext (xhIdx (arg a 0 3))).mirror = false ∧ (u.ext (xhIdx (arg a 0 3))).parity = false
      ∧ (u.part (arg a 4 1)).conf = false ∧ ((u.part (arg a 4 1)).state = 1 ∨ (u.part (arg a 4 1)).state = 2)
      ∧ (u.ext (xhIdx (arg a 0 3))).owner.toNat ≠ arg a 4 1 ∧ u.slotOf (xhIdx (arg a 0 3)) (arg a 4 1) = none
      ∧ (u.ext (xhIdx (arg a 0 3))).shared = true ∧ (List.range 7).find?
      (fun k => !(tget {} (u.share (u.ext (xhIdx (arg a 0 3))).shareRef.toNat).slots k).valid) = some k))
    ∧ (∃ (mb : MbId) (s : State) (r : Nat), Takes s offerForm mb (fun u c a => u.byOwner c (xhIdx (arg a 0 3)) = true ∧ arg a 4 1 < 64
      ∧ u.live (arg a 0 3) = true ∧ (u.ext (xhIdx (arg a 0 3))).mirror = false ∧ (u.ext (xhIdx (arg a 0 3))).parity = false
      ∧ (u.part (arg a 4 1)).conf = false ∧ ((u.part (arg a 4 1)).state = 1 ∨ (u.part (arg a 4 1)).state = 2)
      ∧ (u.ext (xhIdx (arg a 0 3))).owner.toNat ≠ arg a 4 1 ∧ (u.ext (xhIdx (arg a 0 3))).shared = false ∧ u.freeShare = some r))
    ∧ (∃ (mb : MbId) (s : State) (k : Nat) (y : ShareSlot), Takes s acceptForm mb (fun u c a => u.live (arg a 0 3) = true
      ∧ u.slotOf (xhIdx (arg a 0 3)) c.own = some (k, y) ∧ y.consent = false))
    ∧ (∃ (mb : MbId) (s : State) (k : Nat) (y : ShareSlot), Takes s withdrawForm mb (fun u c a => u.live (arg a 0 3) = true
      ∧ u.slotOf (xhIdx (arg a 0 3)) c.own = some (k, y)))
    ∧ (∃ (mb : MbId) (s : State) (k : Nat) (y : ShareSlot), Takes s unshareForm mb (fun u c a => u.byOwner c (xhIdx (arg a 0 3)) = true
      ∧ u.live (arg a 0 3) = true ∧ u.slotOf (xhIdx (arg a 0 3)) (arg a 4 1) = some (k, y))) :=
  ⟨⟨{ part := some 0 },
      post 4 0x0203 8 [(0,3,9),(4,1,5),(6,2,3)] ({ base with parts := [(0, { state := 2 }), (5, { state := 1 })], exts := [(9, { state := 1, size := 1, shared := true, shareRef := 2 })], shares := [(2, { used := true, slots := [(0, { valid := true, part := 1 }), (1, { valid := true, part := 2 }), (2, { valid := true, part := 3 })] })] }), 3, by refine ⟨by decide +kernel, ?_⟩; decide +kernel⟩,
   ⟨{ part := some 0 },
      post 4 0x0203 8 [(0,3,9),(4,1,5),(6,2,3)] ({ base with parts := [(0, { state := 2 }), (5, { state := 1 })], exts := [(9, { state := 1, size := 1 })] }), 0, by refine ⟨by decide +kernel, ?_⟩; decide +kernel⟩,
   ⟨{ part := some 0 },
      post 4 0x0204 3 [(0,3,9)] ({ base with parts := [(0, { state := 2 })], exts := [(9, { state := 1, size := 1, owner := 5, shared := true })], shares := [(0, { used := true, slots := [(2, { valid := true, part := 0 })] })] }), 2, { valid := true, part := 0 }, by refine ⟨by decide +kernel, ?_⟩; decide +kernel⟩,
   ⟨{ part := some 0 },
      post 4 0x0205 3 [(0,3,9)] ({ base with parts := [(0, { state := 2 })], exts := [(9, { state := 1, size := 1, owner := 5, shared := true })], shares := [(0, { used := true, slots := [(2, { valid := true, part := 0 })] })] }), 2, { valid := true, part := 0 }, by refine ⟨by decide +kernel, ?_⟩; decide +kernel⟩,
   ⟨{}, post 0 0x0206 5 [(0,3,9),(4,1,7)] ({ base with exts := [(9, { state := 1, size := 1, owner := 5, shared := true })], shares := [(0, { used := true, slots := [(2, { valid := true, part := 7 })] })] }), 2, { valid := true, part := 7 }, by refine ⟨by decide +kernel, ?_⟩; decide +kernel⟩⟩

theorem runs_GroupCommands :
    (∃ (mb : MbId) (s : State), Takes s groupForm mb (fun u _ a => 2 ≤ arg a 0 1 ∧ arg a 0 1 ≤ 8 ∧ arg a 1 1 < arg a 0 1 ∧ arg a 8 4 ≠ 0
      ∧ arg a 8 4 ≤ 16384 ∧ arg a 4 4 + arg a 8 4 ≤ 262144 ∧ tget 0 (groupEids a (arg a 0 1)) (arg a 1 1) = u.node.eid ∧ (∀ i, i < arg a 0 1
      → arg a (16 + 2 * i) 2 < 4096) ∧ u.group.on = false ∧ ∀ e ∈ u.exts, e.2.state = 0 ∨ e.1 < arg a 4 4 ∨ arg a 4 4 + arg a 8 4 ≤ e.1))
    ∧ (∃ (mb : MbId) (s : State), Takes s groupForm mb (fun u _ a => 2 ≤ arg a 0 1 ∧ arg a 0 1 ≤ 8 ∧ arg a 1 1 < arg a 0 1 ∧ arg a 8 4 ≠ 0
      ∧ arg a 8 4 ≤ 16384 ∧ arg a 4 4 + arg a 8 4 ≤ 262144 ∧ tget 0 (groupEids a (arg a 0 1)) (arg a 1 1) = u.node.eid ∧ (∀ i, i < arg a 0 1
      → arg a (16 + 2 * i) 2 < 4096) ∧ u.group.on = true ∧ (arg a 2 1).testBit 0 = true ∧ arg a 0 1 = u.group.nmemb ∧ arg a 1 1 = u.group.self.val
      ∧ arg a 4 4 = u.group.xbase.toNat ∧ arg a 8 4 = u.group.xcount ∧ ∀ m, m < arg a 0 1
      → tget 0 (groupEids a (arg a 0 1)) m = tget 0 u.group.eids m ∨ u.group.lost.getLsbD m = true))
    ∧ (∃ (mb : MbId) (s : State), Takes s groupRevokeForm mb (fun u c a => u.byOwner c (xhIdx (arg a 0 3)) = true ∧ u.live (arg a 0 3) = true
      ∧ ((u.ext (xhIdx (arg a 0 3))).mirror = true ∨ (u.ext (xhIdx (arg a 0 3))).parity = true) ∧ u.majority = true))
    ∧ (∃ (mb : MbId) (s : State), Takes s promoteForm mb (fun u _ a => u.group.on = true ∧ u.group.nmemb = 2 ∧ arg a 0 1 ∈ u.peers
      ∧ u.silent (arg a 0 1) = true))
    ∧ (∃ (mb : MbId) (s : State), Takes s rebuildForm mb (fun u _ a => arg a 0 3 ≠ 0xFFFFFF ∧ arg a 4 1 < 8 ∧ arg a 5 1 < 2 ∧ arg a 6 1 < 3
      ∧ u.live (arg a 0 3) = true ∧ u.canRebuild (arg a 4 1) (arg a 6 1) (arg a 5 1 = 1) (xhIdx (arg a 0 3)) = true ∧ (arg a 6 1 = 0 → arg a 5 1 = 1
      → u.spare ≠ none))) :=
  ⟨⟨{}, post 0 0x0301 32 [(0,1,2),(1,1,1),(4,4,1024),(8,4,16384),(16,2,7),(18,2,5)] ({ base with node := { eid := 5 } }),
      by refine ⟨by decide +kernel, ?_⟩; decide +kernel⟩,
   ⟨{}, post 0 0x0301 32 [(0,1,2),(1,1,1),(2,1,1),(4,4,1024),(8,4,16384),(16,2,7),(18,2,5)] ({ base with node := { eid := 5 }, group := { on := true, nmemb := 2, self := 1, xbase := 1024, xcount := 16384, eids := [(0, 9), (1, 5)], lost := 1 } }), by refine ⟨by decide +kernel, ?_⟩; decide +kernel⟩,
   ⟨{}, post 0 0x0303 3 [(0,3,9)] ({ base with group := { on := true, nmemb := 1, xcount := 16 }, exts := [(9, { state := 1, size := 1, mirror := true })] }), by refine ⟨by decide +kernel, ?_⟩; decide +kernel⟩,
   ⟨{}, post 0 0x0304 1 [(0,1,1)] ({ base with group := { on := true, nmemb := 2 }, keeper := { ft := 262144000000 } }),
      by refine ⟨by decide +kernel, ?_⟩; decide +kernel⟩,
   ⟨{}, post 0 0x0305 7 [(0,3,9),(4,1,1)] ({ base with group := { on := true, nmemb := 2 }, exts := [(9, { state := 1, size := 1, mirror := true })], prots := [(0, { used := true, lost := 2 })] }), by refine ⟨by decide +kernel, ?_⟩; decide +kernel⟩⟩

theorem runs_ContextAndTranslationCommands :
    (∃ (mb : MbId) (s : State) (k t : Nat), Takes s ctxCreateForm mb (fun u _ a => arg a 0 1 < 64
      ∧ ((u.part (arg a 0 1)).state = 1 ∨ (u.part (arg a 0 1)).state = 2) ∧ entryOk (arg a 8 8) = true ∧ ((u.part (arg a 0 1)).conf = true
      → (arg a 8 8).testBit 44 = false) ∧ u.partContexts (arg a 0 1) < (u.part (arg a 0 1)).maxCtx ∧ (u.ctxs.filter (·.2.state ≠ 0)).length < 8192
      ∧ u.oldestCtx (arg a 0 1) = some (k, t) ∧ (t = 0 ∨ t + 10000000 ≤ u.ftNs + 1)))
    ∧ (∃ (mb : MbId) (s : State), Takes s ctxSetForm mb (fun u _ a => ((u.ctx (arg a 0 2)).state = 1 ∨ (u.ctx (arg a 0 2)).state = 2)
      ∧ ((u.ctx (arg a 0 2)).state = 2 → (arg a 2 1).testBit 0 = false → u.ctxJobs (arg a 0 2) = false) ∧ entryOk (arg a 8 8) = true
      ∧ ((u.part (arg a 0 2 / 1024)).conf = true → (arg a 8 8).testBit 44 = false)))
    ∧ (∃ (mb : MbId) (s : State), Takes s ctxDestroyForm mb (fun u _ a => (u.ctx (arg a 0 2)).state = 1 ∨ (u.ctx (arg a 0 2)).state = 2))
    ∧ (∃ (mb : MbId) (s : State), Takes s invalForm mb (fun u _ a => arg a 0 1 < 64 ∧ arg a 16 8 ≠ 0 ∧ arg a 8 6 + arg a 16 8 ≤ 2 ^ 48
      ∧ ((arg a 1 1).testBit 0 = false → arg a 2 2 / 1024 = arg a 0 1 ∧ (u.ctx (arg a 2 2)).state ≠ 0)
      ∧ ((u.part (arg a 0 1)).state = 1 ∨ (u.part (arg a 0 1)).state = 2)))
    ∧ (∃ (mb : MbId) (s : State), Takes s bindForm mb (fun u _ a => arg a 0 1 < 64 ∧ ((arg a 1 1).testBit 0 = true
      → (u.part (arg a 0 1)).state = 1 ∨ (u.part (arg a 0 1)).state = 2) ∧ u.elder.en = false))
    ∧ (∃ (mb : MbId) (s : State), Takes s mapForm mb (fun u _ a => arg a 2 1 ≠ 0 ∧ arg a 2 1 ≤ 28 ∧ arg a 0 2 + arg a 2 1 ≤ 32768 ∧ u.elder.en = true
      ∧ ∀ k, k < arg a 2 1 → u.regionBad (arg a (8 + 8 * k) 8) = none))
    ∧ (∃ (mb : MbId) (s : State), Takes s agentForm mb (fun _ _ a => arg a 2 2 ≠ 0 ∧ arg a 2 2 ≤ 4096 ∧ arg a 4 1 = 1
      ∧ arg a 0 2 + arg a 2 2 ≤ 0xFFE))
    ∧ (∃ (mb : MbId) (s : State), Takes s agentForm mb (fun _ _ a => arg a 2 2 ≠ 0 ∧ arg a 2 2 ≤ 4096 ∧ arg a 4 1 = 1 ∧ arg a 0 2 + arg a 2 2 = 4096))
    ∧ (∃ (mb : MbId) (s : State), Takes s agentForm mb (fun _ _ a => arg a 2 2 ≠ 0 ∧ arg a 2 2 ≤ 4096 ∧ arg a 4 1 = 0
      ∧ arg a 0 2 + arg a 2 2 ≤ 0xFFE))
    ∧ (∃ (mb : MbId) (s : State), Takes s cohForm mb (fun _ _ a => arg a 0 1 < 3)) :=
  ⟨⟨{}, post 0 0x0111 24 [(0,1,1),(1,1,1)] ({ base with parts := [(1, { state := 1, cfg := 8 })] }), 0, 0,
      by refine ⟨by decide +kernel, ?_⟩; decide +kernel⟩,
   ⟨{}, post 0 0x0112 24 [(0,2,1024),(2,1,0)] ({ base with parts := [(1, { state := 1 })], ctxs := [(1024, { state := 2 })] }),
      by refine ⟨by decide +kernel, ?_⟩; decide +kernel⟩,
   ⟨{}, post 0 0x0113 2 [(0,2,1024)] ({ base with ctxs := [(1024, { state := 1 })] }), by refine ⟨by decide +kernel, ?_⟩; decide +kernel⟩,
   ⟨{}, post 0 0x0401 24 [(0,1,1),(2,2,1024),(16,8,4096)] ({ base with parts := [(1, { state := 2 })], ctxs := [(1024, { state := 2 })] }),
      by refine ⟨by decide +kernel, ?_⟩; decide +kernel⟩,
   ⟨{}, post 0 0x0402 6 [(0,1,3),(1,1,1),(2,2,5),(4,2,4095)] ({ base with parts := [(3, { state := 2 })] }),
      by refine ⟨by decide +kernel, ?_⟩; decide +kernel⟩,
   ⟨{}, post 0 0x0403 16 [(0,2,32767),(2,1,1),(8,8,2305)] ({ base with elder := { en := true }, parts := [(0, { state := 2 })], exts := [(9, { state := 1, size := 1 })] }), by refine ⟨by decide +kernel, ?_⟩; decide +kernel⟩,
   ⟨{}, post 0 0x0501 5 [(0,2,4093),(2,2,1),(4,1,1)] base, by refine ⟨by decide +kernel, ?_⟩; decide +kernel⟩,
   ⟨{}, post 0 0x0501 5 [(0,2,4095),(2,2,1),(4,1,1)] base, by refine ⟨by decide +kernel, ?_⟩; decide +kernel⟩,
   ⟨{}, post 0 0x0501 5 [(0,2,0),(2,2,2),(4,1,0)] ({ base with agents := [(1, true)] }), by refine ⟨by decide +kernel, ?_⟩; decide +kernel⟩,
   ⟨{}, post 0 0x0502 1 [(0,1,2)] base, by refine ⟨by decide +kernel, ?_⟩; decide +kernel⟩⟩

theorem runs_JobAndCombineCommands :
    (∃ (mb : MbId) (s : State) (n : Nat), Takes s submitForm mb (fun u _ a => (u.part (arg a 0 2 / 1024)).state = 2 ∧ (u.ctx (arg a 0 2)).state = 2
      ∧ (arg a 2 1).testBit 3 = false ∧ arg a 16 2 ≠ 0 ∧ arg a 16 2 ≤ 4 ∧ arg a 18 1 ≠ 0 ∧ arg a 18 1 ≤ 4
      ∧ opStatic (arg a 96 32) (arg a 18 1) = true ∧ (∀ i, i < arg a 16 2 → rngOk (arg a (32 + 16 * i) 16) = true)
      ∧ blockOk (arg a 96 32) (arg a 18 1) 0 = true ∧ bitsOf (arg a 96 32) 192 64 = 0
      ∧ opOk (arg a 96 32) (arg a 18 1) 0 (((List.range (arg a 16 2)).map fun i => arg a (32 + 16 * i) 16).map rngOf) = true ∧ least
      (fun n => (u.tile n).slots.length) ((u.tilesFor (arg a 2 1) (arg a 3 1)).filter fun n => u.takes (arg a 0 2 / 1024) 0 n) = some n))
    ∧ (∃ (mb : MbId) (s : State), Takes s cancelForm mb (fun u c a => (u.job (bitsOf (arg a 0 4) 27 5) (bitsOf (arg a 0 4) 21 6)).st ≠ .free
      ∧ (u.job (bitsOf (arg a 0 4) 27 5) (bitsOf (arg a 0 4) 21 6)).st ≠ .ending
      ∧ (u.job (bitsOf (arg a 0 4) 27 5) (bitsOf (arg a 0 4) 21 6)).inc.toNat = bitsOf (arg a 0 4) 0 21 ∧ (∀ p, c.mb.part = some p
      → cidPart (u.job (bitsOf (arg a 0 4) 27 5) (bitsOf (arg a 0 4) 21 6)).cid = p.val)))
    ∧ (∃ (mb : MbId) (s : State), Takes s setupForm mb (fun u _ a => u.live (arg a 0 3) = true ∧ (u.ext (xhIdx (arg a 0 3))).combine = true
      ∧ (u.combOf (xhIdx (arg a 0 3))).resident = 0 ∧ (u.combOf (xhIdx (arg a 0 3))).clearing = false ∧ u.sessOk (xhIdx (arg a 0 3)) = true
      ∧ combFmt (arg a 4 1) = true ∧ arg a 5 1 < 0x7F))
    ∧ (∃ (mb : MbId) (s : State), Takes s clearForm mb (fun u _ a => u.live (arg a 0 3) = true ∧ (u.ext (xhIdx (arg a 0 3))).combine = true
      ∧ (u.combOf (xhIdx (arg a 0 3))).valid = true ∧ (u.combOf (xhIdx (arg a 0 3))).clearing = false ∧ (u.combOf (xhIdx (arg a 0 3))).resident = 0))
    ∧ (∃ (mb : MbId) (s : State), TakesNoted s resideForm mb (fun u _ a => u.live (arg a 0 3) = true ∧ (u.ext (xhIdx (arg a 0 3))).combine = true
      ∧ (u.combOf (xhIdx (arg a 0 3))).valid = true ∧ (u.combOf (xhIdx (arg a 0 3))).clearing = false
      ∧ u.chunksOk (xhIdx (arg a 0 3)) (arg a 4 4) (arg a 8 4) = true ∧ (∀ k, k < arg a 8 4
      → u.isResident (xhIdx (arg a 0 3)) (arg a 4 4 + k) = false)
      ∧ (u.placeChunks (xhIdx (arg a 0 3)) ((List.range (arg a 8 4)).map (arg a 4 4 + ·))).isSome = true))
    ∧ (∃ (mb : MbId) (s : State), Takes s releaseForm mb (fun u _ a => u.live (arg a 0 3) = true ∧ (u.ext (xhIdx (arg a 0 3))).combine = true
      ∧ u.chunksOk (xhIdx (arg a 0 3)) (arg a 4 4) (arg a 8 4) = true
      ∧ (∀ k ∈ u.winsOf (xhIdx (arg a 0 3)) (arg a 4 4) (arg a 8 4), (u.land k).sched = false)
      ∧ ∀ e ∈ u.lands, e.2.awaits (xhIdx (arg a 0 3)) (arg a 4 4) (arg a 8 4) = false)) :=
  ⟨⟨{}, post 0 0x0601 128 [(16,2,2),(18,1,1),(32,16,18014398509481984),(48,16,1547425049115732542878650368),(96,32,23384026197294446691258957324659566679286041542659)] ({ base with parts := [(0, { state := 2 })], ctxs := [(0, { state := 2 })] }), 0, by refine ⟨by decide +kernel, ?_⟩; decide +kernel⟩,
   ⟨{}, post 0 0x0602 4 [(0,4,4292870149)] ({ base with tiles := [(31, { jobs := [(63, { st := .queued, inc := 5 })] })] }),
      by refine ⟨by decide +kernel, ?_⟩; decide +kernel⟩,
   ⟨{}, post 0 0x0701 6 [(0,3,9),(4,1,4),(5,1,126)] ({ base with exts := [(9, { state := 1, size := 1, combine := true })] }),
      by refine ⟨by decide +kernel, ?_⟩; decide +kernel⟩,
   ⟨{}, post 0 0x0702 3 [(0,3,9)] ({ base with exts := [(9, { state := 1, size := 1, combine := true })], combs := [(0, { used := true, valid := true })] }), by refine ⟨by decide +kernel, ?_⟩; decide +kernel⟩,
   ⟨{}, post 0 0x0703 12 [(0,3,9),(4,4,1),(8,4,1)] ({ base with exts := [(9, { state := 1, size := 1, combine := true })], combs := [(0, { used := true, valid := true })] }), by refine ⟨⟨by decide +kernel, ?_⟩, ?_⟩ <;> decide +kernel⟩,
   ⟨{}, post 0 0x0704 12 [(0,3,9),(4,4,0),(8,4,8)] ({ base with exts := [(9, { state := 1, size := 1, combine := true })], combs := [(0, { used := true, valid := true, resident := 1 })], lands := [(3, { v := true, ext := 9, chunk := 7 })] }), by refine ⟨by decide +kernel, ?_⟩; decide +kernel⟩⟩

theorem runs_ScheduleAndShapeCommands :
    (∃ (mb : MbId) (s : State), Takes s ftForm mb (fun u _ a => ftCfgOk (arg a 0 8) = true ∧ u.schedBusyCmd = false))
    ∧ (∃ (mb : MbId) (s : State) (im : Image), Takes s disarmForm mb (fun u _ a => u.sched.running = some im ∧ u.schedState = 2 ∧ u.sched.next = none
      ∧ u.ftNs + 5000000 ≤ u.takeoverAt im.mode false (16 * max 1 im.cycle) (arg a 0 8) ∧ (im.mode = true ∨ arg a 0 8 % 16 = 0)))
    ∧ (∃ (mb : MbId) (s : State), Takes s cancelImgForm mb (fun u _ _ => u.sched.pending = true ∧ u.ftNs + 100000 < u.sched.tx))
    ∧ (∃ (mb : MbId) (s : State), Takes s shapePortForm mb (fun u _ a => arg a 0 1 ≤ 15 ∧ u.portEn (arg a 0 1) = true ∧ arg a 8 8 < 2 ^ 56))
    ∧ (∃ (mb : MbId) (s : State), Takes s shapePartForm mb (fun u _ a => arg a 0 1 < 64 ∧ shapeOk (arg a 8 8) = true ∧ (u.part (arg a 0 1)).state ≠ 0
      ∧ (u.part (arg a 0 1)).weight ≠ 0))
    ∧ (∃ (mb : MbId) (s : State), Takes s shapePartForm mb (fun u _ a => arg a 0 1 < 64 ∧ shapeOk (arg a 8 8) = true ∧ (u.part (arg a 0 1)).state ≠ 0
      ∧ (u.part (arg a 0 1)).weight = 0 ∧ arg a 8 8 ≠ 0))
    ∧ (∃ (mb : MbId) (s : State), Takes s limitForm mb (fun _ _ a => arg a 2 2 ≠ 0 ∧ arg a 2 2 ≤ 4096 ∧ arg a 0 2 + arg a 2 2 ≤ 4095
      ∧ arg a 4 2 ≤ 4095 ∧ arg a 6 2 ≤ 4095 ∧ (arg a 4 2 ≠ 0 → arg a 6 2 ≠ 0))) :=
  ⟨⟨{}, post 0 0x0801 8 [(0,8,133696495)] base, by refine ⟨by decide +kernel, ?_⟩; decide +kernel⟩,
   ⟨{}, post 0 0x0804 8 [(0,8,6000000)] ({ base with sched := { running := some { mode := true } } }), { mode := true },
      by refine ⟨by decide +kernel, ?_⟩; decide +kernel⟩,
   ⟨{}, post 0 0x0805 0 [] ({ base with sched := { pending := true, tx := 100001 } }), by refine ⟨by decide +kernel, ?_⟩; decide +kernel⟩,
   ⟨{}, post 0 0x0901 16 [(0,1,15),(8,8,1)] base, by refine ⟨by decide +kernel, ?_⟩; decide +kernel⟩,
   ⟨{}, post 0 0x0902 16 [(0,1,63),(8,8,1)] ({ base with parts := [(63, { state := 2 })] }), by refine ⟨by decide +kernel, ?_⟩; decide +kernel⟩,
   ⟨{}, post 0 0x0902 16 [(0,1,63),(8,8,255)] ({ base with parts := [(63, { state := 2, shape := 0 })] }),
      by refine ⟨by decide +kernel, ?_⟩; decide +kernel⟩,
   ⟨{}, post 0 0x0903 8 [(0,2,4094),(2,2,1),(4,2,4095),(6,2,4095)] base, by refine ⟨by decide +kernel, ?_⟩; decide +kernel⟩⟩

theorem runs_LinkAndRouteCommands :
    (∃ (mb : MbId) (s : State), Takes s enableForm mb (fun u _ a => arg a 0 1 < 16 ∧ u.portEn (arg a 0 1) = true ∧ (arg a 1 1).testBit 1 = false
      ∧ (u.port (arg a 0 1)).state = 0))
    ∧ (∃ (mb : MbId) (s : State), Takes s enableForm mb (fun u _ a => arg a 0 1 < 16 ∧ u.portEn (arg a 0 1) = true ∧ (arg a 1 1).testBit 1 = false
      ∧ (u.port (arg a 0 1)).state ≠ 0))
    ∧ (∃ (mb : MbId) (s : State), Takes s disableForm mb (fun u _ a => arg a 0 1 ≤ 16 ∧ u.portEn (arg a 0 1) = true ∧ (u.port (arg a 0 1)).state = 3))
    ∧ (∃ (mb : MbId) (s : State), Takes s disableForm mb (fun u _ a => arg a 0 1 ≤ 16 ∧ u.portEn (arg a 0 1) = true ∧ (u.port (arg a 0 1)).state = 4))
    ∧ (∃ (mb : MbId) (s : State), Takes s disableForm mb (fun u _ a => arg a 0 1 ≤ 16 ∧ u.portEn (arg a 0 1) = true
      ∧ (u.port (arg a 0 1)).state.toNat < 3))
    ∧ (∃ (mb : MbId) (s : State), Takes s disableForm mb (fun u _ a => arg a 0 1 ≤ 16 ∧ u.portEn (arg a 0 1) = false))
    ∧ (∃ (mb : MbId) (s : State), Takes s retrainForm mb (fun u _ a => arg a 0 1 ≤ 16 ∧ (u.port (arg a 0 1)).state = 3
      ∧ ((u.port (arg a 0 1)).retrains.filter fun t => decide (u.now < t + 100000000)).length < 3))
    ∧ (∃ (mb : MbId) (s : State), Takes s tuneForm mb (fun u _ a => arg a 0 1 ≤ 16 ∧ u.portEn (arg a 0 1) = true
      ∧ ((u.port (arg a 0 1)).state = 0 ∨ (u.port (arg a 0 1)).state = 1) ∧ arg a 2 1 ≤ (tget 15 u.nv.amplMax (arg a 0 1)).toNat ∧ arg a 3 1 ≤ 7))
    ∧ (∃ (mb : MbId) (s : State), Takes s fabricForm mb (fun u _ a => nodeOk (arg a 0 8) = true
      ∧ (BitVec.ofNat 12 (bitsOf (arg a 0 8) 0 12) = u.node.eid ∨ u.anyLive = false)))
    ∧ (∃ (mb : MbId) (s : State), Takes s routeForm mb (fun u _ a => u.dieEn (arg a 0 1) = true ∧ arg a 1 1 ≤ 1
      ∧ (2 ≤ ((u.die (arg a 0 1)).slotState (arg a 1 1 == 1)).toNat ∨ (u.node.flip ≠ none ∧ (u.die (arg a 0 1)).slotState (arg a 1 1 == 1) = 1))))
    ∧ (∃ (mb : MbId) (s : State), Takes s flipForm mb (fun u _ a => u.ftNs + 1000000 ≤ arg a 0 8 ∧ u.node.flip = none
      ∧ ∀ d ∈ u.dieList, (u.die d).canFlip = true))
    ∧ (∃ (mb : MbId) (s : State), Takes s withdrawNodeForm mb (fun u _ _ => u.quietNode = true)) :=
  ⟨⟨{}, post 0 0x0A01 2 [(0,1,15),(1,1,1)] base, by refine ⟨by decide +kernel, ?_⟩; decide +kernel⟩,
   ⟨{}, post 0 0x0A01 2 [(0,1,15),(1,1,1)] ({ base with ports := [(15, { state := 1 })] }), by refine ⟨by decide +kernel, ?_⟩; decide +kernel⟩,
   ⟨{}, post 0 0x0A02 1 [(0,1,16)] ({ base with ports := [(16, { state := 3, en := true })] }), by refine ⟨by decide +kernel, ?_⟩; decide +kernel⟩,
   ⟨{}, post 0 0x0A02 1 [(0,1,16)] ({ base with ports := [(16, { state := 4, en := true })] }), by refine ⟨by decide +kernel, ?_⟩; decide +kernel⟩,
   ⟨{}, post 0 0x0A02 1 [(0,1,15)] ({ base with ports := [(15, { state := 2, en := true })] }), by refine ⟨by decide +kernel, ?_⟩; decide +kernel⟩,
   ⟨{}, post 0 0x0A02 1 [(0,1,16)] ({ base with pwr := { base.pwr with build := 0 } }), by refine ⟨by decide +kernel, ?_⟩; decide +kernel⟩,
   ⟨{}, post 0 0x0A03 1 [(0,1,15)] ({ base with ports := [(15, { state := 3, en := true })] }), by refine ⟨by decide +kernel, ?_⟩; decide +kernel⟩,
   ⟨{}, post 0 0x0A04 4 [(0,1,16),(1,1,255),(2,1,15),(3,1,7)] base, by refine ⟨by decide +kernel, ?_⟩; decide +kernel⟩,
   ⟨{}, post 0 0x0A11 8 [(0,8,274878081007621)] base, by refine ⟨by decide +kernel, ?_⟩; decide +kernel⟩,
   ⟨{}, post 0 0x0A12 18 [(0,1,3),(1,1,1),(8,3,9)] ({ base with dies := [(3, { s1 := 2 })] }), by refine ⟨by decide +kernel, ?_⟩; decide +kernel⟩,
   ⟨{}, post 0 0x0A13 8 [(0,8,1000000)] ({ base with dies := [(0, { s0 := 1 }), (1, { s1 := 1 }), (2, { s0 := 1 }), (3, { s0 := 1 })] }),
      by refine ⟨by decide +kernel, ?_⟩; decide +kernel⟩,
   ⟨{}, post 0 0x0A14 0 [] base, by refine ⟨by decide +kernel, ?_⟩; decide +kernel⟩⟩

theorem runs_MemoryCommands :
    (∃ (mb : MbId) (s : State), Takes s rateForm mb (fun u _ a => arg a 0 1 ≠ 0 ∧ arg a 1 1 ≤ 3 ∧ u.schedBusyCmd = false ∧ u.mem.rcOn = false
      ∧ ∀ n, n < 8 → (arg a 0 1).testBit n = true → u.stackEn n = true ∧ (u.stack n).state = 2 ∧ (u.stack n).diag = false))
    ∧ (∃ (mb : MbId) (s : State), Takes s memCfgForm mb (fun _ _ a => 1 ≤ arg a 0 8 ∧ arg a 0 8 ≤ 24))
    ∧ (∃ (mb : MbId) (s : State), Takes s diagOpenForm mb (fun u _ a => arg a 0 1 ≤ 7 ∧ (u.stack (arg a 0 1)).state = 2
      ∧ (u.stack (arg a 0 1)).diag = false ∧ ∀ e ∈ u.rmap, e.2.held = false ∨ inGroup3 (arg a 0 1) e.1 = false))
    ∧ (∃ (mb : MbId) (s : State), Takes s diagWriteForm mb (fun u _ a => arg a 0 1 ≤ 7 ∧ (u.stack (arg a 0 1)).diag = true
      ∧ ppaC15 (arg a 0 1) (arg a 8 8) = true ∧ u.lineWaits (arg a 8 8 / 128) = false))
    ∧ (∃ (mb : MbId) (s : State), Takes s diagReadForm mb (fun u _ a => arg a 0 1 ≤ 7 ∧ (u.stack (arg a 0 1)).diag = true
      ∧ ppaC15 (arg a 0 1) (arg a 8 8) = true ∧ u.lineWaits (arg a 8 8 / 128) = false))
    ∧ (∃ (mb : MbId) (s : State), Takes s diagCloseForm mb (fun u _ a => arg a 0 1 ≤ 7 ∧ (u.stack (arg a 0 1)).diag = true
      ∧ u.group3Waits (arg a 0 1) = false))
    ∧ (∃ (mb : MbId) (s : State), Takes s diagWriteForm mb (fun u _ a => arg a 0 1 ≤ 7 ∧ (u.stack (arg a 0 1)).diag = true
      ∧ ppaC15 (arg a 0 1) (arg a 8 8) = true ∧ u.lineWaits (arg a 8 8 / 128) = true))
    ∧ (∃ (mb : MbId) (s : State), Takes s diagReadForm mb (fun u _ a => arg a 0 1 ≤ 7 ∧ (u.stack (arg a 0 1)).diag = true
      ∧ ppaC15 (arg a 0 1) (arg a 8 8) = true ∧ u.lineWaits (arg a 8 8 / 128) = true))
    ∧ (∃ (mb : MbId) (s : State), Takes s diagCloseForm mb (fun u _ a => arg a 0 1 ≤ 7 ∧ (u.stack (arg a 0 1)).diag = true
      ∧ u.group3Waits (arg a 0 1) = true)) :=
  ⟨⟨{}, post 0 0x0B01 2 [(0,1,0x81),(1,1,3)] ({ base with stks := [(0, { state := 2 }), (7, { state := 2 })] }),
      by refine ⟨by decide +kernel, ?_⟩; decide +kernel⟩,
   ⟨{}, post 0 0x0B02 8 [(0,8,24)] base, by refine ⟨by decide +kernel, ?_⟩; decide +kernel⟩,
   ⟨{}, post 0 0x0B03 1 [(0,1,7)] ({ base with stks := [(7, { state := 2 })] }), by refine ⟨by decide +kernel, ?_⟩; decide +kernel⟩,
   ⟨{}, post 0 0x0B04 160 [(0,1,0),(8,8,51539607936)] ({ base with stks := [(0, { state := 2, diag := true })] }),
      by refine ⟨by decide +kernel, ?_⟩; decide +kernel⟩,
   ⟨{}, post 0 0x0B05 16 [(0,1,0),(8,8,51539607936)] ({ base with stks := [(0, { state := 2, diag := true })] }),
      by refine ⟨by decide +kernel, ?_⟩; decide +kernel⟩,
   ⟨{}, post 0 0x0B06 1 [(0,1,7)] ({ base with stks := [(7, { state := 2, diag := true })] }), by refine ⟨by decide +kernel, ?_⟩; decide +kernel⟩,
   ⟨{}, post 0 0x0B04 160 [(0,1,0),(8,8,51539607936)] ({ base with stks := [(0, { state := 2, diag := true, paused := true })] }),
      by refine ⟨by decide +kernel, ?_⟩; decide +kernel⟩,
   ⟨{}, post 0 0x0B05 16 [(0,1,0),(8,8,51539607936)] ({ base with stks := [(0, { state := 2, diag := true, chans := [(12, { blackout := true }), (13, { blackout := true }), (14, { blackout := true }), (15, { blackout := true })] })] }), by refine ⟨by decide +kernel, ?_⟩; decide +kernel⟩,
   ⟨{}, post 0 0x0B06 1 [(0,1,7)] ({ base with stks := [(7, { state := 2, diag := true, chans := [(15, { blackout := true })] })] }),
      by refine ⟨by decide +kernel, ?_⟩; decide +kernel⟩⟩

theorem runs_ControlCommands :
    (∃ (mb : MbId) (s : State), Takes s adminForm mb (fun _ _ a => admitOk (arg a 0 8) = true))
    ∧ (∃ (mb : MbId) (s : State), Takes s notifyForm mb (fun u _ a => arg a 0 1 < 64 ∧ ntfOk (arg a 8 8) = true
      ∧ ((u.part (arg a 0 1)).conf = false ∨ (arg a 8 8).testBit 1 = false)))
    ∧ (∃ (mb : MbId) (s : State), Takes s notifyForm mb (fun _ c a => arg a 0 1 = 0xFF ∧ c.mb.part = none ∧ ntfOk (arg a 8 8) = true))
    ∧ (∃ (mb : MbId) (s : State), Takes s mcTakeoverForm mb (fun u _ _ => u.stewardUp = true ∧ u.stew.standby = 0 ∧ u.stew.claim ≠ 0xFFFFFFFF))
    ∧ (∃ (mb : MbId) (s : State), Takes s snapshotForm mb (fun u _ a => u.ftNs + 20000 ≤ arg a 0 8 ∧ arg a 0 8 ≤ u.ftNs + 10000000000
      ∧ u.cnt.pending = false))
    ∧ (∃ (mb : MbId) (s : State), Takes s testForm mb (fun u _ a => arg a 0 1 ≤ 31 ∧ u.tileDead (arg a 0 1) = false
      ∧ (u.tile (arg a 0 1)).kat.running = false ∧ (u.tile (arg a 0 1)).kat.due = false ∧ (arg a 1 1).testBit 0 = false))
    ∧ (∃ (mb : MbId) (s : State), Takes s capForm mb (fun u _ a => u.pwr.floor.toNat ≤ arg a 0 2 ∧ arg a 0 2 ≤ u.pwr.ceiling.toNat))
    ∧ (∃ (mb : MbId) (s : State), Takes s powerForm mb (fun u _ a => 1 ≤ arg a 0 1 ∧ arg a 0 1 ≤ 4 ∧ u.pwr.pstep = .none
      ∧ arg a 0 1 ≠ u.pwr.state.toNat))
    ∧ (∃ (mb : MbId) (s : State), Takes s powerForm mb (fun u _ a => arg a 0 1 = 0 ∧ u.pwr.pstep = .none ∧ u.pwr.state = 1))
    ∧ (∃ (mb : MbId) (s : State), Takes s resetForm mb (fun u _ a => (arg a 0 1).testBit 0 = true ∨ u.stew.withdrawn = true))
    ∧ (∃ (mb : MbId) (s : State), Takes s dbgReadForm mb (fun u _ a => u.dbgdis = false ∧ u.unitConf (arg a 0 2) = false ∧ arg a 0 2 < 0xB000
      ∧ arg a 8 1 ≠ 0 ∧ arg a 8 1 ≤ 28))
    ∧ (∃ (mb : MbId) (s : State), Takes s dbgWriteForm mb (fun u _ a => u.dbgdis = false ∧ u.unitConf (arg a 0 2) = false ∧ arg a 0 2 < 0xB000
      ∧ arg a 8 1 ≠ 0 ∧ arg a 8 1 ≤ 28)) :=
  ⟨⟨{}, post 0 0x0C01 8 [(0,8,33554431)] base, by refine ⟨by decide +kernel, ?_⟩; decide +kernel⟩,
   ⟨{}, post 0 0x0C02 16 [(0,1,63),(8,8,1)] base, by refine ⟨by decide +kernel, ?_⟩; decide +kernel⟩,
   ⟨{}, post 0 0x0C02 16 [(0,1,255),(8,8,1)] base, by refine ⟨by decide +kernel, ?_⟩; decide +kernel⟩,
   ⟨{}, post 0 0x0C03 0 [] base, by refine ⟨by decide +kernel, ?_⟩; decide +kernel⟩,
   ⟨{}, post 0 0x0D01 8 [(0,8,20000)] base, by refine ⟨by decide +kernel, ?_⟩; decide +kernel⟩,
   ⟨{}, post 0 0x0D02 2 [(0,1,31)] base, by refine ⟨by decide +kernel, ?_⟩; decide +kernel⟩,
   ⟨{}, post 0 0x0F01 2 [(0,2,450)] base, by refine ⟨by decide +kernel, ?_⟩; decide +kernel⟩,
   ⟨{}, post 0 0x0F02 1 [(0,1,4)] base, by refine ⟨by decide +kernel, ?_⟩; decide +kernel⟩,
   ⟨{}, post 0 0x0F02 1 [] ({ base with pwr := { base.pwr with state := 1 } }), by refine ⟨by decide +kernel, ?_⟩; decide +kernel⟩,
   ⟨{}, post 0 0x0F03 1 [(0,1,1)] base, by refine ⟨by decide +kernel, ?_⟩; decide +kernel⟩,
   ⟨{}, post 0 0x1001 9 [(0,2,4096),(4,4,8),(8,1,28)] base, by refine ⟨by decide +kernel, ?_⟩; decide +kernel⟩,
   ⟨{}, post 0 0x1002 24 [(0,2,4096),(4,4,8),(8,1,1)] base, by refine ⟨by decide +kernel, ?_⟩; decide +kernel⟩⟩

theorem runs_SecurityCommands : ∃ (mb : MbId) (s : State), Takes s fwCommitForm mb (fun u _ _ => u.nv.otherSlot.valid = true ∧ u.stew.standby = 0) :=
  ⟨{}, post 0 0x0E05 0 [] ({ base with nv := { fw1 := { valid := true } } }), by refine ⟨by decide +kernel, ?_⟩; decide +kernel⟩

theorem runs_MemCfgRegister :
    (∃ (mb : MbId) (s : State), Takes s memCfgForm mb (fun _ _ a => 1 ≤ arg a 0 8 ∧ arg a 0 8 ≤ 24))
    ∧ (∃ (mb : MbId) (s : State), Takes s memCfgForm mb (fun _ _ a => arg a 0 8 = 0 ∨ (25 ≤ arg a 0 8 ∧ arg a 0 8 ≤ 31))) :=
  ⟨⟨{}, post 0 0x0B02 8 [(0,8,24)] base, by refine ⟨by decide +kernel, ?_⟩; decide +kernel⟩,
   ⟨{}, post 0 0x0B02 8 [(0,8,31)] base, by refine ⟨by decide +kernel, ?_⟩; decide +kernel⟩⟩

/-- A conjunction whose first parts are decided together. -/
theorem first4 {a b c d r : Prop} (h : a ∧ b ∧ c ∧ d) (k : r) : a ∧ b ∧ c ∧ d ∧ r := ⟨h.1, h.2.1, h.2.2.1, h.2.2.2, k⟩

theorem first5 {a b c d e r : Prop} (h : a ∧ b ∧ c ∧ d ∧ e) (k : r) : a ∧ b ∧ c ∧ d ∧ e ∧ r := ⟨h.1, first4 h.2 k⟩

theorem first6 {a b c d e f r : Prop} (h : a ∧ b ∧ c ∧ d ∧ e ∧ f) (k : r) : a ∧ b ∧ c ∧ d ∧ e ∧ f ∧ r := ⟨h.1, first5 h.2 k⟩

/-- A continuation applied to a number that has first been evaluated. -/
def forced (n : Nat) (k : Nat → Nat) : Nat :=
  match n with
  | 0 => k 0
  | m + 1 => k (m + 1)

theorem forced_eq (n : Nat) (k : Nat → Nat) : forced n k = k n := by cases n <;> rfl

def bitN (n : Nat) : Nat := if n % 2 = 1 then (n / 2) ^^^ 0x82F63B78 else n / 2

/-- So many steps of the CRC-32C register, each evaluated before the next. -/
def bitsN : Nat → Nat → Nat
  | 0, n => n
  | k + 1, n => forced (bitN n) (bitsN k)

/-- The CRC-32C register on numbers, evaluated bit by bit. -/
def crcN (n : Nat) : List Byte → Nat
  | [] => n
  | b :: r => forced (n ^^^ b.toNat) fun n => forced (bitsN 8 n) fun n => crcN n r

theorem bitN_eq (c : BitVec 32) : (crcBit c).toNat = bitN c.toNat := by
  unfold crcBit bitN
  have : c.getLsbD 0 = decide (c.toNat % 2 = 1) := by simp [BitVec.getLsbD, Nat.testBit, Bool.beq_eq_decide_eq]
  rw [this]
  by_cases h : c.toNat % 2 = 1 <;> simp [h, BitVec.toNat_xor, BitVec.toNat_ushiftRight, Nat.shiftRight_eq_div_pow]

theorem crcN_eq (c : BitVec 32) (l : List Byte) : (crcBytes c l).toNat = crcN c.toNat l := by
  induction l generalizing c with
  | nil => rfl
  | cons b r ih =>
    rw [crcBytes, ih, crcN]
    simp only [forced_eq, bitsN, crcByte, bitN_eq, BitVec.toNat_xor, BitVec.toNat_setWidth]
    have := b.isLt
    rw [Nat.mod_eq_of_lt (by omega : b.toNat < 2 ^ 32)]

theorem crc_of (l : List Byte) (n : Nat) (h : (crcN 0xFFFFFFFF l ^^^ 0xFFFFFFFF) = n) : (crc32c l).toNat = n := by
  rw [crc32c, BitVec.toNat_xor, crcN_eq, ← h]; rfl

/-- The worked value of CRC-32C: the bytes 31 to 39 give E3069283. -/
theorem test_crc : (crc32c [0x31, 0x32, 0x33, 0x34, 0x35, 0x36, 0x37, 0x38, 0x39]).toNat = 0xE3069283 := crc_of _ _ (by decide +kernel)

/-- The bytes that a read of a reference gives. -/
def bytesIn : Got → List Byte
  | .ok b => b
  | _ => []

/-- A channel whose rows 0 of banks 0 and 4 are open and are kept open by requests of two lines that wait. -/
def opened (l : Nat) : Chan := { entries := [{ line := l }, { line := l + 64 }], openRow := [(0, some 0), (4, some 0)] }

/-- A stack whose first lines activate no row. -/
def openStack : Stack := { state := 2, chans := [(0, opened 1), (1, opened 0), (2, opened 0), (3, opened 0)] }

/-- Partition 0 runs with context 0 and extent 9, to which it has every right; partition 1 as well. -/
def mapped : State :=
  { base with
    stks := [(0, openStack)]
    parts := [(0, { state := 2 }), (1, { state := 2 })], ctxs := [(0, { state := 2 }), (1024, { state := 2 })]
    exts := [(9, { state := 1, size := 1, rights := 0xFFF, key := some 1, zero := true })] }

/-- An image of 512 bytes with no gate list and no section. -/
def image (crc : Nat) : List Byte :=
  [0x43, 0x4F, 0x52, 0x43, 1, 0, 0, 0] ++ leBytes 8 7 ++ leBytes 4 64 ++ leBytes 4 1 ++ leBytes 4 512 ++ leBytes 4 crc ++ List.replicate 480 0

theorem image_crc : imgCheck1 (image 405082463) = true := by
  have h : (crc32c ((image 405082463).take 28 ++ [0, 0, 0, 0] ++ ((image 405082463).drop 32).take (imgLength (image 405082463) - 32))).toNat
      = 405082463 := crc_of _ _ (by decide +kernel)
  unfold imgCheck1
  simp only [h]
  decide +kernel

theorem runs_schedArm : ∃ (mb : MbId) (s : State) (tx : Nat), Takes s armImgForm mb (fun u _ a => u.sched.staged = true ∧ u.keeper.state = 2
    ∧ u.sched.pending = false ∧ u.sched.next = none ∧ u.sched.syncLost = false
    ∧ u.imgCheck u.sched.stagedImg (arg a 0 8) ((arg a 8 1).testBit 0) = (0, tx)) := by
  refine ⟨{}, post 0 0x0803 9 [(0, 8, 6000000)]
    { base with keeper := { state := 2, esync := 1 }, sched := { staged := true, stagedImg := image 405082463 } }, 6000000,
    first6 (by decide +kernel) ?_⟩
  have g : ∀ (s : State) b x j, b = image 405082463 → s.imgCheck b x j = s.imgCheck (image 405082463) x j := by
    intros; subst_vars; rfl
  rw [g _ _ _ _ (by decide +kernel)]
  unfold State.imgCheck
  simp only [image_crc]
  decide +kernel

/-! What the interface of the stacks gives is a free value: a reference reads what was written where it gives no error. -/

/-- The DRAM interface gives no error. -/
abbrev Quiet : Prop := ∀ t l, Config.pins t l = (.clean, .clean)

/-- A part of a reference's range read while the interface gives no error. -/
def readQ1 (s : State) (e : Eid) (r : Ref) (pos n : Nat) : Got × State :=
  let q := s.refReq e r oRdOnce pos n 0
  let x := s.ext q.ext
  match (if 2 ^ 40 ≤ pos then some stDenied else s.msCheck q.pkt (some e) false) with
  | some st => (if st = stRetry then .later else .failed st, s)
  | none =>
    if x.combine && !s.combOk x q.pkt then (.failed stDenied, s)
    else if s.lineFailed q.line then
      if (x.mirror || x.parity) && s.redundant x then
        (.ok (cutLine (Config.stale s.fresh 4 q.line) (pos % 128) n), { s with fresh := s.fresh + 1 })
      else (.failed stUncorrectable, s)
    else if s.lineWaits q.line then (.later, s)
    else
      let s := if x.coherent then s.meetLine (lineQuad q.line) q.line else s
      let k := if x.coherent then s.lineHeld q.line false else .clear
      if k ≠ .clear then s.unheld q k
      else match (s.useRow q.line).readAt q .clean .clean with
        | (.ok d, s) => (.ok (cutLine (if x.combine then s.combView q d else d) (pos % 128) n), s)
        | (.error st, s) => (.failed st, s)

theorem read1_quiet (h : Quiet) (s : State) (e : Eid) (r : Ref) (pos n : Nat) : s.refRead1 e r pos n = readQ1 s e r pos n := by
  unfold State.refRead1 readQ1
  simp only [h _ _] <;> rfl

def readQ (s : State) (e : Eid) (r : Ref) : Nat → Nat → Nat → Got × State
  | 0, _, _ => (.ok [], s)
  | k + 1, pos, left =>
    if left = 0 then (.ok [], s)
    else match readQ1 s e r pos (inLine pos left) with
      | (.ok b, s) => match readQ s e r k (pos + inLine pos left) (left - inLine pos left) with
        | (.ok l, s) => (.ok (b ++ l), s)
        | x => x
      | x => x

theorem read_quiet (h : Quiet) (s : State) (e : Eid) (r : Ref) (k pos n : Nat) : s.refRead e r k pos n = readQ s e r k pos n := by
  induction k generalizing s pos n with
  | zero => rfl
  | succ k ih =>
    simp only [State.refRead, readQ, read1_quiet h, ih] <;> rfl

/-- The state with bytes of one line, from its first one on, written as a reference writes them. -/
def written (s : State) (r : Ref) (b : List Byte) : State :=
  let q := s.refReq 0 r oWrPartial 0 b.length (BitVec.ofNat 1024 (ofLe b))
  s.storeLine q.line (mergeBytes q.pkt.opnd 0 q.pkt.data) (s.ext q.ext).key (s.reqTweak q)

/-- The mapped state with an image written at offset 0 of extent 9. -/
def imaged : State := written mapped { xh := 9 } ((image 0).take 128)

/-- The request that stages it. -/
def imagePosted : State := post 0 0x0802 16 [(0, 3, 9), (12, 4, 512)] imaged

theorem runs_schedStage (hq : Quiet) : ∃ (mb : MbId) (s : State) (b : List Byte), TakesNoted s stageForm mb (fun u c a => 512 ≤ arg a 12 4
    ∧ arg a 12 4 ≤ 33554432 ∧ u.sched.next = none ∧ u.refOk none (argRef a 0 8) = true
    ∧ (u.refRead c.eid (argRef a 0 8) (arg a 12 4 / 128 + 2) (argRef a 0 8).off (arg a 12 4)).1 = .ok b ∧ fieldLe b 0 4 = imgMagic
    ∧ 512 ≤ imgLength b ∧ imgLength b ≤ arg a 12 4) := by
  refine ⟨{}, imagePosted, image 0, ?_⟩
  simp only [TakesNoted, read_quiet hq]
  exact ⟨⟨by decide +kernel, by decide +kernel⟩, by decide +kernel⟩

theorem got_is (g : Got) (h : (match g with | .ok _ => true | _ => false) = true) : g = .ok (bytesIn g) := by
  obtain _ | _ | _ := g <;> first | rfl | cases h

theorem got_ok (g : Got × State) (h : (match g.1 with | .ok _ => true | _ => false) = true) : g = (.ok (bytesIn g.1), g.2) := by
  obtain ⟨_ | _ | _, v⟩ := g <;> first | rfl | cases h

theorem zeros (l : List Byte) (o n : Nat) (h : (l.all fun b => b == 0) = true) : fieldLe l o n = 0 := by
  have hl : ∀ m : List Byte, (∀ b ∈ m, b = 0) → ofLe m = 0 := by
    intro m
    induction m with
    | nil => intro _; rfl
    | cons b r ih =>
      intro hm
      rw [ofLe, ih fun c hc => hm c (List.mem_cons_of_mem _ hc), hm b List.mem_cons_self]; rfl
  exact hl _ fun b hb => by simpa using List.all_eq_true.mp h b (List.mem_of_mem_drop (List.mem_of_mem_take hb))

/-- The request that loads a table of zeros. -/
def routePosted : State := post 0 0x0A12 18 [(0, 1, 3), (1, 1, 1), (8, 3, 9)] mapped

/-- Whether a list is so many zeros. -/
def zerosOf : Nat → List Byte → Bool
  | 0, [] => true
  | n + 1, b :: r => b == 0 && zerosOf n r
  | _, _ => false

theorem zerosOf_eq (n : Nat) (l : List Byte) (h : zerosOf n l = true) : l = List.replicate n 0 := by
  induction n generalizing l with
  | zero => cases l <;> [rfl; cases h]
  | succ n ih =>
    cases l with
    | nil => cases h
    | cons b r =>
      simp only [zerosOf, Bool.and_eq_true, beq_iff_eq] at h
      rw [h.1, ih r h.2, List.replicate_succ]

theorem got_zeros (n : Nat) (g : Got) (h : (match g with | .ok b => zerosOf n b | _ => false) = true) : g = .ok (List.replicate n 0) := by
  obtain b | _ | _ := g
  · rw [zerosOf_eq n b h]
  all_goals cases h

theorem runs_routeLoad (hq : Quiet) : ∃ (mb : MbId) (s : State) (b : List Byte), TakesNoted s routeForm mb (fun u c a => u.dieEn (arg a 0 1) = true
    ∧ arg a 1 1 ≤ 1 ∧ ((u.die (arg a 0 1)).slotState (arg a 1 1 == 1)).toNat < 2
    ∧ (u.node.flip = none ∨ (u.die (arg a 0 1)).slotState (arg a 1 1 == 1) ≠ 1)
    ∧ u.refOk none (argRef a 8 16) = true ∧ (u.refRead c.eid (argRef a 8 16) 130 (argRef a 8 16).off 16384).1 = .ok b
    ∧ ∀ e, e < 4096 → routeOk (fieldLe b (4 * e) 4) = true) := by
  refine ⟨{}, routePosted, List.replicate 16384 0, ?_⟩
  have hz : ∀ e, e < 4096 → routeOk (fieldLe (List.replicate 16384 0) (4 * e) 4) = true := fun e _ => by
    rw [zeros _ _ _ (List.all_eq_true.mpr fun b hb => by rw [List.eq_of_mem_replicate hb]; rfl)]; decide
  simp only [TakesNoted, read_quiet hq]
  exact ⟨⟨by decide +kernel, first5 (by decide +kernel) ⟨got_zeros _ _ (by decide +kernel), hz⟩⟩,
    first5 (by decide +kernel) ⟨got_zeros _ _ (by decide +kernel), hz⟩⟩

/-- The status of a reference that failed. -/
def statusIn : Got → Status
  | .failed st => st
  | _ => 0

theorem got_failed (g : Got × State) (h : (match g.1 with | .failed _ => true | _ => false) = true) : g = (.failed (statusIn g.1), g.2) := by
  obtain ⟨_ | _ | _, v⟩ := g <;> first | rfl | cases h

/-- A member of a mirror group of one board whose local lines have failed: extent 9 is mirrored, and what is written to it goes on to the peer. -/
def mirrored : State :=
  { base with
    parts := [(0, { state := 2 }), (1, { state := 2 })], ctxs := [(0, { state := 2 }), (1024, { state := 2 })]
    exts := [(9, { state := 1, size := 1, rights := 0xFFF, mirror := true })], prots := [(0, { used := true, slots := 8 })]
    group := { on := true, nmemb := 2 }, stks := [(0, { state := 5 })] }

/-- The certificate written to extent 9. -/
def certPosted : State := post 0 0x0E01 24 [(8, 3, 9), (20, 4, 1)] mirrored

theorem runs_certRead (h : Config.cert 0 = [0x30]) : ∃ (mb : MbId) (s : State) (l : List Byte), TakesNoted s certForm mb (fun u c a => arg a 0 1 ≤ 2
    ∧ (Config.cert (arg a 0 1)).length ≤ arg a 20 4 ∧ u.refOk (c.ofPart none) (argRef a 8 16) = true
    ∧ (u.refPlan c.eid (argRef a 8 16) ((Config.cert (arg a 0 1)).length / 128 + 2) (argRef a 8 16).off (Config.cert (arg a 0 1))).1 = .ok l) := by
  have e : arg ((certPosted.takeCmd {} certForm.names).2.mbox ({} : MbId).idx).args 0 1 = 0 := by decide +kernel
  refine ⟨{}, certPosted, [], ⟨by decide +kernel, ?_, ?_, ?_, ?_⟩, ?_, ?_, ?_, ?_⟩ <;> (try simp only [e, h]) <;> decide +kernel

/-- A range that no handle names: the certificate cannot be written. -/
theorem runs_certRead_failed (h : Config.cert 0 = [0x30]) : ∃ (mb : MbId) (s v : State) (st : Status), Takes s certForm mb (fun u c a => arg a 0 1 ≤ 2
    ∧ (Config.cert (arg a 0 1)).length ≤ arg a 20 4 ∧ u.refOk (c.ofPart none) (argRef a 8 16) = true
    ∧ u.refPlan c.eid (argRef a 8 16) ((Config.cert (arg a 0 1)).length / 128 + 2) (argRef a 8 16).off (Config.cert (arg a 0 1))
      = (.failed st, v)) := by
  have e : arg (((post 0 0x0E01 24 [(8, 3, 8), (20, 4, 1)] mapped).takeCmd {} certForm.names).2.mbox ({} : MbId).idx).args 0 1 = 0 := by
    decide +kernel
  refine ⟨{}, post 0 0x0E01 24 [(8, 3, 8), (20, 4, 1)] mapped, _, _, by decide +kernel, ?_, ?_, ?_, got_failed _ ?_⟩ <;> (try simp only [e, h]) <;>
    decide +kernel

/-- A report of partition 0 written to extent 9. -/
def reportPosted : State := post 0 0x0E02 56 [(0, 1, 0), (40, 3, 9), (52, 4, 3661)] mirrored

theorem runs_attestReport : ∃ (mb : MbId) (s : State) (l : List Byte), TakesNoted s attestForm mb (fun u c a => arg a 0 1 < 64
    ∧ (u.part (arg a 0 1)).state ≠ 0 ∧ 3661 ≤ arg a 52 4 ∧ u.refOk (c.ofPart (some (arg a 0 1))) (argRef a 40 48) = true
    ∧ (u.refPlan c.eid (argRef a 40 48) ((u.partReport a).length / 128 + 2) (argRef a 40 48).off (u.partReport a)).1 = .ok l) := by
  refine ⟨{}, reportPosted, [], ⟨by decide +kernel, first4 (by decide +kernel) ?_⟩, first4 (by decide +kernel) ?_⟩ <;> decide +kernel

/-- Partition 0 is confidential and OPEN; its reply goes to extent 10 of partition 1, whose lines stand on another member. -/
def greeting : State :=
  { mapped with
    parts := [(0, { state := 1, cfg := 1 }), (1, { state := 2 })]
    exts := [(9, { state := 1, size := 1, rights := 0xFFF, owner := 1, key := some 1, zero := true }),
             (10, { state := 1, size := 1, rights := 0xFFF, owner := 1, mirror := true, mapBase := 1 })]
    prots := [(0, { used := true, slots := 8 })], group := { on := true, nmemb := 2 }
    gmap := [(1, 32768)], stks := [(0, openStack), (1, { state := 5 })] }

/-- A SESSION_OPEN of it, with the first bytes of a hello at offset 0 of extent 9 of partition 1. -/
def greeted (hello : List Byte) : State :=
  post 4 0x0E03 26 [(8, 3, 9), (16, 3, 10), (24, 2, 1024)] (written greeting { xh := 9, cid := 1024 } hello)

/-- What a SESSION_OPEN reads, in the state in which Steward has taken it and in that state with the journal's entry. -/
theorem reads_hello (hq : Quiet) (s : State) (e : Eid) (r : Ref) (b : List Byte) (he : e = 0) (hr : r = { xh := 9, cid := 1024 })
    (h : (readQ s 0 { xh := 9, cid := 1024 } 11 0 1256).1 = .ok b)
    (k : (readQ s 0 { xh := 9, cid := 1024 } 11 0 1256).2.fresh = 0) :
    (s.refRead e r 11 r.off 1256).1 = .ok b ∧ (s.refRead e r 11 r.off 1256).2.fresh = 0
      ∧ (s.refRead e r 11 r.off 1256).2 = (readQ s 0 { xh := 9, cid := 1024 } 11 0 1256).2 := by
  subst he; subst hr
  rw [read_quiet hq]
  exact ⟨h, k, rfl⟩

theorem runs_sessionOpen_refused (hq : Quiet) : ∃ (mb : MbId) (s v : State) (h : List Byte), Takes s sessionForm mb (fun u c a => arg a 0 1 < 64
    ∧ (u.part (arg a 0 1)).conf = true ∧ (u.part (arg a 0 1)).state = 1 ∧ (u.part (arg a 0 1)).sess ≠ 1
    ∧ u.refOk none (argRef a 8 24) = true ∧ u.refRead c.eid (argRef a 8 24) 11 (argRef a 8 24).off 1256 = (.ok h, v)
    ∧ helloOk h (arg a 0 1) v.fresh = false) := by
  obtain ⟨r1, f1, v1⟩ := reads_hello hq ((greeted []).takeCmd { part := some 0 } sessionForm.names).2
    ((greeted []).takeCmd { part := some 0 } sessionForm.names).1.eid
    (argRef (((greeted []).takeCmd { part := some 0 } sessionForm.names).2.mbox ({ part := some 0 } : MbId).idx).args 8 24)
    (List.replicate 1256 0) (by decide +kernel) (by decide +kernel) (by decide +kernel) (by decide +kernel)
  have hf : fieldLe (List.replicate 1256 0) 0 2 = 0 := by decide +kernel
  have hn : ∀ p i, helloOk (List.replicate 1256 0) p i = false := fun _ _ => by unfold helloOk; rw [hf]; rfl
  generalize List.replicate 1256 (0 : Byte) = h at *
  have he : ∀ g : Got × State, g.1 = .ok h → g = (.ok h, g.2) := fun g hg => by rw [← hg]
  exact ⟨{ part := some 0 }, greeted [], _, h, first6 (by decide +kernel) ⟨he _ r1, hn _ _⟩⟩

/-- The hello that it reads. -/
def hello : List Byte := 1 :: List.replicate 1255 0

theorem hello_ok (hk : Config.kemKeyOk (List.replicate 1184 0) = true) (hx : Config.x25519 (ephemeral 0) 0 ≠ 0) : helloOk hello 0 0 = true := by
  have hd : hello.drop 72 = List.replicate 1184 0 := by decide +kernel
  have hf : BitVec.ofNat 256 (fieldLe hello 40 32) = 0 := by decide +kernel
  have hv : fieldLe hello 0 2 = 1 ∧ fieldLe hello 2 1 = 0 := by decide +kernel
  unfold helloOk ssX
  rw [hd, hf, hk, hv.1, hv.2]
  simpa using hx

theorem runs_sessionOpen (hq : Quiet) (hk : Config.kemKeyOk (List.replicate 1184 0) = true) (hx : Config.x25519 (ephemeral 0) 0 ≠ 0) :
    ∃ (mb : MbId) (s : State) (h l : List Byte), TakesNoted s sessionForm mb (fun u c a =>
      let v := (u.refRead c.eid (argRef a 8 24) 11 (argRef a 8 24).off 1256).2
      let b := v.sessionAnswer (arg a 0 1) h
      arg a 0 1 < 64 ∧ (u.part (arg a 0 1)).conf = true ∧ (u.part (arg a 0 1)).state = 1 ∧ (u.part (arg a 0 1)).sess ≠ 1
        ∧ u.refOk none (argRef a 8 24) = true ∧ (u.refRead c.eid (argRef a 8 24) 11 (argRef a 8 24).off 1256).1 = .ok h
        ∧ helloOk h (arg a 0 1) v.fresh = true ∧ v.refOk none (argRef a 16 24) = true
        ∧ (({ v with fresh := v.fresh + 3 }).refPlan c.eid (argRef a 16 24) (b.length / 128 + 2) (argRef a 16 24).off b).1 = .ok l) := by
  have ha : arg (((greeted [1]).takeCmd { part := some 0 } sessionForm.names).2.mbox ({ part := some 0 } : MbId).idx).args 0 1 = 0 := by
    decide +kernel
  have hh := hello_ok hk hx
  obtain ⟨r1, f1, v1⟩ := reads_hello hq ((greeted [1]).takeCmd { part := some 0 } sessionForm.names).2
    ((greeted [1]).takeCmd { part := some 0 } sessionForm.names).1.eid
    (argRef (((greeted [1]).takeCmd { part := some 0 } sessionForm.names).2.mbox ({ part := some 0 } : MbId).idx).args 8 24)
    hello (by decide +kernel) (by decide +kernel) (by decide +kernel) (by decide +kernel)
  obtain ⟨r2, f2, v2⟩ := reads_hello hq (((greeted [1]).takeCmd { part := some 0 } sessionForm.names).2.note
      ((greeted [1]).takeCmd { part := some 0 } sessionForm.names).1.token .write)
    ((greeted [1]).takeCmd { part := some 0 } sessionForm.names).1.eid
    (argRef (((greeted [1]).takeCmd { part := some 0 } sessionForm.names).2.mbox ({ part := some 0 } : MbId).idx).args 8 24)
    hello (by decide +kernel) (by decide +kernel) (by decide +kernel) (by decide +kernel)
  refine ⟨{ part := some 0 }, greeted [1], hello, [], ⟨by decide +kernel, ?_⟩, ?_⟩
  · refine first5 (by decide +kernel) ⟨r1, ?_, ?_, ?_⟩
    · rw [f1, ha]; exact hh
    · rw [v1]; decide +kernel
    · rw [v1]; decide +kernel
  · refine first5 (by decide +kernel) ⟨r2, ?_, ?_, ?_⟩
    · rw [f2, ha]; exact hh
    · rw [v2]; decide +kernel
    · rw [v2]; decide +kernel

/-- The bytes of a firmware image of one byte, all zero but the fields of its header. -/
def fwBytes : List Byte := [0x57, 0x46, 0x50, 0x47, 2, 0, 0, 0, 0, 0, 0, 0, 0, 0, 0, 0, 1]

/-- The request that stages it from offset 0 of extent 9, the state in which Steward has taken it, and what is read there. -/
def fwPosted : State := post 0 0x0E04 16 [(0, 3, 9), (12, 4, 4097)] (written mapped { xh := 9 } fwBytes)
def fwTaken : State := (fwPosted.takeCmd {} fwStageForm.names).2
def fwRead : Got × State := readQ fwTaken 0 { xh := 9 } 34 0 4097

theorem runs_fwStage (hq : Quiet) (hE : Config.verifyE 0 (fwDigest (bytesIn fwRead.1)) (List.replicate 64 0) = true)
    (hM : Config.verifyM 0 (fwDigest (bytesIn fwRead.1)) (List.replicate 3309 0) = true)
    (hs : leBytes 48 (Config.sha384 [0]).toNat = List.replicate 48 0) :
    ∃ (mb : MbId) (s v : State) (b : List Byte), Takes s fwStageForm mb (fun u c a => u.stew.flashing = none ∧ 4096 < arg a 12 4
      ∧ arg a 12 4 ≤ 67108864 ∧ u.stew.step ≠ .swWait ∧ u.stew.commit = false ∧ u.refOk none (argRef a 0 8) = true
      ∧ u.refRead c.eid (argRef a 0 8) (arg a 12 4 / 128 + 2) (argRef a 0 8).off (arg a 12 4) = (.ok b, v)
      ∧ fieldLe b 0 4 = 0x47504657 ∧ fieldLe b 16 4 + 4096 = arg a 12 4 ∧ v.fwOk b = true) := by
  have e1 : (fwRead.2.nv.fwKeyE = 0 ∧ fwRead.2.nv.fwKeyM = 0) ∧ ((bytesIn fwRead.1).drop 80).take 64 = List.replicate 64 0
      ∧ ((bytesIn fwRead.1).drop 144).take 3309 = List.replicate 3309 0 := by decide +kernel
  have e2 : (bytesIn fwRead.1).drop fwHeader = [0] := by decide +kernel
  have e3 : ((bytesIn fwRead.1).drop 32).take 48 = List.replicate 48 0 := by decide +kernel
  have e4 : argRef ((fwPosted.takeCmd {} fwStageForm.names).2.mbox ({} : MbId).idx).args 0 8 = { xh := 9 } := by decide +kernel
  have e5 : arg ((fwPosted.takeCmd {} fwStageForm.names).2.mbox ({} : MbId).idx).args 12 4 = 4097 := by decide +kernel
  have e6 : (fwPosted.takeCmd {} fwStageForm.names).1.eid = 0 := by decide +kernel
  refine ⟨{}, fwPosted, fwRead.2, bytesIn fwRead.1, by decide +kernel, first6 (by decide +kernel) ⟨?_, by decide +kernel, by decide +kernel, ?_⟩⟩
  · rw [e4, e5, e6, read_quiet hq]
    exact got_ok _ (by decide +kernel)
  · unfold State.fwOk
    rw [e1.1.1, e1.1.2, e1.2.1, e1.2.2, e2, e3, hE, hM, hs]
    decide +kernel

/-- A FW_STAGE whose image is being written runs again when it stands in the slot. -/
theorem witness_fwStage_again : ∃ (mb : MbId) (s : State) (c : Cmd) (f : FwSlot), s.stewardUp = true
    ∧ s.cmds.find? (fun c => c.mb == mb && c.deferred) = some c ∧ c.opcode.toNat = fwStageForm.op ∧ s.stew.commit = false
    ∧ s.common fwStageForm c (s.mbox c.mb.idx).arglen (s.mbox c.mb.idx).args = none ∧ s.blocked c = false ∧ s.stew.flashing = some (c.token, f) :=
  ⟨{}, { fwTaken with stew := { fwTaken.stew with flashing := some (0, {}) } }, { (fwPosted.takeCmd {} fwStageForm.names).1 with deferred := true }, {},
    by decide +kernel⟩

/-- Of the indices, the first FREE one is taken while no extent exists. -/
theorem freeIdx_fold (s : State) (ok : Nat → Bool) (h : s.exts = []) (h0 : ok 0 = true) (m : Nat) (hm : 0 < m) :
    (List.range m).foldl (fun (b : Option (Nat × Nat)) i =>
      if (s.ext i).state ≠ 0 || !ok i then b
      else match b with
        | none => some (i, (s.ext i).freedAt)
        | some (_, u) => if (s.ext i).freedAt < u then some (i, (s.ext i).freedAt) else b) none = some (0, 0) := by
  have e : ∀ i, s.ext i = {} := fun i => by rw [State.ext, h]; rfl
  obtain ⟨n, rfl⟩ : ∃ n, m = n + 1 := ⟨m - 1, by omega⟩
  rw [List.range_succ_eq_map, List.foldl_cons, e 0, h0]
  generalize List.map Nat.succ (List.range n) = l
  change l.foldl _ (some (0, 0)) = _
  induction l with
  | nil => rfl
  | cons x r ih => rw [List.foldl_cons, e x]; cases ok x <;> exact ih

theorem freeIdx_first (s : State) (ok : Nat → Bool) (h : s.exts = []) (h0 : ok 0 = true) : s.freeIdx ok = some 0 := by
  have f := freeIdx_fold s ok h h0
  unfold State.freeIdx
  generalize hm : 262144 = m
  exact congrArg (Option.map (·.1)) (f m (by omega))

/-- A stack with a free granule at its start has one. -/
theorem freeGrans_pos (s : State) (n : Nat) (h : s.granFree (n * 32768) = true) : 1 ≤ (s.freeGrans n).length := by
  have : n * 32768 ∈ s.freeGrans n := by
    unfold State.freeGrans
    rw [List.mem_filter]
    exact ⟨List.mem_map.mpr ⟨0, by simp, by simp⟩, h⟩
  exact List.length_pos_of_mem this

theorem shareOf_one (n st pos : Nat) : shareOf 1 n st pos ≤ 1 := by
  unfold shareOf
  exact (List.length_filter_le _ _).trans (by simp)

/-- Partition 0 is OPEN with a quota, and the stacks of quadrant 0 serve. -/
def roomy : State :=
  { base with parts := [(0, { state := 1, cfg := 8192 })], stks := [(0, { state := 2 }), (1, { state := 2 })] }

/-- One granule of it asked for. -/
def creating : State := post 0 0x0201 12 [(0, 1, 0), (8, 4, 1)] roomy
def oneGran : CreateArgs := { part := 0, rights := 0, stripe := 0, homeq := 0, size := 1 }

theorem runs_extentCreate : ∃ (mb : MbId) (s : State) (v : CreateArgs) (i b : Nat), Takes s extCreateForm mb (fun u _ a =>
      v = { part := arg a 0 1, coherent := (arg a 1 1).testBit 0, combine := (arg a 1 1).testBit 1, rights := bitsOf a 16 12
            stripe := bitsOf a 32 2, homeq := bitsOf a 34 2, size := arg a 8 4 }
      ∧ arg a 0 1 < 64 ∧ ((u.part v.part).state = 1 ∨ (u.part v.part).state = 2) ∧ ((u.part v.part).conf = true → (u.part v.part).sess = 1)
      ∧ (v.coherent = false ∨ v.combine = false) ∧ v.stripe ≠ 3 ∧ v.size ≠ 0 ∧ v.size ≤ 261120 ∧ u.stacksFor v.stripe v.homeq ≠ []
      ∧ u.partGranules v.part + (v.ext (u.part v.part).conf).localSize ≤ (u.part v.part).quota
      ∧ (∀ pos, pos < (u.stacksFor v.stripe v.homeq).length →
          shareOf (v.ext (u.part v.part).conf).localSize (u.stacksFor v.stripe v.homeq).length
            ((u.startChoices (u.stacksFor v.stripe v.homeq)).getD (u.draw (u.startChoices (u.stacksFor v.stripe v.homeq)).length).1 0) pos
          ≤ (((u.stacksFor v.stripe v.homeq).map u.freeGrans).getD pos []).length)
      ∧ u.freeIdx (fun i => !u.inGroup i) = some i ∧ u.mapFree (v.ext (u.part v.part).conf).localSize = some b
      ∧ (v.combine = true → u.freeComb ≠ none)) := by
  have hl : (creating.takeCmd {} extCreateForm.names).2.stacksFor oneGran.stripe oneGran.homeq = [0, 1] := by decide +kernel
  have hz : (oneGran.ext ((creating.takeCmd {} extCreateForm.names).2.part oneGran.part).conf).localSize = 1 := by decide +kernel
  have h0 : (creating.takeCmd {} extCreateForm.names).2.granFree (0 * 32768) = true := by decide +kernel
  have h1 : (creating.takeCmd {} extCreateForm.names).2.granFree (1 * 32768) = true := by decide +kernel
  refine ⟨{}, creating, oneGran, 0, 0, by decide +kernel, by unfold oneGran; rw [CreateArgs.mk.injEq]; decide +kernel,
    first5 (by decide +kernel) (first4 (by decide +kernel) ⟨?_, freeIdx_first _ _ (by decide +kernel) (by decide +kernel), by decide +kernel⟩)⟩
  rw [hl, hz]
  intro pos hp
  refine (shareOf_one _ _ _).trans ?_
  match pos, hp with
  | 0, _ => rw [List.map_cons, List.getD_cons_zero]; exact freeGrans_pos _ 0 h0
  | 1, _ => rw [List.map_cons, List.getD_cons_succ, List.map_cons, List.getD_cons_zero]; exact freeGrans_pos _ 1 h1

/-- A group of one other member that keeps silent for less than 4 ms, and one mirrored granule of it asked for. -/
def pairing : State :=
  post 0 0x0302 16 [(0, 1, 0), (8, 4, 1), (12, 3, 8)] { roomy with group := { on := true, nmemb := 2, xcount := 16384 } }
def oneMirror : CreateArgs := { part := 0, mirror := true, slots := 8, rights := 0, stripe := 0, homeq := 0, size := 1 }

theorem one_fits (u : State) (h0 : u.granFree (0 * 32768) = true) (h1 : u.granFree (1 * 32768) = true) (st : Nat) :
    ¬ ((List.range ([0, 1] : List Nat).length).any fun pos =>
      decide ((([0, 1].map u.freeGrans).getD pos []).length < shareOf 1 ([0, 1] : List Nat).length st pos)) = true := by
  intro h
  obtain ⟨pos, hp, hd⟩ := List.any_eq_true.mp h
  have hp2 : pos < 2 := List.mem_range.mp hp
  have hs := shareOf_one ([0, 1] : List Nat).length st pos
  have hg : 1 ≤ (([0, 1].map u.freeGrans).getD pos []).length := by
    rw [List.map_cons, List.map_cons]
    have h2 : ∀ n, n < 2 → n = 0 ∨ n = 1 := by omega
    obtain rfl | rfl := h2 pos hp2
    · rw [List.getD_cons_zero]; exact freeGrans_pos _ 0 h0
    · rw [List.getD_cons_succ, List.getD_cons_zero]; exact freeGrans_pos _ 1 h1
  exact absurd (of_decide_eq_true hd) (Nat.not_lt.mpr (hs.trans hg))

/-- Two stacks with a free granule each take one granule. -/
theorem createExt_ok (u : State) (c : Cmd) (v : CreateArgs) (ok : Nat → Bool) (c1 : ¬ 64 ≤ v.part)
    (c2 : (decide ((u.part v.part).state ≠ 1) && decide ((u.part v.part).state ≠ 2) || (u.part v.part).conf && decide ((u.part v.part).sess ≠ 1))
      = false)
    (c2' : ((u.part v.part).conf && (v.mirror || v.parity)) = false)
    (c3 : ((v.coherent && v.combine) || decide (v.stripe = 3) || decide (v.size = 0) || decide (261120 < v.size)) = false)
    (hl : u.stacksFor v.stripe v.homeq = [0, 1]) (hz : (v.ext (u.part v.part).conf).localSize = 1)
    (c4 : ¬ (u.part v.part).quota < u.partGranules v.part + 1) (h0 : u.granFree (0 * 32768) = true) (h1 : u.granFree (1 * 32768) = true)
    (hi : u.freeIdx ok = some 0) (hm : u.mapFree 1 = some 0) (c5 : v.combine = false) (c6 : u.freeProt.isNone = false) :
    ∃ w r, u.createExt c v ok = done w r := by
  unfold State.createExt
  rw [← Bool.not_eq_true] at c2 c2' c3
  extract_lets x l e
  have hl : l = [0, 1] := hl
  have hz : e.localSize = 1 := hz
  have c2 : ¬ (decide (x.state ≠ 1) && decide (x.state ≠ 2) || x.conf && decide (x.sess ≠ 1)) = true := c2
  have c2' : ¬ (x.conf && (v.mirror || v.parity)) = true := c2'
  have c4 : ¬ x.quota < u.partGranules v.part + 1 := c4
  clear_value x l e
  subst hl
  rw [hz, if_neg c1, if_neg c2, if_neg c2', if_neg c3, if_neg (by decide), if_neg c4]
  generalize u.draw (u.startChoices [0, 1]).length = d
  split
  rename_i k s1
  extract_lets
  rw [if_neg (one_fits u h0 h1 _)]
  split
  · rw [c5, c6, Bool.false_and, Bool.and_false, Bool.or_false, if_neg Bool.false_ne_true]
    exact ⟨_, _, rfl⟩
  · rename_i h
    exact absurd hm (h 0 0 hi)

theorem done_status {r : Answer} (h : ∃ w n, r = done w n) : r.status = 0 := by
  obtain ⟨_, _, rfl⟩ := h; rfl

theorem runs_groupExtentCreate : ∃ (mb : MbId) (s : State) (v : CreateArgs) (e : GroupExt), Takes s groupCreateForm mb (fun u c a =>
      v = { part := arg a 0 1, mirror := !(arg a 1 1).testBit 0, parity := (arg a 1 1).testBit 0, pwidth := (arg a 1 1).testBit 1
            slots := arg a 12 3, rights := bitsOf a 16 12, stripe := bitsOf a 32 2, homeq := bitsOf a 34 2, size := arg a 8 4 }
      ∧ e = { part := BitVec.ofNat 6 v.part, parity := v.parity, wide := v.pwidth, rights := BitVec.ofNat 12 v.rights
              stripe := BitVec.ofNat 2 v.stripe, homeq := BitVec.ofNat 2 v.homeq, size := BitVec.ofNat 18 v.size
              slots := BitVec.ofNat 24 v.slots }
      ∧ u.group.on = true ∧ u.majority = true
      ∧ u.slotsOk (arg a 12 3) (if (arg a 1 1).testBit 0 then (if (arg a 1 1).testBit 1 then 8 else 4) else 2) = true
      ∧ (u.createExt c v fun i => u.inGroup i).status = 0) := by
  refine ⟨{}, pairing, oneMirror, _, by decide +kernel, by unfold oneMirror; rw [CreateArgs.mk.injEq]; decide +kernel, rfl, ?_, ?_, ?_,
    done_status (createExt_ok _ _ _ _ ?_ ?_ ?_ ?_ ?_ ?_ ?_ ?_ ?_ (freeIdx_first _ _ ?_ ?_) ?_ ?_ ?_)⟩ <;> decide +kernel

/-! ### The clauses of a statement with several outcomes -/

theorem witness_StepKeepsInv : ∃ s t : State, s.Inv ∧ step s = .next t :=
  ⟨State.reset, _, ⟨by decide, by unfold Nv.capOk; decide, by unfold Pwr.ok; decide⟩, rfl⟩

/-- A running keeper and a stopped one on an empty queue. -/
theorem witness_StepIdles_clauses : (∃ s : State, s.pending = [] ∧ s.pwr.running = true ∧ s.keeper.stopped = false)
    ∧ ∃ s : State, s.pending = [] ∧ (s.pwr.running = false ∨ s.keeper.stopped = true) :=
  ⟨⟨base, by decide +kernel⟩, ⟨{}, by decide +kernel⟩⟩

theorem covered_crc (f : Flit) (c : BitVec 32) : ({ f with crc := c } : Flit).covered = f.covered := rfl

/-- A flit with a check passes it just when it is its own. -/
theorem crcOk_with (f : Flit) (c : BitVec 32) : ({ f with crc := c } : Flit).crcOk = (c == crc32c f.covered) := by
  unfold Flit.crcOk; rw [covered_crc]

theorem seal_ok (f : Flit) : f.seal.crcOk = true := by
  unfold Flit.seal; rw [crcOk_with]; exact beq_self_eq_true _

theorem seal_byte (f : Flit) (i : Nat) : f.seal.byte i = f.byte i := by unfold Flit.seal Flit.byte; rfl

/-- A flit with another check than its own. -/
def spoil (f : Flit) : Flit := { f with crc := crc32c f.covered + 1 }

theorem spoil_bad (f : Flit) : (spoil f).crcOk = false := by
  unfold spoil
  rw [crcOk_with, beq_eq_false_iff_ne]
  generalize crc32c f.covered = c
  bv_omega

theorem witness_FlitRows_crc : (∃ (p : Fin 17) (f : Flit) (s : State), f.crcOk = false ∧ ((s.port p.val).state = 2 ∨ (s.port p.val).state = 4))
    ∧ (∃ (p : Fin 17) (f : Flit) (s : State), f.crcOk = false ∧ (s.port p.val).state = 3)
    ∧ (∃ (p : Fin 17) (f : Flit) (s : State), f.crcOk = true ∧ f.typ = 3 ∧ (s.port p.val).state = 3)
    ∧ (∃ (p : Fin 17) (f : Flit) (s : State), f.crcOk = true ∧ f.typ = 2
      ∧ ((s.port p.val).state = 2 ∨ ((s.port p.val).state = 4 ∧ f.byte 0 = 4)))
    ∧ (∃ (p : Fin 17) (f : Flit) (s : State), f.crcOk = true ∧ f.typ = 2 ∧ (s.port p.val).state = 4 ∧ f.byte 0 ≠ 4)
    ∧ (∃ (p : Fin 17) (f : Flit) (s : State), f.crcOk = true ∧ f.typ = 1 ∧ f.nak = false ∧ (s.port p.val).state = 3)
    ∧ (∃ (p : Fin 17) (f : Flit) (s : State), f.crcOk = true ∧ f.typ = 1 ∧ f.nak = true ∧ (s.port p.val).state = 3)
    ∧ (∀ n : Bool, ∃ (p : Fin 17) (f : Flit) (s : State), f.crcOk = true ∧ f.typ = 2 ∧ f.nak = n ∧ (s.port p.val).state = 3)
    ∧ (∀ n : Bool, ∀ st ∈ [(2 : BitVec 3), 3, 4], ∃ (p : Fin 17) (f : Flit) (s : State), f.crcOk = true ∧ f.typ = 0 ∧ f.nak = n
      ∧ (s.port p.val).state = st) :=
  ⟨⟨16, spoil {}, { base with ports := [(16, { state := 4 })] }, spoil_bad {}, by decide +kernel⟩,
   ⟨16, spoil {}, { base with ports := [(16, { state := 3 })] }, spoil_bad {}, by decide +kernel⟩,
   ⟨16, _, { base with ports := [(16, { state := 3 })] }, seal_ok { typ := 3 }, rfl, by decide +kernel⟩,
   ⟨16, _, { base with ports := [(16, { state := 2 })] }, seal_ok { typ := 2 }, rfl, by decide +kernel⟩,
   ⟨16, ({ typ := 2 } : Flit).seal, { base with ports := [(16, { state := 4 })] }, seal_ok _, rfl, by decide +kernel,
    by rw [seal_byte]; decide +kernel⟩,
   ⟨16, _, { base with ports := [(16, { state := 3 })] }, seal_ok { typ := 1 }, rfl, rfl, by decide +kernel⟩,
   ⟨16, _, { base with ports := [(16, { state := 3 })] }, seal_ok { typ := 1, nak := true }, rfl, rfl, by decide +kernel⟩,
   fun n => ⟨16, _, { base with ports := [(16, { state := 3 })] }, seal_ok { typ := 2, nak := n }, rfl, rfl, by decide +kernel⟩,
   fun n st _ => ⟨16, _, { base with ports := [(16, { state := st })] }, seal_ok { typ := 0, nak := n }, rfl, rfl, rfl⟩⟩

/-- What is assumed of a packet of this device at the head of its die. -/
abbrev SentFrom (d : Fin 4) (p q : Packet) (s t u : State) : Prop :=
  s.dieEn d.val = true ∧ (s.die d.val).nextOrig p = true ∧ (s.die d.val).transitFlits true < 2048
    ∧ s.outranked d.val { pkt := { p with epoch := (s.die d.val).cur } } = false
    ∧ (s.setDie d.val { s.die d.val with orig := (s.die d.val).orig.erase p }).sequence { p with epoch := (s.die d.val).cur } = some (q, u)
    ∧ (u.protect q).2.routePkt d.val { pkt := (u.protect q).1, at_ := (u.protect q).2.now } = t

/-- A die that holds 2,047 flits of this device and whose port has no credit for another packet of it. -/
def fullDie : Die :=
  { orig := [{ dst := 5, syn := true, len := 400 }], s0 := 2, slot0 := [(5, { v := true, order := 0x07, nprod := 2 })]
    transit := {} :: List.replicate 1023 { pkt := { len := 400 } } }

/-- One is taken; one that finds no port while 2,047 flits of this device are held waits. -/
theorem witness_RoutingRows_sent :
    (∃ (d : Fin 4) (p q : Packet) (s t u : State), SentFrom d p q s t u ∧ s.overHeld t d.val (flitsOf p.len.toNat) = false)
    ∧ ∃ (d : Fin 4) (p q : Packet) (s t u : State), SentFrom d p q s t u ∧ s.overHeld t d.val (flitsOf p.len.toNat) = true :=
  ⟨⟨3, { syn := true }, _, { base with dies := [(3, { orig := [{ syn := true }] })] }, _, _,
    ⟨by decide +kernel, by decide +kernel, by decide +kernel, by decide +kernel, rfl, rfl⟩, by decide +kernel⟩,
   ⟨3, { dst := 5, syn := true, len := 400 }, _, { base with dies := [(3, fullDie)], ports := [(12, { state := 3 })] }, _, _,
    ⟨by decide +kernel, by decide +kernel, by decide +kernel, by decide +kernel, rfl, rfl⟩, by decide +kernel⟩⟩

/-- A packet that goes on through a die whose slot 0 is in use: without a route, at the hop limit, with a free port, and without one. -/
theorem witness_RoutingRows_forward : (∃ (d : Nat) (t : Transit) (s : State), t.pkt.dst ≠ s.node.eid ∧ t.pkt.tc ≠ 7
      ∧ (s.die d).slotState t.pkt.epoch ≠ 0
      ∧ (s.die d).slotState t.pkt.epoch ≠ 3 ∧ (s.route d t.pkt.epoch t.pkt.dst).v = false)
    ∧ (∃ (d : Nat) (t : Transit) (s : State), t.pkt.dst ≠ s.node.eid ∧ t.pkt.tc ≠ 7 ∧ (s.die d).slotState t.pkt.epoch ≠ 0
      ∧ (s.die d).slotState t.pkt.epoch ≠ 3 ∧ (s.route d t.pkt.epoch t.pkt.dst).v = true ∧ s.node.hopLimit.toNat ≤ t.pkt.hops.toNat)
    ∧ (∃ (d : Nat) (t : Transit) (s : State) (i : Nat), t.pkt.dst ≠ s.node.eid ∧ t.pkt.tc ≠ 7 ∧ (s.die d).slotState t.pkt.epoch ≠ 0
      ∧ (s.die d).slotState t.pkt.epoch ≠ 3 ∧ (s.route d t.pkt.epoch t.pkt.dst).v = true ∧ t.pkt.hops.toNat < s.node.hopLimit.toNat
      ∧ s.freePort d ((s.die d).xmask t.pkt.epoch) t.pkt (s.route d t.pkt.epoch t.pkt.dst).ports = some i)
    ∧ ∃ (d : Nat) (t : Transit) (s : State), t.pkt.dst ≠ s.node.eid ∧ t.pkt.tc ≠ 7 ∧ (s.die d).slotState t.pkt.epoch ≠ 0
      ∧ (s.die d).slotState t.pkt.epoch ≠ 3 ∧ (s.route d t.pkt.epoch t.pkt.dst).v = true ∧ t.pkt.hops.toNat < s.node.hopLimit.toNat
      ∧ s.freePort d ((s.die d).xmask t.pkt.epoch) t.pkt (s.route d t.pkt.epoch t.pkt.dst).ports = none ∧ t.inp ≠ none :=
  ⟨⟨0, { pkt := { dst := 5 } }, { base with dies := [(0, { s0 := 2 })] }, by decide +kernel⟩,
   ⟨0, { pkt := { dst := 5, hops := 96 } }, { base with dies := [(0, { s0 := 2, slot0 := [(5, { v := true })] })] }, by decide +kernel⟩,
   ⟨0, { pkt := { dst := 5 } },
      { base with dies := [(0, { s0 := 2, slot0 := [(5, { v := true, order := 0x07, nprod := 2 })] })], ports := [(0, { state := 3, cred := [(0, 64), (1, 64), (2, 64)] })] }, 0, by decide +kernel⟩,
   ⟨0, { pkt := { dst := 5 }, inp := some 1 }, { base with dies := [(0, { s0 := 2, slot0 := [(5, { v := true, order := 0x07, nprod := 2 })] })] },
    by decide +kernel⟩⟩

theorem witness_CommandRefused : (∃ (f : CmdForm) (mb : MbId) (s : State) (st : Nat), s.stewardUp = true
      ∧ (∀ c ∈ s.cmds, c.mb ≠ mb ∨ c.deferred = false)
      ∧ s.nextMb = some mb.idx ∧ (s.mbox mb.idx).opcode.toNat = f.op ∧ s.cmds.length < 64 ∧ s.stew.step ≠ .swWait
      ∧ (s.takeCmd mb f.names).2.common f (s.takeCmd mb f.names).1 ((s.takeCmd mb f.names).2.mbox mb.idx).arglen
        ((s.takeCmd mb f.names).2.mbox mb.idx).args = some st)
    ∧ ∃ (mb : MbId) (s : State), s.stewardUp = true ∧ (s.mbox mb.idx).opcode.toNat ∉ opcodes ∧ s.nextMb = some mb.idx ∧ s.cmds.length < 64
      ∧ s.stew.step ≠ .swWait :=
  ⟨⟨adminForm, {}, post 0 0x0C01 9 [] base, csBadArg, by decide +kernel⟩, ⟨{}, post 0 0x0C04 0 [] base, by decide +kernel⟩⟩

theorem witness_PostFrame : ∃ r : Answer, (∀ i, Wait.binv i ∉ r.waits) ∧ ∀ e, Wait.agents e ∉ r.waits :=
  ⟨{ st := base }, by simp, by simp⟩

theorem witness_EngineRows_reissue : (∃ (t : Fin 32) (r : SRun) (a : EAcc) (d : Desc) (s u : State), (s.tile t.val).srun = some r
      ∧ r.eng.failed = false ∧ s.pwr.issue true 1 ≠ 0
      ∧ r.eng.retry.find? (fun a => decide (a.readyAt ≤ s.now) && r.mayIssue a) = some a ∧ r.ent.descOf a.slot a.write = some d
      ∧ (s.modRun t.val fun e => { e with retry := e.retry.erase a }).issueSched t.val r d a = (u, true))
    ∧ ∃ (t : Fin 32) (k : Nat) (a : EAcc) (s u : State), (s.tile t.val).srun = none ∧ (s.tile t.val).running = some k ∧ s.pwr.issue false 1 ≠ 0
      ∧ (s.job t.val k).st = .running ∧ (s.job t.val k).eng.retry.find? (fun a => decide (a.readyAt ≤ s.now)) = some a
      ∧ (s.modJob t.val k fun j => { j with eng := { j.eng with retry := j.eng.retry.erase a } }).issueJob t.val k a = .sent u :=
  ⟨⟨31, { ent := { desc := [{ kind := 3, slotIn := 0 }] }, eng := { retry := [{}] } }, {}, { kind := 3, slotIn := 0 },
    { base with tiles := [(31, { srun := some { ent := { desc := [{ kind := 3, slotIn := 0 }] }, eng := { retry := [{}] } } })] }, _,
    by decide +kernel, by decide +kernel, by decide +kernel, by decide +kernel, by decide +kernel, Prod.ext rfl (by decide +kernel)⟩,
   ⟨31, 63, {}, { base with tiles := [(31, { running := some 63, jobs := [(63, { st := .running, rpl := [{ v := true, tgt := true, rights := 7 }], eng := { retry := [{}] } })] })] }, _,
    by decide +kernel, by decide +kernel, by decide +kernel, by decide +kernel, by decide +kernel, rfl⟩⟩

/-- What the statement of a read-only region assumes of a packet before it looks at R and STRICT. -/
abbrev WritesReadOnly (p : Packet) (s : State) : Prop :=
  s.turn p = true ∧ s.filtered p.src = true ∧ p.vc = false ∧ (p.opc = oWrLine ∨ p.opc = oWrPartial) ∧ (s.take p).1.pkt = p
    ∧ (s.take p).2.mustHold (s.take p).1 = false ∧ (s.take p).2.elderOk (s.take p).1 ((s.take p).2.elderReq (s.take p).1) = true
    ∧ ((s.take p).2.region (p.offset.toNat % 2 ^ 36 / 2 ^ 21)).w = false ∧ ((s.take p).2.part (s.take p).2.elder.part.toNat).abortAt = none

/-- A write of a whole line through Elder that has been released. -/
def elderWrite : Packet := { src := 5, opc := oWrLine, blen := 127, opnd := BitVec.allOnes 128 }

/-- Elder bound to partition 0, with `r` for the region of offset 0. -/
def elderTo (r : ElderReg) (cfg : Word) : State :=
  { base with
    elder := { en := true, filter := true }, regions := [(0, r)], parts := [(0, { state := 2, cfg := cfg })], released := [{ pkt := elderWrite }]
    exts := [(9, { state := 1, size := 1 })] }

theorem witness_ReadOnlyRegion : (∃ (p : Packet) (s : State), WritesReadOnly p s ∧ ((s.take p).2.region (p.offset.toNat % 2 ^ 36 / 2 ^ 21)).r = true
      ∧ ((s.take p).2.part (s.take p).2.elder.part.toNat).strict = false)
    ∧ (∃ (p : Packet) (s : State), WritesReadOnly p s ∧ ((s.take p).2.region (p.offset.toNat % 2 ^ 36 / 2 ^ 21)).r = true
      ∧ ((s.take p).2.part (s.take p).2.elder.part.toNat).strict = true)
    ∧ ∃ (p : Packet) (s : State), WritesReadOnly p s ∧ ((s.take p).2.region (p.offset.toNat % 2 ^ 36 / 2 ^ 21)).r = false :=
  ⟨⟨elderWrite, elderTo { v := true, r := true, index := 9 } 0, by decide +kernel⟩,
   ⟨elderWrite, elderTo { v := true, r := true, index := 9 } 2, by decide +kernel⟩,
   ⟨elderWrite, elderTo { v := true, index := 9 } 0, by decide +kernel⟩⟩

/-- A create that another member has carried here, at an index of the group that is free. -/
theorem witness_GroupCommands_carried : ∃ (m : Fin 8) (xh : Xh) (e : GroupExt) (s : State) (r : Answer), s.stewardUp = true ∧ s.group.on = true
    ∧ m.val ∈ s.peers ∧ s.inGroup (xhIdx xh.toNat) = true ∧ (s.ext (xhIdx xh.toNat)).state = 0
    ∧ r = (s.setExt (xhIdx xh.toNat) { s.ext (xhIdx xh.toNat) with gen := xhGen xh.toNat }).createExt {} (groupArgs e) (fun i => i == xhIdx xh.toNat)
    ∧ r.status = 0 := by
  refine ⟨1, 0, { size := 1, slots := 8 }, pairing, _, ?_, ?_, ?_, ?_, ?_, rfl,
    done_status (createExt_ok _ _ _ _ ?_ ?_ ?_ ?_ ?_ ?_ ?_ ?_ ?_ (freeIdx_first _ _ ?_ ?_) ?_ ?_ ?_)⟩ <;> decide +kernel

/-- The clauses of one sample: the bands of a temperature and of a rail, an input mean over and under the cap, and the counts of a tile's failures. -/
theorem witness_SampleRows_clauses : (∃ (x : Sensor) (k : Nat) (v : Int), x.valid = true ∧ k < 20 ∧ (sensorBand k v).1 = true)
    ∧ (∃ (x : Sensor) (k : Nat) (v : Int), x.valid = true ∧ 20 ≤ k ∧ (sensorBand k v).1 = false ∧ (sensorBand k v).2 = true)
    ∧ (∃ (x : Sensor) (k : Nat) (v : Int), x.valid = false ∧ (sensorBand k v).1 = false ∧ (sensorBand k v).2 = false)
    ∧ (∃ p : Pwr, p.over = true ∧ p.under = false) ∧ (∃ p : Pwr, p.over = false ∧ p.under = true) ∧ ∃ p : Pwr, p.over = false ∧ p.under = false :=
  ⟨⟨{ valid := true }, 19, 880, by decide +kernel⟩, ⟨{ valid := true }, 20, 4260, by decide +kernel⟩, ⟨{}, 0, 672, by decide +kernel⟩,
   ⟨{ cap := 450, samples := [3601] }, by decide +kernel⟩, ⟨{ cap := 450, samples := [3419] }, by decide +kernel⟩,
   ⟨{ cap := 450, samples := [3420] }, by decide +kernel⟩⟩

theorem witness_other_clauses : (∃ (s : State) (n : Nat), (s.tile n).kat.fails ≤ 3 ∧ (s.tile n).kat.health = 1 ∧ 2 ≤ (s.tile n).kat.fails)
    ∧ (∃ (s : State) (n : Nat), (s.tile n).kat.fails ≤ 3 ∧ (s.tile n).kat.health = 1 ∧ (s.tile n).kat.passes < 63)
    ∧ (∃ (x : TsxBody) (p : Fin 17) (s : State), p.val < 16 ∧ (s.port p.val).state = 3 ∧ x.echoTseq = 0xFFFF ∧ p.val ≠ s.keeper.parent.toNat)
    ∧ (∃ s : State, s.pwr.phase = .boot ∧ s.stew.released = true ∧ s.stew.noFw = false ∧ s.nv.otherSlot.valid = true)
    ∧ (∃ (s : State) (off n : Nat), off ≠ elogDroppedOff ∧ tget 0 s.cnt.live off < 2 ^ 48 - 1 ∧ 2 ^ 48 - 1 ≤ tget 0 s.cnt.live off + n)
    ∧ (∃ (k key : Option Nat) (w tweak : Nat), k ≠ key ∨ w ≠ tweak) :=
  ⟨⟨{ base with tiles := [(31, { kat := { health := 1, fails := 2 } })] }, 31, by decide +kernel⟩,
   ⟨{ base with tiles := [(31, { kat := { health := 1, passes := 62 } })] }, 31, by decide +kernel⟩,
   ⟨{}, 15, { base with ports := [(15, { state := 3 })] }, by decide +kernel⟩,
   ⟨{ pwr := { phase := .boot }, stew := { released := true }, nv := { fw1 := { valid := true } } }, by decide +kernel⟩,
   ⟨base, 8, 2 ^ 48 - 1, by decide +kernel⟩, ⟨none, some 1, 0, 0, by decide +kernel⟩⟩

/-- A rebuild of extent 5 onto a replacement member, whose next granule is `i`. -/
abbrev RebuildDue (e : Fin 262144) (i : Nat) (s : State) : Prop :=
  (s.ext e.val).state = 1 ∧ (s.ext e.val).mirror = true ∧ (s.prot (s.ext e.val).protRef.toNat).rstate = 1
    ∧ (s.prot (s.ext e.val).protRef.toNat).target = false ∧ i = (s.prot (s.ext e.val).protRef.toNat).cursor.toNat ∧ (s.ext e.val).parity = false

/-- Extent 5 of `n` granules in the middle of a rebuild. -/
def rebuilding (n : Nat) (l : Tbl Stack) : State :=
  { base with exts := [(5, { state := 1, mirror := true, size := BitVec.ofNat 18 n })], prots := [(0, { used := true, rstate := 1 })], stks := l }

/-- A step of a rebuild too early, in the middle, and at the end. -/
theorem witness_RebuildStep_clauses :
    (∃ (e : Fin 262144) (i : Nat) (s : State), RebuildDue e i s ∧ s.granOk (s.extGran (s.ext e.val) i) = false)
    ∧ (∃ (e : Fin 262144) (i : Nat) (s : State), RebuildDue e i s ∧ s.granOk (s.extGran (s.ext e.val) i) = true
      ∧ (s.prot (s.ext e.val).protRef.toNat).cursor.toNat + 1 ≠ (s.ext e.val).size.toNat)
    ∧ ∃ (e : Fin 262144) (i : Nat) (s : State), RebuildDue e i s ∧ s.granOk (s.extGran (s.ext e.val) i) = true
      ∧ (s.prot (s.ext e.val).protRef.toNat).cursor.toNat + 1 = (s.ext e.val).size.toNat :=
  ⟨⟨5, 0, rebuilding 2 [(0, { state := 2, bgNext := 1 })], by decide +kernel⟩, ⟨5, 0, rebuilding 2 [(0, { state := 2 })], by decide +kernel⟩,
   ⟨5, 0, rebuilding 1 [(0, { state := 2 })], by decide +kernel⟩⟩

/-! ### Ill-formed commands -/

/-- A packet of one row with the opcode of another, or with a body longer than 160 bytes. -/
theorem test_wf_opcode : ([Instr.rdOnce, .rdShared, .rdOwn, .upgrade, .wrLine, .wrPartial, .atomic, .wbDirty, .evictClean, .lineReclaim, .snpAck,
    .snpAckData, .grantAck, .ctlRd, .ftNowNsRead, .fqAckRead, .elogAckRead, .ctlWr, .mailboxPost, .mailboxReplyClear, .partAbortWrite, .mcmp,
    .mcmpData, .elderRequest].all fun f => !(f { opc := 0xFF }).wf) = true := by decide +kernel

theorem test_wf_len : (Instr.rdOnce { opc := oRdOnce, len := 161 }).wf = false ∧ (Instr.rdOnce { opc := oRdOnce, len := 160 }).wf = true
    ∧ (Instr.routePacket 0 none { len := 161 }).wf = false ∧ (Instr.rdOnce { opc := oRdOnce, rest := List.replicate 17 0 }).wf = false := by
  decide +kernel

theorem test_wf_rest : (Instr.breakNotice { brk := false }).wf = false ∧ (Instr.originatedCompletion {}).wf = false
    ∧ (Instr.reservationExpire 0 (2 ^ 33)).wf = false ∧ (Instr.fecBlockReceive 16 { corrected := [(1088, 1)] }).wf = false
    ∧ (Instr.sensorSample []).wf = false ∧ (Instr.down 16 16).wf = false ∧ (Instr.retrainReq 16 16).wf = false := by decide +kernel

/-- No word spells a command: the command table gives no bits. -/
theorem test_decode : decodeTableWord 32 0xFFFFFFFF = none ∧ base.withFetchWord 32 5 = base := ⟨rfl, rfl⟩

/-! ### Worked examples of the spec -/

/-- Chapter 02: index 0x1234 with GEN 5 has the handle 0x14_1234, and 0x18_1234 once GEN is 6. -/
theorem test_handle : ({ gen := 5 } : Ext).handle 0x1234 = 0x141234 ∧ ({ gen := 6 } : Ext).handle 0x1234 = 0x181234 := by decide +kernel

/-- Chapter 08: with an image of 6,250 units that runs since 7,000,000,000 ns, T_s = 7,120,050,000 gives T_x = 7,120,100,000. -/
theorem test_takeover :
    ({ base with sched := { running := some { cycle := 6250 }, runStart := 7000000000 } } : State).takeoverAt true false 80000 7120050000
      = 7120100000 := by decide +kernel

/-! ### UNIT_TESTED and the capper (R519, R533, R534) -/

/-- R533: a failing H1 disables Q2 and Q3, with their stacks and tiles, which read 0 (R534). -/
theorem test_unit_tested_hub : shownMap { hubs := 1 } = { stks := 0x0F, linkdies := 0b0101, tiles := 0xFFFF, quads := 3, hubs := 1 } := by
  decide +kernel

/-- R519: at the deepest step of level 2, 1/16 of the bandwidth is left; at the last step of level 1 for dynamic jobs nothing issues. -/
theorem test_capper_levels : (Pwr.share { level := 2, step := 14 } = 1) ∧ (Pwr.share { level := 2, step := 0 } = 15)
    ∧ (Pwr.issue { level := 1, step := 15 } false 7 = 0) ∧ (Pwr.issue { level := 1, step := 15 } true 7 = 7) := by decide +kernel

/-! ### The clauses of the review's second round -/

/-- A request of requester 5 in the named form, and the state in which it is checked. -/
abbrev Fails (p : Packet) (s : State) (c : Bool) (inside rights : Prop) : Prop :=
  let x := s.part (cidPart p.cid)
  let k := s.ctx p.cid.toNat
  let e := s.ext (p.xh.extractLsb' 0 18).toNat
  s.fromPeer p e = false ∧ x.state = 2 ∧ k.state = 2 ∧ eidFits p.src k.eidMatch k.eidMask = true
    ∧ (x.conf = true → c = true → s.protOk (cidPart p.cid) p = true) ∧ e.state = 1 ∧ e.gen = p.xh.extractLsb' 18 6 ∧ rights ∧ inside

/-- Partition 0 runs with context 0 and extent 9 as given. -/
def checks (x : Ext) : State := { base with parts := [(0, { state := 2 })], ctxs := [(0, { state := 2 })], exts := [(9, x)] }

/-- A read of the last line of extent 9, of one granule. -/
def lastLine : Packet := { opc := oRdOnce, xh := 9, offset := 0x1FFFFC, blen := 3 }

/-- The checks of a request in their order, each failing where those before it pass: the partition, the context, EID and session, the handle, the
rights, the range, a mirror that does not serve here and one without a majority, and the form. -/
theorem witness_MemoryRows_checks :
    (∃ (p : Packet) (s : State), s.fromPeer p (s.ext 9) = false ∧ (s.part (cidPart p.cid)).state = 4)
    ∧ (∃ (p : Packet) (s : State), s.fromPeer p (s.ext 9) = false ∧ (s.part (cidPart p.cid)).state ≠ 4 ∧ (s.part (cidPart p.cid)).state ≠ 2)
    ∧ (∃ (p : Packet) (s : State), s.fromPeer p (s.ext 9) = false ∧ (s.part (cidPart p.cid)).state = 2 ∧ (s.ctx p.cid.toNat).state ≠ 2)
    ∧ (∃ (p : Packet) (s : State), s.fromPeer p (s.ext 9) = false ∧ (s.part (cidPart p.cid)).state = 2
      ∧ eidFits p.src (s.ctx p.cid.toNat).eidMatch (s.ctx p.cid.toNat).eidMask = false)
    ∧ (∃ (p : Packet) (s : State), s.fromPeer p (s.ext 9) = false ∧ (s.part (cidPart p.cid)).state = 2 ∧ (s.part (cidPart p.cid)).conf = true
      ∧ s.protOk (cidPart p.cid) p = false)
    ∧ (∃ (p : Packet) (s : State), s.fromPeer p (s.ext 9) = false ∧ (s.part (cidPart p.cid)).state = 2 ∧ (s.ctx p.cid.toNat).state = 2
      ∧ eidFits p.src (s.ctx p.cid.toNat).eidMatch (s.ctx p.cid.toNat).eidMask = true ∧ (s.part (cidPart p.cid)).conf = false
      ∧ ((s.ext 9).state ≠ 1 ∨ (s.ext 9).gen ≠ p.xh.extractLsb' 18 6))
    ∧ (∃ (p : Packet) (s : State), Fails p s true True (s.rightsOf (s.ext 9) (cidPart p.cid) (s.ctx p.cid.toNat).cls.toNat = none))
    ∧ (∃ (p : Packet) (s : State) (r : BitVec 3), Fails p s true True
      (s.rightsOf (s.ext 9) (cidPart p.cid) (s.ctx p.cid.toNat).cls.toNat = some r ∧ r &&& p.needs ≠ p.needs))
    ∧ (∃ (p : Packet) (s : State) (r : BitVec 3), Fails p s true (¬ p.offset.toNat + p.accLen ≤ (s.ext 9).size.toNat * 2 ^ 21)
      (s.rightsOf (s.ext 9) (cidPart p.cid) (s.ctx p.cid.toNat).cls.toNat = some r ∧ r &&& p.needs = p.needs))
    ∧ (∃ (p : Packet) (s : State) (r : BitVec 3), Fails p s true (¬ p.offset.toNat % 128 + p.accLen ≤ 128)
      (s.rightsOf (s.ext 9) (cidPart p.cid) (s.ctx p.cid.toNat).cls.toNat = some r ∧ r &&& p.needs = p.needs))
    ∧ (∃ (p : Packet) (s : State), Fails p s true ((s.ext 9).mirror = true ∧ s.serves (s.ext 9) p.offset.toNat = false) True)
    ∧ (∃ (p : Packet) (s : State), Fails p s true ((s.ext 9).mirror = true ∧ s.serves (s.ext 9) p.offset.toNat = true ∧ s.majority = false) True)
    ∧ (∃ (p : Packet) (s : State), Fails p s true ((s.ext 9).mirror = false ∧ (s.ext 9).parity = false ∧ p.formOk (s.ext 9).coherent = false) True)
    ∧ (∃ (p : Packet) (s : State) (r : BitVec 3), Fails p s true (p.offset.toNat + p.accLen ≤ (s.ext 9).size.toNat * 2 ^ 21
        ∧ p.offset.toNat % 128 + p.accLen ≤ 128 ∧ (s.ext 9).mirror = false ∧ (s.ext 9).parity = false ∧ p.formOk (s.ext 9).coherent = true)
      (s.rightsOf (s.ext 9) (cidPart p.cid) (s.ctx p.cid.toNat).cls.toNat = some r ∧ r &&& p.needs = p.needs)) :=
  ⟨⟨lastLine, { base with parts := [(0, { state := 4 })] }, by decide +kernel⟩,
   ⟨lastLine, { base with parts := [(0, { state := 3 })] }, by decide +kernel⟩,
   ⟨lastLine, { base with parts := [(0, { state := 2 })] }, by decide +kernel⟩,
   ⟨lastLine, { base with parts := [(0, { state := 2 })], ctxs := [(0, { state := 2, eidMatch := 1, eidMask := 1 })] }, by decide +kernel⟩,
   ⟨lastLine, { base with parts := [(0, { state := 2, cfg := 1 })] }, by decide +kernel⟩,
   ⟨lastLine, checks { state := 1, gen := 1 }, by decide +kernel⟩,
   ⟨lastLine, checks { state := 1, size := 1, owner := 5 }, by decide +kernel⟩,
   ⟨lastLine, checks { state := 1, size := 1 }, 0, by decide +kernel⟩,
   ⟨{ lastLine with offset := 0x200000 }, checks { state := 1, size := 1, rights := 1 }, 1, by decide +kernel⟩,
   ⟨{ lastLine with offset := 125 }, checks { state := 1, size := 1, rights := 1 }, 1, by decide +kernel⟩,
   ⟨{ lastLine with src := 5 }, { checks { state := 1, size := 1, rights := 1, mirror := true } with
      prots := [(0, { used := true, slots := 1 })], group := { on := true, nmemb := 2 } }, by decide +kernel⟩,
   ⟨lastLine, { checks { state := 1, size := 1, rights := 1, mirror := true } with
      prots := [(0, { used := true, slots := 8 })], group := { on := true, nmemb := 3 }, keeper := { ft := 262144000000 } }, by decide +kernel⟩,
   ⟨{ lastLine with opc := oRdShared, offset := 0 }, checks { state := 1, size := 1, rights := 1 }, by decide +kernel⟩,
   ⟨lastLine, checks { state := 1, size := 1, rights := 1 }, 1, by decide +kernel⟩⟩

/-- A board whose mirrored extent 9 is the second copy of a member with EID 7, whose writes it takes. -/
def second (x : Ext) (st : BitVec 3) : State :=
  { base with
    parts := [(0, { state := st })], exts := [(9, x)], prots := [(0, { used := true, slots := 1 })]
    group := { on := true, nmemb := 2, eids := [(1, 7)] } }

/-- A write of a mirror's first copy that its member sends on. -/
def mirrorWrite : Packet := { opc := oWrLine, src := 7, xh := 9, offset := 0x1FFF80 }

theorem witness_MemoryRows_peer :
    (∃ (p : Packet) (s : State), s.fromPeer p (s.ext 9) = true ∧ (s.part (cidPart p.cid)).state = 4)
    ∧ (∃ (p : Packet) (s : State), s.fromPeer p (s.ext 9) = true ∧ (s.part (cidPart p.cid)).state ≠ 4
      ∧ ((s.ext 9).state ≠ 1 ∨ (s.ext 9).gen ≠ p.xh.extractLsb' 18 6))
    ∧ (∃ (p : Packet) (s : State), s.fromPeer p (s.ext 9) = true ∧ (s.part (cidPart p.cid)).state ≠ 4 ∧ (s.ext 9).state = 1
      ∧ (s.ext 9).gen = p.xh.extractLsb' 18 6 ∧ ¬ p.offset.toNat + p.accLen ≤ (s.ext 9).size.toNat * 2 ^ 21)
    ∧ ∃ (p : Packet) (s : State), s.fromPeer p (s.ext 9) = true ∧ (s.part (cidPart p.cid)).state ≠ 4 ∧ (s.ext 9).state = 1
      ∧ (s.ext 9).gen = p.xh.extractLsb' 18 6 ∧ p.offset.toNat + p.accLen ≤ (s.ext 9).size.toNat * 2 ^ 21
      ∧ p.offset.toNat % 128 + p.accLen ≤ 128 ∧ p.formOk false = true :=
  ⟨⟨mirrorWrite, second { state := 1, size := 1, mirror := true } 4, by decide +kernel⟩,
   ⟨mirrorWrite, second { state := 1, size := 1, mirror := true, gen := 1 } 2, by decide +kernel⟩,
   ⟨{ mirrorWrite with offset := 0x200000 }, second { state := 1, size := 1, mirror := true } 2, by decide +kernel⟩,
   ⟨mirrorWrite, second { state := 1, size := 1, mirror := true } 2, by decide +kernel⟩⟩

/-- A table that holds one value under every key it has. -/
theorem tget_all {α : Type} (d v : α) (l : Tbl α) (t : Nat) (h : ∀ e ∈ l, e.2 = v) (k : ∃ e ∈ l, e.1 = t) : tget d l t = v := by
  induction l with
  | nil => simp at k
  | cons x r ih =>
    rw [tget]
    split
    · exact h x List.mem_cons_self
    · obtain ⟨e, he, rfl⟩ := k
      exact ih (fun e he => h e (List.mem_cons_of_mem _ he)) ⟨e, (List.mem_cons.mp he).resolve_left fun q => by simp_all, rfl⟩

/-- No transaction free, where `full`. -/
def taken (full : Bool) : Tbl Txn := if full then (List.range 1024).map fun n => (n, { kind := .fetch }) else []

/-- A slice of quadrant 0 whose way 0 holds line 0 as the entry says; `full` leaves no transaction free. -/
def oneLine (e : DirEntry) (full : Bool) : State :=
  { base with agents := [(5, true), (6, true)], slices := [(0, { ways := [(0, e)], txns := taken full })] }

theorem oneLine_slice (e : DirEntry) (full : Bool) : (oneLine e full).slice 0 = { ways := [(0, e)], txns := taken full } := rfl

theorem taken_free (w : Tbl DirEntry) (full : Bool) : Slice.freeTxn { ways := w, txns := taken full } = if full then none else some 0 := by
  cases full
  · unfold Slice.freeTxn
    rw [show (1024 : Nat) = 1023 + 1 from rfl, List.range_succ_eq_map, List.find?_cons]
    rfl
  · unfold Slice.freeTxn Slice.txn
    simp only [if_true]
    rw [List.find?_eq_none]
    intro t ht
    simp only [taken, if_true]
    rw [tget_all _ { kind := .fetch } _ t (by simp) (by simpa using List.mem_range.mp ht)]
    decide

/-- A request for line 0. -/
def ask (o : Byte) (e : Eid) : Req := { pkt := { opc := o, src := e } }

/-- What the rows of a line that is held assume: the way, its state, the opcode and whether a transaction is free. -/
abbrev Held0 (r : Req) (s : State) (o : Byte) (st : BitVec 3) (full : Bool) : Prop :=
  (s.slice 0).find r.line = some 0 ∧ r.atReq = false ∧ r.pkt.opc = o ∧ ((s.slice 0).way 0).state = st ∧ ((s.slice 0).way 0).opn = false
    ∧ (s.slice 0).freeTxn = if full then none else some 0

theorem held0 (r : Req) (e : DirEntry) (o : Byte) (st : BitVec 3) (full : Bool) (h : (Slice.find { ways := [(0, e)] } r.line) = some 0
    ∧ r.atReq = false ∧ r.pkt.opc = o ∧ e.state = st ∧ e.opn = false) : Held0 r (oneLine e full) o st full :=
  ⟨h.1, h.2.1, h.2.2.1, h.2.2.2.1, h.2.2.2.2, taken_free _ full⟩

/-- Each row of a line that is SHARED, held by another requester, or ORPHANED, with a transaction free and without one. -/
theorem witness_DirectoryRequests_held :
    (∀ o ∈ [oWbDirty, oReclaim, oEvictClean, oRdOnce, oRdShared, oRdOwn, oUpgrade, oWrLine, oWrPartial], ∀ full : Bool,
      ∃ (r : Req) (s : State), Held0 r s o 1 full ∧ ((s.slice 0).way 0).fmt = false)
    ∧ (∃ (r : Req) (s : State), Held0 r s oEvictClean 1 false ∧ ((s.slice 0).way 0).fmt = true)
    ∧ (∀ o ∈ [oWbDirty, oReclaim, oEvictClean, oRdOnce, oRdShared, oRdOwn, oUpgrade, oWrLine, oWrPartial], ∀ st ∈ [(2 : BitVec 3), 3], ∀ full : Bool,
      ∃ (r : Req) (s : State), Held0 r s o st full ∧ ((s.slice 0).way 0).owner ≠ r.pkt.src ∧ s.gone ((s.slice 0).way 0).owner = false)
    ∧ (∃ (r : Req) (s : State), Held0 r s oRdShared 3 false ∧ ((s.slice 0).way 0).owner ≠ r.pkt.src ∧ s.gone ((s.slice 0).way 0).owner = true)
    ∧ (∀ o ∈ [oWrLine, oReclaim, oWbDirty, oEvictClean, oRdOnce, oRdShared, oRdOwn, oUpgrade, oWrPartial],
      ∃ (r : Req) (s : State), Held0 r s o 4 false) := by
  refine ⟨fun o ho full => ⟨ask o 5, oneLine { state := 1, sharers := slotsWord [5, 6] } full, held0 _ _ _ _ _ ?_, rfl⟩,
    ⟨ask oEvictClean 5, oneLine { state := 1, fmt := true, sharers := 1 } false, held0 _ _ _ _ _ (by decide +kernel), rfl⟩,
    fun o ho st hs full => ⟨ask o 6, oneLine { state := st, sharers := slotsWord [5] } full, held0 _ _ _ _ _ ?_, by decide +kernel +revert⟩,
    ⟨ask oRdShared 6, oneLine { state := 3, sharers := 0xFFE } false, held0 _ _ _ _ _ (by decide +kernel), by decide +kernel⟩,
    fun o ho => ⟨ask o 6, oneLine { state := 4, sharers := slotsWord [5] } false, held0 _ _ _ _ _ ?_⟩⟩
  · revert o; decide +kernel
  · revert o st; decide +kernel
  · revert o; decide +kernel

/-- Those that an invalidation asks. -/
abbrev live (s : State) (r : Req) : List Eid :=
  ((s.holders ((s.slice 0).way 0)).filter fun h => !(r.grants && h == r.pkt.src)).filter fun h => !s.gone h

/-- An invalidation of a line whose only sharer asks for it, with and without a free transaction, of one with another sharer, and of one that only the
host holds, whose link is down. -/
theorem witness_DirectoryRequests_invalidate :
    (∃ (r : Req) (s : State), Held0 r s oUpgrade 1 true ∧ r.grants = true)
    ∧ (∃ (r : Req) (s : State), Held0 r s oUpgrade 1 false ∧ live s r = [] ∧ ((s.slice 0).way 0).fmt = false ∧ r.pkt.src ∈ ((s.slice 0).way 0).slots)
    ∧ (∃ (r : Req) (s : State), Held0 r s oRdOwn 1 false ∧ live s r = [])
    ∧ (∃ (r : Req) (s : State), Held0 r s oUpgrade 1 false ∧ live s r ≠ [])
    ∧ (∃ (r : Req) (s : State), Held0 r s oWrLine 1 true ∧ live s r = [] ∧ r.grants = false)
    ∧ ∃ (r : Req) (s : State), Held0 r s oWrLine 1 false ∧ live s r = [] ∧ r.grants = false :=
  ⟨⟨ask oUpgrade 5, oneLine { state := 1, sharers := slotsWord [5] } true, held0 _ _ _ _ _ (by decide +kernel), by decide +kernel⟩,
   ⟨ask oUpgrade 5, oneLine { state := 1, sharers := slotsWord [5] } false, held0 _ _ _ _ _ (by decide +kernel), by decide +kernel⟩,
   ⟨ask oRdOwn 5, oneLine { state := 1, sharers := slotsWord [5] } false, held0 _ _ _ _ _ (by decide +kernel), by decide +kernel⟩,
   ⟨ask oUpgrade 5, oneLine { state := 1, sharers := slotsWord [5, 6] } false, held0 _ _ _ _ _ (by decide +kernel), by decide +kernel⟩,
   ⟨ask oWrLine 5, oneLine { state := 1, sharers := slotsWord [0xFFE] } true, held0 _ _ _ _ _ (by decide +kernel), by decide +kernel⟩,
   ⟨ask oWrLine 5, oneLine { state := 1, sharers := slotsWord [0xFFE] } false, held0 _ _ _ _ _ (by decide +kernel), by decide +kernel⟩⟩

/-- What an answer to a snoop of transaction 0 of slice 0 and its end may meet. -/
def snooping (v : Txn) (e : DirEntry) : State := { base with slices := [(0, { ways := [(0, e)], txns := [(0, v)] })] }

theorem witness_DirectoryRequests_answers :
    (∃ (p : Packet) (s : State), p.src ∈ ((s.slice (tagSlice p.tag)).txn (tagTxn p.tag)).wbWait)
    ∧ (∃ (p : Packet) (s : State) (v : Txn), v = (s.slice (tagSlice p.tag)).txn (tagTxn p.tag) ∧ p.src ∈ v.await ∧ p.src ∉ v.wbWait
      ∧ p.wbPending = true ∧ v.owner ((s.slice (tagSlice p.tag)).way v.way) = some p.src ∧ p.src ∉ v.wbDone)
    ∧ (∃ (p : Packet) (s : State) (v : Txn), v = (s.slice (tagSlice p.tag)).txn (tagTxn p.tag) ∧ p.src ∈ v.await ∧ p.src ∉ v.wbWait
      ∧ p.wbPending = false ∧ v.discard = false)
    ∧ (∃ (p : Packet) (s : State) (v : Txn), v = (s.slice (tagSlice p.tag)).txn (tagTxn p.tag) ∧ p.src ∈ v.await ∧ p.src ∉ v.wbWait
      ∧ p.wbPending = false ∧ v.discard = true)
    ∧ (∀ k ∈ [TxnKind.shareWait, .invWait, .evictWait], ∀ ab af : Bool, ∃ (s : State) (v : Txn), v = (s.slice 0).txn 0 ∧ v.await = [] ∧ v.kind = k
      ∧ v.aborted = ab ∧ v.after = af ∧ v.parked = none)
    ∧ (∃ (s : State) (v : Txn) (r : Req), v = (s.slice 0).txn 0 ∧ v.await = [] ∧ v.kind = .evictWait ∧ v.parked = some r)
    ∧ ∃ (s : State) (v : Txn), v = (s.slice 0).txn 0 ∧ v.await = [] ∧ v.kind = .invWait ∧ v.after = false ∧ v.aborted = true
      ∧ v.req.grants = true ∧ ((s.slice 0).way v.way).mayHold v.req.pkt.src = true :=
  ⟨⟨{ src := 5 }, snooping { kind := .invWait, await := [5], wbWait := [5] } {}, by decide +kernel⟩,
   ⟨{ src := 5, wbPending := true }, snooping { kind := .invWait, await := [5] } { state := 3, sharers := slotsWord [5] }, _, rfl, by decide +kernel⟩,
   ⟨{ src := 5 }, snooping { kind := .shareWait, await := [5] } { state := 3, sharers := slotsWord [5] }, _, rfl, by decide +kernel⟩,
   ⟨{ src := 5 }, snooping { kind := .invWait, await := [5], discard := true } { state := 3, sharers := slotsWord [5] }, _, rfl, by decide +kernel⟩,
   fun k hk ab af => ⟨snooping { kind := k, aborted := ab, after := af } {}, _, rfl, by revert k ab af; decide +kernel⟩,
   ⟨snooping { kind := .evictWait, parked := some {} } {}, _, {}, rfl, by decide +kernel⟩,
   ⟨snooping { kind := .invWait, aborted := true, req := ask oRdOwn 5 } { state := 1, sharers := slotsWord [5] }, _, rfl, by decide +kernel⟩⟩

/-- A row that is open and one that is not, a completion at a blacked-out channel, of a request and of a spill, and patrol steps. -/
theorem witness_ChannelRows_clauses :
    (∃ (n c b row : Nat) (s : State), tget none ((s.stack n).chan c).openRow b = some row)
    ∧ (∃ (n c b row : Nat) (s : State), tget none ((s.stack n).chan c).openRow b ≠ some row)
    ∧ (∀ bl : Bool, ∃ (n : Fin 8) (c : Fin 16) (r : Req) (l : List Req) (s : State), ((s.stack n.val).chan c.val).issued = r :: l
      ∧ ((s.stack n.val).chan c.val).blackout = bl ∧ r.org = .fab)
    ∧ (∃ (n : Fin 8) (c : Fin 16) (r : Req) (l : List Req) (s : State) (p : Nat) (q : BitVec 16) (h w : Bool), ((s.stack n.val).chan c.val).issued = r :: l
      ∧ ((s.stack n.val).chan c.val).blackout = false ∧ r.org = .spill p q h w)
    ∧ (∃ (n : Fin 8) (s : State), ((s.stack n.val).chan (lineChan (n.val * stackLines + (s.stack n.val).patrol))).blackout = false
      ∧ s.paceOk n.val = true)
    ∧ ∃ (n : Fin 8) (s : State), ((s.stack n.val).chan (lineChan (n.val * stackLines + (s.stack n.val).patrol))).blackout = false
      ∧ s.paceOk n.val = false :=
  ⟨⟨7, 15, 63, 32767, { base with stks := [(7, { chans := [(15, { openRow := [(63, some 32767)] })] })] }, by decide +kernel⟩,
   ⟨0, 0, 0, 0, base, by decide +kernel⟩,
   fun bl => ⟨7, 15, {}, [], { base with stks := [(7, { chans := [(15, { issued := [{}], blackout := bl })] })] }, by revert bl; decide +kernel⟩,
   ⟨7, 15, { org := .spill 16 0 false false }, [],
      { base with stks := [(7, { chans := [(15, { issued := [{ org := .spill 16 0 false false }] })] })] },
    16, 0, false, false, by decide +kernel⟩,
   ⟨7, { base with stks := [(7, { state := 2 })] }, by decide +kernel⟩,
   ⟨7, { base with stks := [(7, { state := 2, bgNext := 1 })] }, by decide +kernel⟩⟩

/-- Scrubbing, deltas and a rebuild's granule with the stack at hand and not. -/
theorem witness_GranuleRows_clauses :
    (∀ ok : Bool, ∃ (e : Fin 262144) (s : State), (s.ext e.val).state = 3 ∧ (s.ext e.val).scrub < (s.ext e.val).localSize
      ∧ s.granOk (s.extGran (s.ext e.val) (s.ext e.val).scrub) = ok)
    ∧ (∀ w : Bool, ∃ (i o : Nat) (s : State), s.lineWaits (s.extLine (s.ext i) ((s.ext i).local_ o)) = w)
    ∧ (∃ (l : Nat) (s : State), s.lineFailed l = true)
    ∧ (∀ ok : Bool, ∃ (i g : Nat) (s : State), s.granOk (s.extGran (s.ext i) ((s.ext i).local_ (g * 2 ^ 21) / 2 ^ 21)) = ok
      ∧ g + 1 ≠ (s.ext i).size.toNat)
    ∧ ∃ (i g : Nat) (s : State), s.granOk (s.extGran (s.ext i) ((s.ext i).local_ (g * 2 ^ 21) / 2 ^ 21)) = true ∧ g + 1 = (s.ext i).size.toNat :=
  ⟨fun ok => ⟨5, { base with exts := [(5, { state := 3, size := 1 })], stks := [(0, { state := 2, bgNext := if ok then 0 else 1 })] },
      by revert ok; decide +kernel⟩,
   fun w => ⟨5, 0, { base with exts := [(5, { state := 1, size := 1 })], stks := [(0, { state := 2, paused := w })] }, by revert w; decide +kernel⟩,
   ⟨0, { base with stks := [(0, { state := 5 })] }, by decide +kernel⟩,
   fun ok => ⟨5, 0, { base with exts := [(5, { state := 1, size := 2 })], stks := [(0, { state := 2, bgNext := if ok then 0 else 1 })] },
      by revert ok; decide +kernel⟩,
   ⟨5, 0, { base with exts := [(5, { state := 1, size := 1 })], stks := [(0, { state := 2 })] }, by decide +kernel⟩⟩

/-- What the read of a line with no error gives: a delta takes it. -/
theorem witness_GranuleRows_delta (hq : Quiet) : ∃ (l : Nat) (s : State), s.lineFailed l = false
    ∧ lineCls (clsOf (s.lineMeta l).mark (Config.pins s.now l).1) (clsOf (s.lineMeta l).mark (Config.pins s.now l).2) = .clean :=
  ⟨0, base, by decide +kernel, by simp only [hq _ _]; decide +kernel⟩

/-- A state with a poisoned line 0 and a group that has lost two members. -/
def spoiled : State := { base with prots := [(0, { used := true, lost := 0x0C })] }.markLine 0 .poison

/-- A poisoned parity line, whatever the interface gives, is neither clean nor corrected. -/
theorem witness_GranuleRows_poisoned : ∃ (l : Nat) (x : Ext) (s : State), s.lineFailed l = false
    ∧ (∀ a b : RawEcc, lineCls (clsOf (s.lineMeta l).mark a) (clsOf (s.lineMeta l).mark b) ≠ .clean
      ∧ lineCls (clsOf (s.lineMeta l).mark a) (clsOf (s.lineMeta l).mark b) ≠ .corrected)
    ∧ s.redundant x = false := by
  refine ⟨0, { parity := true }, spoiled, by decide +kernel, fun a b => ?_, by decide +kernel⟩
  rw [show (spoiled.lineMeta 0).mark = .poison by decide +kernel]
  cases a <;> cases b <;> simp [lineCls, clsOf]

/-- A latch with blocks left and the last one; a walk that keeps a line and one that does not. -/
theorem witness_LatchAndWalk_clauses :
    (∃ s : State, s.cnt.pending = true ∧ (s.latch (s.cnt.todo.filter fun b => decide (s.cnt.snapFt.toNat ≤ s.unitNs b))).cnt.todo ≠ [])
    ∧ (∃ s : State, s.cnt.pending = true ∧ (s.latch (s.cnt.todo.filter fun b => decide (s.cnt.snapFt.toNat ≤ s.unitNs b))).cnt.todo = [])
    ∧ (∃ w : Walk, w.kept = none) ∧ (∃ (w : Walk) (d : EDone), w.kept = some d) ∧ (∃ (w : Walk), w.restart = true)
    ∧ (∃ (w : Walk) (d : EDone), w.restart = false ∧ d.status = stOk)
    ∧ (∃ (j : Job) (b n : Nat), j.needs b n = none) ∧ ∃ (j : Job) (b n p : Nat) (a : BitVec 2), j.needs b n = some (p, a) :=
  ⟨⟨{ base with cnt := { pending := true, snapFt := 1, todo := [0] } }, by decide +kernel⟩,
   ⟨{ base with cnt := { pending := true, todo := [0] } }, by decide +kernel⟩, ⟨{}, rfl⟩, ⟨{ kept := some {} }, {}, rfl⟩, ⟨{ restart := true }, rfl⟩,
   ⟨{}, { status := stOk }, by decide +kernel⟩, ⟨{}, 0, 4096, by decide +kernel⟩, ⟨{ todo := [(0, 4096, 1)] }, 0, 4096, 0, 1, by decide +kernel⟩⟩

/-- The words of an entry that each row of its check names: the lowest reserved bit of each form, a table at level 0 and at level 3, a table of the
other kind, a host leaf of a pool table, and leaves that are aligned and not. -/
theorem witness_EntryFaults_rows :
    (∃ e : Word, pteV e = false) ∧ (∃ e : Word, pteV e = true ∧ ptePool e = true ∧ e.extractLsb' 59 5 ≠ 0)
    ∧ (∃ e : Word, pteV e = true ∧ ptePool e = false ∧ (e.extractLsb' 8 4 ≠ 0 ∨ e.extractLsb' 52 12 ≠ 0))
    ∧ (∃ e : Word, pteV e = true ∧ pteLeaf e = true) ∧ (∀ t : Bool, ∃ e : Word, pteV e = true ∧ pteLeaf e = false ∧ ptePool e = t)
    ∧ (∃ e : Word, pteV e = true ∧ pteLeaf e = true ∧ ptePool e = false)
    ∧ (∃ e : Word, pteV e = true ∧ ptePool e = true ∧ e.extractLsb' 59 5 = 0 ∧ pteLeaf e = false)
    ∧ (∃ e : Word, pteV e = true ∧ ptePool e = false ∧ e.extractLsb' 8 4 = 0 ∧ e.extractLsb' 52 12 = 0 ∧ pteLeaf e = false)
    ∧ (∃ e : Word, pteV e = true ∧ ptePool e = true ∧ e.extractLsb' 59 5 = 0 ∧ pteLeaf e = true ∧ (e.extractLsb' 32 27).toNat % 2 ^ 9 ≠ 0)
    ∧ (∃ e : Word, pteV e = true ∧ ptePool e = true ∧ e.extractLsb' 59 5 = 0 ∧ pteLeaf e = true ∧ (e.extractLsb' 32 27).toNat % 2 ^ 9 = 0)
    ∧ (∃ e : Word, pteV e = true ∧ ptePool e = false ∧ e.extractLsb' 8 4 = 0 ∧ e.extractLsb' 52 12 = 0 ∧ pteLeaf e = true
      ∧ (e.extractLsb' 12 40).toNat % 2 ^ 9 ≠ 0)
    ∧ ∃ e : Word, pteV e = true ∧ ptePool e = false ∧ e.extractLsb' 8 4 = 0 ∧ e.extractLsb' 52 12 = 0 ∧ pteLeaf e = true
      ∧ (e.extractLsb' 12 40).toNat % 2 ^ 9 = 0 :=
  ⟨⟨0, by decide⟩, ⟨5 ||| 1 <<< 59, by decide +kernel⟩, ⟨1 ||| 1 <<< 52, by decide +kernel⟩, ⟨3, by decide +kernel⟩,
   fun t => ⟨1 ||| (if t then 4 else 0), by revert t; decide +kernel⟩, ⟨3, by decide +kernel⟩, ⟨5, by decide +kernel⟩,
   ⟨1, by decide +kernel⟩, ⟨7 ||| 1 <<< 32, by decide +kernel⟩, ⟨7 ||| 1 <<< 41, by decide +kernel⟩,
   ⟨3 ||| 1 <<< 12, by decide +kernel⟩, ⟨3 ||| 1 <<< 21, by decide +kernel⟩⟩

/-- What a contribution meets: a form that is not allowed, an image that is being cleared, a window that is resident and one that is late. -/
def combining (c : Comb) (l : Tbl Land) : State :=
  { base with exts := [(9, { state := 1, size := 1, combine := true })], combs := [(0, c)], lands := l }

theorem witness_EngineRows_combine :
    (∃ (r : Req) (s : State), s.combOk (s.ext r.ext) r.pkt = false) ∧ (∃ c : Comb, c.valid = false) ∧ (∃ c : Comb, c.clearing = true)
    ∧ (∃ (r : Req) (s : State), s.combOk (s.ext r.ext) r.pkt = true ∧ r.pkt.opc = oRdOnce)
    ∧ (∃ (r : Req) (s : State) (t w : Nat), s.combOk (s.ext r.ext) r.pkt = true ∧ r.pkt.opc ≠ oRdOnce
      ∧ s.landing r.ext (s.comb (s.ext r.ext).protRef.toNat) r.pkt = some (t, w))
    ∧ ∃ (r : Req) (s : State), s.combOk (s.ext r.ext) r.pkt = true ∧ r.pkt.opc ≠ oRdOnce
      ∧ s.landing r.ext (s.comb (s.ext r.ext).protRef.toNat) r.pkt = none :=
  ⟨⟨{ ext := 9, pkt := { opc := oRdOnce, xh := 9, offset := 8, blen := 15 } }, combining { used := true, valid := true } [], by decide +kernel⟩,
   ⟨{}, rfl⟩, ⟨{ clearing := true }, rfl⟩,
   ⟨{ ext := 9, pkt := { opc := oRdOnce, xh := 9, blen := 15 } }, combining { used := true, valid := true } [], by decide +kernel⟩,
   ⟨{ ext := 9, pkt := { opc := oWrLine, xh := 9, blen := 127 } }, combining { used := true, valid := true } [(511, { v := true, ext := 9 })], 31, 15,
    by decide +kernel⟩,
   ⟨{ ext := 9, pkt := { opc := oWrLine, xh := 9, blen := 127 } },
    combining { used := true, valid := true } [(511, { v := true, ext := 9, late := true })], by decide +kernel⟩⟩

/-- A failing KAT with equal and unequal words; a NAK with no replay, one of a replay under way, and one after it; FAULT records and others; carried
commands and none; reasons of a refusal within and beyond those of the table. -/
theorem witness_rows_of_two_kinds :
    (∀ w : Bool, ∃ (b : BitVec 32) (c d : BitVec 64) (s : State), s.katFails b c d = w)
    ∧ (∃ (p : Nat) (s : State), (s.port p).replayAck = none)
    ∧ (∃ (p b t : Nat) (a : BitVec 16) (s : State), (s.port p).replayAck = some (BitVec.ofNat 16 b, t) ∧ BitVec.ofNat 16 b = a
      ∧ s.now < t + (s.port p).rtt.toNat)
    ∧ (∃ (p b t : Nat) (a : BitVec 16) (s : State), (s.port p).replayAck = some (BitVec.ofNat 16 b, t)
      ∧ (BitVec.ofNat 16 b ≠ a ∨ t + (s.port p).rtt.toNat ≤ s.now))
    ∧ (∃ r : NtfRec, r.kind ≠ 8) ∧ (∃ r : NtfRec, r.kind = 8)
    ∧ (∃ s : State, s.stew.step = .swCarry ∧ ∃ c ∈ s.cmds, c.carried = true) ∧ (∃ s : State, s.stew.step = .swCarry ∧ ∀ c ∈ s.cmds, c.carried = false)
    ∧ (∃ r : Byte, r.toNat = 10) ∧ (∃ r : Byte, r.toNat = 0) ∧ ∃ r : Byte, r.toNat = 11 :=
  ⟨fun w => ⟨0, 0, if w then 1 else 0, base, by revert w; decide +kernel⟩, ⟨16, base, by decide +kernel⟩,
   ⟨16, 5, 0, 5, { base with ports := [(16, { replayAck := some (5, 0), rtt := 1 })] }, by decide +kernel⟩,
   ⟨16, 5, 0, 6, { base with ports := [(16, { replayAck := some (5, 0), rtt := 1 })] }, by decide +kernel⟩,
   ⟨{}, by decide⟩, ⟨{ kind := 8 }, rfl⟩, ⟨{ base with stew := { step := .swCarry }, cmds := [{ carried := true }] }, by decide +kernel⟩,
   ⟨{ base with stew := { step := .swCarry }, cmds := [{}] }, by decide +kernel⟩, ⟨10, rfl⟩, ⟨0, rfl⟩, ⟨11, rfl⟩⟩

/-- A device in a step of an entry of D2 or D3. -/
def entering (p : PwrStep) (k : BitVec 3) (w : Bool) (r : Option (BitVec 16 × Byte)) : State :=
  { base with pwr := { base.pwr with pstep := p, target := k, wake := w, refuse := r } }

/-- Each outcome of steps 3, 4 and 6 of an entry: on, a wake, a refusal, and the two depths of step 6. -/
theorem witness_PowerStepRows_outcomes :
    (∀ o ∈ [(false, none), (true, none), (false, some ((0x17 : BitVec 16), (5 : Byte)))], ∃ s : State, s.coreUp = true ∧ s.pwr.pstep = .s3
      ∧ s.flushed = true ∧ s.pwr.wake = o.1 ∧ s.pwr.refuse = o.2)
    ∧ (∀ o ∈ [(false, none), (true, none), (false, some ((0x17 : BitVec 16), (5 : Byte)))], ∃ s : State, s.coreUp = true ∧ s.pwr.pstep = .s4
      ∧ s.drained = true ∧ s.pwr.wake = o.1 ∧ s.pwr.refuse = o.2)
    ∧ (∃ s : State, s.coreUp = true ∧ s.pwr.pstep = .s2 ∧ s.handshaken = false)
    ∧ (∀ k ∈ [(3 : BitVec 3), 4], ∃ s : State, s.coreUp = true ∧ s.pwr.pstep = .s6 ∧ s.pwr.wake = true ∧ s.pwr.target = k) :=
  ⟨fun o ho => ⟨entering .s3 2 o.1 o.2, by
    rcases (by simpa using ho : o = _ ∨ o = _ ∨ o = _) with rfl | rfl | rfl <;> decide +kernel⟩, fun o ho => ⟨entering .s4 2 o.1 o.2, by
    rcases (by simpa using ho : o = _ ∨ o = _ ∨ o = _) with rfl | rfl | rfl <;> decide +kernel⟩,
   ⟨entering .s2 2 false none, by decide +kernel⟩, fun k hk => ⟨entering .s6 k true none, by revert k; decide +kernel⟩⟩

/-- An Elder request that is no memory request, behind a request of its pair and alone; an originated request's end, of a schedule and of another. -/
theorem witness_Elder_and_ends :
    (∀ w : Bool, ∃ (p : Packet) (s : State), s.filtered p.src = true ∧ p.vc = false ∧ s.turn p = true ∧ isMemOpc p.opc = false
      ∧ (s.take p).2.pairHeld p.src = w)
    ∧ (∀ k ∈ [OrigKind.sched, .line], ∃ (r : BitVec 32) (o : OrigReq) (s : State), s.origs.find? (fun o => o.rtag == r) = some o ∧ o.kind = k) :=
  ⟨fun w => ⟨{ opc := oCtlRd, src := 5 }, { base with
      elder := { en := true, filter := true }, released := [{ pkt := { opc := oCtlRd, src := 5 } }]
      admHeld := if w then [{ pkt := { src := 5 } }] else [] }, by revert w; decide +kernel⟩,
   fun k hk => ⟨5, { rtag := 5, kind := k }, { base with origs := [{ rtag := 5, kind := k }] }, by revert k; decide +kernel⟩⟩

/-! ### Arithmetic (R126, R184) -/

/-- The rounding modes on 5 / 2, 7 / 2 and -5 / 2: to nearest even, to nearest away, to zero, up and down. -/
theorem test_rounding : [(0, false, 5), (0, false, 7), (1, false, 5), (2, false, 7), (3, true, 5), (3, false, 5), (4, true, 5), (4, false, 5)].map
    (fun (x : Nat × Bool × Nat) => ({ mode := x.1 } : Rnd).toGrid x.2.1 x.2.2 0 1) = [2, 4, 3, 3, 2, 3, 3, 2] := by decide +kernel

/-- Signed and unsigned minimum and maximum of 1 and -1 in 32 bits, and a compare-and-swap that does not swap. -/
theorem test_atomic : (atomicNew 6 32 1 0 0xFFFFFFFF, atomicNew 7 32 1 0 0xFFFFFFFF, atomicNew 8 32 1 0 0xFFFFFFFF, atomicNew 9 32 1 0 0xFFFFFFFF,
    atomicNew 5 32 1 2 3) = (0xFFFFFFFF, 1, 1, 0xFFFFFFFF, 1) := by decide +kernel

end Sys2Proof.Tests
end

namespace Sys2Proof.Machine
open Sys2Proof

/-! ## What no command changes

Every operation of the model is composed of updates of single entries of the state, so one law for each operation says what it leaves: the queue
of commands and what the fuses and straps hold (`State.Keeps`), or besides these the firmware slots, DRAM, the power registers and the vectors
(`State.Quiet`). The laws are `simp` lemmas in the order of the model's files; the law of an operation cites those of the operations it calls. -/

/-! ### The relations -/

/-- What the fuses, the straps and the vectors in flash hold (R4, R499, R520, R523, R532), the rest of the flash blank. -/
def Nv.permanent (n : Nv) : Nv :=
  { build := n.build, units := n.units, ceiling := n.ceiling, floor := n.floor, amplMax := n.amplMax, eidS := n.eidS, boardS := n.boardS
    addrS := n.addrS, seed := n.seed, fwKeyE := n.fwKeyE, fwKeyM := n.fwKeyM, vectors := n.vectors }

/-- The firmware slots of the flash, and which of the two runs. -/
def Nv.slots (n : Nv) : FwSlot × FwSlot × Bool := (n.fw0, n.fw1, n.slot)

/-- Two flashes hold the same in fuses, straps and vectors just when they agree field by field. -/
theorem Nv.permanent_eq_iff (m n : Nv) :
    m.permanent = n.permanent ↔
      m.build = n.build ∧ m.units = n.units ∧ m.ceiling = n.ceiling ∧ m.floor = n.floor ∧ m.amplMax = n.amplMax
        ∧ m.eidS = n.eidS ∧ m.boardS = n.boardS ∧ m.addrS = n.addrS ∧ m.seed = n.seed
        ∧ m.fwKeyE = n.fwKeyE ∧ m.fwKeyM = n.fwKeyM ∧ m.vectors = n.vectors := by
  simp [Nv.permanent]

/-- A write of the flash proper leaves fuses, straps and vectors. -/
@[simp] theorem Nv.permanent_flash (n : Nv) (dbgdis minSvn fw0 fw1 slot fatal fatalPrev cause caused resets remap timing) :
    Nv.permanent { n with
      dbgdis := dbgdis, minSvn := minSvn, fw0 := fw0, fw1 := fw1, slot := slot, fatal := fatal, fatalPrev := fatalPrev, cause := cause
      caused := caused, resets := resets, remap := remap, timing := timing } = n.permanent := rfl

/-- A write of the flash outside the firmware slots leaves them. -/
@[simp] theorem Nv.slots_log (n : Nv) (fatal fatalPrev cause caused resets remap timing) :
    Nv.slots { n with
      fatal := fatal, fatalPrev := fatalPrev, cause := cause, caused := caused, resets := resets, remap := remap, timing := timing }
      = n.slots := rfl

@[simp] theorem Nv.permanent_setOther (n : Nv) (f : FwSlot) : (n.setOther f).permanent = n.permanent := by
  unfold Nv.setOther
  split <;> rfl

@[simp] theorem Nv.permanent_switched (n : Nv) : n.switched.permanent = n.permanent := rfl

@[simp] theorem Nv.permanent_started (n : Nv) : n.started.permanent = n.permanent := rfl

/-- A state has another's queue, fuses and straps, firmware slots, DRAM, power registers and vectors. -/
abbrev State.Quiet (s t : State) : Prop :=
  t.pending = s.pending ∧ t.nv.permanent = s.nv.permanent ∧ t.nv.slots = s.nv.slots ∧ t.dram = s.dram ∧ t.pwr = s.pwr ∧ t.vectors = s.vectors

/-- A state has another's queue, fuses and straps. -/
abbrev State.Keeps (s t : State) : Prop := t.pending = s.pending ∧ t.nv.permanent = s.nv.permanent

theorem State.Quiet.trans {s t u : State} (h : s.Quiet t) (k : t.Quiet u) : s.Quiet u := by simp_all [Quiet]

theorem State.Keeps.trans {s t u : State} (h : s.Keeps t) (k : t.Keeps u) : s.Keeps u := by simp_all [Keeps]

theorem State.Quiet.keeps {s t : State} (h : s.Quiet t) : s.Keeps t := ⟨h.1, h.2.1⟩

/-- A relation between states that quiet changes before and after do not leave. -/
structure Absorbs (R : State → State → Prop) : Prop where
  refl (s : State) : R s s
  before {s t u : State} : s.Quiet t → R t u → R s u
  after {s t u : State} : R s t → t.Quiet u → R s u

theorem absorbs_quiet : Absorbs State.Quiet := ⟨fun _ => ⟨rfl, rfl, rfl, rfl, rfl, rfl⟩, State.Quiet.trans, State.Quiet.trans⟩

theorem absorbs_keeps : Absorbs State.Keeps := ⟨fun _ => ⟨rfl, rfl⟩, fun h => h.keeps.trans, fun h k => h.trans k.keeps⟩

/-! ### Branches and turns -/

section
variable (c : Prop) [Decidable c] (a b : State)
@[simp] theorem State.ite_pending : (if c then a else b).pending = if c then a.pending else b.pending := apply_ite State.pending c a b
@[simp] theorem State.ite_permanent : (if c then a else b).nv.permanent = if c then a.nv.permanent else b.nv.permanent :=
  apply_ite (fun s : State => s.nv.permanent) c a b
@[simp] theorem State.ite_slots : (if c then a else b).nv.slots = if c then a.nv.slots else b.nv.slots :=
  apply_ite (fun s : State => s.nv.slots) c a b
@[simp] theorem State.ite_dram : (if c then a else b).dram = if c then a.dram else b.dram := apply_ite State.dram c a b
@[simp] theorem State.ite_pwr : (if c then a else b).pwr = if c then a.pwr else b.pwr := apply_ite State.pwr c a b
@[simp] theorem State.ite_vectors : (if c then a else b).vectors = if c then a.vectors else b.vectors := apply_ite State.vectors c a b
end

@[simp] theorem State.ite_fst {α : Type} (c : Prop) [Decidable c] (a b : State × α) : (if c then a else b).1 = if c then a.1 else b.1 :=
  apply_ite Prod.fst c a b

@[simp] theorem State.ite_snd {α : Type} (c : Prop) [Decidable c] (a b : α × State) : (if c then a else b).2 = if c then a.2 else b.2 :=
  apply_ite Prod.snd c a b

@[simp] theorem Answer.ite_st (c : Prop) [Decidable c] (a b : Answer) : (if c then a else b).st = if c then a.st else b.st :=
  apply_ite Answer.st c a b

section
variable {α : Type} (s : State) (l : List α) (f : State → α → State)

@[simp] theorem State.foldl_quiet (h : ∀ (u : State) a, u.Quiet (f u a)) : s.Quiet (l.foldl f s) := by
  induction l generalizing s with
  | nil => simp [Quiet]
  | cons a l ih => exact (h s a).trans (ih (f s a))

@[simp] theorem State.each_quiet (h : ∀ (u : State) a, u.Quiet (f u a)) : s.Quiet (s.each l f) := s.foldl_quiet l f h

@[simp] theorem State.each_keeps (h : ∀ (u : State) a, u.Keeps (f u a)) : s.Keeps (s.each l f) := by
  unfold each
  induction l generalizing s with
  | nil => simp [Keeps]
  | cons a l ih => exact (h s a).trans (ih (f s a))
end

/-! ### What a row ends in -/

/-- An outcome, when it answers a next state, answers one with a property. -/
inductive Ends (P : State → Prop) : Host.Outcome State Fault Refusal → Prop
  | next {t : State} (h : P t) : Ends P (.next t)
  | fault (r : Fault) : Ends P (.fault r)
  | refused (r : Refusal) : Ends P (.refused r)

@[simp] theorem ends_next (P : State → Prop) (t : State) : Ends P (.next t) ↔ P t := ⟨fun | .next h => h, .next⟩

@[simp] theorem ends_fault (P : State → Prop) (r : Fault) : Ends P (.fault r) := .fault r

@[simp] theorem ends_ite (P : State → Prop) (c : Prop) [Decidable c] (a b : Host.Outcome State Fault Refusal) :
    Ends P (if c then a else b) ↔ if c then Ends P a else Ends P b := by
  split <;> rfl

theorem Ends.keeps {s : State} {o : Host.Outcome State Fault Refusal} : Ends s.Quiet o → Ends s.Keeps o
  | .next h => .next h.keeps
  | .fault r => .fault r
  | .refused r => .refused r

/-- A request that the directory serves, when it is not refused, is served in a state with a property. -/
inductive Served.Ends (P : State → Prop) : Served → Prop
  | ok {t : State} (h : P t) : Served.Ends P (.ok t)
  | error (b : BitVec 4) : Served.Ends P (.error b)

@[simp] theorem Served.ends_ok (P : State → Prop) (t : State) : Served.Ends P (.ok t) ↔ P t := ⟨fun | .ok h => h, .ok⟩

@[simp] theorem Served.ends_error (P : State → Prop) (b : BitVec 4) : Served.Ends P (.error b) := .error b

@[simp] theorem Served.ends_ite (P : State → Prop) (c : Prop) [Decidable c] (a b : Served) :
    Served.Ends P (if c then a else b) ↔ if c then Served.Ends P a else Served.Ends P b := by
  split <;> rfl

theorem Served.Ends.mono {P Q : State → Prop} (k : ∀ t, P t → Q t) {r : Served} : Served.Ends P r → Served.Ends Q r
  | .ok h => .ok (k _ h)
  | .error b => .error b

/-- A page-table entry that is used, whatever it is, is used in a state with a property. -/
inductive Used.Ends (P : State → Prop) : Used → Prop
  | fault {t : State} (h : P t) : Used.Ends P (.fault t)
  | table {t : State} (h : P t) : Used.Ends P (.table t)
  | leaf {t : State} (h : P t) : Used.Ends P (.leaf t)
  | full : Used.Ends P .full

@[simp] theorem Used.ends_fault (P : State → Prop) (t : State) : Used.Ends P (.fault t) ↔ P t := ⟨fun | .fault h => h, .fault⟩

@[simp] theorem Used.ends_table (P : State → Prop) (t : State) : Used.Ends P (.table t) ↔ P t := ⟨fun | .table h => h, .table⟩

@[simp] theorem Used.ends_leaf (P : State → Prop) (t : State) : Used.Ends P (.leaf t) ↔ P t := ⟨fun | .leaf h => h, .leaf⟩

@[simp] theorem Used.ends_full (P : State → Prop) : Used.Ends P .full := .full

@[simp] theorem Used.ends_ite (P : State → Prop) (c : Prop) [Decidable c] (a b : Used) :
    Used.Ends P (if c then a else b) ↔ if c then Used.Ends P a else Used.Ends P b := by
  split <;> rfl

/-- An access of a job that is issued, stalled or ended leaves a state with a property. -/
inductive Issue.Ends (P : State → Prop) : Issue → Prop
  | sent {t : State} (h : P t) : Issue.Ends P (.sent t)
  | stall {t : State} (h : P t) : Issue.Ends P (.stall t)
  | ended {t : State} (h : P t) : Issue.Ends P (.ended t)

@[simp] theorem Issue.ends_sent (P : State → Prop) (t : State) : Issue.Ends P (.sent t) ↔ P t := ⟨fun | .sent h => h, .sent⟩

@[simp] theorem Issue.ends_stall (P : State → Prop) (t : State) : Issue.Ends P (.stall t) ↔ P t := ⟨fun | .stall h => h, .stall⟩

@[simp] theorem Issue.ends_ended (P : State → Prop) (t : State) : Issue.Ends P (.ended t) ↔ P t := ⟨fun | .ended h => h, .ended⟩

@[simp] theorem Issue.ends_ite (P : State → Prop) (c : Prop) [Decidable c] (a b : Issue) :
    Issue.Ends P (if c then a else b) ↔ if c then Issue.Ends P a else Issue.Ends P b := by
  split <;> rfl

/-! ### The named operations -/

@[simp] theorem State.draw_quiet (s : State) (n : Nat) : s.Quiet (s.draw n).2 := by simp [Quiet, draw]

@[simp] theorem State.pushErr_quiet (s : State) (r0 : ErrRec) : s.Quiet (s.pushErr r0) := by simp [Quiet, pushErr]

@[simp] theorem State.countTo_quiet (s : State) (off n : Nat) : s.Quiet (s.countTo off n).1 := by simp [Quiet, countTo]

@[simp] theorem State.logErr_quiet (s : State) (r : ErrRec) : s.Quiet (s.logErr r) := by simp [Quiet, logErr]

@[simp] theorem State.bumpBy_quiet (s : State) (off n : Nat) : s.Quiet (s.bumpBy off n) := by simp [Quiet, bumpBy]

@[simp] theorem State.bump_quiet (s : State) (blk k : Nat) : s.Quiet (s.bump blk k) := by simp [Quiet, bump]

@[simp] theorem State.bin_quiet (s : State) (blk k : Nat) : s.Quiet (s.bin blk k) := by simp [Quiet, bin]

@[simp] theorem State.time_quiet (s : State) (blk k n : Nat) : s.Quiet (s.time blk k n) := by simp [Quiet, time]

@[simp] theorem State.event_quiet (s : State) (t : Nat) (r : NtfRec) : s.Quiet (s.event t r) := by simp [Quiet, event]

@[simp] theorem State.stewSend_quiet (s : State) (t : Nat) (r : NtfRec) : s.Quiet (s.stewSend t r) := by simp [Quiet, stewSend]

@[simp] theorem State.stewEvent_quiet (s : State) (r : NtfRec) : s.Quiet (s.stewEvent r) := by simp [Quiet, stewEvent]

@[simp] theorem State.lateEvents_quiet (s : State) : s.Quiet s.lateEvents := by simp [Quiet, lateEvents]

@[simp] theorem State.schedEvent_quiet (s : State) (cause : Nat) (imageId : Word) (place cycle : Nat) :
    s.Quiet (s.schedEvent cause imageId place cycle) := by
  simp [Quiet, schedEvent]

@[simp] theorem State.postFault_quiet (s : State) (p : Nat) (r : FaultRec) : s.Quiet (s.postFault p r) := by simp [Quiet, postFault]

@[simp] theorem State.extentFault_quiet (s : State) (p cause xh lines lowest : Nat) : s.Quiet (s.extentFault p cause xh lines lowest) := by
  simp [Quiet, extentFault]

@[simp] theorem State.storeLine_keeps (s : State) (l : Nat) (d : Line) (key : Option Nat) (tweak : Nat) : s.Keeps (s.storeLine l d key tweak) := by
  simp [Keeps, storeLine]

@[simp] theorem State.markLine_quiet (s : State) (l : Nat) (m : Mark) : s.Quiet (s.markLine l m) := by simp [Quiet, markLine]

/-! ### Sending (chapters 10 and 16) -/

@[simp] theorem State.modJob_quiet (s : State) (n k : Nat) (f : Job → Job) : s.Quiet (s.modJob n k f) := by simp [Quiet, modJob]

@[simp] theorem State.setWay_quiet (s : State) (q w : Nat) (e : DirEntry) : s.Quiet (s.setWay q w e) := by simp [Quiet, setWay]

@[simp] theorem State.setTxn_quiet (s : State) (q t : Nat) (v : Txn) : s.Quiet (s.setTxn q t v) := by simp [Quiet, setTxn]

@[simp] theorem State.modChan_quiet (s : State) (n c : Nat) (f : Chan → Chan) : s.Quiet (s.modChan n c f) := by simp [Quiet, modChan]

@[simp] theorem State.keepKey_quiet (s : State) (part : Nat) (e : Eid) (out vc : Bool) : s.Quiet (s.keepKey part e out vc) := by
  simp [Quiet, keepKey]

@[simp] theorem State.protect_quiet (s : State) (p : Packet) : s.Quiet (s.protect p).2 := by simp [Quiet, protect]

@[simp] theorem State.noteProt_quiet (s : State) (part : Nat) (p : Packet) : s.Quiet (s.noteProt part p) := by
  unfold noteProt
  dsimp only
  (repeat' split) <;> simp [Quiet]

@[simp] theorem State.sessionIn_quiet (s : State) (p : Packet) : s.Quiet (s.sessionIn p).1 := by simp [Quiet, sessionIn]

@[simp] theorem State.engDone_quiet (s : State) (n k inc : Nat) (d : EDone) : s.Quiet (s.engDone n k inc d) := by simp [Quiet, engDone]

@[simp] theorem State.schedDone_quiet (s : State) (n : Nat) (d : EDone) : s.Quiet (s.schedDone n d) := by simp [Quiet, schedDone]

@[simp] theorem State.walkDone_quiet (s : State) (n : Nat) (d : EDone) : s.Quiet (s.walkDone n d) := by simp [Quiet, walkDone]

@[simp] theorem State.origDone_quiet (s : State) (rtag : BitVec 32) (st : Status) (bo : BitVec 4) (data : Line) (old : Nat) :
    s.Quiet (s.origDone rtag st bo data old) := by
  unfold origDone
  split <;> simp [Quiet]

@[simp] theorem State.lostAtUnit_quiet (s : State) (p : Packet) (st : Status) : s.Quiet (s.lostAtUnit p st) := by simp [Quiet, lostAtUnit]

@[simp] theorem State.toHost_quiet (s : State) (p0 : Packet) : s.Quiet (s.toHost p0) := by simp [Quiet, toHost]

@[simp] theorem State.send_quiet (s : State) (pref : List Nat) (p : Packet) : s.Quiet (s.send pref p) := by
  unfold send
  (repeat' split) <;> simp [Quiet]

@[simp] theorem State.closeBatches_quiet (s : State) (k : Nat) : s.Quiet (s.closeBatches k) := by simp [Quiet, closeBatches]

@[simp] theorem State.reply_quiet (s : State) (r : Req) (home : Option Nat) (p : Packet) : s.Quiet (s.reply r home p) := by simp [Quiet, reply]

/-! ### Replies and the journal -/

@[simp] theorem State.note_quiet (s : State) (token : Nat) (kind : JKind) : s.Quiet (s.note token kind) := by simp [Quiet, note]

@[simp] theorem State.noteFor_quiet (s : State) (w : Wait) : s.Quiet (s.noteFor w) := by simp [Quiet, noteFor]

@[simp] theorem State.failCmd_quiet (s : State) (token status detail : Nat) (result : BitVec 1920) :
    s.Quiet (s.failCmd token status detail result) := by
  simp [Quiet, failCmd]

@[simp] theorem State.wakeFail_quiet (s : State) (w : Wait) (status : Nat) : s.Quiet (s.wakeFail w status) := by simp [Quiet, wakeFail]

/-! ### The memory stage -/

@[simp] theorem State.joinFlow_quiet (s : State) (n : Nat) (r0 : Req) : s.Quiet (s.joinFlow n r0) := by simp [Quiet, joinFlow]

@[simp] theorem State.enqueue_quiet (s : State) (r : Req) : s.Quiet (s.enqueue r) := by simp [Quiet, enqueue]

@[simp] theorem State.refill_quiet (s : State) (n : Nat) (l : List Req) : s.Quiet (s.refill n l) := by fun_induction refill <;> simp_all [Quiet]

@[simp] theorem State.groupSend_quiet (s : State) (m : Nat) (tc : Option (Fin 8)) (g : GroupMsg) : s.Quiet (s.groupSend m tc g) := by
  simp [Quiet, groupSend]

@[simp] theorem State.postFwd_quiet (s : State) (r : Req) (f : Fwd) : s.Quiet (s.postFwd r f) := by simp [Quiet, postFwd]

@[simp] theorem State.forward_quiet (s : State) (r : Req) (l : List (Nat × Bool)) (was new data : Line) (old : Nat) :
    s.Quiet (s.forward r l was new data old) := by
  simp [Quiet, forward]

@[simp] theorem State.forwardWhole_quiet (s : State) (r : Req) (m : Nat) : s.Quiet (s.forwardWhole r m) := by simp [Quiet, forwardWhole]

@[simp] theorem State.forwardAgain_quiet (s : State) : s.Quiet s.forwardAgain := by simp [Quiet, forwardAgain]

@[simp] theorem State.dataLost_quiet (s : State) (idx lines lowest : Nat) : s.Quiet (s.dataLost idx lines lowest) := by simp [Quiet, dataLost]

@[simp] theorem State.groupEvent_quiet (s : State) (idx cause slot : Nat) : s.Quiet (s.groupEvent idx cause slot) := by simp [Quiet, groupEvent]

@[simp] theorem State.leave_quiet (s : State) (r : Req) : s.Quiet (s.leave r) := by simp [Quiet, leave]

@[simp] theorem State.enter_quiet (s : State) (r : Req) : s.Quiet (s.enter r).2 := by simp [Quiet, enter]

@[simp] theorem State.deliver_quiet (s : State) (r : Req) (st0 : Status) (data : Line) (old : Nat) (bo : BitVec 4) (rsv : Bool) :
    s.Quiet (s.deliver r st0 data old bo rsv) := by
  unfold deliver
  dsimp only
  split <;> simp [Quiet]

@[simp] theorem State.finish_quiet (s : State) (r : Req) (st : Status) (data : Line) (old : Nat) : s.Quiet (s.finish r st data old) := by
  simp [Quiet, finish]

@[simp] theorem State.nack_quiet (s : State) (r : Req) (bo : BitVec 4) (rsv : Bool) : s.Quiet (s.nack r bo rsv) := by simp [Quiet, nack]

/-! ### The directory -/

@[simp] theorem State.touch_quiet (s : State) (q w : Nat) : s.Quiet (s.touch q w) := by simp [Quiet, touch]

@[simp] theorem State.snoop_quiet (s : State) (q t : Nat) (opc : Byte) (a : Nat) (req : Option Req) (cid : Cid) (tc : Fin 8) (dst : List Eid) :
    s.Quiet (s.snoop q t opc a req cid tc dst) := by
  simp [Quiet, snoop]

@[simp] theorem State.openTxn_quiet (s : State) (q t w : Nat) (v : Txn) : s.Quiet (s.openTxn q t w v) := by simp [Quiet, openTxn]

@[simp] theorem State.freeWay_quiet (s : State) (q w : Nat) : s.Quiet (s.freeWay q w) := by simp [Quiet, freeWay]

@[simp] theorem State.dropTxn_quiet (s : State) (q t : Nat) : s.Quiet (s.dropTxn q t) := by simp [Quiet, dropTxn]

@[simp] theorem State.settle_quiet (s : State) (q t w : Nat) (e : DirEntry) : s.Quiet (s.settle q t w e) := by simp [Quiet, settle]

@[simp] theorem State.meetScan_quiet (s : State) (q w : Nat) : s.Quiet (s.meetScan q w) := by simp [Quiet, meetScan]

@[simp] theorem State.meetLine_quiet (s : State) (q a : Nat) : s.Quiet (s.meetLine q a) := by
  unfold meetLine
  split <;> simp [Quiet]

@[simp] theorem State.binvWay_quiet (s0 : State) (q w : Nat) : s0.Quiet (s0.binvWay q w) := by
  unfold binvWay
  dsimp only
  split <;> simp [Quiet]

@[simp] theorem State.sweepsDone_quiet (s : State) : s.Quiet s.sweepsDone := by
  simp only [sweepsDone]
  refine Quiet.trans ?_ (each_quiet _ _ _ fun u w => ?_)
  · simp [Quiet]
  · split <;> simp [Quiet]

@[simp] theorem State.sweep_quiet (s : State) (q : Nat) : s.Quiet (s.sweep q) := by simp [Quiet, sweep]

@[simp] theorem State.sweepAll_quiet (s : State) : s.Quiet s.sweepAll := by simp [Quiet, sweepAll]

@[simp] theorem State.grant_quiet (s : State) (q t : Nat) (r : Req) (next : BitVec 3) (nodata : Bool) (data : Line) :
    s.Quiet (s.grant q t r next nodata data) := by
  simp [Quiet, grant]

@[simp] theorem State.fetched_quiet (s : State) (q t : Nat) (r : Req) (st0 : Status) (data : Line) : s.Quiet (s.fetched q t r st0 data) := by
  simp [Quiet, fetched]

@[simp] theorem State.stepDone_quiet (s : State) (k : Nat) (st : Status) : s.Quiet (s.stepDone k st) := by
  unfold stepDone
  split <;> simp [Quiet]

@[simp] theorem State.endReq_quiet (s : State) (r : Req) (st : Status) (data : Line) (old : Nat) : s.Quiet (s.endReq r st data old) := by
  unfold endReq
  split <;> simp [Quiet]

@[simp] theorem State.endFwd_quiet (s : State) (r : Req) (was new data : Line) (old : Nat) : s.Quiet (s.endFwd r was new data old) := by
  unfold endFwd
  split <;> simp [Quiet]

@[simp] theorem State.forwarded_quiet (s : State) : s.Quiet s.forwarded := by simp [Quiet, forwarded]

@[simp] theorem State.forwardNot_quiet (s : State) (m : Nat) : s.Quiet (s.forwardNot m) := by simp [Quiet, forwardNot]

@[simp] theorem State.toDram_quiet (s : State) (r : Req) : s.Quiet (s.toDram r) := by
  unfold toDram
  dsimp only
  (repeat' split) <;> simp [Quiet]

@[simp] theorem State.writeBack_quiet (s : State) (a : Nat) (cid : Cid) (d : Line) : s.Quiet (s.writeBack a cid d) := by simp [Quiet, writeBack]

@[simp] theorem State.fetch_quiet (s : State) (q t w : Nat) (r : Req) (next : BitVec 3) : s.Quiet (s.fetch q t w r next) := by simp [Quiet, fetch]

@[simp] theorem State.direct_quiet (s : State) (r : Req) : s.Quiet (s.direct r) := by simp [Quiet, direct]

@[simp] theorem State.allocate_quiet (s : State) (q : Nat) (r : Req) : Served.Ends s.Quiet (s.allocate q r) := by
  unfold allocate
  dsimp only
  split
  · simp
  · split
    · simp [Quiet]
    · split
      · simp
      · simp [Quiet]

@[simp] theorem State.serveI_quiet (s : State) (q : Nat) (r : Req) : Served.Ends s.Quiet (s.serveI q r) := by simp [Quiet, serveI]

@[simp] theorem State.invalidated_quiet (s : State) (q t w : Nat) (r : Req) : s.Quiet (s.invalidated q t w r) := by simp [Quiet, invalidated]

@[simp] theorem State.serveInv_quiet (s : State) (q w : Nat) (r : Req) : Served.Ends s.Quiet (s.serveInv q w r) := by
  unfold serveInv
  dsimp only
  split <;> simp [Quiet]

@[simp] theorem State.serveHeld_quiet (s : State) (q w : Nat) (r : Req) : Served.Ends s.Quiet (s.serveHeld q w r) := by
  have back : Served.Ends s.Quiet ((s.freeWay q w).serveI q r) :=
    ((s.freeWay q w).serveI_quiet q r).mono fun _ => Quiet.trans (by simp [Quiet])
  unfold serveHeld
  dsimp only
  split
  · simp [back, Quiet]
  · split_ifs <;> try split
    all_goals simp [Quiet]

@[simp] theorem State.serveOrphan_quiet (s : State) (r : Req) : Served.Ends s.Quiet (s.serveOrphan r) := by simp [Quiet, serveOrphan]

@[simp] theorem State.serve_quiet (s : State) (q : Nat) (r : Req) : Served.Ends s.Quiet (s.serve q r) := by
  unfold serve
  split
  · simp
  · simp

@[simp] theorem State.dirNack_quiet (s : State) (q : Nat) (r : Req) (bo : BitVec 4) : s.Quiet (s.dirNack q r bo) := by simp [Quiet, dirNack]

@[simp] theorem State.dropResv_quiet (s : State) (r : Req) : s.Quiet (s.dropResv r) := by simp [Quiet, dropResv]

@[simp] theorem State.takeResv_quiet (s : State) (q : Nat) (r : Req) : s.Quiet (s.takeResv q r) := by simp [Quiet, takeResv]

@[simp] theorem State.serveParked_quiet (s : State) (q : Nat) (r : Req) : s.Quiet (s.serveParked q r) := by
  have met := s.meetLine_quiet q r.line
  unfold serveParked
  dsimp only
  generalize s.meetLine q r.line = u at met ⊢
  split
  · exact met.trans (u.dirNack_quiet ..)
  · have served := u.serve_quiet q r
    split
    · next t h => exact met.trans ((Served.ends_ok u.Quiet t).mp (h ▸ served))
    · exact met.trans (u.dirNack_quiet ..)

@[simp] theorem State.predict_quiet (s : State) (q : Nat) (r : Req) : s.Quiet (s.predict q r).2 := by simp [Quiet, predict]

@[simp] theorem State.settleTxn_quiet (s : State) (q t : Nat) : s.Quiet (s.settleTxn q t) := by
  unfold settleTxn
  dsimp only
  (repeat' split) <;> simp [Quiet]

@[simp] theorem State.wbOpen_quiet (s : State) (q t : Nat) (r : Req) : s.Quiet (s.wbOpen q t r) := by simp [Quiet, wbOpen]

@[simp] theorem State.dirRequest_quiet (s : State) (r : Req) : s.Quiet (s.dirRequest r) := by
  unfold dirRequest
  dsimp only
  split
  · simp [Quiet]
  · generalize hp : (if r.org = .fab && r.pkt.opc = oAtomic && s.isAgent r.pkt.src then s.predict (lineQuad r.line) r else (false, s)) = p
    have guess : s.Quiet p.2 := by simp [← hp, Quiet]
    split
    · split
      · split <;> simp_all [Quiet]
      · simp_all [Quiet]
    · split
      · simp_all [Quiet]
      · have served := (p.2.meetLine (lineQuad r.line) r.line).serve_quiet (lineQuad r.line) { r with atReq := p.1 }
        split
        · simp_all [Quiet]
        · split <;> simp_all [Quiet]

@[simp] theorem State.snoopAnswer_quiet (s : State) (p : Packet) (data : Option Line) : s.Quiet (s.snoopAnswer p data) := by
  unfold snoopAnswer
  split <;> simp [Quiet]

@[simp] theorem State.grantAcked_quiet (s : State) (p : Packet) : s.Quiet (s.grantAcked p) := by simp [Quiet, grantAcked]

@[simp] theorem State.logSilent_quiet (s : State) (q : Nat) (opc : Byte) (a : Nat) (e : Eid) : s.Quiet (s.logSilent q opc a e) := by
  simp [Quiet, logSilent]

@[simp] theorem State.txnTimeout_quiet (s : State) (q t : Nat) : s.Quiet (s.txnTimeout q t) := by
  unfold txnTimeout
  dsimp only
  (repeat' split) <;> simp [Quiet]

@[simp] theorem State.hostSlotGone_quiet (s : State) (q t : Nat) : s.Quiet (s.hostSlotGone q t) := by simp [Quiet, hostSlotGone]

@[simp] theorem State.hostGoneTxn_quiet (s0 : State) (q t : Nat) : s0.Quiet (s0.hostGoneTxn q t) := by
  unfold hostGoneTxn
  dsimp only
  (repeat' split) <;> simp [Quiet]

@[simp] theorem State.hostBack_quiet (s : State) (h : Held) : s.Quiet (s.hostBack h) := by simp [Quiet, hostBack]

@[simp] theorem State.hostGone_quiet (s : State) : s.Quiet s.hostGone := by simp [Quiet, hostGone]

@[simp] theorem State.scanWay_quiet (s : State) (q w : Nat) : s.Quiet (s.scanWay q w) := by simp [Quiet, scanWay]

@[simp] theorem State.scanDone_quiet (s : State) (q : Nat) : s.Quiet (s.scanDone q) := by simp [Quiet, scanDone]

@[simp] theorem State.abortTxns_quiet (s : State) (part : Nat) : s.Quiet (s.abortTxns part) := by
  simp only [abortTxns]
  refine each_quiet _ _ _ fun u q => each_quiet _ _ _ fun v t => ?_
  split
  · simp [Quiet]
  · simp [Quiet]
  · split <;> simp [Quiet]
  · simp [Quiet]

/-! ### Combine units -/

@[simp] theorem State.dramPath_quiet (s : State) (r : Req) (c : Comb) : s.Quiet (s.dramPath r c) := by simp [Quiet, dramPath]

@[simp] theorem State.lateCount_quiet (s : State) (ext : Nat) (c : Comb) (p : Packet) : s.Quiet (s.lateCount ext c p) := by
  unfold lateCount
  split <;> simp [Quiet]

@[simp] theorem State.combine_quiet (s : State) (r : Req) : s.Quiet (s.combine r) := by
  unfold combine
  dsimp only
  (repeat' split) <;> simp [Quiet]

@[simp] theorem State.mergeNext_quiet (s : State) (t w : Nat) : s.Quiet (s.mergeNext t w) := by
  unfold mergeNext
  dsimp only
  (repeat' split) <;> simp [Quiet]

@[simp] theorem State.releaseWin_quiet (s : State) (t w : Nat) : s.Quiet (s.releaseWin t w) := by simp [Quiet, releaseWin]

@[simp] theorem State.dropWin_quiet (s : State) (t w : Nat) : s.Quiet (s.dropWin t w) := by simp [Quiet, dropWin]

@[simp] theorem State.absorbOne_quiet (s : State) (n w : Nat) (r : Req) : s.Quiet (s.absorbOne n w r) := by simp [Quiet, absorbOne]

@[simp] theorem execLandingAbsorb_quiet (tile : Fin 32) (s : State) : Ends s.Quiet (execLandingAbsorb tile s) := by
  unfold execLandingAbsorb
  split <;> simp [State.Quiet]

/-! ### Operations of the links -/

@[simp] theorem State.queueOn_quiet (s : State) (p t : Nat) (pkt : Packet) (demoted : Bool) (inp : Option (Fin 4)) :
    s.Quiet (s.queueOn p t pkt demoted inp) := by
  simp [Quiet, queueOn]

@[simp] theorem State.spillHalf_quiet (s : State) (p : Nat) (f : TxFlit) (write h : Bool) : s.Quiet (s.spillHalf p f write h) := by
  unfold spillHalf
  split <;> simp [Quiet]

@[simp] theorem State.spillReq_quiet (s : State) (p : Nat) (f : TxFlit) (write : Bool) : s.Quiet (s.spillReq p f write) := by simp [Quiet, spillReq]

@[simp] theorem State.readBack_quiet (s : State) (p : Nat) : s.Quiet (s.readBack p) := by
  unfold readBack
  dsimp only
  (repeat' split) <;> simp [Quiet]

@[simp] theorem State.startReplay_quiet (s : State) (p : Nat) : s.Quiet (s.startReplay p) := by simp [Quiet, startReplay]

@[simp] theorem State.cancelSpill_quiet (s : State) (p : Nat) (gone : BitVec 16 → Bool) : s.Quiet (s.cancelSpill p gone) := by
  simp [Quiet, cancelSpill]

@[simp] theorem State.protoErr_quiet (s : State) (p : Nat) : s.Quiet (s.protoErr p) := by simp [Quiet, protoErr]

theorem State.applyAck_quiet {s t : State} {p : Nat} {ack : BitVec 16} (h : s.applyAck p ack = some t) : s.Quiet t := by
  simp only [applyAck] at h
  split at h
  · simp at h
  · obtain rfl := Option.some.inj h
    simp [Quiet]

@[simp] theorem State.applyHeader_quiet (s : State) (p : Nat) (f : Flit) : s.Quiet (s.applyHeader p f) := by
  unfold applyHeader
  split
  · simp [Quiet]
  · next t h =>
    have acked := applyAck_quiet h
    split <;> simp_all [Quiet]

@[simp] theorem State.holdover_quiet (s : State) : s.Quiet s.holdover := by simp [Quiet, holdover]

@[simp] theorem State.synth_quiet (s : State) (d : Nat) (p : Packet) : s.Quiet (s.synth d p) := by
  unfold synth
  split <;> simp [Quiet]

@[simp] theorem State.dropPacket_quiet (s : State) (d : Nat) (p : Packet) : s.Quiet (s.dropPacket d p).1 := by simp [Quiet, dropPacket]

@[simp] theorem State.drainCheck_quiet (s : State) (d : Nat) : s.Quiet (s.drainCheck d) := by simp [Quiet, drainCheck]

@[simp] theorem State.heldLost_quiet (s : State) (d : Nat) : s.Quiet (s.heldLost d) := by simp [Quiet, heldLost]

@[simp] theorem State.hostReqDone_quiet (s : State) (q : HostReq) (st : Status) (data : Line) : s.Quiet (s.hostReqDone q st data) := by
  unfold hostReqDone
  split <;> simp [Quiet]

@[simp] theorem State.qoreusLost_quiet (s : State) : s.Quiet s.qoreusLost := by simp [Quiet, qoreusLost]

@[simp] theorem State.retrainEnded_quiet (s : State) (p : Nat) : s.Quiet (s.retrainEnded p) := by simp [Quiet, retrainEnded]

@[simp] theorem State.dropPackets_quiet (d : Nat) (l : List Packet) (a : State × Nat) :
    a.1.Quiet (l.foldl (fun a k => ((a.1.dropPacket d k).1, a.2 + b2n (a.1.dropPacket d k).2)) a).1 := by
  induction l generalizing a with
  | nil => simp [Quiet]
  | cons k l ih => exact (a.1.dropPacket_quiet d k).trans (ih _)

@[simp] theorem State.linkDown_quiet (s : State) (p : Nat) (cause : BitVec 4) : s.Quiet (s.linkDown p cause) := by
  simp [linkDown, Quiet]

@[simp] theorem State.hostTimers_quiet (s : State) : s.Quiet s.hostTimers := by
  unfold hostTimers
  split <;> simp [Quiet]

theorem State.resumeHeader_quiet {s t : State} {p : Nat} {h : BitVec 16 × List (Nat × BitVec 16)} (hr : s.resumeHeader p h = some t) :
    s.Quiet t := by
  unfold resumeHeader at hr
  split at hr
  · simp at hr
  · next u ha =>
    have acked := applyAck_quiet ha
    obtain ⟨x, -, rfl⟩ := Option.map_eq_some_iff.mp hr
    simp_all [Quiet]

@[simp] theorem State.resumed_quiet (s : State) (p : Nat) (h : BitVec 16 × List (Nat × BitVec 16)) : s.Quiet (s.resumed p h) := by
  unfold resumed
  split
  · simp [Quiet]
  · next t ht => exact (resumeHeader_quiet ht).trans (by simp [Quiet])

@[simp] theorem State.retrain_quiet (s : State) (p : Nat) (cause : BitVec 4) : s.Quiet (s.retrain p cause) := by simp [Quiet, retrain]

/-! ### Pair sequencing and the limiter -/

@[simp] theorem State.stray_quiet (s : State) (h : Held) : s.Quiet (s.stray h) := by simp [Quiet, stray]

@[simp] theorem State.handOn_quiet (s : State) (h : Held) : s.Quiet (s.handOn h) := by simp [Quiet, handOn]

@[simp] theorem State.take_quiet (s : State) (p : Packet) : s.Quiet (s.take p).2 := by
  unfold take
  split <;> simp [Quiet]

@[simp] theorem State.limiter_quiet (s : State) (h : Held) : s.Quiet (s.limiter h) := by simp [Quiet, limiter]

@[simp] theorem State.limiterGo_quiet (s : State) (e : Eid) (n : Nat) : s.Quiet (s.limiterGo e n) := by
  induction n generalizing s with
  | zero => simp [limiterGo, Quiet]
  | succ n ih =>
    simp only [limiterGo]
    split
    · simp [Quiet]
    · simp [Quiet, ih]

@[simp] theorem execLimiterRelease_quiet (eid : Eid) (s : State) : Ends s.Quiet (execLimiterRelease eid s) := by
  simp [State.Quiet, execLimiterRelease]

@[simp] theorem State.releasePkt_quiet (s : State) (p : Packet) (die : Nat) : s.Quiet (s.releasePkt p die) := by simp [Quiet, releasePkt]

@[simp] theorem State.pairAccept_quiet (s : State) (k : Nat) (p : Packet) (die : Nat) : s.Quiet (s.pairAccept k p die) := by
  simp [Quiet, pairAccept]

@[simp] theorem State.pairIn_quiet (s : State) (p : Packet) (die : Nat) : s.Quiet (s.pairIn p die) := by simp [Quiet, pairIn]

@[simp] theorem State.synIn_quiet (s : State) (p : Packet) (die : Nat) : s.Quiet (s.synIn p die) := by simp [Quiet, synIn]

/-! ### The keeper -/

@[simp] theorem State.gateMove_quiet (s : State) (p : Nat) (l : List GateEntry) (i t : Nat) : s.Quiet (s.gateMove p l i t) := by
  simp [Quiet, gateMove]

@[simp] theorem State.gatesOpen_quiet (s : State) : s.Quiet s.gatesOpen := by simp [Quiet, gatesOpen]

@[simp] theorem State.abandonArm_quiet (s : State) (status : Nat) : s.Quiet (s.abandonArm status) := by
  unfold abandonArm
  dsimp only
  split <;> simp [Quiet]

@[simp] theorem State.freeSched_quiet (s : State) : s.Quiet s.freeSched := by simp [Quiet, freeSched]

@[simp] theorem State.endLands_quiet (s : State) : s.Quiet s.endLands := by simp [Quiet, endLands]

@[simp] theorem State.syncLoss_quiet (s0 : State) : s0.Quiet s0.syncLoss := by simp [Quiet, syncLoss]

@[simp] theorem State.keeperLost_quiet (s : State) : s.Quiet s.keeperLost := by simp [Quiet, keeperLost]

@[simp] theorem State.tsx_keeps (s0 : State) (p : Nat) (x : TsxBody) (arrival : BitVec 80) : s0.Keeps (s0.tsx p x arrival) := by simp [Keeps, tsx]

@[simp] theorem execTsx_keeps (port : Fin 17) (x : TsxBody) (arrival : BitVec 80) (s : State) : Ends s.Keeps (execTsx port x arrival s) := by
  simp [State.Keeps, execTsx]

@[simp] theorem execTsxSend_quiet (port : Fin 17) (s : State) : Ends s.Quiet (execTsxSend port s) := by simp [State.Quiet, execTsxSend]

@[simp] theorem execKeeperLock_quiet (s : State) : Ends s.Quiet (execKeeperLock s) := by simp [State.Quiet, execKeeperLock]

@[simp] theorem execKeeperOffsetLoss_quiet (s : State) : Ends s.Quiet (execKeeperOffsetLoss s) := by simp [State.Quiet, execKeeperOffsetLoss]

@[simp] theorem execHoldoverExpire_quiet (s : State) : Ends s.Quiet (execHoldoverExpire s) := by simp [State.Quiet, execHoldoverExpire]

@[simp] theorem execFtCorrectionBroadcast_quiet (s : State) : Ends s.Quiet (execFtCorrectionBroadcast s) := by
  simp [State.Quiet, execFtCorrectionBroadcast]

/-! ### Jobs -/

@[simp] theorem State.offerRec_quiet (s : State) (n k : Nat) : s.Quiet (s.offerRec n k) := by
  unfold offerRec
  dsimp only
  (repeat' split) <;> simp [Quiet]

@[simp] theorem State.leaveEngine_quiet (s : State) (n k : Nat) : s.Quiet (s.leaveEngine n k) := by simp [Quiet, leaveEngine]

@[simp] theorem State.slotFree_quiet (s : State) (n k : Nat) : s.Quiet (s.slotFree n k) := by simp [Quiet, slotFree]

@[simp] theorem State.handOff_quiet (s : State) (n k : Nat) : s.Quiet (s.handOff n k) := by simp [Quiet, handOff]

@[simp] theorem State.tryEnd_quiet (s : State) (n k : Nat) : s.Quiet (s.tryEnd n k) := by simp [Quiet, tryEnd]

@[simp] theorem State.endJob_quiet (s : State) (n k : Nat) (cause : Byte) (st : Status) (stage : Nat) (pva : BitVec 48) (rec : Option FaultRec) :
    s.Quiet (s.endJob n k cause st stage pva rec) := by
  simp [Quiet, endJob]

@[simp] theorem State.rouse_quiet (s : State) (n : Nat) : s.Quiet (s.rouse n) := by simp [Quiet, rouse]

@[simp] theorem State.tryStop_quiet (s : State) (n k : Nat) : s.Quiet (s.tryStop n k) := by
  unfold tryStop
  dsimp only
  (repeat' split) <;> simp [Quiet]

@[simp] theorem State.endRun_quiet (s : State) (n k : Nat) (cause : Byte) (st : Status) (stage : Nat) (pva : BitVec 48) (rec : Option FaultRec) :
    s.Quiet (s.endRun n k cause st stage pva rec) := by
  simp [Quiet, endRun]

@[simp] theorem State.safePoint_quiet (s : State) (n k : Nat) : s.Quiet (s.safePoint n k) := by
  unfold safePoint
  dsimp only
  split <;> simp [Quiet]

@[simp] theorem State.askStop_quiet (s : State) (n : Nat) (c : StopCause) : s.Quiet (s.askStop n c) := by
  unfold askStop
  split <;> simp [Quiet]

@[simp] theorem State.cancelJob_quiet (s : State) (n k : Nat) (c : Byte) : s.Quiet (s.cancelJob n k c) := by
  unfold cancelJob
  dsimp only
  split <;> simp [Quiet]

@[simp] theorem State.failJob_quiet (s : State) (n k : Nat) (st : Status) (stage : Nat) (pva : BitVec 48) :
    s.Quiet (s.failJob n k st stage pva) := by
  unfold failJob
  dsimp only
  split <;> simp [Quiet]

@[simp] theorem State.unpark_quiet (s : State) (n : Nat) : s.Quiet (s.unpark n) := by
  unfold unpark
  dsimp only
  (repeat' split) <;> simp [Quiet]

@[simp] theorem State.abortTile_quiet (s : State) (p n : Nat) : s.Quiet (s.abortTile p n) := by
  unfold abortTile
  dsimp only
  split <;> simp [Quiet]

@[simp] theorem State.abortHold_quiet (s : State) (p : Nat) : s.Quiet (s.abortHold p) := by simp [Quiet, abortHold]

@[simp] theorem State.invalCheck_quiet (s : State) : s.Quiet s.invalCheck := by
  simp only [invalCheck]
  split
  · simp [Quiet]
  · refine each_quiet _ _ _ fun u w => ?_
    split <;> simp [Quiet]

@[simp] theorem execFaultRecordPost_quiet (part : Fin 64) (s : State) : Ends s.Quiet (execFaultRecordPost part s) := by
  unfold execFaultRecordPost
  dsimp only
  (repeat' split) <;> simp [State.Quiet]

@[simp] theorem execPendingRecordTimeout_quiet (tile : Fin 32) (s : State) : Ends s.Quiet (execPendingRecordTimeout tile s) := by
  unfold execPendingRecordTimeout
  dsimp only
  split <;> simp [State.Quiet]

@[simp] theorem State.runJob_quiet (s : State) (n k : Nat) : s.Quiet (s.runJob n k) := by simp [Quiet, runJob]

@[simp] theorem execDispatch_quiet (tile : Fin 32) (s : State) : Ends s.Quiet (execDispatch tile s) := by
  unfold execDispatch
  (repeat' split) <;> simp [State.Quiet]

@[simp] theorem execQuantumExpiry_quiet (tile : Fin 32) (s : State) : Ends s.Quiet (execQuantumExpiry tile s) := by
  unfold execQuantumExpiry
  dsimp only
  split <;> simp [State.Quiet]

@[simp] theorem execBudgetExhausted_quiet (tile : Fin 32) (s : State) : Ends s.Quiet (execBudgetExhausted tile s) := by
  unfold execBudgetExhausted
  dsimp only
  split <;> simp [State.Quiet]

@[simp] theorem State.tileFails_quiet (s : State) (n : Nat) : s.Quiet (s.tileFails n).1 := by simp [Quiet, tileFails]

@[simp] theorem State.schedFailed_quiet (s : State) (n entry cycle : Nat) (st : Status) : s.Quiet (s.schedFailed n entry cycle st) := by
  simp [Quiet, schedFailed]

@[simp] theorem State.placeChunk_quiet (s : State) (n w ext chunk : Nat) : s.Quiet (s.placeChunk n w ext chunk) := by simp [Quiet, placeChunk]

@[simp] theorem State.replaceChunk_quiet (s : State) (n ext chunk : Nat) : s.Quiet (s.replaceChunk n ext chunk) := by
  unfold replaceChunk
  dsimp only
  (repeat' split) <;> simp [Quiet]

@[simp] theorem State.disableTile_quiet (s : State) (n : Nat) : s.Quiet (s.disableTile n) := by simp [Quiet, disableTile]

/-! ### The walker -/

@[simp] theorem State.unitReq_quiet (s : State) (r0 : Req) : s.Quiet (s.unitReq r0) := by
  unfold unitReq
  split <;> simp [Quiet]

@[simp] theorem State.unitStall_quiet (s : State) (r : Req) : s.Quiet (s.unitStall r) := by simp [Quiet, unitStall]

@[simp] theorem State.hostSend_quiet (s : State) (o : HostOrg) (p : Packet) : s.Quiet (s.hostSend o p) := by
  unfold hostSend
  (repeat' split) <;> simp [Quiet]

@[simp] theorem State.setWalk_quiet (s : State) (n : Nat) (w : Option Walk) : s.Quiet (s.setWalk n w) := by simp [Quiet, setWalk]

@[simp] theorem State.walkRead_quiet (s : State) (n : Nat) (w : Walk) (j : Job) (pva : Nat) : s.Quiet (s.walkRead n w j pva) := by
  simp [Quiet, walkRead]

@[simp] theorem State.walkEnd_quiet (s : State) (n : Nat) (w : Walk) : s.Quiet (s.walkEnd n w) := by simp [Quiet, walkEnd]

@[simp] theorem State.walkFault_quiet (s : State) (n : Nat) (w : Walk) (cause pva level : Nat) (acc : BitVec 2) (e : Word) (st : Status) :
    s.Quiet (s.walkFault n w cause pva level acc e st) := by
  simp [Quiet, walkFault]

@[simp] theorem State.takeEntry_quiet (s : State) (n : Nat) (w : Walk) (pva : Nat) (acc : BitVec 2) (e : Word) :
    Used.Ends s.Quiet (s.takeEntry n w pva acc e) := by
  unfold takeEntry
  split <;> simp [Quiet]

@[simp] theorem State.useLine_quiet (s : State) (n : Nat) (w : Walk) (d : EDone) (l : List Nat) : s.Quiet (s.useLine n w d l).1 := by
  induction l generalizing s with
  | nil => simp [useLine, Quiet]
  | cons base l ih =>
    simp only [useLine]
    split
    · exact ih s
    · next pva acc _ =>
      have used := s.takeEntry_quiet n w pva acc (lineEntry d.data (w.place pva))
      split <;> simp_all [Quiet]

@[simp] theorem State.walkGo_quiet (s : State) (n k : Nat) : s.Quiet (s.walkGo n k) := by
  induction k generalizing s with
  | zero => simp [walkGo, Quiet]
  | succ k ih =>
    simp only [walkGo]
    split
    · simp [Quiet]
    · next w _ =>
      split
      · simp [Quiet]
      · next p _ acc _ _ =>
        split
        · simp [Quiet, ih]
        · split
          · exact s.walkRead_quiet ..
          · next x _ =>
            have used := s.takeEntry_quiet n w p.toNat acc x.entry
            split <;> simp_all [Quiet]

@[simp] theorem execWalkerTakeJob_quiet (tile : Fin 32) (s : State) : Ends s.Quiet (execWalkerTakeJob tile s) := by
  unfold execWalkerTakeJob
  dsimp only
  (repeat' split) <;> simp [State.Quiet]

@[simp] theorem State.walkLine_quiet (s : State) (n : Nat) (w : Walk) (d : EDone) : s.Quiet (s.walkLine n w d) := by simp [Quiet, walkLine]

@[simp] theorem State.walkOn_quiet (s : State) (n : Nat) : s.Quiet (s.walkOn n) := by
  unfold walkOn
  split
  · split <;> simp [Quiet]
  · simp [Quiet]

@[simp] theorem State.walkDoneRead_quiet (s : State) (n : Nat) (w : Walk) (d : EDone) : s.Quiet (s.walkDoneRead n w d) := by
  simp [Quiet, walkDoneRead]

@[simp] theorem execWalkerTableReadDone_quiet (q : Fin 4) (s : State) : Ends s.Quiet (execWalkerTableReadDone q s) := by
  unfold execWalkerTableReadDone
  dsimp only
  (repeat' split) <;> simp [State.Quiet]

/-! ### Control accesses -/

@[simp] theorem State.fqAck_quiet (s : State) (p k : Nat) : s.Quiet (s.fqAck p k) := by
  unfold fqAck
  split <;> simp [Quiet]

@[simp] theorem State.elogAck_quiet (s : State) (k : Nat) : s.Quiet (s.elogAck k) := by
  unfold elogAck
  split <;> simp [Quiet]

@[simp] theorem State.readWord_quiet (s : State) (k : Packet) (o : Nat) : s.Quiet (s.readWord k o).2 := by
  unfold readWord
  split <;> simp [Quiet]

@[simp] theorem State.readWords_quiet (s : State) (k : Packet) (l : List Nat) : s.Quiet (s.readWords k l).2 := by
  induction l generalizing s with
  | nil => simp [readWords, Quiet]
  | cons o l ih => simp [readWords, Quiet, ih]

@[simp] theorem State.noteCtl_quiet (s : State) (k : Packet) (locs : List Loc) : s.Quiet (s.noteCtl k locs) := by simp [Quiet, noteCtl]

@[simp] theorem State.ctlRead_quiet (s : State) (h : Held) : s.Quiet (s.ctlRead h) := by
  unfold ctlRead
  dsimp only
  split <;> simp [Quiet]

@[simp] theorem State.abortStart_quiet (s : State) (p : Nat) (cause : BitVec 2) : s.Quiet (s.abortStart p cause) := by simp [Quiet, abortStart]

theorem State.mboxWrite_quiet {s t : State} {m : MbId} {reply : Bool} {o : Nat} {k : Packet} (h : s.mboxWrite m reply o k = some t) :
    s.Quiet t := by
  simp only [mboxWrite] at h
  split_ifs at h <;> obtain rfl := Option.some.inj h <;> simp [Quiet]

@[simp] theorem State.ctlWrite_quiet (s : State) (h : Held) : s.Quiet (s.ctlWrite h) := by
  unfold ctlWrite
  dsimp only
  split
  · simp [Quiet]
  · split
    · simp [Quiet]
    · split
      · simp [Quiet]
      · split
        · split
          · next t hw =>
            have written := mboxWrite_quiet hw
            simp_all [Quiet]
          · simp [Quiet]
        · simp [Quiet]
        · simp [Quiet]

@[simp] theorem State.ctlGo_quiet (s : State) (h : Held) : s.Quiet (s.ctlGo h) := by simp [Quiet, ctlGo]

@[simp] theorem State.ctlRow_quiet (s : State) (o : Byte) (p : Packet) : s.Quiet (s.ctlRow o p) := by simp [Quiet, ctlRow]

@[simp] theorem execCtlRd_quiet (p : Packet) (s : State) : Ends s.Quiet (execCtlRd p s) := by simp [State.Quiet, execCtlRd]

@[simp] theorem execFtNowNsRead_quiet (p : Packet) (s : State) : Ends s.Quiet (execFtNowNsRead p s) := by simp [State.Quiet, execFtNowNsRead]

@[simp] theorem execFqAckRead_quiet (p : Packet) (s : State) : Ends s.Quiet (execFqAckRead p s) := by simp [State.Quiet, execFqAckRead]

@[simp] theorem execElogAckRead_quiet (p : Packet) (s : State) : Ends s.Quiet (execElogAckRead p s) := by simp [State.Quiet, execElogAckRead]

@[simp] theorem execCtlWr_quiet (p : Packet) (s : State) : Ends s.Quiet (execCtlWr p s) := by simp [State.Quiet, execCtlWr]

@[simp] theorem execMailboxPost_quiet (p : Packet) (s : State) : Ends s.Quiet (execMailboxPost p s) := by simp [State.Quiet, execMailboxPost]

@[simp] theorem execMailboxReplyClear_quiet (p : Packet) (s : State) : Ends s.Quiet (execMailboxReplyClear p s) := by
  simp [State.Quiet, execMailboxReplyClear]

@[simp] theorem execPartAbortWrite_quiet (p : Packet) (s : State) : Ends s.Quiet (execPartAbortWrite p s) := by
  simp [State.Quiet, execPartAbortWrite]

/-! ### Links and training -/

@[simp] theorem State.trainFail_quiet (s : State) (p : Nat) (cause : BitVec 4) : s.Quiet (s.trainFail p cause) := by simp [Quiet, trainFail]

@[simp] theorem execTrainingStart_quiet (trigger : TrainTrigger) (s : State) : Ends s.Quiet (execTrainingStart trigger s) := by
  unfold execTrainingStart
  split <;> simp [State.Quiet]

@[simp] theorem State.portUp_quiet (s : State) (p : Nat) : s.Quiet (s.portUp p) := by simp [Quiet, portUp]

@[simp] theorem execTrainingStepDone_quiet (port : Fin 17) (r : StepResult) (s : State) : Ends s.Quiet (execTrainingStepDone port r s) := by
  unfold execTrainingStepDone
  dsimp only
  (repeat' split) <;> simp [State.Quiet]

@[simp] theorem execTrainingStepTimeout_quiet (port : Fin 17) (s : State) : Ends s.Quiet (execTrainingStepTimeout port s) := by
  simp [State.Quiet, execTrainingStepTimeout]

@[simp] theorem State.paramIn_quiet (s : State) (p : Nat) (b : ParamBody) : s.Quiet (s.paramIn p b) := by simp [Quiet, paramIn]

@[simp] theorem execParam_quiet (port : Fin 17) (x : ParamBody) (s : State) : Ends s.Quiet (execParam port x s) := by simp [State.Quiet, execParam]

@[simp] theorem execRetrainTrigger_quiet (port : Fin 17) (cause : RetrainCause) (s : State) : Ends s.Quiet (execRetrainTrigger port cause s) := by
  simp [State.Quiet, execRetrainTrigger]

@[simp] theorem execRetrainReq_quiet (port : Fin 17) (x1 : Byte) (s : State) : Ends s.Quiet (execRetrainReq port x1 s) := by
  simp [State.Quiet, execRetrainReq]

@[simp] theorem execRetrainStepDone_quiet (port : Fin 17) (r : StepResult) (s : State) : Ends s.Quiet (execRetrainStepDone port r s) := by
  unfold execRetrainStepDone
  dsimp only
  (repeat' split) <;> simp [State.Quiet]

@[simp] theorem State.resumeIn_quiet (s : State) (p : Nat) (h : BitVec 16 × List (Nat × BitVec 16)) : s.Quiet (s.resumeIn p h) := by
  simp [Quiet, resumeIn]

@[simp] theorem execResume_quiet (port : Fin 17) (ack : BitVec 16) (s : State) : Ends s.Quiet (execResume port ack s) := by
  simp [State.Quiet, execResume]

@[simp] theorem execRetrainTimeout_quiet (port : Fin 17) (s : State) : Ends s.Quiet (execRetrainTimeout port s) := by
  simp [State.Quiet, execRetrainTimeout]

@[simp] theorem State.downIn_quiet (s : State) (p : Nat) (reason : Byte) : s.Quiet (s.downIn p reason) := by simp [Quiet, downIn]

@[simp] theorem execDown_quiet (port : Fin 17) (reason : Byte) (s : State) : Ends s.Quiet (execDown port reason s) := by
  simp [State.Quiet, execDown]

@[simp] theorem execSignalLost_quiet (port : Fin 17) (s : State) : Ends s.Quiet (execSignalLost port s) := by simp [State.Quiet, execSignalLost]

@[simp] theorem execPortListenIdle_quiet (port : Fin 17) (s : State) : Ends s.Quiet (execPortListenIdle port s) := by
  simp [State.Quiet, execPortListenIdle]

@[simp] theorem State.setNak_quiet (s : State) (p : Nat) : s.Quiet (s.setNak p) := by simp [Quiet, setNak]

@[simp] theorem State.nakIn_quiet (s : State) (p : Nat) (ack : BitVec 16) : s.Quiet (s.nakIn p ack) := by
  unfold nakIn
  dsimp only
  split <;> simp [Quiet]

@[simp] theorem State.received_quiet (s : State) (p : Nat) (pkt : Packet) : s.Quiet (s.received p pkt) := by simp [Quiet, received]

@[simp] theorem State.acceptFlit_quiet (s : State) (p : Nat) (f : Flit) : s.Quiet (s.acceptFlit p f) := by simp [Quiet, acceptFlit]

@[simp] theorem State.dataIn_quiet (s : State) (p : Nat) (f : Flit) : s.Quiet (s.dataIn p f) := by simp [Quiet, dataIn]

@[simp] theorem State.lctlIn_keeps (s : State) (p : Nat) (f : Flit) : s.Keeps (s.lctlIn p f) := by
  unfold lctlIn
  split <;> simp [Keeps]

@[simp] theorem State.flitIn_keeps (s : State) (p : Nat) (f : Flit) : s.Keeps (s.flitIn p f) := by simp [Keeps, flitIn]

@[simp] theorem execFlitReceive_keeps (port : Fin 17) (f : Flit) (s : State) : Ends s.Keeps (execFlitReceive port f s) := by
  simp [State.Keeps, execFlitReceive]

@[simp] theorem execFecBlockReceive_keeps (port : Fin 17) (b : FecBlock) (s : State) : Ends s.Keeps (execFecBlockReceive port b s) := by
  simp [State.Keeps, execFecBlockReceive]

@[simp] theorem execNakRepeatTimer_quiet (port : Fin 17) (s : State) : Ends s.Quiet (execNakRepeatTimer port s) := by
  simp [State.Quiet, execNakRepeatTimer]

@[simp] theorem execReplayTimeout_quiet (port : Fin 17) (s : State) : Ends s.Quiet (execReplayTimeout port s) := by
  unfold execReplayTimeout
  dsimp only
  split <;> simp [State.Quiet]

@[simp] theorem State.spillGroup_quiet (s : State) (p : Nat) : s.Quiet (s.spillGroup p) := by simp [Quiet, spillGroup]

@[simp] theorem execSpillWrite_quiet (port : Fin 17) (s : State) : Ends s.Quiet (execSpillWrite port s) := by simp [State.Quiet, execSpillWrite]

@[simp] theorem State.spillMore_quiet (s : State) (p k : Nat) : s.Quiet (s.spillMore p k) := by fun_induction spillMore <;> simp_all [Quiet]

@[simp] theorem State.spillDone_quiet (s : State) (p : Nat) (seq : BitVec 16) (half write : Bool) (d : Option Line) :
    s.Quiet (s.spillDone p seq half write d) := by
  unfold spillDone
  split <;> simp [Quiet]

@[simp] theorem State.startFrame_quiet (s : State) (p : Nat) (pkt : Packet) : s.Quiet (s.startFrame p pkt) := by simp [Quiet, startFrame]

@[simp] theorem State.makeRoom_quiet (s : State) (d need k : Nat) : s.Quiet (s.makeRoom d need k) := by fun_induction makeRoom <;> simp_all [Quiet]

@[simp] theorem State.hold_quiet (s : State) (d : Nat) (t : Transit) : s.Quiet (s.hold d t) := by simp [Quiet, hold]

@[simp] theorem State.demoteQueued_quiet (s : State) (p : Nat) : s.Quiet (s.demoteQueued p) := by simp [Quiet, demoteQueued]

@[simp] theorem State.svaopFrame_quiet (s0 : State) (p : Nat) : s0.Quiet (s0.svaopFrame p) := by
  unfold svaopFrame
  dsimp only
  (repeat' split) <;> simp [Quiet]

@[simp] theorem State.qoreusFrame_quiet (s : State) : s.Quiet s.qoreusFrame := by
  unfold qoreusFrame
  extract_lets shut t u x q can tiles eng
  have starved : s.Quiet u := by simp [Quiet, u, t]
  clear_value u x q can eng
  split_ifs
  · simp_all [Quiet]
  · simp_all [Quiet]
  · simp_all [Quiet]
  · simp_all [Quiet]
  · split
    · split_ifs <;> simp_all [Quiet]
    · exact starved

@[simp] theorem execPortFrameStart_quiet (port : Fin 17) (s : State) : Ends s.Quiet (execPortFrameStart port s) := by
  simp [State.Quiet, execPortFrameStart]

@[simp] theorem State.fillSlot_quiet (s : State) (p k : Nat) : s.Quiet (s.fillSlot p k) := by
  unfold fillSlot
  dsimp only
  (repeat' split) <;> simp [Quiet]

@[simp] theorem State.sendBlock_quiet (s : State) (p : Nat) : s.Quiet (s.sendBlock p) := by simp [Quiet, sendBlock]

@[simp] theorem State.sendDown_quiet (s : State) (p reason : Nat) : s.Quiet (s.sendDown p reason) := by simp [Quiet, sendDown]

@[simp] theorem execFecBlockTransmit_quiet (port : Fin 17) (s : State) : Ends s.Quiet (execFecBlockTransmit port s) := by
  simp [State.Quiet, execFecBlockTransmit]

/-! ### Memory requests -/

@[simp] theorem State.stageCheck_quiet (s0 : State) (r0 : Req) : s0.Quiet (s0.stageCheck r0) := by
  unfold stageCheck
  dsimp only
  split <;> simp [Quiet]

@[simp] theorem State.elderIn_quiet (s : State) (h : Held) : s.Quiet (s.elderIn h) := by simp [Quiet, elderIn]

@[simp] theorem State.memGo_quiet (s : State) (h : Held) : s.Quiet (s.memGo h) := by simp [Quiet, memGo]

@[simp] theorem State.memArrive_quiet (s : State) (h : Held) : s.Quiet (s.memArrive h) := by simp [Quiet, memArrive]

@[simp] theorem State.admGo_quiet (s : State) (l : List Held) : s.Quiet (s.admGo l) := by
  induction l generalizing s with
  | nil => simp [admGo, Quiet]
  | cons h l ih => simp [admGo, Quiet, ih]

@[simp] theorem execAdmitEntryResume_quiet (stack : Fin 8) (s : State) : Ends s.Quiet (execAdmitEntryResume stack s) := by
  simp [State.Quiet, execAdmitEntryResume]

@[simp] theorem State.memRow_quiet (s : State) (o : Byte) (p : Packet) : s.Quiet (s.memRow o p) := by simp [Quiet, memRow]

@[simp] theorem execRdOnce_quiet (p : Packet) (s : State) : Ends s.Quiet (execRdOnce p s) := by simp [State.Quiet, execRdOnce]

@[simp] theorem execRdShared_quiet (p : Packet) (s : State) : Ends s.Quiet (execRdShared p s) := by simp [State.Quiet, execRdShared]

@[simp] theorem execRdOwn_quiet (p : Packet) (s : State) : Ends s.Quiet (execRdOwn p s) := by simp [State.Quiet, execRdOwn]

@[simp] theorem execUpgrade_quiet (p : Packet) (s : State) : Ends s.Quiet (execUpgrade p s) := by simp [State.Quiet, execUpgrade]

@[simp] theorem execWrLine_quiet (p : Packet) (s : State) : Ends s.Quiet (execWrLine p s) := by simp [State.Quiet, execWrLine]

@[simp] theorem execWrPartial_quiet (p : Packet) (s : State) : Ends s.Quiet (execWrPartial p s) := by simp [State.Quiet, execWrPartial]

@[simp] theorem execAtomic_quiet (p : Packet) (s : State) : Ends s.Quiet (execAtomic p s) := by simp [State.Quiet, execAtomic]

@[simp] theorem execWbDirty_quiet (p : Packet) (s : State) : Ends s.Quiet (execWbDirty p s) := by simp [State.Quiet, execWbDirty]

@[simp] theorem execEvictClean_quiet (p : Packet) (s : State) : Ends s.Quiet (execEvictClean p s) := by simp [State.Quiet, execEvictClean]

@[simp] theorem execLineReclaim_quiet (p : Packet) (s : State) : Ends s.Quiet (execLineReclaim p s) := by simp [State.Quiet, execLineReclaim]

@[simp] theorem execElderRequest_quiet (p : Packet) (s : State) : Ends s.Quiet (execElderRequest p s) := by simp [State.Quiet, execElderRequest]

@[simp] theorem execSnpAck_quiet (p : Packet) (s : State) : Ends s.Quiet (execSnpAck p s) := by simp [State.Quiet, execSnpAck]

@[simp] theorem execSnpAckData_quiet (p : Packet) (s : State) : Ends s.Quiet (execSnpAckData p s) := by simp [State.Quiet, execSnpAckData]

@[simp] theorem execGrantAck_quiet (p : Packet) (s : State) : Ends s.Quiet (execGrantAck p s) := by simp [State.Quiet, execGrantAck]

@[simp] theorem execTransactionPairTimeout_quiet (q : Fin 4) (txn : Fin 1024) (s : State) : Ends s.Quiet (execTransactionPairTimeout q txn s) := by
  simp [State.Quiet, execTransactionPairTimeout]

@[simp] theorem execReservationExpire_quiet (q : Fin 4) (line : Nat) (s : State) : Ends s.Quiet (execReservationExpire q line s) := by
  unfold execReservationExpire
  split <;> simp [State.Quiet]

@[simp] theorem execOrphanScanDone_quiet (q : Fin 4) (s : State) : Ends s.Quiet (execOrphanScanDone q s) := by
  simp [State.Quiet, execOrphanScanDone]

/-! ### DRAM accesses -/

@[simp] theorem State.pace_quiet (s : State) (n bytes : Nat) : s.Quiet (s.pace n bytes) := by simp [Quiet, pace]

@[simp] theorem State.useGran_quiet (s : State) (g : Nat) : s.Quiet (s.useGran g) := by simp [Quiet, useGran]

@[simp] theorem State.admitNext_quiet (s : State) (n : Nat) : s.Quiet (s.admitNext n) := by
  unfold admitNext
  (repeat' split) <;> simp [Quiet]

@[simp] theorem execAdmissionSelect_quiet (stack : Fin 8) (s : State) : Ends s.Quiet (execAdmissionSelect stack s) := by
  simp [State.Quiet, execAdmissionSelect]

@[simp] theorem State.openRow_quiet (s : State) (n c b row : Nat) (keep : Bool) : s.Quiet (s.openRow n c b row keep) := by simp [Quiet, openRow]

@[simp] theorem State.useRow_quiet (s : State) (l : Nat) : s.Quiet (s.useRow l) := by simp [Quiet, useRow]

@[simp] theorem execDramSchedule_quiet (stack : Fin 8) (ch : Fin 16) (permit : BitVec 64) (s : State) :
    Ends s.Quiet (execDramSchedule stack ch permit s) := by
  unfold execDramSchedule
  dsimp only
  (repeat' split) <;> simp [State.Quiet]

@[simp] theorem State.redirect_quiet (s : State) (r : Req) : s.Quiet (s.redirect r) := by
  unfold redirect
  split
  · split <;> simp [Quiet]
  · simp [Quiet]
  · simp [Quiet]

@[simp] theorem State.stackLost_quiet (s : State) (n : Nat) : s.Quiet (s.stackLost n) := by simp [Quiet, stackLost]

@[simp] theorem State.rateNext_quiet (s : State) : s.Quiet s.rateNext := by
  unfold rateNext
  (repeat' split) <;> simp [Quiet]

@[simp] theorem State.rateDrop_quiet (s : State) (n : Nat) : s.Quiet (s.rateDrop n) := by simp [Quiet, rateDrop]

@[simp] theorem State.rateResume_quiet (s : State) : s.Quiet s.rateResume := by
  unfold rateResume
  (repeat' split) <;> simp [Quiet]

@[simp] theorem State.chansFail_quiet (s0 : State) (n : Nat) (mask : BitVec 16) (dead : Bool) (rec : Option ErrRec) :
    s0.Quiet (s0.chansFail n mask dead rec) := by
  cases rec <;> simp [Quiet, chansFail]

@[simp] theorem State.failChannel_quiet (s : State) (n c reason : Nat) : s.Quiet (s.failChannel n c reason) := by simp [Quiet, failChannel]

@[simp] theorem execStackControllerFailure_quiet (stack : Fin 8) (s : State) : Ends s.Quiet (execStackControllerFailure stack s) := by
  simp [State.Quiet, execStackControllerFailure]

@[simp] theorem State.noteUe_quiet (s : State) (l : Nat) : s.Quiet (s.noteUe l) := by simp [Quiet, noteUe]

@[simp] theorem State.ueFound_quiet (s : State) (l : Nat) (a b : Cls) (c0 c1 : RawEcc) (source outcome : Nat) :
    s.Quiet (s.ueFound l a b c0 c1 source outcome) := by
  simp [Quiet, ueFound]

@[simp] theorem State.readAt_keeps (s : State) (r : Req) (c0 c1 : RawEcc) : s.Keeps (s.readAt r c0 c1).2 := by
  unfold readAt
  dsimp only
  split <;> simp [Keeps]

@[simp] theorem State.combRead_quiet (s : State) (r : Req) (c0 c1 : RawEcc) : s.Quiet (s.combRead r c0 c1).2.2 := by
  unfold combRead
  dsimp only
  (repeat' split) <;> simp [Quiet]

@[simp] theorem State.spillEnd_keeps (s : State) (r : Req) (p : Nat) (seq : BitVec 16) (half write : Bool) (c0 c1 : RawEcc) :
    s.Keeps (s.spillEnd r p seq half write c0 c1) := by
  unfold spillEnd
  dsimp only
  (repeat' split) <;> simp [Keeps]

@[simp] theorem State.accessEnd_keeps (s : State) (r : Req) (c0 c1 : RawEcc) : s.Keeps (s.accessEnd r c0 c1) := by
  have read := s.readAt_keeps r c0 c1
  have comb := s.combRead_quiet r c0 c1
  unfold accessEnd
  dsimp only
  split
  · simp [Keeps]
  · split
    · simp [Keeps]
    · split
      · generalize s.readAt r c0 c1 = p at read ⊢
        obtain ⟨_ | _, t⟩ := p <;> simp_all [Keeps]
      · simp [Keeps]
    · split <;> simp_all [Keeps]
    · split <;> simp_all [Keeps]
    · split <;> simp_all [Keeps]
    · split
      · simp [Keeps]
      · split <;> simp_all [Keeps]
    · simp [Keeps]
    · split <;> simp_all [Keeps]
    · split
      · simp [Keeps]
      · simp [Keeps]

@[simp] theorem State.accessDone_keeps (s : State) (r : Req) (c0 c1 : RawEcc) : s.Keeps (s.accessDone r c0 c1) := by
  unfold accessDone
  split <;> simp [Keeps]

@[simp] theorem State.serveReads_keeps (s : State) (n c : Nat) (r : Req) : s.Keeps (s.serveReads n c r) := by
  simp [serveReads, Keeps]

@[simp] theorem execDramAccessDone_keeps (stack : Fin 8) (ch : Fin 16) (c0 c1 : RawEcc) (s : State) :
    Ends s.Keeps (execDramAccessDone stack ch c0 c1 s) := by
  unfold execDramAccessDone
  dsimp only
  split <;> simp [State.Keeps]

@[simp] theorem State.throttleAt_quiet (s : State) (n : Nat) (v : ℤ) : s.Quiet (s.throttleAt n v) := by simp [Quiet, throttleAt]

@[simp] theorem execRefreshDue_quiet (stack : Fin 8) (ch : Fin 16) (bank : Fin 64) (s : State) : Ends s.Quiet (execRefreshDue stack ch bank s) := by
  simp [State.Quiet, execRefreshDue]

@[simp] theorem State.blackout_quiet (s : State) (n c : Nat) : s.Quiet (s.blackout n c) := by simp [Quiet, blackout]

@[simp] theorem execCalibrationDue_quiet (stack : Fin 8) (ch : Fin 16) (s : State) : Ends s.Quiet (execCalibrationDue stack ch s) := by
  simp [State.Quiet, execCalibrationDue]

@[simp] theorem execCalibrationForced_quiet (stack : Fin 8) (ch : Fin 16) (s : State) : Ends s.Quiet (execCalibrationForced stack ch s) := by
  simp [State.Quiet, execCalibrationForced]

@[simp] theorem execCalibrationDone_quiet (stack : Fin 8) (ch : Fin 16) (phyOk : Bool) (s : State) :
    Ends s.Quiet (execCalibrationDone stack ch phyOk s) := by
  simp [State.Quiet, execCalibrationDone]

@[simp] theorem execRateChangeStackDone_quiet (s : State) : Ends s.Quiet (execRateChangeStackDone s) := by
  unfold execRateChangeStackDone
  split <;> simp [State.Quiet]

@[simp] theorem execLoadInterval_quiet (s : State) : Ends s.Quiet (execLoadInterval s) := by simp [State.Quiet, execLoadInterval]

@[simp] theorem State.samplePort_quiet (s : State) (p : Nat) : s.Quiet (s.samplePort p) := by simp [Quiet, samplePort]

@[simp] theorem State.sampleStack_quiet (s : State) (n : Nat) : s.Quiet (s.sampleStack n) := by simp [Quiet, sampleStack]

@[simp] theorem State.samplePart_quiet (s : State) (p : Nat) : s.Quiet (s.samplePart p) := by simp [Quiet, samplePart]

@[simp] theorem execHistogramSample_quiet (s : State) : Ends s.Quiet (execHistogramSample s) := by simp [State.Quiet, execHistogramSample]

/-! ### Granules -/

@[simp] theorem State.wipe_keeps (s : State) (g : Nat) : s.Keeps (s.wipe g) := by simp [Keeps, wipe]

@[simp] theorem execScrubStep_keeps (ext : Fin 262144) (s : State) : Ends s.Keeps (execScrubStep ext s) := by simp [State.Keeps, execScrubStep]

@[simp] theorem State.freeExt_quiet (s : State) (idx : Nat) : s.Quiet (s.freeExt idx) := by simp [Quiet, freeExt]

@[simp] theorem execScrubDone_quiet (ext : Fin 262144) (s : State) : Ends s.Quiet (execScrubDone ext s) := by simp [State.Quiet, execScrubDone]

@[simp] theorem State.fillStart_quiet (s : State) (idx : Nat) : s.Quiet (s.fillStart idx) := by simp [Quiet, fillStart]

@[simp] theorem execZeroFillDone_keeps (ext : Fin 262144) (s : State) : Ends s.Keeps (execZeroFillDone ext s) := by
  simp [execZeroFillDone, State.Keeps]

@[simp] theorem State.deltaIn_keeps (s : State) (idx : Nat) (x : Ext) (l tw : Nat) (delta : Line) : s.Keeps (s.deltaIn idx x l tw delta).1 := by
  unfold deltaIn
  dsimp only
  (repeat' split) <;> simp [Keeps]

@[simp] theorem State.peerCmp_quiet (s : State) (home : Option Nat) (m : Nat) (tc : Fin 8) (cid : Cid) (rtag : BitVec 32) (st : Status) :
    s.Quiet (s.peerCmp home m tc cid rtag st) := by
  simp [Quiet, peerCmp]

@[simp] theorem execParityDelta_keeps (xh : Xh) (offset : BitVec 40) (delta : DeltaIn) (s : State) :
    Ends s.Keeps (execParityDelta xh offset delta s) := by
  simp [State.Keeps, execParityDelta]

@[simp] theorem execGroupHeartbeatSend_quiet (s : State) : Ends s.Quiet (execGroupHeartbeatSend s) := by simp [State.Quiet, execGroupHeartbeatSend]

@[simp] theorem State.lossAct_quiet (s : State) (m : Nat) : s.Quiet (s.lossAct m) := by
  simp only [lossAct]
  refine each_quiet _ _ _ fun u i => ?_
  split <;> simp [Quiet]

@[simp] theorem State.actLost_quiet (s : State) : s.Quiet s.actLost := by simp [Quiet, actLost]

@[simp] theorem execGroupHeartbeat_quiet (slot : Fin 8) (s : State) : Ends s.Quiet (execGroupHeartbeat slot s) := by
  simp [State.Quiet, execGroupHeartbeat]

@[simp] theorem execGroupMemberLost_quiet (slot : Fin 8) (s : State) : Ends s.Quiet (execGroupMemberLost slot s) := by
  simp [State.Quiet, execGroupMemberLost]

@[simp] theorem State.moveGran_keeps (s : State) (idx i g : Nat) : s.Keeps (s.moveGran idx i g) := by simp [Keeps, moveGran]

@[simp] theorem State.rebuilt_quiet (s : State) (idx : Nat) : s.Quiet (s.rebuilt idx) := by simp [Quiet, rebuilt]

@[simp] theorem State.rebuildDue_keeps (s : State) (idx : Nat) : s.Keeps (s.rebuildDue idx) := by
  unfold rebuildDue
  split <;> simp [Keeps]

@[simp] theorem State.rebuildIn_keeps (s : State) (src : Nat) (xh : Xh) (g : Nat) (lines : List (Nat × Line)) :
    s.Keeps (s.rebuildIn src xh g lines) := by
  simp [rebuildIn, Keeps]

@[simp] theorem execRebuildStep_keeps (r : RebuildIn) (s : State) : Ends s.Keeps (execRebuildStep r s) := by
  cases r <;> simp [execRebuildStep, State.Keeps]

/-! ### Drains -/

@[simp] theorem State.dropKeys_quiet (s : State) (p : Nat) : s.Quiet (s.dropKeys p) := by simp [Quiet, dropKeys]

@[simp] theorem State.endSession_quiet (s : State) (p : Nat) (st : BitVec 2) (cause : Nat) : s.Quiet (s.endSession p st cause) := by
  simp [Quiet, endSession]

@[simp] theorem State.abortQueues_quiet (s : State) (p : Nat) : s.Quiet (s.abortQueues p) := by simp [Quiet, abortQueues]

@[simp] theorem State.abortHeld_quiet (s : State) (p : Nat) : s.Quiet (s.abortHeld p) := by simp [Quiet, abortHeld]

@[simp] theorem State.abortFwds_quiet (s : State) (p : Nat) : s.Quiet (s.abortFwds p) := by simp [Quiet, abortFwds]

@[simp] theorem State.dropHostReqs_quiet (s : State) : s.Quiet s.dropHostReqs := by simp [Quiet, dropHostReqs]

@[simp] theorem State.abortCmds_quiet (s : State) (p : Nat) : s.Quiet (s.abortCmds p) := by simp [Quiet, abortCmds]

@[simp] theorem execAbortComplete_quiet (part : Fin 64) (s : State) : Ends s.Quiet (execAbortComplete part s) := by
  simp [State.Quiet, execAbortComplete]

@[simp] theorem State.drainExt_quiet (s : State) (idx : Nat) : s.Quiet (s.drainExt idx).2 := by simp [Quiet, drainExt]

@[simp] theorem State.drainExts_quiet (s : State) (l : List Nat) : s.Quiet (s.drainExts l).2 := by
  induction l generalizing s with
  | nil => simp [drainExts, Quiet]
  | cons i l ih => simp [drainExts, Quiet, ih]

@[simp] theorem State.markDead_quiet (s : State) (idx : Nat) : s.Quiet (s.markDead idx) := by simp [Quiet, markDead]

@[simp] theorem State.startRevoke_quiet (s : State) (idx : Nat) : s.Quiet (s.startRevoke idx) := by
  unfold startRevoke
  dsimp only
  split <;> simp [Quiet]

@[simp] theorem State.carry_quiet (s : State) (m : Nat) (xh : Xh) (create : Bool) (g : GroupMsg) : s.Quiet (s.carry m xh create g) := by
  simp [Quiet, carry]

@[simp] theorem State.payOwed_quiet (s : State) (idx : Nat) : s.Quiet (s.payOwed idx) := by simp [Quiet, payOwed]

@[simp] theorem State.carryRevoke_quiet (s : State) (idx : Nat) (xh : Xh) : s.Quiet (s.carryRevoke idx xh) := by simp [Quiet, carryRevoke]

@[simp] theorem State.revoke_quiet (s : State) (idx : Nat) : s.Quiet (s.revoke idx) := by simp [Quiet, revoke]

@[simp] theorem State.tellMembers_quiet (s : State) (idx : Nat) : s.Quiet (s.tellMembers idx) := by simp [Quiet, tellMembers]

@[simp] theorem State.purge_quiet (s : State) (out : PtCache → Bool) : s.Quiet (s.purge out) := by simp [Quiet, purge]

@[simp] theorem State.retire_quiet (s : State) (cid : Nat) : s.Quiet (s.retire cid) := by simp [Quiet, retire]

@[simp] theorem State.closeStep_quiet (s : State) (p : Nat) : s.Quiet (s.closeStep p) := by
  unfold closeStep
  (repeat' split) <;> simp [Quiet]

@[simp] theorem State.closeAll_quiet (s : State) : s.Quiet s.closeAll := by simp [Quiet, closeAll]

@[simp] theorem execPhaseDrainDone_quiet (ext : Fin 262144) (s : State) : Ends s.Quiet (execPhaseDrainDone ext s) := by
  simp [State.Quiet, execPhaseDrainDone]

@[simp] theorem execRevokeDrainDone_quiet (ext : Fin 262144) (s : State) : Ends s.Quiet (execRevokeDrainDone ext s) := by
  simp [State.Quiet, execRevokeDrainDone]

@[simp] theorem execContextRetireDone_quiet (cid : Cid) (s : State) : Ends s.Quiet (execContextRetireDone cid s) := by
  simp [State.Quiet, execContextRetireDone]

@[simp] theorem State.elderClosed_quiet (s : State) (p : Nat) : s.Quiet (s.elderClosed p) := by simp [Quiet, elderClosed]

@[simp] theorem execPartitionFree_quiet (part : Fin 64) (s : State) : Ends s.Quiet (execPartitionFree part s) := by
  simp [State.Quiet, execPartitionFree]

/-! ### How a command runs -/

@[simp] theorem fail_quiet (s : State) (status : Nat) : s.Quiet (fail s status).st := by simp [State.Quiet, fail]

@[simp] theorem done_quiet (s : State) (result : Nat) : s.Quiet (done s result).st := by simp [State.Quiet, done]

@[simp] theorem await_quiet (s : State) (waits : List Wait) (result : Nat) : s.Quiet (await s waits result).st := by simp [State.Quiet, await]

@[simp] theorem refuse_quiet (s : State) (c : Cmd) (code status : Nat) : s.Quiet (refuse s c code status).st := by simp [State.Quiet, refuse]

@[simp] theorem State.takeCmd_quiet (s : State) (mb : MbId) (names : Nat → List (Nat × Nat)) : s.Quiet (s.takeCmd mb names).2 := by
  simp [Quiet, takeCmd]

@[simp] theorem Answer.post_quiet (r : Answer) (c : Cmd) : r.st.Quiet (r.post c) := by
  simp [post, State.Quiet]

theorem State.runBody_rel {R : State → State → Prop} (hR : Absorbs R) (s : State) (f : CmdForm) (c : Cmd)
    {body : State → Cmd → Nat → Answer} (a : Nat) (h : ∀ u c a, R u (body u c a).st) : R s (s.runBody f c body a).st := by
  unfold runBody
  dsimp only
  split
  · exact hR.before (by simp [Quiet]) (h ..)
  · exact h ..

theorem State.runCmd_rel {R : State → State → Prop} (hR : Absorbs R) (s : State) (f : CmdForm) (c : Cmd)
    {body : State → Cmd → Nat → Answer} (h : ∀ u c a, R u (body u c a).st) : R s (s.runCmd f c body) := by
  unfold runCmd
  dsimp only
  split
  · exact hR.after (hR.refl s) (Answer.post_quiet (fail s _) c)
  · split
    · exact hR.refl s
    · exact hR.after (s.runBody_rel hR f c _ h) (Answer.post_quiet ..)

theorem State.command_rel {R : State → State → Prop} (hR : Absorbs R) (s : State) (f : CmdForm) (mb : MbId)
    {body : State → Cmd → Nat → Answer} (h : ∀ u c a, R u (body u c a).st) : R s (s.command f mb body) := by
  unfold command
  split
  · exact hR.refl s
  · split
    · split
      · exact s.runCmd_rel hR f _ h
      · exact hR.refl s
    · split
      · exact hR.before (s.takeCmd_quiet mb f.names) (runCmd_rel hR _ f _ h)
      · exact hR.refl s

theorem State.ran_quiet (s : State) (f : CmdForm) (mb : MbId) {body : State → Cmd → Nat → Answer}
    (h : ∀ u c a, State.Quiet u (body u c a).st) :
    Ends s.Quiet (s.ran f mb body) :=
  .next (s.command_rel absorbs_quiet f mb h)

theorem State.ran_keeps (s : State) (f : CmdForm) (mb : MbId) {body : State → Cmd → Nat → Answer}
    (h : ∀ u c a, State.Keeps u (body u c a).st) :
    Ends s.Keeps (s.ran f mb body) :=
  .next (s.command_rel absorbs_keeps f mb h)

@[simp] theorem execUndefinedOpcodeCommand_quiet (mb : MbId) (s : State) : Ends s.Quiet (execUndefinedOpcodeCommand mb s) := by
  simp [State.Quiet, execUndefinedOpcodeCommand]

@[simp] theorem State.unheld_quiet (s : State) (q : Req) (k : Held1) : s.Quiet (s.unheld q k).2 := by
  unfold unheld
  split <;> simp [Quiet]

@[simp] theorem State.refRead1_keeps (s : State) (e : Eid) (r : Ref) (pos n : Nat) : s.Keeps (s.refRead1 e r pos n).2 := by
  unfold refRead1
  dsimp only
  generalize s.refReq e r oRdOnce pos n 0 = q
  split
  · simp [Keeps]
  · split
    · simp [Keeps]
    · split
      · split <;> simp [Keeps]
      · split
        · simp [Keeps]
        · generalize hu : (if (s.ext q.ext).coherent then s.meetLine (lineQuad q.line) q.line else s) = u
          have met : s.Keeps u := by simp [← hu, Keeps]
          clear hu
          generalize (if (s.ext q.ext).coherent then u.lineHeld q.line false else .clear) = hold
          split
          · simp_all [Keeps]
          · have read (c0 c1 : RawEcc) : s.Keeps ((u.useRow q.line).readAt q c0 c1).2 :=
              met.trans ((u.useRow_quiet q.line).keeps.trans ((u.useRow q.line).readAt_keeps q c0 c1))
            split
            · next h => exact (congrArg (s.Keeps ·.2) h).mp (read _ _)
            · next h => exact (congrArg (s.Keeps ·.2) h).mp (read _ _)

@[simp] theorem State.refWrite1_keeps (s : State) (e : Eid) (r : Ref) (pos : Nat) (bytes : List Byte) : s.Keeps (s.refWrite1 e r pos bytes).2 := by
  unfold refWrite1
  dsimp only
  generalize s.refReq e r oWrPartial pos bytes.length _ = q
  split
  · simp [Keeps]
  · split
    · split <;> simp [Keeps]
    · split
      · split <;> simp [Keeps]
      · split
        · simp [Keeps]
        · generalize hu : (if (s.ext q.ext).coherent then s.meetLine (lineQuad q.line) q.line else s) = u
          have met : s.Keeps u := by simp [← hu, Keeps]
          clear hu
          generalize (if (s.ext q.ext).coherent then u.lineHeld q.line true else .clear) = hold
          split
          · simp_all [Keeps]
          · have read (c0 c1 : RawEcc) : s.Keeps ((u.useRow q.line).readAt q c0 c1).2 :=
              met.trans ((u.useRow_quiet q.line).keeps.trans ((u.useRow q.line).readAt_keeps q c0 c1))
            split
            · next h => exact ((congrArg (s.Keeps ·.2) h).mp (read _ _)).trans (by simp [Keeps])
            · next h => exact (congrArg (s.Keeps ·.2) h).mp (read _ _)

@[simp] theorem State.refRead_keeps (s : State) (e : Eid) (r : Ref) (k pos left : Nat) : s.Keeps (s.refRead e r k pos left).2 := by
  induction k generalizing s pos left with
  | zero => simp [refRead, Keeps]
  | succ k ih =>
    simp only [refRead]
    have first := s.refRead1_keeps e r pos (inLine pos left)
    split
    · simp [Keeps]
    · split
      · next b t h =>
        have rest := ih t (pos + inLine pos left) (left - inLine pos left)
        split <;> simp_all [Keeps]
      · exact first

@[simp] theorem State.refPlan_keeps (s : State) (e : Eid) (r : Ref) (k pos : Nat) (l : List Byte) : s.Keeps (s.refPlan e r k pos l).2 := by
  induction k generalizing s pos l with
  | zero => simp [refPlan, Keeps]
  | succ k ih =>
    simp only [refPlan]
    split
    · simp [Keeps]
    · split
      · exact ih ..
      · exact s.refWrite1_keeps ..

@[simp] theorem State.refWrite_keeps (s : State) (e : Eid) (r : Ref) (k pos : Nat) (l : List Byte) : s.Keeps (s.refWrite e r k pos l).2 := by
  induction k generalizing s pos l with
  | zero => simp [refWrite, Keeps]
  | succ k ih =>
    simp only [refWrite]
    have first := s.refWrite1_keeps e r pos (l.take (inLine pos l.length))
    split
    · simp [Keeps]
    · split
      · simp_all [Keeps]
      · exact first

@[simp] theorem withRef_keeps (s : State) (c : Cmd) (part : Option Nat) (r : Ref) (len : Nat) (go : State → List Byte → Answer)
    (h : ∀ u b, State.Keeps u (go u b).st) : s.Keeps (withRef s c part r len go).st := by
  unfold withRef
  have bytes := s.refRead_keeps c.eid r (len / 128 + 2) r.off len
  split
  · simp [State.Keeps]
  · split <;> simp_all [State.Keeps]

@[simp] theorem putRef_keeps (s : State) (c : Cmd) (part : Option Nat) (r : Ref) (bytes : List Byte) (go : State → Answer)
    (h : ∀ u, State.Keeps u (go u).st) : s.Keeps (putRef s c part r bytes go).st := by
  unfold putRef
  have plan := s.refPlan_keeps c.eid r (bytes.length / 128 + 2) r.off bytes
  split
  · simp [State.Keeps]
  · split
    · simp_all [State.Keeps]
    · simp_all [State.Keeps]
    · simp [State.Keeps, h]

/-! ### Partitions and contexts -/

@[simp] theorem partitionCreate_quiet (s : State) (c : Cmd) (a : Nat) : s.Quiet (partitionCreate s c a).st := by simp [State.Quiet, partitionCreate]

@[simp] theorem partitionArm_quiet (s : State) (c : Cmd) (a : Nat) : s.Quiet (partitionArm s c a).st := by simp [State.Quiet, partitionArm]

@[simp] theorem partitionRecover_quiet (s : State) (c : Cmd) (a : Nat) : s.Quiet (partitionRecover s c a).st := by
  simp [State.Quiet, partitionRecover]

@[simp] theorem State.dropRecords_quiet (s : State) (p : Nat) : s.Quiet (s.dropRecords p) := by
  simp only [dropRecords]
  refine Quiet.trans ?_ (each_quiet _ _ _ fun u n => Quiet.trans ?_ (each_quiet _ _ _ fun v k => ?_))
  · simp [Quiet]
  · split <;> simp [Quiet]
  · simp [Quiet]

@[simp] theorem State.clearSlot_quiet (s : State) (i k : Nat) : s.Quiet (s.clearSlot i k).2 := by simp [Quiet, clearSlot]

@[simp] theorem State.clearSlots_quiet (s : State) (l : List (Nat × Nat)) : s.Quiet (s.clearSlots l).2 := by
  induction l generalizing s with
  | nil => simp [clearSlots, Quiet]
  | cons e l ih => simp [clearSlots, Quiet, ih]

@[simp] theorem partitionClose_quiet (s : State) (c : Cmd) (a : Nat) : s.Quiet (partitionClose s c a).st := by simp [State.Quiet, partitionClose]

@[simp] theorem contextCreate_quiet (s : State) (c : Cmd) (a : Nat) : s.Quiet (contextCreate s c a).st := by
  unfold contextCreate
  dsimp only
  (repeat' split) <;> simp [State.Quiet]

@[simp] theorem contextSet_quiet (s : State) (c : Cmd) (a : Nat) : s.Quiet (contextSet s c a).st := by simp [State.Quiet, contextSet]

@[simp] theorem contextDestroy_quiet (s : State) (c : Cmd) (a : Nat) : s.Quiet (contextDestroy s c a).st := by simp [State.Quiet, contextDestroy]

/-! ### Extents and groups -/

@[simp] theorem State.mapGrans_quiet (s : State) (idx base k : Nat) (l : List Nat) : s.Quiet (s.mapGrans idx base k l) := by
  fun_induction mapGrans <;> simp_all [Quiet]

@[simp] theorem State.writeExt_quiet (s : State) (idx base : Nat) (e : Ext) (grans : List Nat) (start : Nat) :
    s.Quiet (s.writeExt idx base e grans start) := by
  simp [Quiet, writeExt]

@[simp] theorem State.createExt_quiet (s : State) (c : Cmd) (v : CreateArgs) (ok : Nat → Bool) : s.Quiet (s.createExt c v ok).st := by
  unfold createExt
  dsimp only
  (repeat' split) <;> simp [Quiet]

@[simp] theorem extentCreate_quiet (s : State) (c : Cmd) (a : Nat) : s.Quiet (extentCreate s c a).st := by simp [State.Quiet, extentCreate]

@[simp] theorem extentRevoke_quiet (s : State) (c : Cmd) (a : Nat) : s.Quiet (extentRevoke s c a).st := by simp [State.Quiet, extentRevoke]

@[simp] theorem extentShareOffer_quiet (s : State) (c : Cmd) (a : Nat) : s.Quiet (extentShareOffer s c a).st := by
  unfold extentShareOffer
  dsimp only
  (repeat' split) <;> simp [State.Quiet]

@[simp] theorem extentShareAccept_quiet (s : State) (c : Cmd) (a : Nat) : s.Quiet (extentShareAccept s c a).st := by
  unfold extentShareAccept
  dsimp only
  split <;> simp [State.Quiet]

@[simp] theorem unslot_quiet (s : State) (xh m : Nat) : s.Quiet (unslot s xh m).st := by
  unfold unslot
  dsimp only
  split <;> simp [State.Quiet]

@[simp] theorem extentShareWithdraw_quiet (s : State) (c : Cmd) (a : Nat) : s.Quiet (extentShareWithdraw s c a).st := by
  simp [State.Quiet, extentShareWithdraw]

@[simp] theorem extentUnshare_quiet (s : State) (c : Cmd) (a : Nat) : s.Quiet (extentUnshare s c a).st := by simp [State.Quiet, extentUnshare]

@[simp] theorem extentQuery_quiet (s : State) (c : Cmd) (a : Nat) : s.Quiet (extentQuery s c a).st := by simp [State.Quiet, extentQuery]

@[simp] theorem deviceSetScrub_quiet (s : State) (c : Cmd) (a : Nat) : s.Quiet (deviceSetScrub s c a).st := by simp [State.Quiet, deviceSetScrub]

@[simp] theorem groupConfig_quiet (s : State) (c : Cmd) (a : Nat) : s.Quiet (groupConfig s c a).st := by simp [State.Quiet, groupConfig]

@[simp] theorem Answer.atSlot_st (r : Answer) (slot : Nat) : (r.atSlot slot).st = r.st := by
  simp [atSlot]

@[simp] theorem State.withProt_quiet (s : State) (idx : Nat) (e : GroupExt) : s.Quiet (s.withProt idx e) := by simp [Quiet, withProt]

@[simp] theorem groupExtentCreate_quiet (s : State) (c : Cmd) (a : Nat) : s.Quiet (groupExtentCreate s c a).st := by
  simp [State.Quiet, groupExtentCreate]

@[simp] theorem State.createIn_quiet (s : State) (src : Nat) (xh : Xh) (e : GroupExt) : s.Quiet (s.createIn src xh e) := by simp [Quiet, createIn]

@[simp] theorem State.createAnswer_quiet (s : State) (m : Nat) (xh : Xh) (st : BitVec 16) : s.Quiet (s.createAnswer m xh st) := by
  simp [Quiet, createAnswer]

@[simp] theorem State.createSettle_quiet (s : State) (xh : Xh) : s.Quiet (s.createSettle xh) := by
  unfold createSettle
  dsimp only
  (repeat' split) <;> simp [Quiet]

@[simp] theorem execGroupExtentCreate_quiet (c : CreateCall) (s : State) : Ends s.Quiet (execGroupExtentCreate c s) := by
  cases c with
  | mailbox mb => exact s.ran_quiet _ mb groupExtentCreate_quiet
  | carried m xh e => simp [execGroupExtentCreate, State.Quiet]
  | answered m xh st => simp [execGroupExtentCreate, State.Quiet]
  | unanswered m xh => simp [execGroupExtentCreate, State.Quiet]

@[simp] theorem groupExtentRevoke_quiet (s : State) (c : Cmd) (a : Nat) : s.Quiet (groupExtentRevoke s c a).st := by
  simp [State.Quiet, groupExtentRevoke]

@[simp] theorem State.revokeIn_quiet (s : State) (src : Nat) (xh : Xh) : s.Quiet (s.revokeIn src xh) := by simp [Quiet, revokeIn]

@[simp] theorem State.revokeAnswer_quiet (s : State) (m : Nat) (xh : Xh) : s.Quiet (s.revokeAnswer m xh) := by simp [Quiet, revokeAnswer]

@[simp] theorem execGroupExtentRevoke_quiet (c : RevokeCall) (s : State) : Ends s.Quiet (execGroupExtentRevoke c s) := by
  cases c with
  | mailbox mb => exact s.ran_quiet _ mb groupExtentRevoke_quiet
  | carried m xh => simp [execGroupExtentRevoke, State.Quiet]
  | answered m xh => simp [execGroupExtentRevoke, State.Quiet]
  | unanswered m xh => simp [execGroupExtentRevoke, State.Quiet]

@[simp] theorem groupPromote_quiet (s : State) (c : Cmd) (a : Nat) : s.Quiet (groupPromote s c a).st := by simp [State.Quiet, groupPromote]

@[simp] theorem State.tellTarget_quiet (s : State) (i slot : Nat) : s.Quiet (s.tellTarget i slot) := by simp [Quiet, tellTarget]

@[simp] theorem groupRebuild_quiet (s : State) (c : Cmd) (a : Nat) : s.Quiet (groupRebuild s c a).st := by simp [State.Quiet, groupRebuild]

/-! ### Tiles and scheduled operations -/

@[simp] theorem State.issueJob_quiet (s : State) (n k : Nat) (a0 : EAcc) : Issue.Ends s.Quiet (s.issueJob n k a0) := by
  unfold issueJob
  dsimp only
  split <;> simp [Quiet]

@[simp] theorem State.putBack_quiet (s : State) (n k : Nat) (l : List EAcc) : s.Quiet (s.putBack n k l) := by simp [Quiet, putBack]

@[simp] theorem State.pumpJob_quiet (s : State) (n k m : Nat) : s.Quiet (s.pumpJob n k m) := by
  induction m generalizing s with
  | zero => simp [pumpJob, Quiet]
  | succ m ih =>
    simp only [pumpJob]
    split
    · simp [Quiet]
    · next a _ =>
      have issued := (s.modJob n k fun j => { j with eng := { j.eng with retry := j.eng.retry.erase a } }).issueJob_quiet n k a
      split <;> simp_all [Quiet]

@[simp] theorem State.issueWrites_quiet (s : State) (n k : Nat) (l : List EAcc) : s.Quiet (s.issueWrites n k l) := by simp [Quiet, issueWrites]

@[simp] theorem State.prefetchJob_quiet (s : State) (n k m : Nat) : s.Quiet (s.prefetchJob n k m) := by
  induction m generalizing s with
  | zero => simp [prefetchJob, Quiet]
  | succ m ih =>
    simp only [prefetchJob]
    split
    · simp [Quiet]
    · next w _ =>
      split
      · simp [Quiet]
      · next a rem _ =>
        have issued := s.issueJob_quiet n k
          { slot := w.1, pos := w.2.2.1, len := min rem w.2.2.2, pva := BitVec.ofNat 48 a
            stage := ((s.job n k).opx (s.tile n) k).stageOf w.1 }
        split
        · next t h =>
          rw [h, Issue.ends_sent] at issued
          exact issued.trans (Quiet.trans (by simp [Quiet]) (ih _))
        · next t h =>
          rw [h, Issue.ends_stall] at issued
          exact issued
        · next t h =>
          rw [h, Issue.ends_ended] at issued
          exact issued

@[simp] theorem State.countBlock_quiet (s : State) (n k : Nat) : s.Quiet (s.countBlock n k) := by simp [Quiet, countBlock]

@[simp] theorem State.tryDone_quiet (s : State) (n k : Nat) : s.Quiet (s.tryDone n k) := by simp [Quiet, tryDone]

@[simp] theorem State.jobBlock_quiet (s : State) (n k elems pre : Nat) : s.Quiet (s.jobBlock n k elems pre) := by
  unfold jobBlock
  dsimp only
  (repeat' split) <;> simp [Quiet]

@[simp] theorem State.modRun_quiet (s : State) (n : Nat) (f : Eng → Eng) : s.Quiet (s.modRun n f) := by simp [Quiet, modRun]

@[simp] theorem State.issueSched_quiet (s : State) (n : Nat) (r : SRun) (d : Desc) (a0 : EAcc) : s.Quiet (s.issueSched n r d a0).1 := by
  simp [Quiet, issueSched]

@[simp] theorem State.pumpRun_quiet (s : State) (n : Nat) (en : SEntry) (m : Nat) : s.Quiet (s.pumpRun n en m) := by
  induction m generalizing s with
  | zero => simp [pumpRun, Quiet]
  | succ m ih =>
    simp only [pumpRun]
    split
    · simp [Quiet]
    · split
      · simp [Quiet]
      · split
        · simp [Quiet]
        · simp [Quiet, ih]

@[simp] theorem State.issueRun_quiet (s : State) (n : Nat) (en : SEntry) (l : List EAcc) : s.Quiet (s.issueRun n en l) := by simp [Quiet, issueRun]

@[simp] theorem State.prefetchRun_quiet (s : State) (n : Nat) (en : SEntry) (m : Nat) : s.Quiet (s.prefetchRun n en m) := by
  induction m generalizing s with
  | zero => simp [prefetchRun, Quiet]
  | succ m ih =>
    simp only [prefetchRun]
    split
    · simp [Quiet]
    · split
      · simp [Quiet]
      · split <;> simp [Quiet, ih]

@[simp] theorem State.mergeWins_quiet (s : State) (n : Nat) (en : SEntry) (l : List Piece) : s.Quiet (s.mergeWins n en l) := by
  simp [Quiet, mergeWins]

@[simp] theorem State.setLate_quiet (s : State) (n : Nat) (en : SEntry) : s.Quiet (s.setLate n en) := by simp [Quiet, setLate]

@[simp] theorem State.reopen_quiet (s : State) (n : Nat) (ws : List Nat) : s.Quiet (s.reopen n ws) := by simp [Quiet, reopen]

@[simp] theorem State.absorbAll_quiet (s : State) (n : Nat) (ws : List Nat) : s.Quiet (s.absorbAll n ws) := by simp [Quiet, absorbAll]

@[simp] theorem State.startOp_quiet (s : State) (n entry cycle : Nat) : s.Quiet (s.startOp n entry cycle) := by simp [Quiet, startOp]

@[simp] theorem State.startDue_quiet (s : State) (n : Nat) : s.Quiet (s.startDue n) := by
  unfold startDue
  split <;> simp [Quiet]

@[simp] theorem State.endOp_quiet (s : State) (n : Nat) : s.Quiet (s.endOp n) := by
  unfold endOp
  split <;> simp [Quiet]

@[simp] theorem State.tryEndOp_quiet (s : State) (n : Nat) : s.Quiet (s.tryEndOp n) := by
  unfold tryEndOp
  split <;> simp [Quiet]

@[simp] theorem State.failOp_quiet (s : State) (n : Nat) (st : Status) : s.Quiet (s.failOp n st) := by
  unfold failOp
  split <;> simp [Quiet]

@[simp] theorem State.schedBlock_quiet (s : State) (n elems pre : Nat) : s.Quiet (s.schedBlock n elems pre) := by
  unfold schedBlock
  dsimp only
  (repeat' split) <;> simp [Quiet]

@[simp] theorem execBlockEnd_quiet (tile : Fin 32) (elems prefetch : Nat) (s : State) : Ends s.Quiet (execBlockEnd tile elems prefetch s) := by
  unfold execBlockEnd
  dsimp only
  (repeat' split) <;> simp [State.Quiet]

@[simp] theorem State.jobDone_quiet (s : State) (n k : Nat) (d : EDone) : s.Quiet (s.jobDone n k d) := by
  unfold jobDone
  dsimp only
  split <;> simp [Quiet]

@[simp] theorem State.opDone_quiet (s : State) (n : Nat) (r : SRun) (d : EDone) : s.Quiet (s.opDone n r d) := by
  unfold opDone
  dsimp only
  split <;> simp [Quiet]

@[simp] theorem execEngineAccessComplete_quiet (tile : Fin 32) (s : State) : Ends s.Quiet (execEngineAccessComplete tile s) := by
  unfold execEngineAccessComplete
  dsimp only
  (repeat' split) <;> simp [State.Quiet]

@[simp] theorem execEngineRetryReissue_quiet (tile : Fin 32) (s : State) : Ends s.Quiet (execEngineRetryReissue tile s) := by
  unfold execEngineRetryReissue
  dsimp only
  split
  · simp [State.Quiet]
  · split
    · split
      · simp [State.Quiet]
      · split
        · simp [State.Quiet]
        · split <;> simp [State.Quiet]
    · next k _ _ =>
      split
      · simp [State.Quiet]
      · split
        · simp [State.Quiet]
        · next a _ =>
          have issued := (s.modJob tile.val k fun j => { j with eng := { j.eng with retry := j.eng.retry.erase a } }).issueJob_quiet tile.val k a
          split <;> simp_all [State.Quiet]
    · simp [State.Quiet]

/-! ### The known-answer test -/

@[simp] theorem State.katSetDue_quiet (s : State) (n : Nat) (trigger : Byte) : s.Quiet (s.katSetDue n trigger) := by simp [Quiet, katSetDue]

@[simp] theorem execKatDue_quiet (tile : Fin 32) (s : State) : Ends s.Quiet (execKatDue tile s) := by simp [State.Quiet, execKatDue]

@[simp] theorem execSuspectTestDue_quiet (tile : Fin 32) (s : State) : Ends s.Quiet (execSuspectTestDue tile s) := by
  simp [State.Quiet, execSuspectTestDue]

@[simp] theorem State.march_quiet (s : State) (n : Nat) : s.Quiet (s.march n) := by simp [Quiet, march]

@[simp] theorem execKatStart_quiet (tile : Fin 32) (s : State) : Ends s.Quiet (execKatStart tile s) := by simp [State.Quiet, execKatStart]

@[simp] theorem State.katTime_quiet (s : State) (n : Nat) : s.Quiet (s.katTime n) := by simp [Quiet, katTime]

@[simp] theorem execKatSegmentEnd_quiet (tile : Fin 32) (s : State) : Ends s.Quiet (execKatSegmentEnd tile s) := by
  unfold execKatSegmentEnd
  dsimp only
  (repeat' split) <;> simp [State.Quiet]

@[simp] theorem State.placeAgain_quiet (s : State) (q : Nat) (x : Nat × Nat) : s.Quiet (s.placeAgain q x) := by
  unfold placeAgain
  (repeat' split) <;> simp [Quiet]

@[simp] theorem State.katRelease_quiet (s : State) (n : Nat) (pass : Bool) (covers : List (Nat × BitVec 21)) :
    s.Quiet (s.katRelease n pass covers) := by
  simp [Quiet, katRelease]

@[simp] theorem State.katReply_quiet (s : State) (n : Nat) (pass : Bool) : s.Quiet (s.katReply n pass) := by simp [Quiet, katReply]

@[simp] theorem State.katPass_quiet (s : State) (n : Nat) : s.Quiet (s.katPass n) := by simp [Quiet, katPass]

@[simp] theorem State.katFinish_quiet (s : State) (n : Nat) (pass : Bool) (rec : Nat → Option ErrRec) : s.Quiet (s.katFinish n pass rec) := by
  unfold katFinish
  dsimp only
  (repeat' split) <;> simp [Quiet]

@[simp] theorem execKatEnd_quiet (tile : Fin 32) (r : KatResult) (s : State) : Ends s.Quiet (execKatEnd tile r s) := by
  unfold execKatEnd
  split <;> simp [State.Quiet]

@[simp] theorem execEngineFault_quiet (tile : Fin 32) (checker : Byte) (s : State) : Ends s.Quiet (execEngineFault tile checker s) := by
  unfold execEngineFault
  dsimp only
  split <;> simp [State.Quiet]

/-! ### Combine commands -/

@[simp] theorem State.zeroFill_quiet (s : State) (i : Nat) (f : Comb → Comb) : s.Quiet (s.zeroFill i f).st := by simp [Quiet, zeroFill]

@[simp] theorem combineSetup_quiet (s : State) (c : Cmd) (a : Nat) : s.Quiet (combineSetup s c a).st := by simp [State.Quiet, combineSetup]

@[simp] theorem combineClear_quiet (s : State) (c : Cmd) (a : Nat) : s.Quiet (combineClear s c a).st := by simp [State.Quiet, combineClear]

theorem State.placeChunks_quiet {s t : State} {i : Nat} {l : List Nat} (h : s.placeChunks i l = some t) : s.Quiet t := by
  induction l generalizing s with
  | nil => simp_all [placeChunks, Quiet]
  | cons c l ih =>
    simp only [placeChunks] at h
    split at h
    · simp at h
    · split at h
      · simp at h
      · exact Quiet.trans (by simp [Quiet]) (ih h)

@[simp] theorem combineReside_quiet (s : State) (c : Cmd) (a : Nat) : s.Quiet (combineReside s c a).st := by
  unfold combineReside
  dsimp only
  split_ifs
  · simp [State.Quiet]
  · simp [State.Quiet]
  · simp [State.Quiet]
  · split
    · next t h => exact State.placeChunks_quiet h
    · simp [State.Quiet]

@[simp] theorem combineRelease_quiet (s : State) (c : Cmd) (a : Nat) : s.Quiet (combineRelease s c a).st := by simp [State.Quiet, combineRelease]

/-! ### Invalidation -/

@[simp] theorem State.invalJob_quiet (s : State) (n k lo hi : Nat) : s.Quiet (s.invalJob n k lo hi) := by
  unfold invalJob
  dsimp only
  (repeat' split) <;> simp [Quiet]

@[simp] theorem State.invalRange_quiet (s : State) (p cid : Nat) (all : Bool) (base len : Nat) : s.Quiet (s.invalRange p cid all base len) := by
  simp [Quiet, invalRange]

/-! ### Takeover and switchover -/

@[simp] theorem State.setNoFw_quiet (s : State) (reason : Nat) : s.Quiet (s.setNoFw reason) := by simp [Quiet, setNoFw]

@[simp] theorem State.coreTrigger_quiet (s : State) (cause : BitVec 3) : s.Quiet (s.coreTrigger cause) := by simp [Quiet, coreTrigger]

@[simp] theorem execHeartbeatWrite_quiet (s : State) : Ends s.Quiet (execHeartbeatWrite s) := by simp [State.Quiet, execHeartbeatWrite]

@[simp] theorem execHeartbeatWatchdog_quiet (s : State) : Ends s.Quiet (execHeartbeatWatchdog s) := by simp [State.Quiet, execHeartbeatWatchdog]

@[simp] theorem execCoreFault_quiet (s : State) : Ends s.Quiet (execCoreFault s) := by simp [State.Quiet, execCoreFault]

@[simp] theorem State.present_quiet (s : State) (g : OutStage) (c : BitVec 32) : s.Quiet (s.present g c) := by simp [Quiet, present]

@[simp] theorem execStandbyBootDone_quiet (boot : StandbyBoot) (s : State) : Ends s.Quiet (execStandbyBootDone boot s) := by
  unfold execStandbyBootDone
  (repeat' split) <;> simp [State.Quiet]

@[simp] theorem State.replayArm_quiet (s : State) : s.Quiet s.replayArm := by
  unfold replayArm
  split <;> simp [Quiet]

@[simp] theorem State.replayEntry_keeps (s : State) : s.Keeps s.replayEntry := by simp [Keeps, replayEntry]

@[simp] theorem State.replayInval_quiet (s : State) : s.Quiet s.replayInval := by
  unfold replayInval
  refine Quiet.trans (each_quiet _ _ _ fun u w => ?_) (invalCheck_quiet _)
  split <;> simp [Quiet]

@[simp] theorem State.replayCmds_quiet (s : State) : s.Quiet s.replayCmds := by simp [Quiet, replayCmds]

@[simp] theorem State.replayCommit_quiet (s : State) : s.Quiet s.replayCommit := by
  unfold replayCommit
  split <;> simp [Quiet]

@[simp] theorem execJournalReplayDone_keeps (s : State) : Ends s.Keeps (execJournalReplayDone s) := by simp [State.Keeps, execJournalReplayDone]

@[simp] theorem execOldCoreCheckDone_quiet (ok : Bool) (s : State) : Ends s.Quiet (execOldCoreCheckDone ok s) := by
  simp [State.Quiet, execOldCoreCheckDone]

@[simp] theorem State.fwEvent_quiet (s : State) (cause : Nat) (f : FwSlot) : s.Quiet (s.fwEvent cause f) := by simp [Quiet, fwEvent]

@[simp] theorem State.commitPart_quiet (s : State) (p : Nat) : s.Quiet (s.commitPart p) := by simp [Quiet, commitPart]

@[simp] theorem execSwitchoverStart_quiet (s : State) : Ends s.Quiet (execSwitchoverStart s) := by simp [State.Quiet, execSwitchoverStart]

@[simp] theorem State.endCommit_quiet (s : State) (next : CoreStep) (standby : BitVec 2) : s.Quiet (s.endCommit next standby) := by
  simp [Quiet, endCommit]

@[simp] theorem execSwitchoverBootDone_keeps (ok : Bool) (s : State) : Ends s.Keeps (execSwitchoverBootDone ok s) := by
  unfold execSwitchoverBootDone
  dsimp only
  (repeat' split) <;> simp [State.Keeps]

@[simp] theorem State.commitDone_quiet (s : State) : s.Quiet s.commitDone := by simp [Quiet, commitDone]

@[simp] theorem execSwitchoverComplete_keeps (s : State) : Ends s.Keeps (execSwitchoverComplete s) := by simp [State.Keeps, execSwitchoverComplete]

/-! ### Control commands -/

@[simp] theorem adminSet_quiet (s : State) (c : Cmd) (a : Nat) : s.Quiet (adminSet s c a).st := by simp [State.Quiet, adminSet]

@[simp] theorem notifySet_quiet (s : State) (c : Cmd) (a : Nat) : s.Quiet (notifySet s c a).st := by simp [State.Quiet, notifySet]

@[simp] theorem mcTakeover_quiet (s : State) (c : Cmd) (k : Nat) : s.Quiet (mcTakeover s c k).st := by simp [State.Quiet, mcTakeover]

@[simp] theorem counterSnapshot_quiet (s : State) (c : Cmd) (a : Nat) : s.Quiet (counterSnapshot s c a).st := by simp [State.Quiet, counterSnapshot]

@[simp] theorem State.latch_quiet (s : State) (bs : List Nat) : s.Quiet (s.latch bs) := by simp [Quiet, latch]

@[simp] theorem execSnapshotLatch_quiet (s : State) : Ends s.Quiet (execSnapshotLatch s) := by simp [State.Quiet, execSnapshotLatch]

@[simp] theorem testRun_quiet (s : State) (c : Cmd) (a : Nat) : s.Quiet (testRun s c a).st := by simp [State.Quiet, testRun]

@[simp] theorem powerCapSet_keeps (s : State) (c : Cmd) (a : Nat) : s.Keeps (powerCapSet s c a).st := by simp [State.Keeps, powerCapSet]

@[simp] theorem deviceReset_quiet (s : State) (c : Cmd) (a : Nat) : s.Quiet (deviceReset s c a).st := by simp [State.Quiet, deviceReset]

@[simp] theorem debugOk_quiet (s : State) (c : Cmd) (unit count : Nat) (go : State → Answer) (h : ∀ u, State.Quiet u (go u).st) :
    s.Quiet (debugOk s c unit count go).st := by
  simp [debugOk, h, State.Quiet]

@[simp] theorem dbgRead_quiet (s : State) (c : Cmd) (a : Nat) : s.Quiet (dbgRead s c a).st := by simp [State.Quiet, dbgRead]

@[simp] theorem dbgWrite_quiet (s : State) (c : Cmd) (a : Nat) : s.Quiet (dbgWrite s c a).st := by simp [State.Quiet, dbgWrite]

/-! ### Link commands -/

@[simp] theorem linkEnable_quiet (s : State) (c : Cmd) (a : Nat) : s.Quiet (linkEnable s c a).st := by simp [State.Quiet, linkEnable]

@[simp] theorem State.disablePort_quiet (s : State) (p reason : Nat) : s.Quiet (s.disablePort p reason) := by simp [Quiet, disablePort]

@[simp] theorem linkDisable_quiet (s : State) (c : Cmd) (a : Nat) : s.Quiet (linkDisable s c a).st := by simp [State.Quiet, linkDisable]

@[simp] theorem linkRetrain_quiet (s : State) (c : Cmd) (a : Nat) : s.Quiet (linkRetrain s c a).st := by simp [State.Quiet, linkRetrain]

@[simp] theorem linkTune_quiet (s : State) (c : Cmd) (a : Nat) : s.Quiet (linkTune s c a).st := by simp [State.Quiet, linkTune]

@[simp] theorem fabricConfig_quiet (s : State) (c : Cmd) (a : Nat) : s.Quiet (fabricConfig s c a).st := by simp [State.Quiet, fabricConfig]

@[simp] theorem routeLoad_keeps (s : State) (c : Cmd) (a : Nat) : s.Keeps (routeLoad s c a).st := by
  unfold routeLoad
  dsimp only
  split
  · simp [State.Keeps]
  · split
    · simp [State.Keeps]
    · refine withRef_keeps _ _ _ _ _ _ fun u b => ?_
      split <;> simp [State.Keeps]

@[simp] theorem routeFlip_quiet (s : State) (c : Cmd) (a : Nat) : s.Quiet (routeFlip s c a).st := by simp [State.Quiet, routeFlip]

@[simp] theorem nodeWithdraw_quiet (s : State) (c : Cmd) (k : Nat) : s.Quiet (nodeWithdraw s c k).st := by simp [State.Quiet, nodeWithdraw]

/-! ### Routing -/

theorem State.sequence_quiet {s t : State} {p q : Packet} (h : s.sequence p = some (q, t)) : s.Quiet t := by
  unfold sequence at h
  dsimp only at h
  split_ifs at h <;> obtain ⟨-, rfl⟩ := Prod.mk.inj (Option.some.inj h) <;> simp [Quiet]

@[simp] theorem State.sendOn_quiet (s : State) (port : Nat) (p : Packet) (demoted : Bool) (inp : Option (Fin 4)) :
    s.Quiet (s.sendOn port p demoted inp) := by
  simp [Quiet, sendOn]

@[simp] theorem State.discard_quiet (s : State) (d : Nat) (inp : Option (Fin 4)) (p : Packet) (counter : Nat) :
    s.Quiet (s.discard d inp p counter) := by
  simp [Quiet, discard]

@[simp] theorem State.routeOut_quiet (s : State) (d : Nat) (t : Transit) : s.Quiet (s.routeOut d t) := by
  unfold routeOut
  dsimp only
  (repeat' split) <;> simp [Quiet]

@[simp] theorem State.routePkt_quiet (s : State) (d : Nat) (t : Transit) : s.Quiet (s.routePkt d t) := by
  unfold routePkt
  dsimp only
  (repeat' split) <;> simp [Quiet]

@[simp] theorem State.drainIn_quiet (s : State) (d i : Nat) : s.Quiet (s.drainIn d i) := by simp [Quiet, drainIn]

@[simp] theorem execRoutePacket_quiet (die : Fin 4) (inp : Option (Fin 4)) (p : Packet) (s : State) : Ends s.Quiet (execRoutePacket die inp p s) := by
  unfold execRoutePacket
  dsimp only
  split
  · simp [State.Quiet]
  · split
    · simp [State.Quiet]
    · split
      · simp [State.Quiet]
      · split
        · simp [State.Quiet]
        · next q u hs =>
          have sequenced := State.sequence_quiet hs
          simp_all [State.Quiet]

@[simp] theorem execTransitReevaluate_quiet (die : Fin 4) (s : State) : Ends s.Quiet (execTransitReevaluate die s) := by
  simp [State.Quiet, execTransitReevaluate]

@[simp] theorem execRouteFlipAtTf_quiet (s : State) : Ends s.Quiet (execRouteFlipAtTf s) := by
  unfold execRouteFlipAtTf
  split <;> simp [State.Quiet]

@[simp] theorem execRestamp_quiet (die : Fin 4) (s : State) : Ends s.Quiet (execRestamp die s) := by simp [State.Quiet, execRestamp]

@[simp] theorem execDrain_quiet (die port : Fin 4) (s : State) : Ends s.Quiet (execDrain die port s) := by
  unfold execDrain
  split <;> simp [State.Quiet]

@[simp] theorem execDrainTimeout_quiet (die : Fin 4) (s : State) : Ends s.Quiet (execDrainTimeout die s) := by simp [State.Quiet, execDrainTimeout]

@[simp] theorem State.breakReq_quiet (s : State) (src : Eid) : s.Quiet (s.breakReq src) := by simp [Quiet, breakReq]

@[simp] theorem State.releaseAll_quiet (s : State) (e : BitVec 16) (l : List (Packet × Nat)) : s.Quiet (s.releaseAll e l).1 := by
  simp [Quiet, releaseAll]

@[simp] theorem State.breakRsp_quiet (s : State) (src : Eid) : s.Quiet (s.breakRsp src) := by
  unfold breakRsp
  dsimp only
  split <;> simp [Quiet]

@[simp] theorem execPairGapTimeout_quiet (src : Eid) (rsp : Bool) (s : State) : Ends s.Quiet (execPairGapTimeout src rsp s) := by
  unfold execPairGapTimeout
  split <;> simp [State.Quiet]

@[simp] theorem execBreakNotice_quiet (p : Packet) (s : State) : Ends s.Quiet (execBreakNotice p s) := by simp [State.Quiet, execBreakNotice]

@[simp] theorem execOriginatedCompletion_quiet (p : Packet) (s : State) : Ends s.Quiet (execOriginatedCompletion p s) := by
  simp [State.Quiet, execOriginatedCompletion]

@[simp] theorem execRequestTimeout_quiet (rtag : BitVec 32) (s : State) : Ends s.Quiet (execRequestTimeout rtag s) := by
  unfold execRequestTimeout
  split <;> simp [State.Quiet]

/-! ### Schedules -/

@[simp] theorem execGateEntryBoundary_quiet (port : Fin 17) (s : State) : Ends s.Quiet (execGateEntryBoundary port s) := by
  unfold execGateEntryBoundary
  dsimp only
  (repeat' split) <;> simp [State.Quiet]

@[simp] theorem State.columns_quiet (s : State) (im : Image) (k b : Nat) : s.Quiet (s.columns im k b) := by simp [Quiet, columns]

@[simp] theorem execListSwitch_quiet (s : State) : Ends s.Quiet (execListSwitch s) := by
  unfold execListSwitch
  split <;> simp [State.Quiet]

@[simp] theorem State.placeLand_quiet (s : State) (k : Nat) : s.Quiet (s.placeLand k) := by
  unfold placeLand
  dsimp only
  split <;> simp [Quiet]

@[simp] theorem State.placeLands_quiet (s : State) : s.Quiet s.placeLands := by simp [Quiet, placeLands]

@[simp] theorem State.leaveImage_quiet (s : State) : s.Quiet s.leaveImage := by simp [Quiet, leaveImage]

@[simp] theorem State.takeover_quiet (s : State) (im : Image) : s.Quiet (s.takeover im) := by
  unfold takeover
  extract_lets tx down left sched run tiles lands placed gates last
  have placing : s.Quiet placed := by simp [Quiet, placed, lands, tiles, run, left, sched]
  have moving : placed.Quiet gates := each_quiet _ _ _ fun u p => by split <;> simp [Quiet]
  exact placing.trans (moving.trans (by simp [Quiet, last]))

@[simp] theorem State.disarm_quiet (s : State) : s.Quiet s.disarm := by simp [Quiet, disarm]

@[simp] theorem execSchedTakeover_quiet (s : State) : Ends s.Quiet (execSchedTakeover s) := by
  unfold execSchedTakeover
  split
  · split <;> simp [State.Quiet]
  · simp [State.Quiet]

@[simp] theorem execArmLateDeadline_quiet (s : State) : Ends s.Quiet (execArmLateDeadline s) := by
  unfold execArmLateDeadline
  split <;> simp [State.Quiet]

@[simp] theorem execArmStepsDone_quiet (s : State) : Ends s.Quiet (execArmStepsDone s) := by simp [State.Quiet, execArmStepsDone]

@[simp] theorem execSchedIdleAfterLoss_quiet (s : State) : Ends s.Quiet (execSchedIdleAfterLoss s) := by simp [State.Quiet, execSchedIdleAfterLoss]

@[simp] theorem execSchedOpDue_quiet (tile : Fin 32) (entry : Fin 512) (s : State) : Ends s.Quiet (execSchedOpDue tile entry s) := by
  unfold execSchedOpDue
  dsimp only
  split <;> simp [State.Quiet]

@[simp] theorem execSchedOpDeadline_quiet (tile : Fin 32) (s : State) : Ends s.Quiet (execSchedOpDeadline tile s) := by
  unfold execSchedOpDeadline
  dsimp only
  split <;> simp [State.Quiet]

@[simp] theorem execChunkReleaseDone_quiet (tile : Fin 32) (win : Fin 16) (s : State) : Ends s.Quiet (execChunkReleaseDone tile win s) := by
  simp [State.Quiet, execChunkReleaseDone]

@[simp] theorem execFtsPulse_keeps (s : State) : Ends s.Keeps (execFtsPulse s) := by simp [State.Keeps, execFtsPulse]

/-! ### Schedule commands -/

@[simp] theorem ftConfig_quiet (s : State) (c : Cmd) (a : Nat) : s.Quiet (ftConfig s c a).st := by simp [State.Quiet, ftConfig]

@[simp] theorem schedStage_keeps (s : State) (c : Cmd) (a : Nat) : s.Keeps (schedStage s c a).st := by simp [State.Keeps, schedStage]

@[simp] theorem State.armWins_quiet (s : State) : s.Quiet s.armWins := by simp [Quiet, armWins]

@[simp] theorem badImage_quiet (s : State) (c : Cmd) (n : Nat) : s.Quiet (badImage s c n).st := by simp [State.Quiet, badImage]

@[simp] theorem schedArm_quiet (s : State) (c : Cmd) (a : Nat) : s.Quiet (schedArm s c a).st := by simp [State.Quiet, schedArm]

@[simp] theorem schedDisarm_quiet (s : State) (c : Cmd) (a : Nat) : s.Quiet (schedDisarm s c a).st := by
  unfold schedDisarm
  split <;> simp [State.Quiet]

@[simp] theorem schedCancel_quiet (s : State) (c : Cmd) (k : Nat) : s.Quiet (schedCancel s c k).st := by simp [State.Quiet, schedCancel]

@[simp] theorem shapePortSet_quiet (s : State) (c : Cmd) (a : Nat) : s.Quiet (shapePortSet s c a).st := by simp [State.Quiet, shapePortSet]

@[simp] theorem State.flowTags_quiet (s : State) (f n : Nat) : s.Quiet (s.flowTags f n) := by simp [Quiet, flowTags]

@[simp] theorem shapePartSet_quiet (s : State) (c : Cmd) (a : Nat) : s.Quiet (shapePartSet s c a).st := by simp [State.Quiet, shapePartSet]

@[simp] theorem limitSet_quiet (s : State) (c : Cmd) (a : Nat) : s.Quiet (limitSet s c a).st := by simp [State.Quiet, limitSet]

/-! ### Memory commands -/

@[simp] theorem memSetRate_quiet (s : State) (c : Cmd) (a : Nat) : s.Quiet (memSetRate s c a).st := by simp [State.Quiet, memSetRate]

@[simp] theorem memConfig_quiet (s : State) (c : Cmd) (a : Nat) : s.Quiet (memConfig s c a).st := by simp [State.Quiet, memConfig]

@[simp] theorem memDiagOpen_quiet (s : State) (c : Cmd) (a : Nat) : s.Quiet (memDiagOpen s c a).st := by simp [State.Quiet, memDiagOpen]

@[simp] theorem State.storeRaw_keeps (s : State) (l : Nat) (d : Line) (chk : BitVec 128) : s.Keeps (s.storeRaw l d chk) := by simp [Keeps, storeRaw]

@[simp] theorem memDiagWrite_keeps (s : State) (c : Cmd) (a : Nat) : s.Keeps (memDiagWrite s c a).st := by simp [State.Keeps, memDiagWrite]

@[simp] theorem State.rawC15_keeps (s : State) (l : Nat) : s.Keeps (s.rawC15 l) := by
  unfold rawC15
  split <;> simp [Keeps]

@[simp] theorem memDiagRead_keeps (s : State) (c : Cmd) (a : Nat) : s.Keeps (memDiagRead s c a).st := by simp [State.Keeps, memDiagRead]

@[simp] theorem State.fillGroup3_keeps (s : State) (n : Nat) : s.Keeps (s.fillGroup3 n) := by
  simp [fillGroup3, Keeps]

@[simp] theorem memDiagClose_keeps (s : State) (c : Cmd) (a : Nat) : s.Keeps (memDiagClose s c a).st := by simp [State.Keeps, memDiagClose]

/-! ### Notifications -/

@[simp] theorem execNotifySend_quiet (target : Fin 65) (s : State) : Ends s.Quiet (execNotifySend target s) := by
  unfold execNotifySend
  dsimp only
  split <;> simp [State.Quiet]

@[simp] theorem execStagingPlaceFree_quiet (target : Fin 65) (s : State) : Ends s.Quiet (execStagingPlaceFree target s) := by
  unfold execStagingPlaceFree
  dsimp only
  (repeat' split) <;> simp [State.Quiet]

@[simp] theorem State.hostAnswer_quiet (s0 : State) (p : Packet) (write : Bool) (data : Line) : s0.Quiet (s0.hostAnswer p write data) := by
  unfold hostAnswer
  dsimp only
  (repeat' split) <;> simp [Quiet]

@[simp] theorem execMcmp_quiet (p : Packet) (s : State) : Ends s.Quiet (execMcmp p s) := by simp [State.Quiet, execMcmp]

@[simp] theorem execMcmpData_quiet (p : Packet) (s : State) : Ends s.Quiet (execMcmpData p s) := by simp [State.Quiet, execMcmpData]

@[simp] theorem execHostMemoryTimeout_quiet (tag : BitVec 16) (s : State) : Ends s.Quiet (execHostMemoryTimeout tag s) := by
  unfold execHostMemoryTimeout
  split <;> simp [State.Quiet]

@[simp] theorem execQoreusLinkUp_quiet (s : State) : Ends s.Quiet (execQoreusLinkUp s) := by simp [State.Quiet, execQoreusLinkUp]

/-! ### Patrol and sensors -/

@[simp] theorem State.loseRec_quiet (s : State) (x1 : RecAt) : s.Quiet (s.loseRec x1) := by
  unfold loseRec
  split <;> simp [Quiet]

@[simp] theorem State.oneOf_quiet {α : Type} (s : State) (l : List α) (f : State → α → State) (h : ∀ u a, State.Quiet u (f u a)) :
    s.Quiet (s.oneOf l f) := by
  unfold oneOf
  dsimp only
  split
  · simp [Quiet]
  · split <;> simp [Quiet, h]

@[simp] theorem State.reservedLost_quiet (s : State) (l region j : Nat) : s.Quiet (s.reservedLost l region j) := by
  unfold reservedLost
  split
  · split <;> simp [Quiet]
  · split
    · simp [Quiet]
    · exact oneOf_quiet _ _ _ fun u i => by split <;> simp [Quiet]
  · exact oneOf_quiet _ _ _ fun u i => by split <;> simp [Quiet]
  · simp [Quiet]
  · simp [Quiet]
  · simp [Quiet]
  · simp [Quiet]

@[simp] theorem State.reservedUe_quiet (s : State) (l region j : Nat) (a b : Cls) (c0 c1 : RawEcc) :
    s.Quiet (s.reservedUe l region j a b c0 c1) := by
  simp [Quiet, reservedUe]

@[simp] theorem State.patrolLine_quiet (s : State) (l : Nat) (c0 c1 : RawEcc) : s.Quiet (s.patrolLine l c0 c1) := by
  unfold patrolLine
  dsimp only
  (repeat' split) <;> simp [Quiet]

@[simp] theorem State.patrolOn_quiet (s : State) (n : Nat) : s.Quiet (s.patrolOn n) := by simp [Quiet, patrolOn]

@[simp] theorem execPatrolStep_quiet (stack : Fin 8) (c0 c1 : RawEcc) (s : State) : Ends s.Quiet (execPatrolStep stack c0 c1 s) := by
  simp [State.Quiet, execPatrolStep]

/-! ### Start-up and reset -/

@[simp] theorem State.restart_pending (s : State) (nv : Nv) (phase : Phase) : (s.restart nv phase).pending = s.pending := rfl

@[simp] theorem State.restart_nv (s : State) (nv : Nv) (phase : Phase) : (s.restart nv phase).nv = nv := rfl

@[simp] theorem State.restartOn_pending (s : State) (nv : Nv) (phase : Phase) (rail : Nat) : (s.restartOn nv phase rail).pending = s.pending := rfl

@[simp] theorem State.restartOn_nv (s : State) (nv : Nv) (phase : Phase) (rail : Nat) : (s.restartOn nv phase rail).nv = nv := rfl

@[simp] theorem State.readFuses_keeps (s : State) : s.Keeps s.readFuses := by simp [Keeps, readFuses]

@[simp] theorem State.wholeReset_keeps (s : State) (cause : BitVec 3) : s.Keeps (s.wholeReset cause) := by simp [Keeps, wholeReset]

@[simp] theorem execPowerOn_keeps (s : State) : Ends s.Keeps (execPowerOn s) := by
  unfold execPowerOn
  split <;> simp [State.Keeps]

@[simp] theorem execRailPowerGood_keeps (s : State) : Ends s.Keeps (execRailPowerGood s) := by simp [State.Keeps, execRailPowerGood]

@[simp] theorem execRailPowerGoodTimeout_keeps (s : State) : Ends s.Keeps (execRailPowerGoodTimeout s) := by
  simp [State.Keeps, execRailPowerGoodTimeout]

@[simp] theorem execRailRetryTimer_keeps (s : State) : Ends s.Keeps (execRailRetryTimer s) := by simp [State.Keeps, execRailRetryTimer]

@[simp] theorem execOscillatorStable_keeps (s : State) : Ends s.Keeps (execOscillatorStable s) := by simp [State.Keeps, execOscillatorStable]

@[simp] theorem execInputFault_keeps (mv us : Nat) (s : State) : Ends s.Keeps (execInputFault mv us s) := by simp [State.Keeps, execInputFault]

@[simp] theorem execLogicSelftestDone_keeps (passed : UnitMap) (s : State) : Ends s.Keeps (execLogicSelftestDone passed s) := by
  simp [State.Keeps, execLogicSelftestDone]

@[simp] theorem execMemPhyTrainingDone_keeps (s : State) : Ends s.Keeps (execMemPhyTrainingDone s) := by simp [State.Keeps, execMemPhyTrainingDone]

@[simp] theorem execMemSelftestDone_keeps (rows : List RowFail) (s : State) : Ends s.Keeps (execMemSelftestDone rows s) := by
  simp [State.Keeps, execMemSelftestDone]

@[simp] theorem State.releaseCores_quiet (s : State) (ok0 ok1 : Bool) : s.Quiet (s.releaseCores ok0 ok1) := by simp [Quiet, releaseCores]

@[simp] theorem State.reconcile_keeps (s : State) (mc0 mc1 : Bool) : s.Keeps (s.reconcile mc0 mc1) := by simp [Keeps, reconcile]

@[simp] theorem execMemFillDone_keeps (mc0 mc1 : Bool) (s : State) : Ends s.Keeps (execMemFillDone mc0 mc1 s) := by
  simp [State.Keeps, execMemFillDone]

@[simp] theorem State.bootTest_quiet (s : State) (n : Nat) (pass : Bool) : s.Quiet (s.bootTest n pass) := by simp [Quiet, bootTest]

@[simp] theorem State.bootRecords_quiet (s : State) : s.Quiet s.bootRecords := by simp [Quiet, bootRecords]

@[simp] theorem State.bootServe_keeps (s : State) : s.Keeps s.bootServe := by simp [Keeps, bootServe]

@[simp] theorem State.copyVectors_keeps (s : State) : s.Keeps s.copyVectors := by simp [Keeps, copyVectors]

@[simp] theorem execStewardBootDone_keeps (kat : BitVec 32) (staged : Bool) (s : State) : Ends s.Keeps (execStewardBootDone kat staged s) := by
  simp [State.Keeps, execStewardBootDone]

@[simp] theorem State.earlyReset_keeps (s : State) (cause : BitVec 3) : s.Keeps (s.earlyReset cause) := by
  unfold earlyReset
  split <;> simp [Keeps]

@[simp] theorem execResetPin_keeps (us : Nat) (s : State) : Ends s.Keeps (execResetPin us s) := by simp [State.Keeps, execResetPin]

@[simp] theorem execDeviceResetStart_keeps (s : State) : Ends s.Keeps (execDeviceResetStart s) := by
  unfold execDeviceResetStart
  split <;> simp [State.Keeps]

@[simp] theorem execI3cReset_keeps (b0 b1 : Byte) (gapUs : Nat) (s : State) : Ends s.Keeps (execI3cReset b0 b1 gapUs s) := by
  simp [State.Keeps, execI3cReset]

@[simp] theorem execThermalTrip_keeps (s : State) : Ends s.Keeps (execThermalTrip s) := by simp [State.Keeps, execThermalTrip]

@[simp] theorem execDebugDisableFuseBlow_keeps (s : State) : Ends s.Keeps (execDebugDisableFuseBlow s) := by
  simp [State.Keeps, execDebugDisableFuseBlow]

@[simp] theorem execI3cDynamicAddressAssign_keeps (setdasa : Bool) (addr : BitVec 7) (s : State) :
    Ends s.Keeps (execI3cDynamicAddressAssign setdasa addr s) := by
  simp [State.Keeps, execI3cDynamicAddressAssign]

/-! ### Power states -/

@[simp] theorem State.powerEvent_quiet (s : State) (target : BitVec 3) (cause spec : Nat) : s.Quiet (s.powerEvent target cause spec) := by
  simp [Quiet, powerEvent]

@[simp] theorem State.gateTiles_quiet (s : State) (g : Bool) : s.Quiet (s.gateTiles g) := by simp [Quiet, gateTiles]

@[simp] theorem State.pauseAll_quiet (s : State) (b : Bool) : s.Quiet (s.pauseAll b) := by simp [Quiet, pauseAll]

@[simp] theorem State.hostAgain_quiet (s : State) : s.Quiet s.hostAgain := by simp [Quiet, hostAgain]

@[simp] theorem State.wakeD1_keeps (s : State) : s.Keeps s.wakeD1 := by simp [Keeps, wakeD1]

@[simp] theorem State.abandonEntry_keeps (s : State) (ap : Nat) (u : BitVec 16 × Byte) : s.Keeps (s.abandonEntry ap u) := by
  unfold abandonEntry
  dsimp only
  (repeat' split) <;> simp [Keeps]

theorem State.abortPoint_keeps (s : State) (ap : Nat) (go : State → State) (h : s.Keeps (go s)) : s.Keeps (s.abortPoint ap go) := by
  unfold abortPoint
  split
  · simp [Keeps]
  · exact h

theorem State.Keeps.abortPoint {s t : State} {ap : Nat} {go : State → State} (h : s.Keeps t) (k : t.Keeps (go t)) :
    s.Keeps (t.abortPoint ap go) := h.trans (t.abortPoint_keeps ap go k)

@[simp] theorem State.askUnits_keeps (s : State) : s.Keeps s.askUnits := by simp [Keeps, askUnits]

@[simp] theorem State.enterD1_keeps (s : State) : s.Keeps s.enterD1 := by simp [Keeps, enterD1]

@[simp] theorem State.flushStart_keeps (s : State) : s.Keeps s.flushStart := by simp [Keeps, flushStart]

@[simp] theorem State.hostLeaves_quiet (s : State) : s.Quiet s.hostLeaves := by simp [Quiet, hostLeaves]

@[simp] theorem State.drainStart_keeps (s : State) : s.Keeps s.drainStart := by simp [Keeps, drainStart]

@[simp] theorem State.leaveService_keeps (s : State) : s.Keeps s.leaveService := by simp [Keeps, leaveService]

@[simp] theorem State.stopPort_quiet (s : State) (p : Nat) : s.Quiet (s.stopPort p) := by
  unfold stopPort
  split <;> simp [Quiet]

@[simp] theorem State.stopPorts_keeps (s : State) : s.Keeps s.stopPorts := by simp [Keeps, stopPorts]

@[simp] theorem State.sleepNow_keeps (s : State) : s.Keeps s.sleepNow := by simp [Keeps, sleepNow]

@[simp] theorem State.wakeStart_keeps (s : State) : s.Keeps s.wakeStart := by simp [Keeps, wakeStart]

@[simp] theorem State.enterD3_keeps (s : State) : s.Keeps s.enterD3 := by simp [Keeps, enterD3]

@[simp] theorem State.wakeD3_keeps (s : State) : s.Keeps s.wakeD3 := by simp [Keeps, wakeD3]

@[simp] theorem State.entered_keeps (s : State) : s.Keeps s.entered := by simp [Keeps, entered]

@[simp] theorem State.entryStep_keeps (s : State) : s.Keeps s.entryStep := by
  unfold entryStep
  split
  · exact Keeps.abortPoint (by simp [Keeps]) (by simp [Keeps])
  · split
    · exact abortPoint_keeps _ _ _ (by simp [Keeps])
    · simp [Keeps]
  · split
    · exact Keeps.abortPoint (by simp [Keeps]) (by simp [Keeps])
    · simp [Keeps]
  · split
    · exact abortPoint_keeps _ _ _ (by simp [Keeps])
    · simp [Keeps]
  · simp [Keeps]
  · simp [Keeps]
  · simp [Keeps]

@[simp] theorem execPowerEntryStepDone_keeps (s : State) : Ends s.Keeps (execPowerEntryStepDone s) := by simp [State.Keeps, execPowerEntryStepDone]

@[simp] theorem execPowerUnitAnswer_keeps (unit : BitVec 16) (a : UnitAnswer) (s : State) : Ends s.Keeps (execPowerUnitAnswer unit a s) := by
  unfold execPowerUnitAnswer
  split <;> simp [State.Keeps]

@[simp] theorem execPowerDelayReask_keeps (unit : BitVec 16) (s : State) : Ends s.Keeps (execPowerDelayReask unit s) := by
  simp [State.Keeps, execPowerDelayReask]

@[simp] theorem execPowerDelayExpired_keeps (unit : BitVec 16) (s : State) : Ends s.Keeps (execPowerDelayExpired unit s) := by
  simp [State.Keeps, execPowerDelayExpired]

@[simp] theorem State.wakeEvent_keeps (s : State) : s.Keeps s.wakeEvent := by
  unfold wakeEvent
  (repeat' split) <;> simp [Keeps]

@[simp] theorem execI3cWake_keeps (s : State) : Ends s.Keeps (execI3cWake s) := by simp [State.Keeps, execI3cWake]

@[simp] theorem State.wakeStacks_quiet (s : State) : s.Quiet s.wakeStacks := by simp [Quiet, wakeStacks]

@[simp] theorem State.lostInD2_quiet (s : State) : s.Quiet s.lostInD2 := by simp [Quiet, lostInD2]

@[simp] theorem State.wakeLogic_quiet (s : State) : s.Quiet s.wakeLogic := by simp [Quiet, wakeLogic]

@[simp] theorem execWakeStepDone_keeps (s : State) : Ends s.Keeps (execWakeStepDone s) := by
  unfold execWakeStepDone
  split <;> simp [State.Keeps]

@[simp] theorem powerStateSet_keeps (s : State) (c : Cmd) (a : Nat) : s.Keeps (powerStateSet s c a).st := by simp [State.Keeps, powerStateSet]

/-! ### Security commands -/

@[simp] theorem certRead_keeps (s : State) (c : Cmd) (a : Nat) : s.Keeps (certRead s c a).st := by
  simp [certRead, State.Keeps]

@[simp] theorem attestReport_keeps (s : State) (c : Cmd) (a : Nat) : s.Keeps (attestReport s c a).st := by
  simp [attestReport, State.Keeps]

@[simp] theorem State.openSession_quiet (s : State) (p sid : Nat) (ls th : BitVec 384) : s.Quiet (s.openSession p sid ls th) := by
  simp [Quiet, openSession]

@[simp] theorem sessionOpen_keeps (s : State) (c : Cmd) (a : Nat) : s.Keeps (sessionOpen s c a).st := by
  simp [sessionOpen, State.Keeps]

@[simp] theorem State.flashStart_keeps (s : State) (token : Nat) (f : FwSlot) : s.Keeps (s.flashStart token f) := by simp [Keeps, flashStart]

@[simp] theorem State.flashEnd_keeps (s : State) (f : FwSlot) : s.Keeps (s.flashEnd f) := by simp [Keeps, flashEnd]

@[simp] theorem fwStage_keeps (s : State) (c : Cmd) (a : Nat) : s.Keeps (fwStage s c a).st := by
  unfold fwStage
  split <;> simp [State.Keeps]

@[simp] theorem fwCommit_quiet (s : State) (c : Cmd) (k : Nat) : s.Quiet (fwCommit s c k).st := by simp [State.Quiet, fwCommit]

/-! ### Telemetry -/

@[simp] theorem State.sampleSensor_quiet (s : State) (k : Nat) (v : ℤ) : s.Quiet (s.sampleSensor k v) := by simp [Quiet, sampleSensor]

@[simp] theorem execSensorSample_quiet (values : List ℤ) (s : State) : Ends s.Quiet (execSensorSample values s) := by
  simp [State.Quiet, execSensorSample]

@[simp] theorem State.capEvent_keeps (s : State) (level cause : Nat) : s.Keeps (s.capEvent level cause) := by simp [Keeps, capEvent]

@[simp] theorem State.capUp_keeps (s : State) : s.Keeps s.capUp := by simp [Keeps, capUp]

@[simp] theorem execCapperSample_keeps (power : BitVec 16) (s : State) : Ends s.Keeps (execCapperSample power s) := by
  unfold execCapperSample
  dsimp only
  (repeat' split) <;> simp [State.Keeps]

@[simp] theorem State.capRate_quiet (s : State) (code : Nat) : s.Quiet (s.capRate code) := by simp [Quiet, capRate]

@[simp] theorem State.capLower_quiet (s : State) : s.Quiet s.capLower := by simp [Quiet, capLower]

@[simp] theorem execCapperRateLower_keeps (s : State) : Ends s.Keeps (execCapperRateLower s) := by simp [State.Keeps, execCapperRateLower]

@[simp] theorem execCapperRelease_keeps (s : State) : Ends s.Keeps (execCapperRelease s) := by
  unfold execCapperRelease
  split <;> simp [State.Keeps]

/-! ### Translation commands -/

@[simp] theorem invalidateRange_quiet (s : State) (c : Cmd) (a : Nat) : s.Quiet (invalidateRange s c a).st := by simp [State.Quiet, invalidateRange]

@[simp] theorem elderBind_quiet (s : State) (c : Cmd) (a : Nat) : s.Quiet (elderBind s c a).st := by simp [State.Quiet, elderBind]

@[simp] theorem elderMap_quiet (s : State) (c : Cmd) (a : Nat) : s.Quiet (elderMap s c a).st := by
  unfold elderMap
  dsimp only
  (repeat' split) <;> simp [State.Quiet]

@[simp] theorem cohAgentSet_quiet (s : State) (c : Cmd) (a : Nat) : s.Quiet (cohAgentSet s c a).st := by simp [State.Quiet, cohAgentSet]

@[simp] theorem cohConfig_quiet (s : State) (c : Cmd) (a : Nat) : s.Quiet (cohConfig s c a).st := by simp [State.Quiet, cohConfig]

@[simp] theorem State.place_quiet (s : State) (a : Nat) (rs : List Rng) (pm : Nat) : s.Quiet (s.place a rs pm).st := by
  unfold place
  dsimp only
  split <;> simp [Quiet]

@[simp] theorem jobSubmit_keeps (s : State) (c : Cmd) (a : Nat) : s.Keeps (jobSubmit s c a).st := by simp [State.Keeps, jobSubmit]

@[simp] theorem jobCancel_quiet (s : State) (c : Cmd) (a : Nat) : s.Quiet (jobCancel s c a).st := by simp [State.Quiet, jobCancel]

/-! ### Every command -/

/-- No command changes the queue, or what the fuses and straps hold: the row of each keeps them. -/
theorem exec_keeps (s : State) : ∀ c : Instr, Ends s.Keeps (exec c s)
  | .powerOn => execPowerOn_keeps s
  | .railPowerGood => execRailPowerGood_keeps s
  | .railPowerGoodTimeout => execRailPowerGoodTimeout_keeps s
  | .railRetryTimer => execRailRetryTimer_keeps s
  | .oscillatorStable => execOscillatorStable_keeps s
  | .logicSelftestDone passed => execLogicSelftestDone_keeps passed s
  | .memPhyTrainingDone => execMemPhyTrainingDone_keeps s
  | .memSelftestDone rows => execMemSelftestDone_keeps rows s
  | .memFillDone mc0 mc1 => execMemFillDone_keeps mc0 mc1 s
  | .stewardBootDone kat staged => execStewardBootDone_keeps kat staged s
  | .resetPin us => execResetPin_keeps us s
  | .inputFault mv us => execInputFault_keeps mv us s
  | .thermalTrip => execThermalTrip_keeps s
  | .i3cWake => execI3cWake_keeps s
  | .i3cReset b0 b1 gapUs => execI3cReset_keeps b0 b1 gapUs s
  | .ftCorrectionBroadcast => (execFtCorrectionBroadcast_quiet s).keeps
  | .ftNowNsRead p => (execFtNowNsRead_quiet p s).keeps
  | .ctlWr p => (execCtlWr_quiet p s).keeps
  | .mailboxPost p => (execMailboxPost_quiet p s).keeps
  | .mailboxReplyClear p => (execMailboxReplyClear_quiet p s).keeps
  | .partAbortWrite p => (execPartAbortWrite_quiet p s).keeps
  | .abortComplete part => (execAbortComplete_quiet part s).keeps
  | .fqAckRead p => (execFqAckRead_quiet p s).keeps
  | .elogAckRead p => (execElogAckRead_quiet p s).keeps
  | .faultRecordPost part => (execFaultRecordPost_quiet part s).keeps
  | .pendingRecordTimeout tile => (execPendingRecordTimeout_quiet tile s).keeps
  | .routePacket die inp p => (execRoutePacket_quiet die inp p s).keeps
  | .transitReevaluate die => (execTransitReevaluate_quiet die s).keeps
  | .limiterRelease eid => (execLimiterRelease_quiet eid s).keeps
  | .admitEntryResume stack => (execAdmitEntryResume_quiet stack s).keeps
  | .pairGapTimeout src rsp => (execPairGapTimeout_quiet src rsp s).keeps
  | .breakNotice p => (execBreakNotice_quiet p s).keeps
  | .originatedCompletion p => (execOriginatedCompletion_quiet p s).keeps
  | .requestTimeout rtag => (execRequestTimeout_quiet rtag s).keeps
  | .rdOnce p => (execRdOnce_quiet p s).keeps
  | .rdShared p => (execRdShared_quiet p s).keeps
  | .rdOwn p => (execRdOwn_quiet p s).keeps
  | .upgrade p => (execUpgrade_quiet p s).keeps
  | .wrLine p => (execWrLine_quiet p s).keeps
  | .wrPartial p => (execWrPartial_quiet p s).keeps
  | .atomic p => (execAtomic_quiet p s).keeps
  | .wbDirty p => (execWbDirty_quiet p s).keeps
  | .evictClean p => (execEvictClean_quiet p s).keeps
  | .lineReclaim p => (execLineReclaim_quiet p s).keeps
  | .snpAck p => (execSnpAck_quiet p s).keeps
  | .snpAckData p => (execSnpAckData_quiet p s).keeps
  | .grantAck p => (execGrantAck_quiet p s).keeps
  | .transactionPairTimeout q txn => (execTransactionPairTimeout_quiet q txn s).keeps
  | .reservationExpire q line => (execReservationExpire_quiet q line s).keeps
  | .orphanScanDone q => (execOrphanScanDone_quiet q s).keeps
  | .elderRequest p => (execElderRequest_quiet p s).keeps
  | .ctlRd p => (execCtlRd_quiet p s).keeps
  | .parityDelta xh offset delta => execParityDelta_keeps xh offset delta s
  | .admissionSelect stack => (execAdmissionSelect_quiet stack s).keeps
  | .dramSchedule stack ch permit => (execDramSchedule_quiet stack ch permit s).keeps
  | .dramAccessDone stack ch c0 c1 => execDramAccessDone_keeps stack ch c0 c1 s
  | .refreshDue stack ch bank => (execRefreshDue_quiet stack ch bank s).keeps
  | .calibrationDue stack ch => (execCalibrationDue_quiet stack ch s).keeps
  | .calibrationForced stack ch => (execCalibrationForced_quiet stack ch s).keeps
  | .calibrationDone stack ch phyOk => (execCalibrationDone_quiet stack ch phyOk s).keeps
  | .patrolStep stack c0 c1 => (execPatrolStep_quiet stack c0 c1 s).keeps
  | .scrubStep ext => execScrubStep_keeps ext s
  | .scrubDone ext => (execScrubDone_quiet ext s).keeps
  | .rateChangeStackDone => (execRateChangeStackDone_quiet s).keeps
  | .sensorSample values => (execSensorSample_quiet values s).keeps
  | .capperSample power => execCapperSample_keeps power s
  | .capperRateLower => execCapperRateLower_keeps s
  | .capperRelease => execCapperRelease_keeps s
  | .loadInterval => (execLoadInterval_quiet s).keeps
  | .histogramSample => (execHistogramSample_quiet s).keeps
  | .walkerTakeJob tile => (execWalkerTakeJob_quiet tile s).keeps
  | .walkerTableReadDone q => (execWalkerTableReadDone_quiet q s).keeps
  | .dispatch tile => (execDispatch_quiet tile s).keeps
  | .blockEnd tile elems prefetch => (execBlockEnd_quiet tile elems prefetch s).keeps
  | .engineAccessComplete tile => (execEngineAccessComplete_quiet tile s).keeps
  | .engineRetryReissue tile => (execEngineRetryReissue_quiet tile s).keeps
  | .budgetExhausted tile => (execBudgetExhausted_quiet tile s).keeps
  | .quantumExpiry tile => (execQuantumExpiry_quiet tile s).keeps
  | .engineFault tile checker => (execEngineFault_quiet tile checker s).keeps
  | .landingAbsorb tile => (execLandingAbsorb_quiet tile s).keeps
  | .zeroFillDone ext => execZeroFillDone_keeps ext s
  | .chunkReleaseDone tile win => (execChunkReleaseDone_quiet tile win s).keeps
  | .phaseDrainDone ext => (execPhaseDrainDone_quiet ext s).keeps
  | .revokeDrainDone ext => (execRevokeDrainDone_quiet ext s).keeps
  | .contextRetireDone cid => (execContextRetireDone_quiet cid s).keeps
  | .partitionFree part => (execPartitionFree_quiet part s).keeps
  | .groupHeartbeatSend => (execGroupHeartbeatSend_quiet s).keeps
  | .groupHeartbeat slot => (execGroupHeartbeat_quiet slot s).keeps
  | .groupMemberLost slot => (execGroupMemberLost_quiet slot s).keeps
  | .rebuildStep r => execRebuildStep_keeps r s
  | .tsxSend port => (execTsxSend_quiet port s).keeps
  | .tsx port x arrival => execTsx_keeps port x arrival s
  | .keeperLock => (execKeeperLock_quiet s).keeps
  | .keeperOffsetLoss => (execKeeperOffsetLoss_quiet s).keeps
  | .holdoverExpire => (execHoldoverExpire_quiet s).keeps
  | .schedIdleAfterLoss => (execSchedIdleAfterLoss_quiet s).keeps
  | .listSwitch => (execListSwitch_quiet s).keeps
  | .schedTakeover => (execSchedTakeover_quiet s).keeps
  | .armLateDeadline => (execArmLateDeadline_quiet s).keeps
  | .armStepsDone => (execArmStepsDone_quiet s).keeps
  | .schedOpDue tile entry => (execSchedOpDue_quiet tile entry s).keeps
  | .schedOpDeadline tile => (execSchedOpDeadline_quiet tile s).keeps
  | .portFrameStart port => (execPortFrameStart_quiet port s).keeps
  | .ftsPulse => execFtsPulse_keeps s
  | .fecBlockReceive port b => execFecBlockReceive_keeps port b s
  | .flitReceive port f => execFlitReceive_keeps port f s
  | .nakRepeatTimer port => (execNakRepeatTimer_quiet port s).keeps
  | .replayTimeout port => (execReplayTimeout_quiet port s).keeps
  | .spillWrite port => (execSpillWrite_quiet port s).keeps
  | .param port x => (execParam_quiet port x s).keeps
  | .retrainReq port cause => (execRetrainReq_quiet port cause s).keeps
  | .resume port ack => (execResume_quiet port ack s).keeps
  | .down port reason => (execDown_quiet port reason s).keeps
  | .trainingStart trigger => (execTrainingStart_quiet trigger s).keeps
  | .trainingStepDone port r => (execTrainingStepDone_quiet port r s).keeps
  | .trainingStepTimeout port => (execTrainingStepTimeout_quiet port s).keeps
  | .retrainTrigger port cause => (execRetrainTrigger_quiet port cause s).keeps
  | .retrainStepDone port r => (execRetrainStepDone_quiet port r s).keeps
  | .retrainTimeout port => (execRetrainTimeout_quiet port s).keeps
  | .signalLost port => (execSignalLost_quiet port s).keeps
  | .portListenIdle port => (execPortListenIdle_quiet port s).keeps
  | .routeFlipAtTf => (execRouteFlipAtTf_quiet s).keeps
  | .restamp die => (execRestamp_quiet die s).keeps
  | .drain die port => (execDrain_quiet die port s).keeps
  | .drainTimeout die => (execDrainTimeout_quiet die s).keeps
  | .mcmp p => (execMcmp_quiet p s).keeps
  | .mcmpData p => (execMcmpData_quiet p s).keeps
  | .hostMemoryTimeout tag => (execHostMemoryTimeout_quiet tag s).keeps
  | .qoreusLinkUp => (execQoreusLinkUp_quiet s).keeps
  | .notifySend target => (execNotifySend_quiet target s).keeps
  | .stagingPlaceFree target => (execStagingPlaceFree_quiet target s).keeps
  | .heartbeatWatchdog => (execHeartbeatWatchdog_quiet s).keeps
  | .coreFault => (execCoreFault_quiet s).keeps
  | .standbyBootDone boot => (execStandbyBootDone_quiet boot s).keeps
  | .journalReplayDone => execJournalReplayDone_keeps s
  | .oldCoreCheckDone ok => (execOldCoreCheckDone_quiet ok s).keeps
  | .switchoverStart => (execSwitchoverStart_quiet s).keeps
  | .switchoverBootDone ok => execSwitchoverBootDone_keeps ok s
  | .switchoverComplete => execSwitchoverComplete_keeps s
  | .katDue tile => (execKatDue_quiet tile s).keeps
  | .suspectTestDue tile => (execSuspectTestDue_quiet tile s).keeps
  | .katStart tile => (execKatStart_quiet tile s).keeps
  | .katSegmentEnd tile => (execKatSegmentEnd_quiet tile s).keeps
  | .katEnd tile r => (execKatEnd_quiet tile r s).keeps
  | .snapshotLatch => (execSnapshotLatch_quiet s).keeps
  | .powerUnitAnswer unit a => execPowerUnitAnswer_keeps unit a s
  | .powerDelayReask unit => execPowerDelayReask_keeps unit s
  | .powerDelayExpired unit => execPowerDelayExpired_keeps unit s
  | .powerEntryStepDone => execPowerEntryStepDone_keeps s
  | .wakeStepDone => execWakeStepDone_keeps s
  | .partitionCreate mb => (s.ran_quiet _ mb partitionCreate_quiet).keeps
  | .partitionArm mb => (s.ran_quiet _ mb partitionArm_quiet).keeps
  | .partitionRecover mb => (s.ran_quiet _ mb partitionRecover_quiet).keeps
  | .partitionClose mb => (s.ran_quiet _ mb partitionClose_quiet).keeps
  | .contextCreate mb => (s.ran_quiet _ mb contextCreate_quiet).keeps
  | .contextSet mb => (s.ran_quiet _ mb contextSet_quiet).keeps
  | .contextDestroy mb => (s.ran_quiet _ mb contextDestroy_quiet).keeps
  | .extentCreate mb => (s.ran_quiet _ mb extentCreate_quiet).keeps
  | .extentRevoke mb => (s.ran_quiet _ mb extentRevoke_quiet).keeps
  | .extentShareOffer mb => (s.ran_quiet _ mb extentShareOffer_quiet).keeps
  | .extentShareAccept mb => (s.ran_quiet _ mb extentShareAccept_quiet).keeps
  | .extentShareWithdraw mb => (s.ran_quiet _ mb extentShareWithdraw_quiet).keeps
  | .extentUnshare mb => (s.ran_quiet _ mb extentUnshare_quiet).keeps
  | .extentQuery mb => (s.ran_quiet _ mb extentQuery_quiet).keeps
  | .deviceSetScrub mb => (s.ran_quiet _ mb deviceSetScrub_quiet).keeps
  | .groupConfig mb => (s.ran_quiet _ mb groupConfig_quiet).keeps
  | .groupExtentCreate c => (execGroupExtentCreate_quiet c s).keeps
  | .groupExtentRevoke c => (execGroupExtentRevoke_quiet c s).keeps
  | .groupPromote mb => (s.ran_quiet _ mb groupPromote_quiet).keeps
  | .groupRebuild mb => (s.ran_quiet _ mb groupRebuild_quiet).keeps
  | .invalidateRange mb => (s.ran_quiet _ mb invalidateRange_quiet).keeps
  | .elderBind mb => (s.ran_quiet _ mb elderBind_quiet).keeps
  | .elderMap mb => (s.ran_quiet _ mb elderMap_quiet).keeps
  | .cohAgentSet mb => (s.ran_quiet _ mb cohAgentSet_quiet).keeps
  | .cohConfig mb => (s.ran_quiet _ mb cohConfig_quiet).keeps
  | .jobSubmit mb => s.ran_keeps _ mb jobSubmit_keeps
  | .jobCancel mb => (s.ran_quiet _ mb jobCancel_quiet).keeps
  | .combineSetup mb => (s.ran_quiet _ mb combineSetup_quiet).keeps
  | .combineClear mb => (s.ran_quiet _ mb combineClear_quiet).keeps
  | .combineReside mb => (s.ran_quiet _ mb combineReside_quiet).keeps
  | .combineRelease mb => (s.ran_quiet _ mb combineRelease_quiet).keeps
  | .ftConfig mb => (s.ran_quiet _ mb ftConfig_quiet).keeps
  | .schedStage mb => s.ran_keeps _ mb schedStage_keeps
  | .schedArm mb => (s.ran_quiet _ mb schedArm_quiet).keeps
  | .schedDisarm mb => (s.ran_quiet _ mb schedDisarm_quiet).keeps
  | .schedCancel mb => (s.ran_quiet _ mb schedCancel_quiet).keeps
  | .shapePortSet mb => (s.ran_quiet _ mb shapePortSet_quiet).keeps
  | .shapePartSet mb => (s.ran_quiet _ mb shapePartSet_quiet).keeps
  | .limitSet mb => (s.ran_quiet _ mb limitSet_quiet).keeps
  | .linkEnable mb => (s.ran_quiet _ mb linkEnable_quiet).keeps
  | .linkDisable mb => (s.ran_quiet _ mb linkDisable_quiet).keeps
  | .linkRetrain mb => (s.ran_quiet _ mb linkRetrain_quiet).keeps
  | .linkTune mb => (s.ran_quiet _ mb linkTune_quiet).keeps
  | .fabricConfig mb => (s.ran_quiet _ mb fabricConfig_quiet).keeps
  | .routeLoad mb => s.ran_keeps _ mb routeLoad_keeps
  | .routeFlip mb => (s.ran_quiet _ mb routeFlip_quiet).keeps
  | .nodeWithdraw mb => (s.ran_quiet _ mb nodeWithdraw_quiet).keeps
  | .memSetRate mb => (s.ran_quiet _ mb memSetRate_quiet).keeps
  | .memConfig mb => (s.ran_quiet _ mb memConfig_quiet).keeps
  | .memDiagOpen mb => (s.ran_quiet _ mb memDiagOpen_quiet).keeps
  | .memDiagWrite mb => s.ran_keeps _ mb memDiagWrite_keeps
  | .memDiagRead mb => s.ran_keeps _ mb memDiagRead_keeps
  | .memDiagClose mb => s.ran_keeps _ mb memDiagClose_keeps
  | .adminSet mb => (s.ran_quiet _ mb adminSet_quiet).keeps
  | .notifySet mb => (s.ran_quiet _ mb notifySet_quiet).keeps
  | .mcTakeover mb => (s.ran_quiet _ mb mcTakeover_quiet).keeps
  | .counterSnapshot mb => (s.ran_quiet _ mb counterSnapshot_quiet).keeps
  | .testRun mb => (s.ran_quiet _ mb testRun_quiet).keeps
  | .certRead mb => s.ran_keeps _ mb certRead_keeps
  | .attestReport mb => s.ran_keeps _ mb attestReport_keeps
  | .sessionOpen mb => s.ran_keeps _ mb sessionOpen_keeps
  | .fwStage mb => s.ran_keeps _ mb fwStage_keeps
  | .fwCommit mb => (s.ran_quiet _ mb fwCommit_quiet).keeps
  | .powerCapSet mb => s.ran_keeps _ mb powerCapSet_keeps
  | .powerStateSet mb => s.ran_keeps _ mb powerStateSet_keeps
  | .deviceReset mb => (s.ran_quiet _ mb deviceReset_quiet).keeps
  | .dbgRead mb => (s.ran_quiet _ mb dbgRead_quiet).keeps
  | .dbgWrite mb => (s.ran_quiet _ mb dbgWrite_quiet).keeps
  | .gateEntryBoundary port => (execGateEntryBoundary_quiet port s).keeps
  | .fecBlockTransmit port => (execFecBlockTransmit_quiet port s).keeps
  | .heartbeatWrite => (execHeartbeatWrite_quiet s).keeps
  | .deviceResetStart => execDeviceResetStart_keeps s
  | .undefinedOpcodeCommand mb => (execUndefinedOpcodeCommand_quiet mb s).keeps
  | .stackControllerFailure stack => (execStackControllerFailure_quiet stack s).keeps
  | .debugDisableFuseBlow => execDebugDisableFuseBlow_keeps s
  | .i3cDynamicAddressAssign setdasa addr => execI3cDynamicAddressAssign_keeps setdasa addr s

/-- Settles O5: the row of a command that answers a next state keeps what the fuses and straps hold. -/
theorem fusesPermanent : Obligations.FusesPermanent := by
  unfold Obligations.FusesPermanent
  intro c s t h
  have kept : s.Keeps t := (ends_next s.Keeps t).mp (h ▸ exec_keeps s c)
  exact (Nv.permanent_eq_iff t.nv s.nv).mp kept.2

/-! ## Start-up

The rows of the start-up, one lemma for each that walks a list: the memory PHYs, a failed row, the fill and the boot. -/

/-! ### Memory -/

/-- A stack whose PHY is trained, with the timing word it takes. -/
def Stack.trained (x : Stack) (timing : Word) : Stack := { x with state := 1, timA := timing }

/-- Training the PHYs of the stacks of a list changes the stacks alone, and of them those of the list. -/
theorem State.trainPhys_eq (s : State) (l : List Nat) : ∃ x : Tbl Stack,
    (s.each l fun u n => u.modStack n fun x => x.trained (u.nv.timingOf n 0)) = { s with stks := x }
      ∧ ∀ n, tget {} x n = if n ∈ l then (s.stack n).trained (s.nv.timingOf n 0) else s.stack n := by
  induction l generalizing s with
  | nil => exact ⟨s.stks, rfl, fun n => by simp [stack]⟩
  | cons a l ih =>
    obtain ⟨x, walked, reads⟩ := ih (s.modStack a fun x => x.trained (s.nv.timingOf a 0))
    refine ⟨x, walked, fun n => (reads n).trans ?_⟩
    by_cases h : n = a <;> by_cases k : n ∈ l <;> simp [h, k, setStack_stack, Stack.trained]

/-- MEM_PHY_TRAINING_DONE trains the stacks whose fuse is good. -/
theorem execMemPhyTrainingDone_eq (s : State) (phase : s.pwr.phase = .selftest) (phy : s.pwr.phyDone = false) : ∃ x : Tbl Stack,
    execMemPhyTrainingDone s = .next { s with pwr := { s.pwr with phyDone := true }, stks := x }
      ∧ ∀ n, tget {} x n = if n < 8 ∧ s.pwr.fused.stks.getLsbD n = true then (s.stack n).trained (s.nv.timingOf n 0) else s.stack n := by
  have row : execMemPhyTrainingDone s = .next _ := if_pos (by simp [phase, phy])
  obtain ⟨x, walked, reads⟩ :=
    State.trainPhys_eq { s with pwr := { s.pwr with phyDone := true } } ((List.range 8).filter s.pwr.fused.stks.getLsbD)
  refine ⟨x, row.trans (congrArg Host.Outcome.next walked), fun n => (reads n).trans ?_⟩
  simp only [List.mem_filter, List.mem_range]
  rfl

/-- MEM_SELFTEST_DONE repairs the failed rows of the stacks whose fuse is good, one after the other. -/
theorem execMemSelftestDone_eq (l : List RowFail) (s : State) (phase : s.pwr.phase = .selftest) (phy : s.pwr.phyDone = true)
    (mem : s.pwr.memDone = false) : ∃ (remap : Tbl (List (Option Nat))) (failed : BitVec 8), (remap, failed)
        = (l.filter fun f => s.pwr.fused.stks.getLsbD f.stack.val).foldl repairRow (s.nv.remap, 0)
      ∧ execMemSelftestDone l s = .next { s with
          nv := { s.nv with remap := remap }
          pwr := { s.pwr with memDone := true, tested := { s.pwr.tested with stks := s.pwr.fused.stks &&& ~~~failed } } } :=
  ⟨_, _, rfl, if_pos (by simp [phase, phy, mem])⟩

/-- A failed row is repaired while its bank has a spare one (R4). -/
theorem repairRow_fits (a : Tbl (List (Option Nat)) × BitVec 8) (f : RowFail) (h : (tget [] a.1 (bankOfRow f)).length + f.bad + 1 ≤ 4) :
    repairRow a f
      = (tput [] a.1 (bankOfRow f) (tget [] a.1 (bankOfRow f) ++ List.replicate f.bad none ++ [some f.row.val]), a.2) :=
  if_pos h

/-- A failed row that finds no spare one fails its stack, and the spares it tried are gone. -/
theorem repairRow_fails (a : Tbl (List (Option Nat)) × BitVec 8) (f : RowFail) (h : 4 < (tget [] a.1 (bankOfRow f)).length + f.bad + 1) :
    repairRow a f
      = (tput [] a.1 (bankOfRow f) ((tget [] a.1 (bankOfRow f) ++ List.replicate 4 none).take 4), a.2 ||| BitVec.twoPow 8 f.stack.val) :=
  if_neg (by omega)

/-! ### The fill and the release of the cores -/

/-- BUILD_INFO does not tell which cores are good. -/
theorem buildInfo_cores (build : BitVec 4) (m : UnitMap) (cores : BitVec 2) (dbgdis : Bool) :
    buildInfo build { m with cores := cores } dbgdis = buildInfo build m dbgdis := rfl

@[simp] theorem State.releaseCores_stew (s : State) (ok0 ok1 : Bool) : (s.releaseCores ok0 ok1).stew =
    { released := true, active := !ok0, standby := if ok0 && ok1 then 0 else 2, heartbeat := s.now, noFw := !ok0 && !ok1 } := by
  cases ok0 <;> cases ok1 <;> simp [releaseCores, setNoFw]

@[simp] theorem State.releaseCores_qor (s : State) (ok0 ok1 : Bool) : (s.releaseCores ok0 ok1).qor = s.qor := by
  cases ok0 <;> cases ok1 <;> simp [releaseCores, setNoFw]

/-- The units found good: those that passed their tests, and the cores whose fuse is good and whose self-test passed. -/
def Pwr.good (p : Pwr) (mc0 mc1 : Bool) : UnitMap :=
  { p.tested with cores := BitVec.ofNat 2 (b2n (p.fused.cores.getLsbD 0 && mc0) + 2 * b2n (p.fused.cores.getLsbD 1 && mc1)) }

/-- The state in which the good units start: memory is filled, the tests are reconciled with the fuses (R4, R392). -/
def State.filled (s : State) (mc0 mc1 : Bool) : State :=
  { s with pwr := { s.pwr with
      fillDone := true, phase := .boot, tested := s.pwr.good mc0 mc1, releasedAt := s.now
      build := BitVec.ofNat 64 (buildInfo s.nv.build (s.pwr.good mc0 mc1) s.nv.dbgdis) } }

/-- With the first hub die good the units start, which leaves the registers of power and DRAM, the host is an agent and the cores are released. -/
theorem State.reconcile_good (s : State) (mc0 mc1 : Bool) (hub : s.pwr.tested.hubs.getLsbD 0 = true) : ∃ u : State,
    s.reconcile mc0 mc1 = ({ u with qor := { u.qor with hostAgent := true } } : State).releaseCores
        (s.pwr.fused.cores.getLsbD 0 && mc0) (s.pwr.fused.cores.getLsbD 1 && mc1)
      ∧ (s.filled mc0 mc1).Quiet u := by
  refine ⟨_, if_neg (by simp [hub]), Quiet.trans (each_quiet _ _ _ ?_) (Quiet.trans (each_quiet _ _ _ ?_) (each_quiet _ _ _ ?_))⟩
  · intro u n
    split <;> simp [Quiet]
  · simp [Quiet]
  · simp [Quiet]

/-- A start-up whose first hub die fails ends FAILED (R392). -/
theorem State.reconcile_failed (s : State) (mc0 mc1 : Bool) (hub : s.pwr.tested.hubs.getLsbD 0 = false) : s.reconcile mc0 mc1 =
    { s with pwr := { s.pwr with
        fillDone := true, phase := .failed, tested := { s.pwr.good mc0 mc1 with cores := 0 }, elapsed := BitVec.ofNat 16 (s.now / 1000000)
        build := BitVec.ofNat 64 (buildInfo s.nv.build (s.pwr.good mc0 mc1) s.nv.dbgdis) } } :=
  if_pos (congrArg not hub)

theorem execMemFillDone_next (mc0 mc1 : Bool) (s : State) (phase : s.pwr.phase = .selftest) (mem : s.pwr.memDone = true)
    (logic : s.pwr.logicDone = true) : execMemFillDone mc0 mc1 s = .next (s.reconcile mc0 mc1) :=
  if_pos (by simp [phase, mem, logic])

/-! ### The boot of Steward -/

@[simp] theorem Nv.runSlot_setOther (n : Nv) (f : FwSlot) : (n.setOther f).runSlot = n.runSlot := by
  unfold setOther runSlot
  split <;> simp_all

@[simp] theorem Nv.otherSlot_setOther (n : Nv) (f : FwSlot) : (n.setOther f).otherSlot = f := by
  unfold setOther otherSlot
  split <;> simp_all

@[simp] theorem Nv.vectors_setOther (n : Nv) (f : FwSlot) : (n.setOther f).vectors = n.vectors := by
  unfold setOther
  split <;> rfl

/-- Flashes with the same firmware slots run the same image. -/
theorem Nv.runSlot_of_slots {m n : Nv} (h : m.slots = n.slots) : m.runSlot = n.runSlot := by
  simp_all [slots, runSlot]

/-- Flashes with the same firmware slots hold the same image beside the running one. -/
theorem Nv.otherSlot_of_slots {m n : Nv} (h : m.slots = n.slots) : m.otherSlot = n.otherSlot := by
  simp_all [slots, otherSlot]

/-- The state in which Steward, once it booted, begins: the other slot is valid when its image is staged, and the vectors are read (R518). -/
def State.booted (s : State) (staged : Bool) : State :=
  { s with nv := s.nv.setOther { s.nv.otherSlot with valid := s.nv.otherSlot.valid && staged } }.copyVectors

/-- STEWARD_BOOT_DONE serves after tests and records that leave power, memory, firmware slots and vectors. -/
theorem execStewardBootDone_eq (kat : BitVec 32) (staged : Bool) (s : State) (phase : s.pwr.phase = .boot) (released : s.stew.released = true)
    (fw : s.stew.noFw = false) : ∃ u : State, execStewardBootDone kat staged s = .next u.bootServe ∧ (s.booted staged).Quiet u :=
  ⟨_, if_pos (by simp [phase, released, fw]),
    State.Quiet.trans (State.each_quiet _ _ _ fun u n => u.bootTest_quiet n _) (State.bootRecords_quiet _)⟩

/-- Settles O9: the row of each step of the start-up, in the order in which the steps come. -/
theorem startUp : Obligations.StartUp := by
  unfold Obligations.StartUp
  refine ⟨?powerOn, ?railRises, ?lastRail, ?railFails, ?railRetry, ?fuses, ?wakeRail, ?wakeRailFails, ?logicTested,
    execMemPhyTrainingDone_eq, execMemSelftestDone_eq, ?row, ?hubFailed, ?hubGood, ?stewardBoots, ?heartbeat⟩
  case powerOn =>
    rintro s (h | h | h) <;> simp [exec, execPowerOn, h, State.restart, Phase.railsUp]
  case railRises =>
    intro s phase rail
    simp [exec, execRailPowerGood, phase, railCount, rail.ne]
  case lastRail =>
    intro s phase rail
    simp [exec, execRailPowerGood, phase, railCount, rail]
  case railFails =>
    intro s phase late
    exact if_pos (by simp [phase, late])
  case railRetry =>
    intro s phase late
    exact if_pos (by simp [phase, late])
  case fuses =>
    intro s phase
    exact if_pos phase
  case wakeRail =>
    intro s phase step fallen
    exact (if_neg phase).trans (if_pos (by simp [Pwr.rising, step, fallen]))
  case wakeRailFails =>
    intro s phase step fallen late
    exact (if_neg (by simp [phase])).trans (if_pos (by simp [Pwr.rising, step, fallen, late]))
  case logicTested =>
    intro m s phase logic
    exact if_pos (by simp [phase, logic])
  case row =>
    rintro a f l rfl
    refine ⟨fun h => ?_, fun h => ?_⟩
    · simp [repairRow_fits a f h]
    · simp [repairRow_fails a f h]
  case hubFailed =>
    intro a b s phase mem logic hub
    exact ⟨_, (execMemFillDone_next a b s phase mem logic).trans (congrArg _ (s.reconcile_failed a b hub)), rfl, rfl, rfl, rfl,
      congrArg (BitVec.ofNat 64) (buildInfo_cores ..)⟩
  case hubGood =>
    intro a b s phase mem logic hub
    obtain ⟨u, row, -, -, -, dram, pwr, -⟩ := s.reconcile_good a b hub
    refine ⟨_, execMemFillDone_next a b s phase mem logic, ?_⟩
    generalize (s.pwr.fused.cores.getLsbD 0 && a) = ok0 at row ⊢
    generalize (s.pwr.fused.cores.getLsbD 1 && b) = ok1 at row ⊢
    simp [row, pwr, dram, State.filled, Pwr.good, buildInfo_cores]
  case stewardBoots =>
    intro k g s phase released fw
    obtain ⟨u, row, -, -, slots, dram, pwr, vectors⟩ := execStewardBootDone_eq k g s phase released fw
    have other := Nv.otherSlot_of_slots slots
    have run := Nv.runSlot_of_slots slots
    refine ⟨u.bootServe, row, ?_⟩
    simp_all [State.bootServe, State.booted, State.copyVectors]
  case heartbeat =>
    intro s released fw
    exact if_pos (by simp [released, fw])

/-! ## Pairs, the limiter and originated requests -/

/-! ### The end of an originated request -/

@[simp] theorem State.take_origs (s : State) (p : Packet) : (s.take p).2.origs = s.origs := by
  unfold take
  split <;> rfl

/-- No open request has the RTAG: nothing ends. -/
theorem State.origDone_none {s : State} {r : BitVec 32} (h : s.origs.find? (·.rtag = r) = none) (st : Status) (bo : BitVec 4) (data : Line)
    (old : Nat) : s.origDone r st bo data old = s := by
  simp only [origDone, h]

/-- A scheduled operation is told the end of its request. -/
theorem State.origDone_sched {s : State} {r : BitVec 32} {o : OrigReq} (h : s.origs.find? (·.rtag = r) = some o) (k : o.kind = .sched)
    (st : Status) (bo : BitVec 4) (data : Line) (old : Nat) :
    s.origDone r st bo data old = { s with origs := s.origs.filter (·.rtag ≠ r) }.schedDone o.tile
      { id := o.id, status := st, backoff := bo, data := data, at_ := s.now } := by
  simp only [origDone, h, k, ne_eq, not_true_eq_false, if_false]

/-- What waits for a forwarded request is told its end. -/
theorem State.origDone_fwd {s : State} {r : BitVec 32} {o : OrigReq} (h : s.origs.find? (·.rtag = r) = some o) (k : o.kind ≠ .sched)
    (st : Status) (bo : BitVec 4) (data : Line) (old : Nat) :
    s.origDone r st bo data old = { s with
      origs := s.origs.filter (·.rtag ≠ r)
      fwds := s.fwds.map fun (w : FwdWait) => w.ended r st bo data old s.now } := by
  simp only [origDone, h, if_pos k]

/-- The end of a request closes the open requests of its RTAG and no other. -/
theorem State.origDone_origs (s : State) (r : BitVec 32) (st : Status) (bo : BitVec 4) (data : Line) (old : Nat) :
    (s.origDone r st bo data old).origs = s.origs.filter (·.rtag ≠ r) := by
  cases h : s.origs.find? (·.rtag = r) with
  | none =>
    rw [origDone_none h]
    exact (List.filter_eq_self.mpr fun o ho => by simpa using List.find?_eq_none.mp h o ho).symm
  | some o =>
    by_cases k : o.kind = .sched
    · simp [origDone_sched h k, schedDone]
    · simp [origDone_fwd h k]

/-- When the requests of a list end, those stay open whose RTAG is none of theirs. -/
theorem State.mem_origs_each_origDone (s : State) (l : List OrigReq) (st : Status) (o : OrigReq) :
    o ∈ (s.each l fun u k => u.origDone k.rtag st 0 0).origs ↔ o ∈ s.origs ∧ ∀ k ∈ l, o.rtag ≠ k.rtag := by
  induction l generalizing s with
  | nil => simp [each]
  | cons k l ih => exact (ih _).trans (by simp [origDone_origs, and_assoc])

/-! ### Break notices -/

/-- An open request that a break notice ends: it went to the source of the notice, at or past its PSEQ (R345). -/
def OrigReq.broken (o : OrigReq) (p : Packet) : Bool :=
  o.sent && o.kind ≠ .delta && o.pkt.dst = p.src && decide (0 ≤ seqDiff o.pkt.pseq p.pseq)

theorem OrigReq.not_broken_iff (o : OrigReq) (p : Packet) :
    o.broken p = false ↔ o.sent = false ∨ o.kind = .delta ∨ o.pkt.dst ≠ p.src ∨ seqDiff o.pkt.pseq p.pseq < 0 := by
  simp only [broken, Bool.and_eq_false_iff, decide_eq_false_iff_not, or_assoc, not_not, not_le, ne_eq]

/-- BREAK_NOTICE ends the requests that it names with TIMEOUT, and the pair begins again. -/
theorem execBreakNotice_eq {p : Packet} {s : State} (turn : s.turn p = true) (brk : p.brk = true) :
    execBreakNotice p s = .next (((s.take p).2.each (s.origs.filter (·.broken p)) fun u o => u.origDone o.rtag stTimeout 0 0).modPairTx
      (pairIdx p.src false) fun x => { x with started := false, openNone := [] }) := by
  have row : execBreakNotice p s = .next _ := if_neg (by simp [turn, brk])
  rw [row, State.take_origs]
  rfl

/-! ### Completions -/

/-- ORIGINATED_COMPLETION, by what its session unit and the unit of the request do. -/
theorem execOriginatedCompletion_eq {p : Packet} {s : State} (turn : s.turn p = true) (brk : p.brk = false) :
    execOriginatedCompletion p s = .next (if ((s.take p).2.sessionIn p).2 then
      (((s.take p).2.sessionIn p).1.origDone p.rtag (readStatus p.stat) p.ctl p.data p.opnd.toNat).forwarded
      else ((s.take p).2.sessionIn p).1) :=
  if_neg (by simp [turn, brk])

@[simp] theorem State.noteProt_origs (s : State) (part : Nat) (p : Packet) : (s.noteProt part p).origs = s.origs := by
  have kept (u : State) (e : Eid) : (u.keepKey part e false p.vc).origs = u.origs := rfl
  unfold noteProt
  dsimp only
  (repeat' split) <;> simp [kept]

@[simp] theorem State.sessionIn_origs (s : State) (p : Packet) : (s.sessionIn p).1.origs = s.origs := by
  unfold sessionIn
  dsimp only
  split <;> simp

/-! ### The limiter -/

/-- With tokens that are not negative the limiter releases the first request that it holds of an EID, charges it and goes on (R282). -/
theorem State.limiterGo_charged {s : State} {e : Eid} {h : Held} (held : s.limHeld.find? (·.pkt.src = e) = some h)
    (limited : (s.limit e.toNat).rate ≠ 0) (tokens : 0 ≤ ((s.limit e.toNat).refill s.hubNs).tokens) (n : Nat) :
    s.limiterGo e (n + 1) = (({ s.setLimit e.toNat { (s.limit e.toNat).refill s.hubNs with
        tokens := ((s.limit e.toNat).refill s.hubNs).tokens - limCharge h.pkt } with limHeld := s.limHeld.erase h }).handOn
      { h with lim := 2 }).limiterGo e n := by
  have limited' : ((s.limit e.toNat).refill s.hubNs).rate ≠ 0 := limited
  have enough : ¬((s.limit e.toNat).refill s.hubNs).tokens < 0 := tokens.not_gt
  simp only [limiterGo, held, limited, limited', enough, if_false, decide_false, Bool.and_false, Bool.false_eq_true]

/-- Settles O19: each row by the branch that the hypotheses choose. -/
theorem pairsAndLimiter : Obligations.PairsAndLimiter := by
  unfold Obligations.PairsAndLimiter
  refine ⟨?reqGap, ?rspGap, ?noneBroken, ?broken, ?notNext, ?completes, ?unknown, ?status, ?timesOut, ?unsent, ?noneHeld, ?release⟩
  case reqGap =>
    intro e t s timer late
    simp [exec, execPairGapTimeout, timer, late]
  case rspGap =>
    intro e t s timer late
    simp [exec, execPairGapTimeout, timer, late]
  case noneBroken =>
    intro p s turn brk whole
    have hits : s.origs.filter (·.broken p) = [] :=
      List.filter_eq_nil_iff.mpr fun o ho => by simpa using (o.not_broken_iff p).mpr (whole o ho)
    exact (execBreakNotice_eq turn brk).trans (by rw [hits]; rfl)
  case broken =>
    intro p s turn brk
    refine ⟨_, execBreakNotice_eq turn brk, fun o ho => ?_⟩
    obtain ⟨was, left⟩ := (State.mem_origs_each_origDone _ _ _ o).mp ho
    rw [State.take_origs] at was
    refine ⟨was, (o.not_broken_iff p).mp ?_⟩
    by_contra hit
    exact left o (List.mem_filter.mpr ⟨was, by simpa using hit⟩) rfl
  case notNext =>
    intro p s turn
    exact ⟨if_pos (by simp [turn]), if_pos (by simp [turn])⟩
  case completes =>
    intro p o s turn brk found session
    have row := execOriginatedCompletion_eq turn brk
    rw [if_pos session] at row
    have found' : ((s.take p).2.sessionIn p).1.origs.find? (·.rtag = p.rtag) = some o := by simpa using found
    exact ⟨fun k => row.trans (by rw [State.origDone_sched found' k]), fun k => row.trans (by rw [State.origDone_fwd found' k])⟩
  case unknown =>
    intro p s turn brk found session
    have found' : ((s.take p).2.sessionIn p).1.origs.find? (·.rtag = p.rtag) = none := by simpa using found
    exact (execOriginatedCompletion_eq turn brk).trans (by rw [if_pos session, State.origDone_none found'])
  case status =>
    intro st
    exact ⟨fun h => if_pos h, fun h => if_neg (by omega)⟩
  case timesOut =>
    intro r o s found sent late
    have row : execRequestTimeout r s = .next (s.origDone r stTimeout 0 0).forwarded := by
      simp [execRequestTimeout, found, sent, late]
    exact ⟨fun k => row.trans (by rw [State.origDone_sched found k]), fun k => row.trans (by rw [State.origDone_fwd found k])⟩
  case unsent =>
    intro r o s found sent
    simp [exec, execRequestTimeout, found, sent]
  case noneHeld =>
    intro e s held
    have idle (n : Nat) : s.limiterGo e n = s := by
      cases n <;> simp [State.limiterGo, held]
    exact congrArg Host.Outcome.next (idle _)
  case release =>
    intro e h s held limited tokens
    have nonempty : s.limHeld.length = (s.limHeld.length - 1) + 1 :=
      (Nat.succ_pred_eq_of_pos (List.length_pos_of_mem (List.mem_of_find?_eq_some held))).symm
    refine ⟨?charged, ?fails⟩
    case charged =>
      refine congrArg Host.Outcome.next (Eq.trans ?_ (State.limiterGo_charged held limited tokens _))
      rw [← nonempty]
    case fails =>
      intro p s turn brk session
      exact (execOriginatedCompletion_eq turn brk).trans (by simp [session])

end Sys2Proof.Machine

namespace Sys2Proof.Machine
open Sys2Proof

/-! ## The keeper and its exchanges -/

/-- A walk over a list that holds a unit establishes what the turn of that unit establishes and every turn keeps. -/
theorem State.each_of_mem {α : Type} {P : State → Prop} {f : State → α → State} {a : α} (sets : ∀ u, P (f u a))
    (keeps : ∀ u b, P u → P (f u b)) {l : List α} (h : a ∈ l) (s : State) : P (s.each l f) := by
  obtain ⟨before, after, rfl⟩ := List.append_of_mem h
  simp only [each, List.foldl_append, List.foldl_cons]
  exact List.foldlRecOn (motive := P) after f (sets _) fun u hu b _ => keeps u b hu

@[simp] theorem State.ite_port (c : Prop) [Decidable c] (a b : State) (p : Nat) :
    (if c then a else b).port p = if c then a.port p else b.port p :=
  apply_ite (fun u : State => u.port p) c a b

@[simp] theorem State.bumpBy_port (s : State) (off n p : Nat) : (s.bumpBy off n).port p = s.port p :=
  congrArg (tget ({} : Port) · p) (s.bumpBy_ports off n)

/-! ### Replicas (R13) -/

/-- Entries put at the keys of a list read as they were put, and the others as before. -/
theorem tget_foldl_tput {α : Type} [DecidableEq α] (d v : α) (l : List Nat) (t : Tbl α) (k : Nat) :
    tget d (l.foldl (fun t n => tput d t n v) t) k = if k ∈ l then v else tget d t k := by
  induction l generalizing t with
  | nil => simp
  | cons n l ih =>
    rw [List.foldl_cons, ih, tget_tput]
    by_cases same : k = n <;> simp [same]

/-- After a broadcast the replicas of the link dies stand at its FT. -/
theorem Replicas.at_die (ft : BitVec 80) {d : Nat} (h : d < 4) : tget 0 (Replicas.at_ ft).die d = ft :=
  (tget_foldl_tput ..).trans (if_pos (List.mem_range.mpr h))

/-! ### The sync-loss rule (R239, R240) -/

/-- A gate unit that moves takes the entry's place and gates; without an entry every gate is open (R255). -/
theorem State.gateMove_port_same (s : State) (p : Nat) (l : List GateEntry) (i t : Nat) :
    ((s.gateMove p l i t).port p).gateOpen = ((l[i]?).map (·.gate)).getD 0xFF ∧ ((s.gateMove p l i t).port p).gateIdx = i := by
  simp only [gateMove, ite_port, bumpBy_port, ite_self, setPort_port_same, and_self]

/-- A gate unit that moves leaves the other ports. -/
theorem State.gateMove_port_ne (s : State) {p q : Nat} (h : q ≠ p) (l : List GateEntry) (i t : Nat) :
    (s.gateMove p l i t).port q = s.port q := by
  simp only [gateMove, ite_port, bumpBy_port, ite_self, setPort_port, if_neg h]

/-- In the no-image state every gate is open, without a list (R269). -/
theorem State.gatesOpen_port (s : State) {p : Nat} (h : p < 16) :
    (s.gatesOpen.port p).gateOpen = 0xFF ∧ (s.gatesOpen.port p).gateIdx = 0 := by
  have opens (u : State) := u.gateMove_port_same p [] 0 0
  refine each_of_mem (P := fun u => (u.port p).gateOpen = 0xFF ∧ (u.port p).gateIdx = 0) (a := p)
    opens (fun u q free => ?_) (List.mem_range.mpr h) s
  by_cases same : p = q
  · exact same ▸ opens u
  · rwa [gateMove_port_ne u same]

/-- Changing every tile of a list gives those of the list what the change gives to any tile. -/
theorem State.each_modTile_of_mem {P : Tile → Prop} {f : Tile → Tile} (sets : ∀ t, P (f t)) {l : List Nat} {n : Nat} (h : n ∈ l) (s : State) :
    P ((s.each l fun u k => u.modTile k f).tile n) := by
  refine each_of_mem (P := fun u => P (u.tile n)) (fun u => ?_) (fun u k hu => ?_) h s
  · simpa using sets _
  · by_cases same : n = k
    · simpa [same] using sets _
    · simpa [setTile_tile, same] using hu

/-- A keeper that enters LOST counts it and stops (R239). -/
def State.keeperStops (s : State) : State :=
  { s with keeper := { s.keeper with state := 4, followAlt := false, good := 0, bad := 0, slew := 0, freqAdj := 0 } }.bump devBlk 4

@[simp] theorem State.keeperStops_sched (s : State) : s.keeperStops.sched = s.sched := bump_sched ..

/-- An image that is running, pending or armed is ended with the keeper (R240). -/
theorem State.keeperLost_armed {s : State} (h : s.sched.running ≠ none ∨ s.sched.pending = true ∨ s.sched.next ≠ none) :
    s.keeperLost = s.keeperStops.syncLoss :=
  if_pos (by simpa [or_assoc, Option.isSome_iff_ne_none] using h)

/-- Without an image the keeper enters LOST alone. -/
theorem State.keeperLost_idle {s : State} (running : s.sched.running = none) (pending : s.sched.pending = false) (next : s.sched.next = none) :
    s.keeperLost = s.keeperStops :=
  if_neg (by simp [running, pending, next])

/-! ### Exchanges (R314 to R317) -/

/-- The delay of an exchange (R316). -/
def tsxDelay (x : TsxBody) (arrival : BitVec 80) : Nat :=
  ((ftDiff arrival x.tEchoTx - ftDiff x.tTx x.tEchoRx) / 2).toNat

/-- A port with what a TSX of its neighbour reports, for the next echo, and the delays of the last 64 exchanges. -/
def Port.heard (o : Port) (x : TsxBody) (arrival : BitVec 80) : Port :=
  { o with
    rxTTx := x.tTx, rxArr := arrival, rxTseq := x.tseq, peerKstate := x.kstate, peerImage := x.imageId
    delays := if x.echoTseq ≠ 0xFFFF then (o.delays ++ [tsxDelay x arrival]).drop ((o.delays.length + 1) - 64) else o.delays }

/-- Whether a TSX reports a keeper in sync, LOCKED or HOLDOVER (R239). -/
def inSync (x : TsxBody) : Bool := x.kstate.toNat % 8 = 2 || x.kstate.toNat % 8 = 3

/-- The state once the port has heard a TSX: a LOCKED keeper whose parent is no longer in sync holds over (R239). -/
def State.heard (s : State) (p : Nat) (x : TsxBody) (arrival : BitVec 80) : State :=
  let u := s.setPort p ((s.port p).heard x arrival)
  if p = u.keeper.parent.toNat && u.keeper.state = 2 && !inSync x then u.holdover else u

/-- The use of an exchange with offset θ and delay d, the least of the last being `least`, in a state that has heard the TSX (R316, R317). -/
def State.useTsx (s : State) (p : Nat) (x : TsxBody) (θ : Int) (least d : Nat) : State :=
  if !(x.echoTseq ≠ 0xFFFF) || p ≠ s.keeper.followed then s
  else if least + 1310720 < d then s.bump (portBlk p) 14
  else
    let k := s.keeper.use θ (inSync x)
    if k.stepped && !s.keeper.stepped then
      { s with keeper := k, repl := Replicas.at_ k.ft, pwr := { s.pwr with fts := k.ft.toNat / 65536 / 1000000 } }
    else { s with keeper := k }

/-- The row of a TSX on a link in UP: it is heard, and then used. -/
theorem State.tsx_eq (s : State) {p : Nat} (x : TsxBody) (arrival : BitVec 80) (link : p < 16) (up : (s.port p).state = 3) :
    s.tsx p x arrival = (s.heard p x arrival).useTsx p x ((ftDiff x.tEchoRx x.tEchoTx + ftDiff x.tTx arrival) / 2)
      (((s.port p).heard x arrival).delays.foldl min (tsxDelay x arrival)) (tsxDelay x arrival) :=
  if_neg (by simp [up, link])

/-- A TSX without an echo is heard and not used. -/
theorem State.useTsx_first (s : State) (p : Nat) {x : TsxBody} (first : x.echoTseq = 0xFFFF) (θ : Int) (least d : Nat) :
    s.useTsx p x θ least d = s :=
  if_pos (by simp [first])

/-- A TSX of another port than the parent's changes the port that hears it alone. -/
theorem State.heard_other (s : State) {p : Nat} (other : p ≠ s.keeper.parent.toNat) (x : TsxBody) (arrival : BitVec 80) :
    s.heard p x arrival = s.setPort p ((s.port p).heard x arrival) :=
  if_neg (by simp [other])

/-- A state has another's ports, DRAM, and power registers but for the FTS pulse last reached. -/
def State.SameButFts (s t : State) : Prop := t.ports = s.ports ∧ t.dram = s.dram ∧ t.pwr = { s.pwr with fts := t.pwr.fts }

theorem State.SameButFts.trans {s t u : State} (h : s.SameButFts t) (k : t.SameButFts u) : s.SameButFts u := by
  obtain ⟨ports, dram, pwr⟩ := h
  obtain ⟨ports', dram', pwr'⟩ := k
  refine ⟨ports'.trans ports, dram'.trans dram, ?_⟩
  rw [pwr', pwr]

theorem State.holdover_sameButFts (s : State) : s.SameButFts s.holdover := by
  unfold holdover
  dsimp only
  split
  · exact ⟨rfl, rfl, rfl⟩
  · simp [SameButFts]

/-- Hearing a TSX changes of the ports its own. -/
theorem State.heard_sameButFts (s : State) (p : Nat) (x : TsxBody) (arrival : BitVec 80) :
    (s.setPort p ((s.port p).heard x arrival)).SameButFts (s.heard p x arrival) := by
  unfold heard
  dsimp only
  split
  · exact holdover_sameButFts _
  · exact ⟨rfl, rfl, rfl⟩

/-- Using an exchange changes no port, and of the power registers at most the FTS pulse reached. -/
theorem State.useTsx_sameButFts (s : State) (p : Nat) (x : TsxBody) (θ : Int) (least d : Nat) :
    s.SameButFts (s.useTsx p x θ least d) := by
  unfold useTsx
  dsimp only
  split
  case isTrue => exact ⟨rfl, rfl, rfl⟩
  split
  case isTrue => simp [SameButFts]
  split <;> exact ⟨rfl, rfl, rfl⟩

/-- A TSX on a link in UP changes of the ports its own; of DRAM and the power registers it changes at most the FTS pulse reached. -/
theorem State.tsx_sameButFts (s : State) {p : Nat} (x : TsxBody) (arrival : BitVec 80) (link : p < 16) (up : (s.port p).state = 3) :
    (s.setPort p ((s.port p).heard x arrival)).SameButFts (s.tsx p x arrival) :=
  s.tsx_eq x arrival link up ▸ (s.heard_sameButFts p x arrival).trans (useTsx_sameButFts ..)

/-- Settles O12: each row by the branch that its hypotheses choose, the sync-loss rule by its steps, a TSX by what hearing and using it leave. -/
theorem keeperAndTsx : Obligations.KeeperAndTsx := by
  unfold Obligations.KeeperAndTsx
  refine ⟨?broadcast, ?lock, ?offsetLoss, ?holdoverLoss, ?armed, ?gates, ?tiles, ?arm, ?idle, ?send, ?pulse, ?receive⟩
  case broadcast =>
    intro s beat on
    exact ⟨_, if_pos (by simp [beat, on]), rfl, rfl, rfl, fun d hd => Replicas.at_die _ hd⟩
  case lock =>
    intro s state good
    exact if_pos (by simpa [good] using state)
  case offsetLoss =>
    intro s state bad
    exact if_pos (by simp [state, bad])
  case holdoverLoss =>
    intro s state late
    exact if_pos (by simp [state, late])
  case armed =>
    rintro s u v w x armed rfl rfl rfl rfl
    rw [State.keeperLost_armed armed, ← congrArg Sched.running s.keeperStops_sched]
    rfl
  case gates =>
    exact fun s p port => s.gatesOpen_port port
  case tiles =>
    intro s n tile
    exact ⟨State.each_modTile_of_mem (P := fun t => t.swait = []) (fun _ => rfl) tile s,
      State.each_modTile_of_mem (P := fun t => ∀ k ∈ t.wins, k.2 ≠ .sched) (fun _ => by simp) tile s⟩
  case arm =>
    intro s token
    simp [State.abandonArm, token]
  case idle =>
    intro s running pending next
    exact ⟨_, rfl, by simp [State.keeperLost_idle running pending next, State.keeperStops]⟩
  case send =>
    intro p s link up due
    exact if_pos (by simp [link, up, due])
  case pulse =>
    intro s running state due
    exact if_pos (by simpa [running, due] using state)
  case receive =>
    intro p x a s link up
    obtain ⟨ports, dram, pwr⟩ := s.tsx_sameButFts x a link up
    have reads (q : Nat) : (s.tsx p x a).port q = if q = p then (s.port p).heard x a else s.port q :=
      (congrArg (tget ({} : Port) · q) ports).trans (s.setPort_port p _ q)
    have own : (s.tsx p x a).port p = (s.port p).heard x a := (reads p).trans (if_pos rfl)
    refine ⟨⟨s.tsx p x a, rfl, congrArg Port.rxTTx own, congrArg Port.rxArr own, congrArg Port.rxTseq own, congrArg Port.peerKstate own,
      congrArg Port.peerImage own, fun q ne => (reads q).trans (if_neg ne), dram, pwr⟩, fun first other => ?_⟩
    have row : exec (.tsx p x a) s = .next _ := congrArg Host.Outcome.next (s.tsx_eq x a link up)
    rw [row, State.useTsx_first _ _ first, State.heard_other s other]
    simp [Port.heard, first]

end Sys2Proof.Machine

namespace Sys2Proof.Machine
open Sys2Proof

/-! ## DRAM under the commands that do not act on it

The quiet rows leave DRAM as it is. The rows below write the power registers or the flash, and leave DRAM too. -/

/-- A state has another's DRAM. -/
abbrev State.SameDram (s t : State) : Prop := t.dram = s.dram

theorem absorbs_sameDram : Absorbs State.SameDram :=
  ⟨fun _ => rfl, fun h k => k.trans h.2.2.2.1, fun h k => k.2.2.2.1.trans h⟩

theorem Ends.sameDram {s : State} {o : Host.Outcome State Fault Refusal} : Ends s.Quiet o → Ends s.SameDram o
  | .next h => .next h.2.2.2.1
  | .fault r => .fault r
  | .refused r => .refused r

@[simp] theorem State.each_sameDram {α : Type} (s : State) (l : List α) (f : State → α → State) (h : ∀ u a, State.SameDram u (f u a)) :
    s.SameDram (s.each l f) := by
  unfold each
  induction l generalizing s with
  | nil => rfl
  | cons a l ih => exact (ih (f s a)).trans (h s a)

theorem State.ran_sameDram (s : State) (f : CmdForm) (mb : MbId) {body : State → Cmd → Nat → Answer}
    (h : ∀ u c a, State.SameDram u (body u c a).st) : Ends s.SameDram (s.ran f mb body) :=
  .next (s.command_rel absorbs_sameDram f mb h)

/-! ### Start-up -/

theorem execRailPowerGood_sameDram (s : State) : Ends s.SameDram (execRailPowerGood s) := by simp [State.SameDram, execRailPowerGood]

theorem execRailRetryTimer_sameDram (s : State) : Ends s.SameDram (execRailRetryTimer s) := by simp [State.SameDram, execRailRetryTimer]

theorem execOscillatorStable_sameDram (s : State) : Ends s.SameDram (execOscillatorStable s) := by simp [State.SameDram, execOscillatorStable, State.readFuses]

theorem execLogicSelftestDone_sameDram (passed : UnitMap) (s : State) : Ends s.SameDram (execLogicSelftestDone passed s) := by
  simp [State.SameDram, execLogicSelftestDone]

theorem execMemPhyTrainingDone_sameDram (s : State) : Ends s.SameDram (execMemPhyTrainingDone s) := by simp [State.SameDram, State.Quiet, execMemPhyTrainingDone]

theorem execMemSelftestDone_sameDram (rows : List RowFail) (s : State) : Ends s.SameDram (execMemSelftestDone rows s) := by
  simp [State.SameDram, execMemSelftestDone]

theorem State.reconcile_sameDram (s : State) (mc0 mc1 : Bool) : s.SameDram (s.reconcile mc0 mc1) := by simp [State.SameDram, State.Quiet, reconcile]

theorem execMemFillDone_sameDram (mc0 mc1 : Bool) (s : State) : Ends s.SameDram (execMemFillDone mc0 mc1 s) := by
  simp [State.SameDram, execMemFillDone, State.reconcile_sameDram]

theorem execStewardBootDone_sameDram (kat : BitVec 32) (staged : Bool) (s : State) : Ends s.SameDram (execStewardBootDone kat staged s) := by
  simp [State.SameDram, execStewardBootDone, State.bootServe, State.copyVectors]

theorem execI3cDynamicAddressAssign_sameDram (setdasa : Bool) (addr : BitVec 7) (s : State) :
    Ends s.SameDram (execI3cDynamicAddressAssign setdasa addr s) := by
  simp [State.SameDram, execI3cDynamicAddressAssign]

/-! ### Links and the keeper -/

@[simp] theorem State.tsx_dram (s : State) (p : Nat) (x : TsxBody) (arrival : BitVec 80) : (s.tsx p x arrival).dram = s.dram := by simp [tsx]

theorem execTsx_sameDram (port : Fin 17) (x : TsxBody) (arrival : BitVec 80) (s : State) : Ends s.SameDram (execTsx port x arrival s) := by
  simp [State.SameDram, execTsx]

@[simp] theorem State.lctlIn_dram (s : State) (p : Nat) (f : Flit) : (s.lctlIn p f).dram = s.dram := by
  unfold lctlIn
  split <;> simp

@[simp] theorem State.flitIn_dram (s : State) (p : Nat) (f : Flit) : (s.flitIn p f).dram = s.dram := by simp [flitIn]

theorem execFlitReceive_sameDram (port : Fin 17) (f : Flit) (s : State) : Ends s.SameDram (execFlitReceive port f s) := by
  simp [State.SameDram, execFlitReceive]

theorem execFecBlockReceive_sameDram (port : Fin 17) (b : FecBlock) (s : State) : Ends s.SameDram (execFecBlockReceive port b s) := by
  simp [State.SameDram, execFecBlockReceive]

theorem execFtsPulse_sameDram (s : State) : Ends s.SameDram (execFtsPulse s) := by simp [State.SameDram, execFtsPulse]

/-! ### The capper -/

@[simp] theorem State.capEvent_dram (s : State) (level cause : Nat) : (s.capEvent level cause).dram = s.dram := by simp [capEvent]

@[simp] theorem State.capUp_dram (s : State) : s.capUp.dram = s.dram := by simp [capUp]

theorem execCapperSample_sameDram (power : BitVec 16) (s : State) : Ends s.SameDram (execCapperSample power s) := by
  unfold execCapperSample
  dsimp only
  (repeat' split) <;> simp [State.SameDram]

theorem execCapperRateLower_sameDram (s : State) : Ends s.SameDram (execCapperRateLower s) := by simp [State.SameDram, execCapperRateLower]

theorem execCapperRelease_sameDram (s : State) : Ends s.SameDram (execCapperRelease s) := by
  unfold execCapperRelease
  split <;> simp [State.SameDram]

/-! ### Takeovers -/

theorem execJournalReplayDone_sameDram (s : State) : Ends s.SameDram (execJournalReplayDone s) := by
  simp [State.SameDram, execJournalReplayDone, State.replayEntry]

theorem execSwitchoverBootDone_sameDram (ok : Bool) (s : State) : Ends s.SameDram (execSwitchoverBootDone ok s) := by
  unfold execSwitchoverBootDone
  dsimp only
  (repeat' split) <;> simp [State.SameDram]

theorem execSwitchoverComplete_sameDram (s : State) : Ends s.SameDram (execSwitchoverComplete s) := by simp [State.SameDram, execSwitchoverComplete]

/-! ### Power -/

theorem execPowerUnitAnswer_sameDram (unit : BitVec 16) (a : UnitAnswer) (s : State) : Ends s.SameDram (execPowerUnitAnswer unit a s) := by
  unfold execPowerUnitAnswer
  cases a <;> simp [State.SameDram]

theorem execPowerDelayReask_sameDram (unit : BitVec 16) (s : State) : Ends s.SameDram (execPowerDelayReask unit s) := by
  simp [State.SameDram, execPowerDelayReask]

theorem execPowerDelayExpired_sameDram (unit : BitVec 16) (s : State) : Ends s.SameDram (execPowerDelayExpired unit s) := by
  simp [State.SameDram, execPowerDelayExpired]

theorem execWakeStepDone_sameDram (s : State) : Ends s.SameDram (execWakeStepDone s) := by
  unfold execWakeStepDone
  split <;> simp [State.SameDram]

theorem powerCapSet_sameDram (s : State) (c : Cmd) (a : Nat) : s.SameDram (powerCapSet s c a).st := by simp [State.SameDram, powerCapSet]

@[simp] theorem State.wakeD1_dram (s : State) : s.wakeD1.dram = s.dram := by simp [wakeD1]

theorem powerStateSet_sameDram (s : State) (c : Cmd) (a : Nat) : s.SameDram (powerStateSet s c a).st := by simp [State.SameDram, powerStateSet]

/-- A command that does not act on DRAM leaves it: the quiet rows all, and each of the others by its lemma above. -/
theorem exec_sameDram (s : State) (c : Instr) (h : c.writesDram = false) : Ends s.SameDram (exec c s) := by
  cases c with
  | powerOn | railPowerGoodTimeout | resetPin | inputFault | thermalTrip | i3cWake | i3cReset | deviceResetStart | debugDisableFuseBlow
  | powerEntryStepDone | parityDelta | dramAccessDone | scrubStep | zeroFillDone | rebuildStep
  | jobSubmit | schedStage | routeLoad | memDiagWrite | memDiagRead | memDiagClose | certRead | attestReport
  | sessionOpen | fwStage => exact Bool.noConfusion h
  | railPowerGood => exact execRailPowerGood_sameDram s
  | railRetryTimer => exact execRailRetryTimer_sameDram s
  | oscillatorStable => exact execOscillatorStable_sameDram s
  | logicSelftestDone passed => exact execLogicSelftestDone_sameDram passed s
  | memPhyTrainingDone => exact execMemPhyTrainingDone_sameDram s
  | memSelftestDone rows => exact execMemSelftestDone_sameDram rows s
  | memFillDone mc0 mc1 => exact execMemFillDone_sameDram mc0 mc1 s
  | stewardBootDone kat staged => exact execStewardBootDone_sameDram kat staged s
  | i3cDynamicAddressAssign setdasa addr => exact execI3cDynamicAddressAssign_sameDram setdasa addr s
  | tsx port x arrival => exact execTsx_sameDram port x arrival s
  | flitReceive port f => exact execFlitReceive_sameDram port f s
  | fecBlockReceive port b => exact execFecBlockReceive_sameDram port b s
  | ftsPulse => exact execFtsPulse_sameDram s
  | capperSample power => exact execCapperSample_sameDram power s
  | capperRateLower => exact execCapperRateLower_sameDram s
  | capperRelease => exact execCapperRelease_sameDram s
  | journalReplayDone => exact execJournalReplayDone_sameDram s
  | switchoverBootDone ok => exact execSwitchoverBootDone_sameDram ok s
  | switchoverComplete => exact execSwitchoverComplete_sameDram s
  | powerUnitAnswer unit a => exact execPowerUnitAnswer_sameDram unit a s
  | powerDelayReask unit => exact execPowerDelayReask_sameDram unit s
  | powerDelayExpired unit => exact execPowerDelayExpired_sameDram unit s
  | wakeStepDone => exact execWakeStepDone_sameDram s
  | powerCapSet mb => exact s.ran_sameDram _ mb powerCapSet_sameDram
  | powerStateSet mb => exact s.ran_sameDram _ mb powerStateSet_sameDram
  | partitionCreate mb | partitionArm mb | partitionRecover mb | partitionClose mb | contextCreate mb | contextSet mb | contextDestroy mb
  | extentCreate mb | extentRevoke mb | extentShareOffer mb | extentShareAccept mb | extentShareWithdraw mb | extentUnshare mb
  | extentQuery mb | deviceSetScrub mb | groupConfig mb | groupPromote mb | groupRebuild mb | invalidateRange mb | elderBind mb
  | elderMap mb | cohAgentSet mb | cohConfig mb | jobCancel mb | combineSetup mb | combineClear mb | combineReside mb
  | combineRelease mb | ftConfig mb | schedArm mb | schedDisarm mb | schedCancel mb | shapePortSet mb | shapePartSet mb | limitSet mb
  | linkEnable mb | linkDisable mb | linkRetrain mb | linkTune mb | fabricConfig mb | routeFlip mb | nodeWithdraw mb | memSetRate mb
  | memConfig mb | memDiagOpen mb | adminSet mb | notifySet mb | mcTakeover mb | counterSnapshot mb | testRun mb | fwCommit mb
  | deviceReset mb | dbgRead mb | dbgWrite mb => exact (s.ran_quiet _ mb (by simp [State.Quiet])).sameDram
  | _ => exact Ends.sameDram (by simp [exec])

/-- Settles O6: a command that does not act on DRAM leaves DRAM as it was, and so each of its bytes. -/
theorem dramFrame : Obligations.DramFrame := by
  unfold Obligations.DramFrame
  intro c s t quiet h a
  have same : s.SameDram t := (ends_next s.SameDram t).mp (h ▸ exec_sameDram s c quiet)
  unfold State.cell
  rw [same]
end Sys2Proof.Machine

namespace Sys2Proof.Machine
open Sys2Proof

/-! ## Partition commands

One equation for each form of a row that is stated: the checks that it passes, and what it answers. -/

theorem csBadState_ne_ok : csBadState ≠ csOk := by decide

theorem partitionCreate_opens {u : State} {c : Cmd} {a : Nat} (known : arg a 0 1 < 64) (free : (u.part (arg a 0 1)).state = 0)
    (cfg : cfgOk (arg a 8 8) = true) (admission : admitOk (arg a 16 8) = true) (shape : shapeOk (arg a 24 8) = true)
    (ntf : ntfOk (arg a 32 8) = true) (conf : (arg a 8 8).testBit 0 = false ∨ (arg a 32 8).testBit 1 = false) :
    partitionCreate u c a = done (u.modPart (arg a 0 1) fun x => x.opened (arg a 8 8) (arg a 16 8) (arg a 24 8) (arg a 32 8)) := by
  have noHost : ¬((arg a 8 8).testBit 0 && (arg a 32 8).testBit 1) = true := by
    rcases conf with h | h <;> simp only [h, Bool.false_and, Bool.and_false, Bool.false_eq_true, not_false_eq_true]
  unfold partitionCreate
  dsimp only
  rw [if_neg (Nat.not_le.mpr known), if_neg (not_not_intro free), if_neg (by simp [cfg, admission, shape, ntf]), if_neg noHost]

theorem partitionArm_arms {u : State} {c : Cmd} {a : Nat} (known : arg a 0 1 < 64) (opened : (u.part (arg a 0 1)).state = 1)
    (session : (u.part (arg a 0 1)).conf = true → (u.part (arg a 0 1)).sess = 1) :
    partitionArm u c a = done (u.setPart (arg a 0 1) { u.part (arg a 0 1) with state := 2 }) := by
  have ready : ¬((u.part (arg a 0 1)).state ≠ 1 || (u.part (arg a 0 1)).conf && (u.part (arg a 0 1)).sess ≠ 1) = true := by
    simpa [opened] using session
  exact (if_neg (Nat.not_le.mpr known)).trans (if_neg ready)

theorem partitionRecover_reopens {u : State} {c : Cmd} {a : Nat} (known : arg a 0 1 < 64) (aborted : (u.part (arg a 0 1)).state = 4)
    (ended : (u.part (arg a 0 1)).done = true) :
    partitionRecover u c a = done ((u.each (u.ctxsOf (arg a 0 1)) fun s c => s.modCtx c fun e => { e with state := 1 }).setPart (arg a 0 1)
      { u.part (arg a 0 1) with state := 1, cause := 0, done := false }) := by
  simp [partitionRecover, Nat.not_le.mpr known, aborted, ended]

theorem partitionRecover_waits {u : State} {c : Cmd} {a : Nat} (known : arg a 0 1 < 64) (aborted : (u.part (arg a 0 1)).state = 4)
    (runs : (u.part (arg a 0 1)).done = false) : partitionRecover u c a = { st := u, again := true } := by
  simp [partitionRecover, Nat.not_le.mpr known, aborted, runs]

theorem partitionClose_begins {u v : State} {c : Cmd} {a : Nat} (known : arg a 0 1 < 64) (used : (u.part (arg a 0 1)).state ≠ 0)
    (once : (u.part (arg a 0 1)).state ≠ 3) (hv : v = (u.modPart (arg a 0 1) fun x => { x with state := 3 }).dropRecords (arg a 0 1))
    (alone : v.slotsOf (arg a 0 1) = []) :
    partitionClose u c a = await (v.closeStep (arg a 0 1)) [.partFree (arg a 0 1)] (v.extsOf (arg a 0 1) 1).length := by
  have closable : ¬((u.part (arg a 0 1)).state = 0 || (u.part (arg a 0 1)).state = 3) = true := by
    simpa using And.intro used once
  unfold partitionClose
  dsimp only
  rw [if_neg (Nat.not_le.mpr known), if_neg closable, ← hv, alone]
  simp [State.clearSlots]

theorem partitionClose_free {u : State} {c : Cmd} {a : Nat} (known : arg a 0 1 < 64) (free : (u.part (arg a 0 1)).state = 0) :
    partitionClose u c a = fail u csBadState := by
  simp [partitionClose, Nat.not_le.mpr known, free]

/-- Settles O41: each form of the four rows passes its checks and answers as stated. -/
theorem partitionCommands : Obligations.PartitionCommands := by
  unfold Obligations.PartitionCommands
  refine ⟨?create, ?arm, ?recovered, ?recovering, ?close, ?closeFree⟩
  case create =>
    exact fun mb s => .of_row rfl (fun _ _ _ ⟨known, free, cfg, admission, shape, ntf, conf⟩ =>
      partitionCreate_opens known free cfg admission shape ntf conf) fun _ _ _ h => h
  case arm => exact fun mb s => .of_row rfl (fun _ _ _ ⟨known, opened, session⟩ => partitionArm_arms known opened session) fun _ _ _ h => h
  case recovered =>
    exact fun mb s => .of_row rfl (fun _ _ _ ⟨known, aborted, ended⟩ => partitionRecover_reopens known aborted ended) fun _ _ _ h => h
  case recovering =>
    exact fun mb s => .of_refusal rfl (fun _ _ _ ⟨known, aborted, runs⟩ => partitionRecover_waits known aborted runs) fun _ _ _ _ => .inr rfl
  case close =>
    exact fun mb s => .of_row rfl fun _ _ _ ⟨known, used, once, alone⟩ => partitionClose_begins known used once rfl alone
  case closeFree =>
    exact fun mb s => .of_refusal rfl (fun _ _ _ ⟨free, known⟩ => partitionClose_free known free) fun _ _ _ _ => .inl csBadState_ne_ok
end Sys2Proof.Machine

namespace Sys2Proof.Machine
open Sys2Proof

/-! ## Extent commands -/

/-- A create that passes every check takes an index, a map range and its granules, with Warden's entry as `writeExt` gives it. -/
theorem State.createExt_creates {u : State} {c : Cmd} {v : CreateArgs} {ok : Nat → Bool} {i b k : Nat} {l : List Nat} {e : Ext}
    {s1 : State} (hl : l = u.stacksFor v.stripe v.homeq) (drawn : u.draw (u.startChoices l).length = (k, s1))
    (he : e = v.ext (u.part v.part).conf) (known : v.part < 64) (opened : (u.part v.part).state = 1 ∨ (u.part v.part).state = 2)
    (session : (u.part v.part).conf = true → (u.part v.part).sess = 1) (plain : (v.mirror || v.parity) = false)
    (kind : v.coherent = false ∨ v.combine = false) (stripe : v.stripe ≠ 3) (sized : v.size ≠ 0) (small : v.size ≤ 261120)
    (listed : l ≠ []) (quota : u.partGranules v.part + e.localSize ≤ (u.part v.part).quota)
    (room : ∀ pos, pos < l.length → shareOf e.localSize l.length ((u.startChoices l).getD k 0) pos ≤ ((l.map u.freeGrans).getD pos []).length)
    (index : u.freeIdx ok = some i) (range : u.mapFree e.localSize = some b) (record : v.combine = true → u.freeComb ≠ none) :
    u.createExt c v ok =
      let st := (u.startChoices l).getD k 0
      let w := s1.writeExt i b e (placeGrans (l.map u.freeGrans) l.length st e.localSize) st
      done w ((w.ext i).handle i + st * 2 ^ 24) := by
  have ready : ¬(((u.part v.part).state ≠ 1 && (u.part v.part).state ≠ 2) || ((u.part v.part).conf && (u.part v.part).sess ≠ 1)) = true := by
    rcases opened with h | h <;> simpa [h] using session
  have form : ¬((v.coherent && v.combine) || v.stripe = 3 || v.size = 0 || 261120 < v.size) = true := by
    rcases kind with h | h <;> simp [h, stripe, sized, small]
  have fits : ¬((List.range l.length).any fun pos =>
      decide (((l.map u.freeGrans).getD pos []).length < shareOf e.localSize l.length ((u.startChoices l).getD k 0) pos)) = true := by
    simpa [-List.getD_eq_getElem?_getD] using room
  have records : ¬((v.combine && u.freeComb.isNone) || ((v.mirror || v.parity) && u.freeProt.isNone)) = true := by
    simpa [plain] using record
  unfold createExt
  extract_lets x l' e' st w
  have hl' : l' = l := hl.symm
  have he' : e' = e := he.symm
  clear_value l' e'
  subst hl' he'
  rw [if_neg (Nat.not_le.mpr known), if_neg ready, if_neg (by simp [plain]), if_neg form, if_neg (by simpa using listed),
    if_neg (Nat.not_lt.mpr quota)]
  split
  next k' s1' drawn' =>
    obtain ⟨rfl, rfl⟩ : k' = k ∧ s1' = s1 := Prod.mk.inj (drawn'.symm.trans drawn)
    extract_lets
    rw [if_neg fits]
    split
    next idx base hi hb =>
      obtain rfl : idx = i := Option.some_inj.mp (hi.symm.trans index)
      obtain rfl : base = b := Option.some_inj.mp (hb.symm.trans range)
      exact if_neg records
    next unplaced => exact absurd range (unplaced i b index)

theorem extentRevoke_begins {u : State} {c : Cmd} {a : Nat} (owner : u.byOwner c (xhIdx (arg a 0 3)) = true) (live : u.live (arg a 0 3) = true)
    (mirror : (u.ext (xhIdx (arg a 0 3))).mirror = false) (parity : (u.ext (xhIdx (arg a 0 3))).parity = false) :
    extentRevoke u c a = await (u.startRevoke (xhIdx (arg a 0 3))) [.revoke (xhIdx (arg a 0 3))] := by
  simp [extentRevoke, owner, live, mirror, parity]

theorem extentQuery_answers {u : State} {c : Cmd} {a : Nat} (used : (u.ext (xhIdx (arg a 0 3))).state ≠ 0)
    (owner : u.byOwner c (xhIdx (arg a 0 3)) = true) :
    extentQuery u c a =
      let x := u.ext (xhIdx (arg a 0 3))
      done u (x.word + (if x.mirror ∨ x.parity then (u.prot x.protRef.toNat).word
                        else if x.combine then (u.comb x.protRef.toNat).word else 0) * 2 ^ 256) := by
  simp only [extentQuery, owner, Bool.true_or, Bool.not_true, Bool.false_eq_true, if_false, Bool.or_eq_true]
  exact if_neg used

theorem deviceSetScrub_sets {u : State} {c : Cmd} {a : Nat} (low : 5 ≤ arg a 0 1) (high : arg a 0 1 ≤ 50) :
    deviceSetScrub u c a = done { u with mem := { u.mem with scrubShare := arg a 0 1 } } :=
  if_neg (by simp [low, high])

theorem deviceSetScrub_refuses {u : State} {c : Cmd} {a : Nat} (out : arg a 0 1 < 5 ∨ 50 < arg a 0 1) :
    deviceSetScrub u c a = fail u csBadArg :=
  if_pos (by simpa using out)

theorem csBadArg_ne_ok : csBadArg ≠ csOk := by decide

/-- Settles O42: each form of the four rows passes its checks and answers as stated. -/
theorem extentCommands : Obligations.ExtentCommands := by
  unfold Obligations.ExtentCommands
  refine ⟨?create, ?revoke, ?query, ?scrub, ?scrubRefused⟩
  case create =>
    intro mb s v i b
    refine .of_row rfl ?_ fun _ _ _ h => h
    rintro u c a ⟨rfl, known, opened, session, kind, stripe, sized, small, listed, quota, room, index, range, record⟩
    exact u.createExt_creates rfl Prod.mk.eta.symm rfl known opened session rfl kind stripe sized small listed quota room index range record
  case revoke =>
    exact fun mb s => .of_row rfl (fun _ _ _ ⟨owner, live, mirror, parity⟩ => extentRevoke_begins owner live mirror parity) fun _ _ _ h => h
  case query => exact fun mb s => .of_row rfl (fun _ _ _ ⟨used, owner⟩ => extentQuery_answers used owner) fun _ _ _ h => h
  case scrub => exact fun mb s => .of_row rfl (fun _ _ _ ⟨low, high⟩ => deviceSetScrub_sets low high) fun _ _ _ h => h
  case scrubRefused =>
    exact fun mb s => .of_refusal rfl (fun _ _ _ out => deviceSetScrub_refuses out) fun _ _ _ _ => .inl csBadArg_ne_ok
end Sys2Proof.Machine

namespace Sys2Proof.Machine
open Sys2Proof

/-! ## Sharing commands -/

/-- The slot that an offer writes, without consent. -/
def offeredSlot (a : Nat) : ShareSlot := { part := BitVec.ofNat 6 (arg a 4 1), valid := true, rights := BitVec.ofNat 12 (arg a 6 2) }

section
variable {u : State} {c : Cmd} {a k r : Nat} {y : ShareSlot}

section
/-! The checks of an offer, which a first and a further one pass alike. -/
variable (owner : u.byOwner c (xhIdx (arg a 0 3)) = true) (known : arg a 4 1 < 64) (live : u.live (arg a 0 3) = true)
  (mirror : (u.ext (xhIdx (arg a 0 3))).mirror = false) (parity : (u.ext (xhIdx (arg a 0 3))).parity = false)
  (conf : (u.part (arg a 4 1)).conf = false) (opened : (u.part (arg a 4 1)).state = 1 ∨ (u.part (arg a 4 1)).state = 2)
  (other : (u.ext (xhIdx (arg a 0 3))).owner.toNat ≠ arg a 4 1) (new : u.slotOf (xhIdx (arg a 0 3)) (arg a 4 1) = none)

include opened other new in
theorem extentShareOffer_member : ¬(((u.part (arg a 4 1)).state ≠ 1 && (u.part (arg a 4 1)).state ≠ 2)
    || (u.ext (xhIdx (arg a 0 3))).owner.toNat = arg a 4 1 || (u.slotOf (xhIdx (arg a 0 3)) (arg a 4 1)).isSome) = true := by
  rcases opened with h | h <;> simp [h, other, new]

include owner known live mirror parity conf opened other new

theorem extentShareOffer_further (shared : (u.ext (xhIdx (arg a 0 3))).shared = true)
    (free : (List.range 7).find? (fun k => !(tget {} (u.share (u.ext (xhIdx (arg a 0 3))).shareRef.toNat).slots k).valid) = some k) :
    extentShareOffer u c a =
      let r := (u.ext (xhIdx (arg a 0 3))).shareRef.toNat
      done (u.setShare r { u.share r with slots := tput {} (u.share r).slots k (offeredSlot a) }) k := by
  unfold extentShareOffer
  dsimp only
  rw [if_neg (by simp [owner]), if_neg (Nat.not_le.mpr known), if_neg (by simp [live, mirror, parity]), if_neg (by simp [conf]),
    if_neg (extentShareOffer_member opened other new), if_pos shared, free]
  rfl

theorem extentShareOffer_first (unshared : (u.ext (xhIdx (arg a 0 3))).shared = false) (free : u.freeShare = some r) :
    extentShareOffer u c a = done ((u.setShare r { used := true, slots := tput {} [] 0 (offeredSlot a) }).setExt (xhIdx (arg a 0 3))
      { u.ext (xhIdx (arg a 0 3)) with shared := true, shareRef := BitVec.ofNat 12 r }) := by
  unfold extentShareOffer
  dsimp only
  rw [if_neg (by simp [owner]), if_neg (Nat.not_le.mpr known), if_neg (by simp [live, mirror, parity]), if_neg (by simp [conf]),
    if_neg (extentShareOffer_member opened other new), if_neg (by simp [unshared]), free]
  rfl

end

theorem extentShareAccept_consents (live : u.live (arg a 0 3) = true) (own : u.slotOf (xhIdx (arg a 0 3)) c.own = some (k, y))
    (offered : y.consent = false) :
    extentShareAccept u c a = done (u.modShare (u.ext (xhIdx (arg a 0 3))).shareRef.toNat fun r =>
      { r with slots := tput {} r.slots k { y with consent := true } }) := by
  simp only [extentShareAccept, live, own, offered, if_true, if_false, Bool.false_eq_true]

theorem unslot_clears {xh m : Nat} (live : u.live xh = true) (slot : u.slotOf (xhIdx xh) m = some (k, y)) :
    unslot u xh m = await (u.clearSlot (xhIdx xh) k).2 (u.clearSlot (xhIdx xh) k).1 := by
  simp only [unslot, live, slot, if_true]

theorem extentUnshare_clears (owner : u.byOwner c (xhIdx (arg a 0 3)) = true) : extentUnshare u c a = unslot u (arg a 0 3) (arg a 4 1) :=
  if_neg (by simp [owner])

end

/-- Settles O43: each form of the four rows passes its checks and answers as stated. -/
theorem shareCommands : Obligations.ShareCommands := by
  unfold Obligations.ShareCommands
  refine ⟨?offer, ?firstOffer, ?accept, ?withdraw, ?unshare⟩
  case offer =>
    refine fun mb s k => .of_row rfl ?_ fun _ _ _ h => h
    rintro u c a ⟨owner, known, live, mirror, parity, conf, opened, other, new, shared, free⟩
    exact extentShareOffer_further owner known live mirror parity conf opened other new shared free
  case firstOffer =>
    refine fun mb s r => .of_row rfl ?_ fun _ _ _ h => h
    rintro u c a ⟨owner, known, live, mirror, parity, conf, opened, other, unshared, free⟩
    have new : u.slotOf (xhIdx (arg a 0 3)) (arg a 4 1) = none := if_neg (by simp [unshared])
    exact extentShareOffer_first owner known live mirror parity conf opened other new unshared free
  case accept =>
    exact fun mb s k y => .of_row rfl (fun _ _ _ ⟨live, own, offered⟩ => extentShareAccept_consents live own offered) fun _ _ _ h => h
  case withdraw => exact fun mb s k y => .of_row rfl (fun _ _ _ ⟨live, own⟩ => unslot_clears live own) fun _ _ _ h => h
  case unshare =>
    exact fun mb s k y => .of_row rfl (fun _ _ _ ⟨owner, live, slot⟩ => (extentUnshare_clears owner).trans (unslot_clears live slot))
      fun _ _ _ h => h
end Sys2Proof.Machine

namespace Sys2Proof.Machine
open Sys2Proof

/-! ## Context, translation and coherence commands -/

section
variable {u : State} {c : Cmd} {a : Nat}

theorem contextCreate_takes {k t : Nat} (known : arg a 0 1 < 64)
    (opened : (u.part (arg a 0 1)).state = 1 ∨ (u.part (arg a 0 1)).state = 2) (entry : entryOk (arg a 8 8) = true)
    (conf : (u.part (arg a 0 1)).conf = true → (arg a 8 8).testBit 44 = false)
    (quota : u.partContexts (arg a 0 1) < (u.part (arg a 0 1)).maxCtx) (room : (u.ctxs.filter (·.2.state ≠ 0)).length < 8192)
    (oldest : u.oldestCtx (arg a 0 1) = some (k, t)) (aged : t = 0 ∨ t + 10000000 ≤ u.ftNs + 1) :
    contextCreate u c a = done (u.setCtx (1024 * arg a 0 1 + k) (({} : Ctx).write (arg a 8 8) (arg a 16 6) ((arg a 1 1).testBit 0)))
      (1024 * arg a 0 1 + k) := by
  have ready : ¬((u.part (arg a 0 1)).state ≠ 1 && (u.part (arg a 0 1)).state ≠ 2) = true := by
    rcases opened with h | h <;> simp [h]
  have noHost : ¬((u.part (arg a 0 1)).conf && (arg a 8 8).testBit 44) = true := by
    simpa using conf
  have free : ¬(t ≠ 0 && u.ftNs + 1 < t + 10000000) = true := by simp; omega
  unfold contextCreate
  dsimp only
  rw [if_neg (Nat.not_le.mpr known), if_neg ready, if_neg (by simp [entry]), if_neg noHost, if_neg (Nat.not_le.mpr quota),
    if_neg (Nat.not_le.mpr room), oldest]
  exact if_neg free

theorem contextSet_writes (used : (u.ctx (arg a 0 2)).state = 1 ∨ (u.ctx (arg a 0 2)).state = 2)
    (jobs : (u.ctx (arg a 0 2)).state = 2 → (arg a 2 1).testBit 0 = false → u.ctxJobs (arg a 0 2) = false) (entry : entryOk (arg a 8 8) = true)
    (conf : (u.part (arg a 0 2 / 1024)).conf = true → (arg a 8 8).testBit 44 = false) :
    contextSet u c a =
      let y := (u.ctx (arg a 0 2)).write (arg a 8 8) (arg a 16 6) ((arg a 2 1).testBit 0)
      done (if y.ptRoot = (u.ctx (arg a 0 2)).ptRoot ∧ y.hostPt = (u.ctx (arg a 0 2)).hostPt then u.setCtx (arg a 0 2) y
            else (u.setCtx (arg a 0 2) y).purge fun e => e.cid.toNat == arg a 0 2) := by
  have ready : ¬((u.ctx (arg a 0 2)).state ≠ 1 && (u.ctx (arg a 0 2)).state ≠ 2) = true := by
    rcases used with h | h <;> simp [h]
  have idle : ¬((u.ctx (arg a 0 2)).state = 2 && !(arg a 2 1).testBit 0 && u.ctxJobs (arg a 0 2)) = true := by
    simpa using jobs
  have noHost : ¬((u.part (arg a 0 2 / 1024)).conf && (arg a 8 8).testBit 44) = true := by
    simpa using conf
  unfold contextSet
  dsimp only
  rw [if_neg ready, if_neg idle, if_neg (by simp [entry]), if_neg noHost]
  simp only [Bool.or_eq_true, decide_eq_true_eq, ← not_and_or, ne_eq, ite_not]

theorem contextDestroy_retires (used : (u.ctx (arg a 0 2)).state = 1 ∨ (u.ctx (arg a 0 2)).state = 2) :
    contextDestroy u c a = await (u.retire (arg a 0 2)) [.ctxFree (arg a 0 2)] :=
  if_neg (by rcases used with h | h <;> simp [h])

theorem invalidateRange_runs (known : arg a 0 1 < 64) (nonzero : arg a 16 8 ≠ 0) (fits : arg a 8 6 + arg a 16 8 ≤ 2 ^ 48)
    (named : (arg a 1 1).testBit 0 = false → arg a 2 2 / 1024 = arg a 0 1 ∧ (u.ctx (arg a 2 2)).state ≠ 0)
    (opened : (u.part (arg a 0 1)).state = 1 ∨ (u.part (arg a 0 1)).state = 2) :
    invalidateRange u c a =
      let w := u.invalRange (arg a 0 1) (arg a 2 2) ((arg a 1 1).testBit 0) (arg a 8 6) (arg a 16 8)
      await w (if w.invalPends (arg a 0 1) (arg a 2 2) ((arg a 1 1).testBit 0)
        then [.inval (arg a 0 1) (arg a 2 2) ((arg a 1 1).testBit 0) (arg a 8 6) (arg a 16 8)] else []) := by
  have range : ¬(64 ≤ arg a 0 1 || arg a 16 8 = 0 || 2 ^ 48 - arg a 8 6 < arg a 16 8
      || (!(arg a 1 1).testBit 0 && arg a 2 2 / 1024 ≠ arg a 0 1)) = true := by
    have large : arg a 16 8 ≤ 281474976710656 - arg a 8 6 := by omega
    cases all : (arg a 1 1).testBit 0 with
    | false => simp [known, nonzero, large, (named all).1]
    | true => simp [known, nonzero, large]
  have ready : ¬((u.part (arg a 0 1)).state = 0 || (u.part (arg a 0 1)).state = 3
      || (!(arg a 1 1).testBit 0 && (u.ctx (arg a 2 2)).state = 0)) = true := by
    simp only [Bool.or_eq_true, Bool.and_eq_true, decide_eq_true_eq, Bool.not_eq_true']
    rintro ((free | closing) | ⟨one, free⟩)
    · exact absurd (free ▸ opened) (by decide)
    · exact absurd (closing ▸ opened) (by decide)
    · exact (named one).2 free
  unfold invalidateRange
  dsimp only
  rw [if_neg range, if_neg (by rcases opened with h | h <;> simp [h]), if_neg ready]
  split <;> rfl

theorem elderBind_binds (known : arg a 0 1 < 64)
    (opened : (arg a 1 1).testBit 0 = true → (u.part (arg a 0 1)).state = 1 ∨ (u.part (arg a 0 1)).state = 2) (unbound : u.elder.en = false) :
    elderBind u c a = done { u with
      elder := { filter := (arg a 1 1).testBit 1, en := (arg a 1 1).testBit 0, part := BitVec.ofNat 6 (arg a 0 1)
                 eidMatch := BitVec.ofNat 12 (arg a 2 2), eidMask := BitVec.ofNat 12 (arg a 4 2) } } := by
  have ready : ¬((arg a 1 1).testBit 0 && (u.part (arg a 0 1)).state ≠ 1 && (u.part (arg a 0 1)).state ≠ 2) = true := by
    intro h
    simp only [Bool.and_eq_true, decide_eq_true_eq] at h
    obtain ⟨⟨en, not1⟩, not2⟩ := h
    exact (opened en).elim not1 not2
  unfold elderBind
  dsimp only
  rw [if_neg (Nat.not_le.mpr known), if_neg ready]
  simp [unbound, await, done]

theorem elderMap_maps (nonzero : arg a 2 1 ≠ 0) (few : arg a 2 1 ≤ 28) (fits : arg a 0 2 + arg a 2 1 ≤ 32768) (bound : u.elder.en = true)
    (good : ∀ k, k < arg a 2 1 → u.regionBad (arg a (8 + 8 * k) 8) = none) :
    elderMap u c a =
      let l := (List.range (arg a 2 1)).map fun k => arg a (8 + 8 * k) 8
      let v := (u.each (List.range (arg a 2 1)) fun s k => s.setRegion (arg a 0 2 + k) (s.regionOf (l.getD k 0))).drainExts
        (backing ((List.range (arg a 2 1)).map fun k => u.region (arg a 0 2 + k)))
      await v.2 v.1 := by
  have accepted : ((List.range (arg a 2 1)).map fun k => arg a (8 + 8 * k) 8).filterMap u.regionBad = [] := by
    simpa using good
  unfold elderMap
  dsimp only
  rw [if_neg (by simp; omega), if_neg (by simp [bound]), accepted]

theorem cohAgentSet_sets (nonzero : arg a 2 2 ≠ 0) (few : arg a 2 2 ≤ 4096) (sets : arg a 4 1 = 1) (fits : arg a 0 2 + arg a 2 2 ≤ 0xFFE) :
    cohAgentSet u c a = done (u.each ((List.range (arg a 2 2)).map fun i => arg a 0 2 + i) fun s e => s.setAgent e true) := by
  unfold cohAgentSet
  dsimp only
  rw [if_neg (by simp; omega), if_neg (by simp; omega), if_neg (by omega), if_pos sets]

theorem cohAgentSet_refuses (nonzero : arg a 2 2 ≠ 0) (few : arg a 2 2 ≤ 4096) (sets : arg a 4 1 = 1) (whole : arg a 0 2 + arg a 2 2 = 4096) :
    cohAgentSet u c a = refuse u c wStructure csBadArg := by
  unfold cohAgentSet
  dsimp only
  rw [if_neg (by simp; omega), if_pos (by simp [sets, whole])]

theorem cohAgentSet_clears (nonzero : arg a 2 2 ≠ 0) (few : arg a 2 2 ≤ 4096) (clear : arg a 4 1 = 0) (fits : arg a 0 2 + arg a 2 2 ≤ 0xFFE) :
    cohAgentSet u c a = await u ((((List.range (arg a 2 2)).map fun i => arg a 0 2 + i).filter u.agent).map fun e => .agents e) := by
  unfold cohAgentSet
  dsimp only
  rw [if_neg (by simp; omega), if_neg (by simp [clear]), if_neg (by omega), if_neg (by omega)]

theorem cohConfig_sets (known : arg a 0 1 < 3) : cohConfig u c a = done { u with pred := BitVec.ofNat 2 (arg a 0 1) } :=
  if_neg (Nat.not_le.mpr known)

end

/-- What the fields of a context entry read as after a write. -/
theorem Ctx.write_fields (x : Ctx) (e r : Nat) (b : Bool) : (x.write e r b).state = (if b then 2 else 1)
    ∧ (x.write e r b).eidMatch.toNat = bitsOf e 18 12 ∧ (x.write e r b).eidMask.toNat = bitsOf e 30 12
    ∧ (x.write e r b).cls.toNat = bitsOf e 42 2 ∧ (x.write e r b).hostPt = e.testBit 44 := by
  simp [Ctx.write, bitsOf]

/-- Settles O45: each form of the rows passes its checks and answers as stated. -/
theorem contextAndTranslationCommands : Obligations.ContextAndTranslationCommands := by
  unfold Obligations.ContextAndTranslationCommands
  refine ⟨?create, ?set, ?destroy, Ctx.write_fields, ?inval, ?bind, ?map, ?agents, ?agentsRefused, ?agentsCleared, ?predictor⟩
  case create =>
    exact fun mb s k t => .of_row rfl (fun _ _ _ ⟨known, opened, entry, conf, quota, room, oldest, aged⟩ =>
      contextCreate_takes known opened entry conf quota room oldest aged) fun _ _ _ h => h
  case set => exact fun mb s => .of_row rfl (fun _ _ _ ⟨used, jobs, entry, conf⟩ => contextSet_writes used jobs entry conf) fun _ _ _ h => h
  case destroy => exact fun mb s => .of_row rfl (fun _ _ _ used => contextDestroy_retires used) fun _ _ _ h => h
  case inval =>
    exact fun mb s => .of_row rfl (fun _ _ _ ⟨known, nonzero, fits, named, opened⟩ => invalidateRange_runs known nonzero fits named opened)
      fun _ _ _ h => h
  case bind => exact fun mb s => .of_row rfl (fun _ _ _ ⟨known, opened, unbound⟩ => elderBind_binds known opened unbound) fun _ _ _ h => h
  case map =>
    exact fun mb s => .of_row rfl (fun _ _ _ ⟨nonzero, few, fits, bound, good⟩ => elderMap_maps nonzero few fits bound good) fun _ _ _ h => h
  case agents => exact fun mb s => .of_row rfl (fun _ _ _ ⟨nonzero, few, sets, fits⟩ => cohAgentSet_sets nonzero few sets fits) fun _ _ _ h => h
  case agentsRefused =>
    exact fun mb s => .of_refusal rfl (fun _ _ _ ⟨nonzero, few, sets, whole⟩ => cohAgentSet_refuses nonzero few sets whole)
      fun _ _ _ _ => .inl csBadArg_ne_ok
  case agentsCleared =>
    exact fun mb s => .of_row rfl (fun _ _ _ ⟨nonzero, few, clear, fits⟩ => cohAgentSet_clears nonzero few clear fits) fun _ _ _ h => h
  case predictor => exact fun mb s => .of_row rfl (fun _ _ _ known => cohConfig_sets known) fun _ _ _ h => h
end Sys2Proof.Machine

namespace Sys2Proof.Machine
open Sys2Proof

/-! ## Pool group commands -/

/-- The status of a choice between two answers, when the choices agree and so do the statuses on each side. -/
theorem Answer.ite_status_congr {p : Prop} [Decidable p] {a b a' b' : Answer} (yes : a.status = a'.status) (no : b.status = b'.status) :
    (if p then a else b).status = (if p then a' else b').status := by
  split
  · exact yes
  · exact no

theorem done_status (s : State) (r : Nat) : (done s r).status = csOk := rfl

/-- Whether a create succeeds does not depend on the journal. -/
theorem State.createExt_status_note (u : State) (t : Nat) (k : JKind) (c : Cmd) (v : CreateArgs) (ok : Nat → Bool) :
    ((u.note t k).createExt c v ok).status = (u.createExt c v ok).status := by
  unfold createExt
  extract_lets x l e n lists x' l' e' n' lists'
  have hx : x = x' := rfl
  have hl : l = l' := rfl
  have he : e = e' := rfl
  have hn : n = n' := rfl
  have hlists : lists = lists' := rfl
  clear_value x l e n lists x' l' e' n' lists'
  subst hx hl he hn hlists
  have drawn : (u.note t k).draw ((u.note t k).startChoices l).length
      = ((u.draw (u.startChoices l).length).1, (u.draw (u.startChoices l).length).2.note t k) := rfl
  have index : (u.note t k).freeIdx ok = u.freeIdx ok := rfl
  have range : (u.note t k).mapFree e.localSize = u.mapFree e.localSize := rfl
  have comb : (u.note t k).freeComb = u.freeComb := rfl
  have prot : (u.note t k).freeProt = u.freeProt := rfl
  rw [index, range, comb, prot]
  refine Answer.ite_status_congr rfl (Answer.ite_status_congr rfl (Answer.ite_status_congr rfl (Answer.ite_status_congr rfl
    (Answer.ite_status_congr rfl (Answer.ite_status_congr rfl ?_)))))
  rw [drawn]
  rcases u.draw (u.startChoices l).length with ⟨p, s1⟩
  refine Answer.ite_status_congr rfl ?_
  split
  next => exact Answer.ite_status_congr rfl ((done_status ..).trans (done_status ..).symm)
  next => rfl

section
variable {u : State} {c : Cmd} {a : Nat}

section
/-! The values of GROUP_CONFIG that pass its first check. -/
variable (two : 2 ≤ arg a 0 1) (eight : arg a 0 1 ≤ 8) (member : arg a 1 1 < arg a 0 1) (nonempty : arg a 8 4 ≠ 0) (small : arg a 8 4 ≤ 16384)
  (fits : arg a 4 4 + arg a 8 4 ≤ 262144) (own : tget 0 (groupEids a (arg a 0 1)) (arg a 1 1) = u.node.eid)
  (eids : ∀ i, i < arg a 0 1 → arg a (16 + 2 * i) 2 < 4096)
include two eight member nonempty small fits own eids

theorem groupConfig_values : ¬(arg a 0 1 < 2 || 8 < arg a 0 1 || arg a 0 1 ≤ arg a 1 1 || arg a 8 4 = 0 || 16384 < arg a 8 4
    || 262144 < arg a 4 4 + arg a 8 4 || tget 0 (groupEids a (arg a 0 1)) (arg a 1 1) ≠ u.node.eid
    || (List.range (arg a 0 1)).any (fun i => decide (4096 ≤ arg a (16 + 2 * i) 2))) = true := by
  simp only [Bool.or_eq_true, decide_eq_true_eq, List.any_eq_true, List.mem_range, not_or, not_exists, not_and, not_lt, not_le, own, ne_eq,
    not_true_eq_false, not_false_eq_true, and_true]
  exact ⟨⟨⟨⟨⟨⟨two, eight⟩, member⟩, nonempty⟩, small⟩, fits⟩, eids⟩

theorem groupConfig_opens (off : u.group.on = false)
    (free : ∀ e ∈ u.exts, e.2.state = 0 ∨ e.1 < arg a 4 4 ∨ arg a 4 4 + arg a 8 4 ≤ e.1) :
    groupConfig u c a = done { u with group :=
      { on := true, nmemb := arg a 0 1, self := Fin.ofNat 8 (arg a 1 1), xbase := BitVec.ofNat 18 (arg a 4 4), xcount := arg a 8 4
        eids := groupEids a (arg a 0 1), lastHb := (List.range (arg a 0 1)).foldl (fun t m => tput 0 t m u.ftNs) [], lastSent := u.ftNs } } := by
  have vacant : ¬(u.group.on
      || (u.exts.any fun e => e.2.state ≠ 0 && decide (arg a 4 4 ≤ e.1) && decide (e.1 < arg a 4 4 + arg a 8 4))) = true := by
    simp only [off, Bool.false_or, List.any_eq_true, Bool.and_eq_true, decide_eq_true_eq, not_exists, not_and, not_lt]
    rintro e he ⟨used, low⟩
    rcases free e he with h | h | h
    · exact absurd h used
    · omega
    · exact h
  unfold groupConfig
  dsimp only
  rw [if_neg (groupConfig_values two eight member nonempty small fits own eids), if_pos (by simp [off]), if_neg vacant]

theorem groupConfig_replaces (on : u.group.on = true) (update : (arg a 2 1).testBit 0 = true) (size : arg a 0 1 = u.group.nmemb)
    (self : arg a 1 1 = u.group.self.val) (base : arg a 4 4 = u.group.xbase.toNat) (count : arg a 8 4 = u.group.xcount)
    (same : ∀ m, m < arg a 0 1 → tget 0 (groupEids a (arg a 0 1)) m = tget 0 u.group.eids m ∨ u.group.lost.getLsbD m = true) :
    groupConfig u c a = done { u with group := { u.group with
      eids := groupEids a (arg a 0 1), lost := 0, acted := 0
      lastHb := ((List.range (arg a 0 1)).filter u.group.lost.getLsbD).foldl (fun t m => tput 0 t m u.ftNs) u.group.lastHb } } := by
  have kept : ¬(arg a 0 1 ≠ u.group.nmemb || arg a 1 1 ≠ u.group.self.val || arg a 4 4 ≠ u.group.xbase.toNat || arg a 8 4 ≠ u.group.xcount
      || (List.range (arg a 0 1)).any (fun m => tget 0 (groupEids a (arg a 0 1)) m ≠ tget 0 u.group.eids m && !u.group.lost.getLsbD m)) = true := by
    simp only [size, self, base, count, ne_eq, not_true_eq_false, decide_false, Bool.false_or, List.any_eq_true, List.mem_range,
      Bool.and_eq_true, decide_eq_true_eq, Bool.not_eq_true', not_exists, not_and]
    rintro m hm differs
    rw [← size] at differs hm
    simpa using (same m hm).resolve_left differs
  unfold groupConfig
  dsimp only
  rw [if_neg (groupConfig_values two eight member nonempty small fits own eids), if_neg (by simp [on]; simpa using update), if_neg kept]

end

theorem groupExtentCreate_carries {v : CreateArgs} {e : GroupExt} {r : Answer}
    (hv : v = { part := arg a 0 1, mirror := !(arg a 1 1).testBit 0, parity := (arg a 1 1).testBit 0, pwidth := (arg a 1 1).testBit 1
                slots := arg a 12 3, rights := bitsOf a 16 12, stripe := bitsOf a 32 2, homeq := bitsOf a 34 2, size := arg a 8 4 })
    (he : e = { part := BitVec.ofNat 6 v.part, parity := v.parity, wide := v.pwidth, rights := BitVec.ofNat 12 v.rights
                stripe := BitVec.ofNat 2 v.stripe, homeq := BitVec.ofNat 2 v.homeq, size := BitVec.ofNat 18 v.size
                slots := BitVec.ofNat 24 v.slots })
    (on : u.group.on = true) (majority : u.majority = true)
    (slots : u.slotsOk (arg a 12 3) (if (arg a 1 1).testBit 0 then (if (arg a 1 1).testBit 1 then 8 else 4) else 2) = true)
    (hr : r = u.createExt c v fun i => u.inGroup i) (made : r.status = 0) :
    groupExtentCreate u c a =
      let xh := BitVec.ofNat 24 (r.result % 2 ^ 24)
      let w := r.st.withProt (xhIdx xh.toNat) e
      await (w.each w.peers fun s m => s.carry m xh true (.create xh e)) (w.peers.map fun m => .group m xh) xh.toNat := by
  have ok : ¬r.status ≠ csOk := not_not_intro made
  unfold groupExtentCreate
  dsimp only
  rw [if_neg (by simp [on]), if_neg (by simp [majority]), if_neg (by simpa using slots), ← hv, ← hr, if_neg ok, he, hv]

theorem groupExtentRevoke_begins (owner : u.byOwner c (xhIdx (arg a 0 3)) = true) (live : u.live (arg a 0 3) = true)
    (prot : (u.ext (xhIdx (arg a 0 3))).mirror = true ∨ (u.ext (xhIdx (arg a 0 3))).parity = true) (majority : u.majority = true) :
    groupExtentRevoke u c a = await (u.revoke (xhIdx (arg a 0 3)))
      (.revoke (xhIdx (arg a 0 3)) :: (u.peers.filter fun m => !u.silent m).map fun m => .group m (BitVec.ofNat 24 (arg a 0 3))) := by
  unfold groupExtentRevoke
  dsimp only
  rw [if_neg (by simp [owner]), if_neg (by simp [live]), if_neg (by rcases prot with h | h <;> simp [h]), if_neg (by simp [majority])]

theorem groupPromote_promotes (on : u.group.on = true) (pair : u.group.nmemb = 2) (peer : arg a 0 1 ∈ u.peers)
    (silent : u.silent (arg a 0 1) = true) :
    groupPromote u c a = done ({ u with group := { u.group with
      promoted := true, lost := u.group.lost ||| BitVec.ofNat 8 (1 <<< arg a 0 1) } }.actLost) :=
  if_pos (by simp [on, pair, peer, silent])

theorem groupRebuild_one (one : arg a 0 3 ≠ 0xFFFFFF) (slot : arg a 4 1 < 8) (target : arg a 5 1 < 2) (action : arg a 6 1 < 3)
    (live : u.live (arg a 0 3) = true) (ready : u.canRebuild (arg a 4 1) (arg a 6 1) (arg a 5 1 = 1) (xhIdx (arg a 0 3)) = true)
    (room : arg a 6 1 = 0 → arg a 5 1 = 1 → u.spare ≠ none) :
    groupRebuild u c a =
      let w := u.modProt (u.ext (xhIdx (arg a 0 3))).protRef.toNat fun p => p.rebuild (arg a 4 1) (arg a 6 1) (arg a 5 1 = 1)
      done (if arg a 6 1 = 0 ∧ arg a 5 1 = 0 then w.tellTarget (xhIdx (arg a 0 3)) (arg a 4 1) else w) := by
  have space : ¬(arg a 6 1 = 0 && arg a 5 1 = 1 && u.spare.isNone) = true := by simpa using room
  unfold groupRebuild
  dsimp only
  rw [if_neg one, if_neg (by simp; omega), if_neg (by simp [live, one]; simpa using ready), if_neg space]
  simp only [Bool.and_eq_true, decide_eq_true_eq]
  rfl

end

section
variable {s : State} {m : Fin 8} {xh : Xh}

theorem State.createIn_makes {e : GroupExt} {r : Answer} (inside : s.inGroup (xhIdx xh.toNat) = true)
    (free : (s.ext (xhIdx xh.toNat)).state = 0)
    (hr : r = (s.setExt (xhIdx xh.toNat) { s.ext (xhIdx xh.toNat) with gen := xhGen xh.toNat }).createExt {} (groupArgs e)
      fun i => i == xhIdx xh.toNat) (made : r.status = 0) (src : Nat) :
    s.createIn src xh e = (r.st.withProt (xhIdx xh.toNat) e).groupSend src none (.answer xh 0) := by
  have ok : r.status = csOk := made
  have dead : s.live xh.toNat = false := by simp [live, free]
  unfold createIn
  dsimp only
  rw [if_neg (by simp [dead]), if_neg (by simp [inside, free]), ← hr, if_pos ok]
  rfl

theorem execGroupExtentCreate_carried {e : GroupExt} (up : s.stewardUp = true) (on : s.group.on = true) (peer : m.val ∈ s.peers) :
    execGroupExtentCreate (.carried m xh e) s = .next (s.createIn m.val xh e) := by
  simp [execGroupExtentCreate, up, on, peer]

theorem execGroupExtentCreate_answered {st : BitVec 16} (up : s.stewardUp = true) :
    execGroupExtentCreate (.answered m xh st) s = .next ((s.createAnswer m.val xh st).createSettle xh) := by
  simp [execGroupExtentCreate, up]

theorem execGroupExtentCreate_unanswered (up : s.stewardUp = true) (late : s.noAnswer m.val xh true = true) :
    execGroupExtentCreate (.unanswered m xh) s
      = .next ((s.createAnswer m.val xh (BitVec.ofNat 16 csGroupUnreach)).createSettle xh) := by
  simp [execGroupExtentCreate, up, late]

theorem State.createSettle_waits (s : State) (xh : Xh) (h : ∃ c ∈ s.group.calls, c.create = true ∧ c.xh = xh ∧ c.ans = none) :
    s.createSettle xh = s := by
  obtain ⟨c, mem, create, handle, unanswered⟩ := h
  refine if_pos ?_
  have waits : ((s.group.calls.filter fun c => c.create && c.xh == xh).any (·.ans.isNone)) = true :=
    List.any_eq_true.mpr ⟨c, by simp [mem, create, handle], by simp [unanswered]⟩
  rw [waits, Bool.or_true]

theorem State.createSettle_made {l : List Carried} (hl : l = s.group.calls.filter (fun c => c.create && c.xh == xh)) (nonempty : l ≠ [])
    (made : ∀ c ∈ l, c.ans = some 0) :
    s.createSettle xh = ({ s with group := { s.group with calls := s.group.calls.filter fun c => !(c.create && c.xh == xh) } }).each l
      fun s c => s.wake (.group c.member xh) := by
  have answered : ¬(l.isEmpty || l.any (·.ans.isNone)) = true := by
    simp only [Bool.or_eq_true, List.isEmpty_iff, nonempty, false_or, List.any_eq_true, not_exists, not_and]
    exact fun c hc => by simp [made c hc]
  have failed : (l.find? fun c => c.ans ≠ some 0) = none := List.find?_eq_none.mpr fun c hc => by simp [made c hc]
  unfold createSettle
  dsimp only
  rw [← hl, if_neg answered, failed]

theorem execGroupExtentRevoke_carried (up : s.stewardUp = true) (on : s.group.on = true) (peer : m.val ∈ s.peers)
    (live : s.live xh.toNat = true) (prot : (s.ext (xhIdx xh.toNat)).mirror = true ∨ (s.ext (xhIdx xh.toNat)).parity = true) :
    execGroupExtentRevoke (.carried m xh) s
      = .next (({ s with group := { s.group with owed := s.group.owed ++ [(m.val, xh)] } }).startRevoke (xhIdx xh.toNat)) := by
  have taken : (s.stewardUp && s.group.on && s.peers.contains m.val) = true := by simp [up, on, peer]
  have held : (s.live xh.toNat && ((s.ext (xhIdx xh.toNat)).mirror || (s.ext (xhIdx xh.toNat)).parity)) = true := by
    rcases prot with h | h <;> simp [live, h]
  exact congrArg Host.Outcome.next ((if_pos taken).trans (if_pos held))

theorem execGroupExtentRevoke_answered (st : BitVec 16) (up : s.stewardUp = true) :
    execGroupExtentRevoke (.answered m xh st) s = .next (s.revokeAnswer m.val xh) := by
  simp [execGroupExtentRevoke, up]

end

/-- Settles O44: each form of the rows passes its checks and answers as stated. -/
theorem groupCommands : Obligations.GroupCommands := by
  unfold Obligations.GroupCommands
  refine ⟨?config, ?replace, ?create, ?carried, ?answered, ?unanswered, fun xh s h => s.createSettle_waits xh h, ?settled, ?revoke, ?revokeCarried,
    ?revokeAnswered, ?promote, ?rebuild⟩
  case config =>
    exact fun mb s => .of_row rfl (fun _ _ _ ⟨two, eight, member, nonempty, small, fits, own, eids, off, free⟩ =>
      groupConfig_opens two eight member nonempty small fits own eids off free) fun _ _ _ h => h
  case replace =>
    exact fun mb s => .of_row rfl
      (fun _ _ _ ⟨two, eight, member, nonempty, small, fits, own, eids, on, update, size, self, base, count, same⟩ =>
        groupConfig_replaces two eight member nonempty small fits own eids on update size self base count same) fun _ _ _ h => h
  case create =>
    refine fun mb s v e => .of_row rfl (fun _ _ _ ⟨hv, he, on, majority, slots, made⟩ =>
      groupExtentCreate_carries hv he on majority slots rfl made) ?_
    exact fun u c a ⟨hv, he, on, majority, slots, made⟩ =>
      ⟨hv, he, on, majority, slots, (u.createExt_status_note c.token .write c v _).trans made⟩
  case carried =>
    exact fun m xh e s r up on peer inside free hr made => (execGroupExtentCreate_carried up on peer).trans
      (congrArg _ (State.createIn_makes inside free hr made m.val))
  case answered => exact fun m xh st s up => execGroupExtentCreate_answered up
  case unanswered => exact fun m xh s up late => execGroupExtentCreate_unanswered up late
  case settled => exact fun xh l s hl nonempty made => State.createSettle_made hl nonempty made
  case revoke =>
    exact fun mb s => .of_row rfl (fun _ _ _ ⟨owner, live, prot, majority⟩ => groupExtentRevoke_begins owner live prot majority)
      fun _ _ _ h => h
  case revokeCarried => exact fun m xh s up on peer live prot => execGroupExtentRevoke_carried up on peer live prot
  case revokeAnswered => exact fun m xh st s up => execGroupExtentRevoke_answered st up
  case promote =>
    exact fun mb s => .of_row rfl (fun _ _ _ ⟨on, pair, peer, silent⟩ => groupPromote_promotes on pair peer silent) fun _ _ _ h => h
  case rebuild =>
    exact fun mb s => .of_row rfl (fun _ _ _ ⟨one, slot, target, action, live, ready, room⟩ =>
      groupRebuild_one one slot target action live ready room) fun _ _ _ h => h
end Sys2Proof.Machine

namespace Sys2Proof.Machine
open Sys2Proof

/-! ## The ends of drains

What ends in its own time: each row is one guard, and what it does once the guard holds. -/

/-- An operation of every turn that leaves Steward's registers leaves them after all turns. -/
theorem State.each_stew {α : Type} (s : State) (l : List α) {f : State → α → State} (h : ∀ u a, (f u a).stew = u.stew) :
    (s.each l f).stew = s.stew :=
  State.each_induction (fun u => u.stew = s.stew) l f s rfl fun u a _ hu => (h u a).trans hu

/-- The intents of a write change the journal. -/
theorem State.noteFor_frame (s : State) (w : Wait) : ∃ j, s.noteFor w = { s with journal := j } :=
  State.each_induction (fun u => ∃ j, u = { s with journal := j }) _ _ s ⟨_, rfl⟩ fun _ c _ ⟨j, hj⟩ => ⟨j.write c.token .write, by rw [hj]; rfl⟩

@[simp] theorem State.noteFor_stew (s : State) (w : Wait) : (s.noteFor w).stew = s.stew := by
  obtain ⟨j, h⟩ := s.noteFor_frame w
  rw [h]

@[simp] theorem State.noteFor_ftNs (s : State) (w : Wait) : (s.noteFor w).ftNs = s.ftNs := by
  obtain ⟨j, h⟩ := s.noteFor_frame w
  rw [h]
  rfl

@[simp] theorem State.groupSend_stew (s : State) (m : Nat) (tc : Option (Fin 8)) (g : GroupMsg) : (s.groupSend m tc g).stew = s.stew := rfl

@[simp] theorem State.tellMembers_stew (s : State) (i : Nat) : (s.tellMembers i).stew = s.stew := by
  unfold tellMembers
  dsimp only
  split
  · exact s.each_stew _ fun u e => by simp
  · rfl

@[simp] theorem State.payOwed_stew (s : State) (i : Nat) : (s.payOwed i).stew = s.stew := State.each_stew _ _ fun u o => by simp

/-- What comes for no command changes nothing. -/
theorem State.wake_none {s : State} {w : Wait} (h : (s.cmds.any fun c => c.waits.contains w) = false) : s.wake w = s :=
  if_neg (by simp only [h, Bool.false_eq_true, not_false_eq_true])

section
variable {p : Fin 64} {s u : State}

/-- The state in which the end of an abort is looked at: every queued request of the partition ended. -/
theorem execAbortComplete_busy (hu : u = ((((s.abortQueues p.val).abortHeld p.val).abortTxns p.val).abortFwds p.val).dropHostReqs)
    (aborting : (s.part p.val).abortAt.isSome = true) (busy : u.abortBusy p.val = true) : execAbortComplete p s = .next u := by
  unfold execAbortComplete
  dsimp only
  rw [if_pos aborting, ← hu, if_pos busy]

theorem execAbortComplete_done (hu : u = ((((s.abortQueues p.val).abortHeld p.val).abortTxns p.val).abortFwds p.val).dropHostReqs)
    (aborting : (s.part p.val).abortAt.isSome = true) (quiet : u.abortBusy p.val = false) :
    execAbortComplete p s = .next
      ((((if (s.part p.val).conf then (u.dropKeys p.val).endSession p.val 2 (if (s.part p.val).cause = 2 then 1 else 2) else u).modPart p.val
        fun x => { x with done := true, abortAt := none }).stewSend p.val
          { kind := 2, obj := BitVec.ofNat 32 p.val, cid := BitVec.ofNat 16 (p.val * 1024), cause := (s.part p.val).cause.setWidth 8 }).abortCmds
        p.val) := by
  unfold execAbortComplete
  dsimp only
  rw [if_pos aborting, ← hu, if_neg (by simp [quiet])]

end

theorem execPhaseDrainDone_idle {e : Fin 262144} {s : State} (drained : (s.ext e.val).counter (!(s.ext e.val).phase) = 0)
    (idle : (s.cmds.any fun c => c.waits.contains (.phase e.val (s.ext e.val).phase) || c.waits.contains (.phase e.val (!(s.ext e.val).phase)))
      = false) :
    execPhaseDrainDone e s = .next s.closeAll := by
  have ended : (s.cmds.any fun c => c.waits.contains (.phase e.val (!(s.ext e.val).phase))) = false := by
    simp only [List.any_eq_false, Bool.or_eq_true, not_or] at idle ⊢
    exact fun c hc => (idle c hc).2
  have begun : (s.cmds.any fun c => c.waits.contains (.phase e.val (s.ext e.val).phase)) = false := by
    simp only [List.any_eq_false, Bool.or_eq_true, not_or] at idle ⊢
    exact fun c hc => (idle c hc).1
  unfold execPhaseDrainDone
  dsimp only
  rw [if_pos drained, State.wake_none ended, if_neg (by simp only [begun, Bool.false_eq_true, not_false_eq_true])]

theorem execRevokeDrainDone_ends {e : Fin 262144} {s : State} (revoking : (s.ext e.val).state = 2) (phaseA : (s.ext e.val).ctrA = 0)
    (phaseB : (s.ext e.val).ctrB = 0) (plain : (s.ext e.val).coherent = false) (noCommit : s.stew.commit = false) :
    execRevokeDrainDone e s = .next
      ((((((s.noteFor (.revoke e.val)).setExt e.val { s.ext e.val with state := 3, key := none, scrub := 0 }).tellMembers e.val).payOwed
        e.val).wake (.revoke e.val)).closeStep (s.ext e.val).owner.toNat) := by
  unfold execRevokeDrainDone
  dsimp only
  rw [if_pos (by simp [revoking, phaseA, phaseB, plain]), if_neg (by simp [noCommit])]

theorem execContextRetireDone_frees {c : Cid} {s : State} (retiring : (s.ctx c.toNat).state = 3) (idle : (s.ctx c.toNat).inflight = 0)
    (jobless : ∀ n ∈ s.tileList, ∀ k ∈ (s.tile n).slots, (s.job n k).cid ≠ c) :
    execContextRetireDone c s = .next
      ((((((s.noteFor (.ctxFree c.toNat)).setCtx c.toNat {}).modPart (cidPart c) fun x =>
        { x with freedAt := tput 0 x.freedAt (c.toNat % 1024) (s.ftNs + 1) }).wake (.ctxFree c.toNat)).closeStep (cidPart c))) := by
  have noJob : (s.tileList.any fun n => (s.tile n).slots.any fun k => (s.job n k).cid = c) = false := by
    simp only [List.any_eq_false, List.any_eq_true, decide_eq_true_eq, not_exists, not_and]
    exact jobless
  unfold execContextRetireDone
  dsimp only
  rw [if_pos (by simp only [retiring, idle, noJob]; rfl), State.noteFor_ftNs]

theorem execPartitionFree_frees {p : Fin 64} {s : State} (closing : (s.part p.val).state = 3) (aborted : (s.part p.val).abortAt = none)
    (contexts : s.ctxsOf p.val = []) (active : s.extsOf p.val 1 = []) (revoking : s.extsOf p.val 2 = [])
    (drained : s.closeDrains p.val true = false)
    (carried : ∀ c ∈ s.group.calls, c.create = true ∨ (s.ext (c.xh.extractLsb' 0 18).toNat).owner.toNat ≠ p.val) :
    execPartitionFree p s = .next
      (let u := (((s.noteFor (.partFree p.val)).elderClosed p.val).dropKeys p.val).endSession p.val 0 3
       (((u.each (u.extsOf p.val 3) fun s i => s.modExt i fun x => { x with left := true }).setPart p.val (s.part p.val).freed).each (List.range 4)
         fun s m => s.modMbox (4 + 4 * p.val + m) fun b => { mseq := b.mseq }).wake (.partFree p.val)) := by
  have settled : (s.group.calls.any fun c => !c.create && (s.ext (c.xh.extractLsb' 0 18).toNat).owner.toNat = p.val) = false := by
    simp only [List.any_eq_false, Bool.and_eq_true, Bool.not_eq_true', decide_eq_true_eq, not_and]
    exact fun c hc carriedRevoke => (carried c hc).resolve_left (by simp [carriedRevoke])
  exact if_pos (by simp only [closing, aborted, contexts, active, revoking, drained, settled]; rfl)

/-- Settles O15: the guard of each row holds, and it does what is stated. -/
theorem drainsEnd : Obligations.DrainsEnd := by
  unfold Obligations.DrainsEnd
  refine ⟨?plain, ?confidential, ?busy, ?phase, ?revoke, ?context, ?partition⟩
  case plain =>
    intro p s u hu aborting quiet plain
    exact (execAbortComplete_done hu aborting quiet).trans (by rw [if_neg (by simp [plain])])
  case confidential =>
    intro p s u hu aborting quiet conf
    exact (execAbortComplete_done hu aborting quiet).trans (by rw [if_pos conf])
  case busy => exact fun p s u hu aborting busy => execAbortComplete_busy hu aborting busy
  case phase => exact fun e s drained idle => execPhaseDrainDone_idle drained idle
  case revoke => exact fun e s revoking phaseA phaseB plain noCommit => execRevokeDrainDone_ends revoking phaseA phaseB plain noCommit
  case context => exact fun c s retiring idle jobless => execContextRetireDone_frees retiring idle jobless
  case partition =>
    exact fun p s closing aborted contexts active revoking drained carried =>
      execPartitionFree_frees closing aborted contexts active revoking drained carried
end Sys2Proof.Machine

namespace Sys2Proof

/-! ### What the checks of R46 ask of a packet and its extent entry -/

/-- Check 7 of R46: the access lies in the extent and within one line. -/
def Packet.insideExt (p : Packet) (e : Machine.Ext) : Prop :=
  p.offset.toNat + p.accLen ≤ e.size.toNat * 2 ^ 21 ∧ p.offset.toNat % 128 + p.accLen ≤ 128

/-- Whether an access lies outside the extent or its line, as the model decides it. -/
def Packet.beyondExt (p : Packet) (e : Machine.Ext) : Bool :=
  p.offset.toNat + p.accLen > e.size.toNat * 2 ^ 21 || p.offset.toNat % 128 + p.accLen > 128

/-- Check 4 of R46: the entry is ALLOCATED and of the handle's generation. -/
def Packet.live (p : Packet) (e : Machine.Ext) : Bool := e.state = 1 && e.gen = p.xh.extractLsb' 18 6

section
variable {p : Packet} {e : Machine.Ext}

theorem Packet.beyondExt_iff : p.beyondExt e = true ↔ ¬ p.insideExt e := by
  simp only [beyondExt, insideExt, Bool.or_eq_true, decide_eq_true_eq]
  omega

theorem Packet.live_iff : p.live e = true ↔ e.state = 1 ∧ e.gen = p.xh.extractLsb' 18 6 := by
  simp only [live, Bool.and_eq_true, decide_eq_true_eq]

theorem Packet.not_live_iff : ¬ p.live e = true ↔ e.state ≠ 1 ∨ e.gen ≠ p.xh.extractLsb' 18 6 := by
  rw [Packet.live_iff, not_and_or]

end

end Sys2Proof

namespace Sys2Proof.Machine
open Sys2Proof

/-! ## Memory requests at the memory stage

A request of a memory row is taken from release, admitted to its home arbiter, checked (R46), and handed to the unit that serves it. -/

/-! ### Taken and admitted -/

@[simp] theorem State.take_pkt (s : State) (p : Packet) : (s.take p).1.pkt = p := by
  unfold take
  split
  case h_1 h found => simpa using List.find?_some found
  case h_2 => rfl

@[simp] theorem State.take_filtered (s : State) (p : Packet) (e : Eid) : (s.take p).2.filtered e = s.filtered e := by
  unfold take
  split <;> rfl

/-- Every memory row is `memRow` with its opcode. -/
theorem exec_memReq {c : Instr} {o : Byte} {p : Packet} (h : c.memReq = some (o, p)) (s : State) : exec c s = .next (s.memRow o p) := by
  cases c <;> cases h <;> rfl

/-- The opcode of a memory row is one of R111, and is no control access. -/
theorem memReq_opcode {c : Instr} {o : Byte} {p : Packet} (h : c.memReq = some (o, p)) : isMemOpc o = true := by
  cases c <;> cases h <;> rfl

theorem isRowRequest_of_isMemOpc {o : Byte} (h : isMemOpc o = true) : isRowRequest o = true := by
  simp only [isMemOpc, isRowRequest, Bool.and_eq_true, decide_eq_true_eq] at h ⊢
  omega

theorem isCtl_of_isMemOpc {p : Packet} (h : isMemOpc p.opc = true) : p.isCtl = false := by
  have small : p.opc.toNat ≤ 10 := by
    simp only [isMemOpc, Bool.and_eq_true, decide_eq_true_eq] at h
    exact h.2
  have other (o : Byte) (big : 10 < o.toNat) : (p.opc == o) = false := by
    refine beq_eq_false_iff_ne.mpr fun e => ?_
    rw [e] at small
    omega
  simp [Packet.isCtl, other oCtlRd (by decide), other oCtlWr (by decide)]

theorem State.memRow_arrives {s : State} {o : Byte} {p : Packet} (opc : p.opc = o) (direct : s.filtered p.src = false) (turn : s.turn p = true) :
    s.memRow o p = (s.take p).2.memArrive (s.take p).1 :=
  if_neg (by simp [opc, direct, turn])

theorem State.memArrive_held {u : State} {h : Held} (hold : u.mustHold h = true) :
    u.memArrive h = { u with admHeld := u.admHeld ++ [h] }.bump (stackBlk (u.stallAt (u.reqOf h))) 9 :=
  if_pos hold

/-- A memory request of a requester outside the Elder filter that need not wait goes to the checks. -/
theorem State.memArrive_checked {u : State} {h : Held} (go : u.mustHold h = false) (opc : isMemOpc h.pkt.opc = true)
    (direct : u.filtered h.pkt.src = false) : u.memArrive h = u.stageCheck (u.reqOf h) := by
  unfold memArrive memGo
  rw [if_neg (by simp [go]), if_neg (by simp [isRowRequest_of_isMemOpc opc]), if_neg (by simp [direct]),
    if_neg (by simp [isCtl_of_isMemOpc opc])]

theorem State.reqOf_direct {u : State} {h : Held} (direct : u.filtered h.pkt.src = false) : u.reqOf h = u.directReq h :=
  if_neg (by simp [direct])

/-! ### Checked and served -/

/-- The session unit's record of a packet is no part of the extent table. -/
@[simp] theorem State.noteProt_ext (s : State) (part : Nat) (p : Packet) (k : Nat) : (s.noteProt part p).ext k = s.ext k := by
  have kept (u : State) (e : Eid) : (u.keepKey part e false p.vc).exts = u.exts := rfl
  have same : (s.noteProt part p).exts = s.exts := by
    unfold noteProt
    dsimp only
    (repeat' split) <;> simp [kept]
  simp only [ext, same]

@[simp] theorem State.checkedProt_ext (s : State) (p : Packet) (k : Nat) : (s.checkedProt p).ext k = s.ext k := by
  unfold checkedProt
  split <;> simp

section
variable {s : State} {r : Req}

/-- The first check that fails ends the request, after the session unit's record. -/
theorem State.stageCheck_fails {st : Status} (h : s.msCheck r.pkt (some r.pkt.src) true = some st) :
    s.stageCheck r = ((s.checkedProt r.pkt).dropResv r).deliver r st 0 0 (if st = stRetry then 15 else 0) false := by
  unfold stageCheck
  dsimp only
  rw [h]
  rfl

theorem State.stageCheck_passes (h : s.msCheck r.pkt (some r.pkt.src) true = none) :
    s.stageCheck r = if (s.ext r.ext).combine then ((s.checkedProt r.pkt).enter r).2.combine ((s.checkedProt r.pkt).enter r).1
      else if (s.ext r.ext).coherent then ((s.checkedProt r.pkt).enter r).2.dirRequest ((s.checkedProt r.pkt).enter r).1
      else ((s.checkedProt r.pkt).enter r).2.toDram
        { ((s.checkedProt r.pkt).enter r).1 with act := (directAct r.pkt).1, cost := (directAct r.pkt).2 } := by
  rw [← s.checkedProt_ext r.pkt r.ext]
  unfold stageCheck
  dsimp only
  rw [h]
  rfl

end

/-- What the memory stage does with a request of a memory row, from its release on. -/
theorem State.stageCheck_of_memReq {c : Instr} {p : Packet} {s : State} (row : c.memReq = some (p.opc, p)) (direct : s.filtered p.src = false)
    (turn : s.turn p = true) (go : (s.take p).2.mustHold (s.take p).1 = false) :
    exec c s = .next ((s.take p).2.stageCheck ((s.take p).2.reqOf (s.take p).1)) := by
  rw [exec_memReq row, State.memRow_arrives rfl direct turn,
    State.memArrive_checked go (by simpa using memReq_opcode row) (by simpa using direct)]

/-! ### The checks of R46 in their order -/

/-- Checks 2 and 3 of R46: the context, its EIDs and the protection of the packet. -/
def State.contextOk (s : State) (p : Packet) (i : Eid) (needProt : Bool) : Bool :=
  (s.ctx p.cid.toNat).state = 2 && eidFits i (s.ctx p.cid.toNat).eidMatch (s.ctx p.cid.toNat).eidMask
    && (!((s.part (cidPart p.cid)).conf && needProt) || s.protOk (cidPart p.cid) p)

/-- The checks of R46 from the rights on, and between them that a member without a majority answers RETRY (R64). -/
def State.entryCheck (s : State) (p : Packet) (r : BitVec 3) : Option Status :=
  let e := s.ext (pktExt p)
  if r &&& p.needs ≠ p.needs then some stDenied
  else if p.beyondExt e then some stDenied
  else if (e.mirror || e.parity) && !s.serves e p.offset.toNat then some stDenied
  else if (e.mirror || e.parity) && !s.majority then some stRetry
  else if !p.formOk e.coherent then some stDenied
  else none

section
variable {s : State} {p : Packet} {i : Eid} {b : Bool}

theorem State.not_contextOk_iff : ¬ s.contextOk p i b = true ↔
    (s.ctx p.cid.toNat).state ≠ 2 ∨ eidFits i (s.ctx p.cid.toNat).eidMatch (s.ctx p.cid.toNat).eidMask = false
      ∨ ((s.part (cidPart p.cid)).conf = true ∧ b = true ∧ s.protOk (cidPart p.cid) p = false) := by
  simp only [contextOk, Bool.and_eq_true, Bool.or_eq_true, Bool.not_eq_true', decide_eq_true_eq, ne_eq,
    ← Bool.not_eq_true]
  tauto

theorem State.contextOk_of (context : (s.ctx p.cid.toNat).state = 2)
    (fits : eidFits i (s.ctx p.cid.toNat).eidMatch (s.ctx p.cid.toNat).eidMask = true)
    (prot : (s.part (cidPart p.cid)).conf = true → b = true → s.protOk (cidPart p.cid) p = true) : s.contextOk p i b = true := by
  by_contra bad
  rcases State.not_contextOk_iff.mp bad with h | h | ⟨conf, need, h⟩
  · exact h context
  · exact Bool.false_ne_true (h.symm.trans fits)
  · exact Bool.false_ne_true (h.symm.trans (prot conf need))

/-- The checks of a request that another member forwards (R61, R65). -/
theorem State.msCheck_peer (peer : s.fromPeer p (s.ext (pktExt p)) = true) : s.msCheck p (some i) b =
    if (s.part (cidPart p.cid)).state = 4 then some stAborted
    else if !p.live (s.ext (pktExt p)) then some stRevoked
    else if p.beyondExt (s.ext (pktExt p)) || !p.formOk false then some stDenied else none :=
  if_pos (Bool.and_eq_true_iff.mpr ⟨rfl, peer⟩)

/-- The checks of any other request with an EID. -/
theorem State.msCheck_own (own : s.fromPeer p (s.ext (pktExt p)) = false) : s.msCheck p (some i) b =
    if (s.part (cidPart p.cid)).state = 4 then some stAborted
    else if (s.part (cidPart p.cid)).state ≠ 2 then some stDenied
    else if !s.contextOk p i b then some stDenied
    else if !p.live (s.ext (pktExt p)) then some stRevoked
    else (s.rightsOf (s.ext (pktExt p)) (cidPart p.cid) (s.ctx p.cid.toNat).cls.toNat).elim (some stDenied) (s.entryCheck p) := by
  refine (if_neg fun h => Bool.false_ne_true (own.symm.trans (Bool.and_eq_true_iff.mp h).2)).trans ?_
  unfold pktExt
  cases s.rightsOf (s.ext (p.xh.extractLsb' 0 18).toNat) (cidPart p.cid) (s.ctx p.cid.toNat).cls.toNat <;> rfl

theorem State.msCheck_peer_rows (peer : s.fromPeer p (s.ext (pktExt p)) = true) :
    ((s.part (cidPart p.cid)).state = 4 → s.msCheck p (some i) b = some stAborted)
    ∧ ((s.part (cidPart p.cid)).state ≠ 4 → (s.ext (pktExt p)).state ≠ 1 ∨ (s.ext (pktExt p)).gen ≠ p.xh.extractLsb' 18 6 →
      s.msCheck p (some i) b = some stRevoked)
    ∧ ((s.part (cidPart p.cid)).state ≠ 4 → (s.ext (pktExt p)).state = 1 → (s.ext (pktExt p)).gen = p.xh.extractLsb' 18 6 →
      (¬ p.insideExt (s.ext (pktExt p)) ∨ p.formOk false = false → s.msCheck p (some i) b = some stDenied)
      ∧ (p.insideExt (s.ext (pktExt p)) → p.formOk false = true → s.msCheck p (some i) b = none)) := by
  rw [State.msCheck_peer peer]
  refine ⟨fun aborted => if_pos aborted, fun part stale => ?stale, fun part state gen => ?live⟩
  case stale => rw [if_neg part, if_pos (by simpa using Packet.not_live_iff.mpr stale)]
  case live =>
    rw [if_neg part, if_neg (by simpa using Packet.live_iff.mpr ⟨state, gen⟩)]
    refine ⟨fun bad => if_pos ?bad, fun inside form => if_neg ?good⟩
    case bad => simpa [Packet.beyondExt_iff] using bad
    case good => simpa [Packet.beyondExt_iff] using ⟨inside, form⟩

/-- Checks 6 to 9, in the rows of their outcomes. -/
theorem State.entryCheck_rows {r : BitVec 3} :
    (r &&& p.needs ≠ p.needs → s.entryCheck p r = some stDenied)
    ∧ (r &&& p.needs = p.needs →
      (¬ p.insideExt (s.ext (pktExt p)) → s.entryCheck p r = some stDenied)
      ∧ (p.insideExt (s.ext (pktExt p)) →
        ((s.ext (pktExt p)).mirror = true ∨ (s.ext (pktExt p)).parity = true → s.serves (s.ext (pktExt p)) p.offset.toNat = false →
          s.entryCheck p r = some stDenied)
        ∧ ((s.ext (pktExt p)).mirror = true ∨ (s.ext (pktExt p)).parity = true → s.serves (s.ext (pktExt p)) p.offset.toNat = true →
          s.majority = false → s.entryCheck p r = some stRetry)
        ∧ (((s.ext (pktExt p)).mirror = true ∨ (s.ext (pktExt p)).parity = true →
            s.serves (s.ext (pktExt p)) p.offset.toNat = true ∧ s.majority = true) →
          (p.formOk (s.ext (pktExt p)).coherent = false → s.entryCheck p r = some stDenied)
          ∧ (p.formOk (s.ext (pktExt p)).coherent = true → s.entryCheck p r = none)))) := by
  unfold entryCheck
  dsimp only
  refine ⟨fun rights => if_pos rights, fun rights => ?rights⟩
  rw [if_neg (not_not.mpr rights)]
  refine ⟨fun outside => if_pos (Packet.beyondExt_iff.mpr outside), fun inside => ?inside⟩
  rw [if_neg (by rwa [Packet.beyondExt_iff, not_not])]
  refine ⟨fun kind serves => if_pos ?unserved, fun kind serves majority => ?retry, fun served => ?form⟩
  case unserved => simpa [serves] using kind
  case retry => rw [if_neg (by simp [serves]), if_pos (by simpa [majority] using kind)]
  case form =>
    rw [← Bool.or_eq_true] at served
    rw [if_neg (by simpa using fun kind => (served kind).1), if_neg (by simpa using fun kind => (served kind).2)]
    exact ⟨fun form => if_pos (by simp [form]), fun form => if_neg (by simp [form])⟩

end

/-- Settles O20: a memory row takes its request to the checks of R46, and each check is one branch of `msCheck`. -/
theorem memoryRows : Obligations.MemoryRows := by
  unfold Obligations.MemoryRows
  refine ⟨fun c o p s row opc direct turn => ?rows, fun p i b s => ⟨fun own => ?own, fun peer => State.msCheck_peer_rows peer⟩⟩
  case rows =>
    subst opc
    have req : (s.take p).2.reqOf (s.take p).1 = (s.take p).2.directReq (s.take p).1 := State.reqOf_direct (by simpa using direct)
    have pkt : ((s.take p).2.reqOf (s.take p).1).pkt = p := by rw [req]; exact s.take_pkt p
    have ext : ((s.take p).2.reqOf (s.take p).1).ext = pktExt p := by rw [req]; exact congrArg pktExt (s.take_pkt p)
    refine ⟨fun hold => ?held, fun st go fails => ?fails, fun go passes => ?passes⟩
    case held => rw [exec_memReq row, State.memRow_arrives rfl direct turn, State.memArrive_held hold]
    case fails =>
      rw [State.stageCheck_of_memReq row direct turn go, State.stageCheck_fails (by rwa [pkt]), pkt]
    case passes =>
      rw [State.stageCheck_of_memReq row direct turn go, State.stageCheck_passes (by rwa [pkt]), pkt, ext]
      refine ⟨fun combine => ?combine, fun combine coherent => ?coherent, fun combine coherent => ?dram⟩
      case combine => rw [if_pos combine]
      case coherent => rw [if_neg (by simp [combine]), if_pos coherent]
      case dram => rw [if_neg (by simp [combine]), if_neg (by simp [coherent])]
  case own =>
    rw [State.msCheck_own own]
    refine ⟨fun aborted => if_pos aborted, fun four two => ?unopened, fun opened => ⟨fun bad => ?context, fun context fits prot => ?known⟩⟩
    case unopened => rw [if_neg four, if_pos two]
    case context =>
      rw [if_neg (by simp [opened]), if_neg (not_not.mpr opened), if_pos (by simpa using State.not_contextOk_iff.mpr bad)]
    case known =>
      rw [if_neg (by simp [opened]), if_neg (not_not.mpr opened), if_neg (by simpa using State.contextOk_of context fits prot)]
      refine ⟨fun stale => if_pos (congrArg Bool.not (Bool.eq_false_of_not_eq_true (Packet.not_live_iff.mpr stale))), fun state gen => ?live⟩
      have live : p.live (s.ext (pktExt p)) = true := Packet.live_iff.mpr ⟨state, gen⟩
      rw [if_neg (by simp [live])]
      refine ⟨congrArg (Option.elim · (some stDenied) (s.entryCheck p)), fun r rights => ?entry⟩
      have entry : (s.rightsOf (s.ext (pktExt p)) (cidPart p.cid) (s.ctx p.cid.toNat).cls.toNat).elim (some stDenied) (s.entryCheck p)
          = s.entryCheck p r := congrArg (Option.elim · (some stDenied) (s.entryCheck p)) rights
      rw [entry]
      exact State.entryCheck_rows

end Sys2Proof.Machine

namespace Sys2Proof.Machine
open Sys2Proof

/-! ## Work on granules, and the pool group -/

/-! ### What background work leaves unchanged -/

/-- A field that each turn leaves as it is, is as it was after all turns. -/
theorem State.each_same {α β : Type} (s : State) (field : State → β) (l : List α) (f : State → α → State)
    (h : ∀ u a, field (f u a) = field u) : field (s.each l f) = field s :=
  State.each_induction (fun u => field u = field s) l f s rfl fun u a _ hu => (h u a).trans hu

section
variable (s : State) (l : List Nat) (f : State → Nat → Nat) (g : Nat → Nat) (v : RMap) (w : BitVec 19)
@[simp] theorem State.each_unmap_dram : (s.each l fun s i => (s.setRmapE (f s i) v).setGranule (g i) w).dram = s.dram :=
  s.each_same State.dram l _ fun _ _ => rfl
@[simp] theorem State.each_unmap_parts : (s.each l fun s i => (s.setRmapE (f s i) v).setGranule (g i) w).parts = s.parts :=
  s.each_same State.parts l _ fun _ _ => rfl
@[simp] theorem State.each_unmap_stks : (s.each l fun s i => (s.setRmapE (f s i) v).setGranule (g i) w).stks = s.stks :=
  s.each_same State.stks l _ fun _ _ => rfl
@[simp] theorem State.each_unmap_now : (s.each l fun s i => (s.setRmapE (f s i) v).setGranule (g i) w).now = s.now :=
  s.each_same State.now l _ fun _ _ => rfl
end

/-- What an extent that becomes FREE gives back is neither in DRAM nor in the partitions' or the stacks' registers. -/
theorem State.freeExt_frame (s : State) (k : Nat) :
    (s.freeExt k).dram = s.dram ∧ (s.freeExt k).parts = s.parts ∧ (s.freeExt k).stks = s.stks := by
  unfold freeExt
  dsimp only
  (repeat' split) <;> simp

/-- Its entry keeps only GEN, and when it became free. -/
theorem State.freeExt_ext (s : State) (k : Nat) : (s.freeExt k).ext k = { gen := (s.ext k).gen, freedAt := s.now + 1 } := by
  unfold freeExt
  dsimp only
  (repeat' split) <;> simp

/-- Wearing a granule's rows counts activations and closes rows. -/
theorem State.useGran_frame (s : State) (g : Nat) :
    (s.useGran g).dram = s.dram ∧ (s.useGran g).lines = s.lines ∧ (s.useGran g).exts = s.exts ∧ (s.useGran g).gmap = s.gmap := by
  unfold useGran
  dsimp only
  refine State.each_induction (fun u => u.dram = s.dram ∧ u.lines = s.lines ∧ u.exts = s.exts ∧ u.gmap = s.gmap) _ _ _ ?_ ?_
  · simp [draw]
  · intro u c _ hu
    simpa [modChan] using hu

theorem State.wipe_rows (s : State) (g : Nat) : (s.wipe g).dram = s.dram.filter (fun c => c.1 / 2097152 ≠ g)
    ∧ (s.wipe g).lines = s.lines.filter (fun l => l.1 / 16384 ≠ g) ∧ (s.wipe g).exts = s.exts ∧ (s.wipe g).gmap = s.gmap := by
  obtain ⟨dram, lines, exts, gmap⟩ := s.useGran_frame g
  unfold wipe
  dsimp only
  rw [dram, lines]
  exact ⟨rfl, rfl, exts, gmap⟩

/-! ### Scrubbing and filling -/

section
variable {e : Fin 262144} {s : State}

theorem execScrubStep_waits (wait : s.granOk (s.extGran (s.ext e.val) (s.ext e.val).scrub) = false) : execScrubStep e s = .next s :=
  if_neg (by simp [wait])

theorem execScrubStep_wipes (state : (s.ext e.val).state = 3) (more : (s.ext e.val).scrub < (s.ext e.val).localSize)
    (ok : s.granOk (s.extGran (s.ext e.val) (s.ext e.val).scrub) = true) :
    execScrubStep e s = .next (((s.wipe (s.extGran (s.ext e.val) (s.ext e.val).scrub)).pace
        (granStack (s.extGran (s.ext e.val) (s.ext e.val).scrub)) granBytes).setExt e.val
      { s.ext e.val with scrub := (s.ext e.val).scrub + 1 }) :=
  if_pos (by simpa [ok, more] using state)

theorem execScrubDone_frees (state : (s.ext e.val).state = 3) (all : (s.ext e.val).scrub = (s.ext e.val).localSize) :
    execScrubDone e s = .next (s.freeExt e.val) :=
  if_pos (by simpa [all] using state)

theorem execZeroFillDone_fills (combine : (s.ext e.val).combine = true) (state : (s.ext e.val).state = 1)
    (clearing : (s.comb (s.ext e.val).protRef.toNat).clearing = true) (due : (s.comb (s.ext e.val).protRef.toNat).fillEnd ≤ s.now)
    (clear : ∀ g ∈ s.extGrans (s.ext e.val), (s.stack (granStack g)).state = 5 ∨ s.bgClear (granStack g) = true) :
    execZeroFillDone e s = .next
      (((((s.noteFor (.zeroFill e.val)).each (s.extGrans (s.ext e.val)) fun s g => s.wipe g).setExt e.val { s.ext e.val with zero := true }).setComb
        (s.ext e.val).protRef.toNat { s.comb (s.ext e.val).protRef.toNat with valid := true, clearing := false }).wake (.zeroFill e.val)) :=
  if_pos (by simpa [combine, clearing, due] using ⟨state, clear⟩)

end

/-! ### Parity -/

section
variable {h : Xh} {o : BitVec 40} {d : DeltaIn} {s : State}

theorem execParityDelta_named (on : s.group.on = true) (peer : d.src.val ∈ s.peers)
    (state : (s.ext (h.extractLsb' 0 18).toNat).state = 1) (gen : (s.ext (h.extractLsb' 0 18).toNat).gen = h.extractLsb' 18 6)
    (parity : s.standIn (s.ext (h.extractLsb' 0 18).toNat) o.toNat = true)
    (inside : o.toNat < (s.ext (h.extractLsb' 0 18).toNat).size.toNat * 2 ^ 21) :
    let i := (h.extractLsb' 0 18).toNat
    let x := s.ext i
    let l := s.extLine x (x.local_ o.toNat)
    let u := s.deltaIn i x l (xtsTweak i x.gen.toNat (s.lineNo x o.toNat)) d.data
    execParityDelta h o d s = if s.lineWaits l then .next s
      else .next (u.1.peerCmp (some (lineStack l)) d.src.val d.tc d.cid d.rtag u.2) := by
  unfold execParityDelta
  dsimp only
  rw [if_neg (by simpa [on] using peer), if_pos]
  simp only [Bool.and_eq_true, decide_eq_true_eq]
  exact ⟨⟨⟨state, gen⟩, parity⟩, inside⟩

theorem execParityDelta_unnamed (on : s.group.on = true) (peer : d.src.val ∈ s.peers)
    (bad : (s.ext (h.extractLsb' 0 18).toNat).state ≠ 1 ∨ (s.ext (h.extractLsb' 0 18).toNat).gen ≠ h.extractLsb' 18 6
      ∨ s.standIn (s.ext (h.extractLsb' 0 18).toNat) o.toNat = false) :
    execParityDelta h o d s = .next (s.peerCmp none d.src.val d.tc d.cid d.rtag stRevoked) := by
  unfold execParityDelta
  dsimp only
  rw [if_neg (by simpa [on] using peer), if_neg]
  simp only [Bool.and_eq_true, decide_eq_true_eq]
  rintro ⟨⟨⟨state, gen⟩, parity⟩, -⟩
  rcases bad with bad | bad | bad
  · exact bad state
  · exact bad gen
  · exact Bool.false_ne_true (bad.symm.trans parity)

end

/-- How the DRAM reads a line now (R384). -/
def State.readCls (s : State) (l : Nat) : Cls :=
  lineCls (clsOf (s.lineMeta l).mark (Config.pins s.now l).1) (clsOf (s.lineMeta l).mark (Config.pins s.now l).2)

section
variable {i l w : Nat} {x : Ext} {d : Line} {s : State}

theorem State.deltaIn_failed (failed : s.lineFailed l = true) : s.deltaIn i x l w d = (s, stOk) :=
  if_pos failed

theorem State.deltaIn_clean (there : s.lineFailed l = false) (clean : s.readCls l = .clean) :
    s.deltaIn i x l w d = ((s.useRow l).storeLine l ((s.useRow l).lineData i l w ^^^ d) x.key w, stOk) := by
  unfold readCls at clean
  unfold deltaIn
  dsimp only
  rw [if_neg (by simp [there]), clean]

/-- Without redundancy a line that cannot be read is not rebuilt. -/
theorem State.deltaIn_uncorrectable (there : s.lineFailed l = false) (clean : s.readCls l ≠ .clean) (corrected : s.readCls l ≠ .corrected)
    (ue : (s.useRow l).redundant x = false) (poison : ((s.useRow l).bump (stackBlk (lineStack l)) 2).redundant x = false) :
    (s.deltaIn i x l w d).2 = stUncorrectable := by
  unfold readCls at clean corrected
  unfold deltaIn
  dsimp only
  rw [if_neg (by simp [there])]
  split
  case h_1 c => exact absurd c clean
  case h_2 c => exact absurd c corrected
  case h_3 => rw [if_neg (by simp [ue])]
  case h_4 => rw [if_neg (by simp [poison])]

end

/-! ### Rebuilding -/

theorem State.peers_contains {s : State} {m : Nat} (h : m ∈ s.peers) : s.peers.contains m = true := List.contains_iff_mem.mpr h

section
variable {k i : Nat} {s : State} (state : (s.ext k).state = 1) (kind : (s.ext k).mirror = true ∨ (s.ext k).parity = true)
  (running : (s.prot (s.ext k).protRef.toNat).rstate = 1)
include state kind running

/-- A rebuild whose target is another member waits for the pace of the granule's stack. -/
theorem State.rebuildDue_waits (away : (s.prot (s.ext k).protRef.toNat).target = false)
    (hi : i = if (s.ext k).parity then (s.prot (s.ext k).protRef.toNat).cursor.toNat / (if (s.ext k).pwidth then 7 else 3)
      else (s.prot (s.ext k).protRef.toNat).cursor.toNat)
    (wait : s.granOk (s.extGran (s.ext k) i) = false) : s.rebuildDue k = s := by
  subst hi
  exact (if_neg (by rw [running, Bool.or_eq_true_iff.mpr kind]; simpa using state)).trans ((if_neg (by simp [away])).trans (if_pos (by rw [wait]; rfl)))

/-- Otherwise the granule's lines go to the member that takes the slot, and CURSOR advances, to the end of the rebuild at SIZE. -/
theorem State.rebuildDue_sends (away : (s.prot (s.ext k).protRef.toNat).target = false)
    (hi : i = if (s.ext k).parity then (s.prot (s.ext k).protRef.toNat).cursor.toNat / (if (s.ext k).pwidth then 7 else 3)
      else (s.prot (s.ext k).protRef.toNat).cursor.toNat)
    (ok : s.granOk (s.extGran (s.ext k) i) = true) {u : State}
    (hu : u = (let p := s.prot (s.ext k).protRef.toNat
      (((({ s with fresh := s.fresh + 1 }.pace (granStack (s.extGran (s.ext k) i)) granBytes).useGran
        (s.extGran (s.ext k) i)).groupSend (p.member p.rslot.val) none
        (.rebuild (BitVec.ofNat 24 (k + (s.ext k).gen.toNat * 2 ^ 18)) p.cursor.toNat
          (s.rebuildLines k p.cursor.toNat))).modProt (s.ext k).protRef.toNat fun p => { p with cursor := p.cursor + 1 }))) :
    s.rebuildDue k = if (s.prot (s.ext k).protRef.toNat).cursor.toNat + 1 = (s.ext k).size.toNat then u.rebuilt k else u := by
  subst hu hi
  exact (if_neg (by rw [running, Bool.or_eq_true_iff.mpr kind]; simpa using state)).trans
    ((if_neg (by simp [away])).trans (if_neg (by rw [ok]; decide)))

end

/-- A rebuild on local spare granules moves the granule of a FAILED stack to the lowest free one. -/
theorem State.rebuildDue_moves {k g : Nat} {s : State} (state : (s.ext k).state = 1) (mirror : (s.ext k).mirror = true)
    (parity : (s.ext k).parity = false) (running : (s.prot (s.ext k).protRef.toNat).rstate = 1)
    (here : (s.prot (s.ext k).protRef.toNat).target = true)
    (more : (s.prot (s.ext k).protRef.toNat).cursor.toNat + 1 < (s.ext k).size.toNat)
    (failed : (s.stack (granStack (s.extGran (s.ext k) (s.prot (s.ext k).protRef.toNat).cursor.toNat))).state = 5)
    (spare : s.spare = some g) (ok : s.granOk g = true) :
    s.rebuildDue k = (((s.moveGran k (s.prot (s.ext k).protRef.toNat).cursor.toNat g).pace (granStack g) granBytes).modProt
      (s.ext k).protRef.toNat fun p => { p with cursor := p.cursor + 1 }) := by
  refine (if_neg (by simpa [running, mirror] using state)).trans ((if_pos here).trans ((if_neg (by simpa [parity] using failed)).trans ?_))
  rw [parity, spare]
  exact (if_pos ok).trans (if_neg (Nat.ne_of_lt more))

section
variable {m g : Nat} {h : Xh} {l : List (Nat × Line)} {s : State}

/-- A granule that another member restored waits for the pace of its stack. -/
theorem State.rebuildIn_waits (wait : s.granOk (s.extGran (s.ext (h.extractLsb' 0 18).toNat)
      ((s.ext (h.extractLsb' 0 18).toNat).local_ (g * 2 ^ 21) / 2 ^ 21)) = false) : s.rebuildIn m h g l = s :=
  if_neg (by rw [wait, Bool.and_false]; decide)

theorem State.rebuildIn_writes (on : s.group.on = true) (peer : m ∈ s.peers) (state : (s.ext (h.extractLsb' 0 18).toNat).state = 1)
    (gen : (s.ext (h.extractLsb' 0 18).toNat).gen = h.extractLsb' 18 6)
    (kind : (s.ext (h.extractLsb' 0 18).toNat).mirror = true ∨ (s.ext (h.extractLsb' 0 18).toNat).parity = true)
    (target : s.isTarget (s.ext (h.extractLsb' 0 18).toNat) = true) (inside : g < (s.ext (h.extractLsb' 0 18).toNat).size.toNat)
    (ok : s.granOk (s.extGran (s.ext (h.extractLsb' 0 18).toNat)
      ((s.ext (h.extractLsb' 0 18).toNat).local_ (g * 2 ^ 21) / 2 ^ 21)) = true) :
    let i := (h.extractLsb' 0 18).toNat
    let x := s.ext i
    let n := s.extGran x (x.local_ (g * 2 ^ 21) / 2 ^ 21)
    let u := ((s.pace (granStack n) granBytes).useGran n).each (l.filter (·.1 < 16384)) (fun s e =>
      s.storeLine (s.extLine x (x.local_ (g * 2 ^ 21) + 128 * e.1)) e.2 x.key
        (xtsTweak i x.gen.toNat (s.lineNo x (g * 2 ^ 21 + 128 * e.1))))
    s.rebuildIn m h g l = if g + 1 = x.size.toNat then u.modProt x.protRef.toNat fun p => p.restored (u.mySlot x) (u.mySlot x) else u := by
  refine if_pos ?_
  rw [on, peers_contains peer, target, ok, Bool.or_eq_true_iff.mpr kind]
  simpa using ⟨⟨state, gen⟩, inside⟩

end

/-! ### The pool group -/

/-- What goes to members of the group is appended to what waits to be sent to them. -/
theorem State.each_groupSend (s : State) (l : List Nat) (tc : Option (Fin 8)) (g : GroupMsg) :
    s.each l (fun s m => s.groupSend m tc g)
      = { s with group := { s.group with out := s.group.out ++ l.map fun m => { member := m, tc := tc, msg := g } } } := by
  unfold each
  induction l generalizing s with
  | nil => simp
  | cons m l ih => exact (ih (s.groupSend m tc g)).trans (by simp [groupSend])

theorem execGroupHeartbeatSend_due {s : State} (on : s.group.on = true) (due : s.group.lastSent + 1000000 ≤ s.ftNs) :
    execGroupHeartbeatSend s = .next (State.forwardAgain { s with group := { s.group with
      lastSent := s.ftNs, out := s.group.out ++ s.peers.map fun m => { member := m, tc := some 6, msg := .heartbeat } } }) := by
  unfold execGroupHeartbeatSend
  rw [if_pos (by simp [on, due]), s.each_groupSend]
  rfl

section
variable {m : Fin 8} {s : State}

theorem execGroupHeartbeat_eq (on : s.group.on = true) (peer : m.val ∈ s.peers) :
    execGroupHeartbeat m s =
      let lost := if s.group.acted.getLsbD m.val then s.group.lost else s.group.lost &&& ~~~(BitVec.ofNat 8 (1 <<< m.val))
      .next ({ s with group := { s.group with lastHb := tput 0 s.group.lastHb m.val s.ftNs, lost := lost
                                              promoted := s.group.promoted && lost.getLsbD m.val } }.actLost) :=
  if_pos (by rw [on, State.peers_contains peer]; rfl)

/-- A member's bit taken out of a set of members is no longer set. -/
theorem getLsbD_and_not_bit (b : BitVec 8) (m : Fin 8) : (b &&& ~~~(BitVec.ofNat 8 (1 <<< m.val))).getLsbD m.val = false := by
  rw [BitVec.getLsbD_and, BitVec.getLsbD_not, BitVec.getLsbD_ofNat, Nat.one_shiftLeft, Nat.testBit_two_pow_self]
  simp

theorem execGroupMemberLost_silent (on : s.group.on = true) (peer : m.val ∈ s.peers) (known : s.group.lost.getLsbD m.val = false)
    (silent : tget 0 s.group.lastHb m.val + 4000000 ≤ s.ftNs) :
    execGroupMemberLost m s = .next ({ s with group := { s.group with lost := s.group.lost ||| BitVec.ofNat 8 (1 <<< m.val) } }.actLost) := by
  have other : m.val ≠ s.group.self.val := by simpa using (List.mem_filter.mp peer).2
  have quiet : s.silent m.val = true := by simp [State.silent, other, silent]
  exact if_pos (by rw [on, State.peers_contains peer, known, quiet]; rfl)

end

theorem State.actLost_idle {s : State} (h : s.majority = false ∨ s.group.toAct = []) : s.actLost = s := by
  unfold actLost
  rcases h with minority | none
  · exact if_neg (by simp [minority])
  · rw [none]
    exact ite_self s

theorem State.actLost_one {s : State} {m : Nat} (majority : s.majority = true) (one : s.group.toAct = [m]) :
    s.actLost = (({ s with group := { s.group with acted := s.group.acted ||| BitVec.ofNat 8 (1 <<< m) } }).lossAct m).forwardNot m := by
  unfold actLost
  rw [if_pos majority, one]
  rfl

/-- Settles O25: each step of background work, and each event of the group, is one guard and what it does once the guard holds. -/
theorem granuleAndGroupRows : Obligations.GranuleAndGroupRows := by
  unfold Obligations.GranuleAndGroupRows
  refine ⟨?scrub, ?freed, ?filled, ?delta, ?unnamed, ?deltaIn, ?due, ?moved, ?received, fun g s => s.wipe_rows g, ?beat, ?acted, ?back, ?lost,
    fun s => State.actLost_idle, fun m s => State.actLost_one⟩
  case scrub => exact fun e s state more => ⟨execScrubStep_waits, execScrubStep_wipes state more⟩
  case freed =>
    intro e s state all
    obtain ⟨dram, parts, stks⟩ := s.freeExt_frame e.val
    exact ⟨_, execScrubDone_frees state all, rfl, s.freeExt_ext e.val, dram, parts, stks⟩
  case filled => exact fun e s combine state clearing due clear => execZeroFillDone_fills combine state clearing due clear
  case delta =>
    intro h o d s on peer state gen parity inside
    have named := execParityDelta_named on peer state gen parity inside
    exact ⟨fun waits => named.trans (if_pos waits), fun free => named.trans (if_neg fun waits => Bool.false_ne_true (free.symm.trans waits))⟩
  case unnamed => exact fun h o d s on peer bad => execParityDelta_unnamed on peer bad
  case deltaIn => exact fun i l w x d s => ⟨State.deltaIn_failed, State.deltaIn_clean, State.deltaIn_uncorrectable⟩
  case due =>
    intro e i s state kind running away hi
    refine ⟨fun wait => congrArg Host.Outcome.next (State.rebuildDue_waits state kind running away hi wait), fun u hu ok => ?_⟩
    have sends := State.rebuildDue_sends state kind running away hi ok hu
    exact ⟨fun more => congrArg Host.Outcome.next (sends.trans (if_neg more)), fun last => congrArg Host.Outcome.next (sends.trans (if_pos last))⟩
  case moved =>
    exact fun e g s state mirror parity running here more failed spare ok =>
      congrArg Host.Outcome.next (State.rebuildDue_moves state mirror parity running here more failed spare ok)
  case received =>
    intro m h g l s u on peer state gen kind target inside i x n hu
    subst hu
    have writes := State.rebuildIn_writes (l := l) on peer state gen kind target inside
    exact ⟨fun wait => congrArg Host.Outcome.next (State.rebuildIn_waits wait),
      fun ok more => congrArg Host.Outcome.next ((writes ok).trans (if_neg more)),
      fun ok last => congrArg Host.Outcome.next ((writes ok).trans (if_pos last))⟩
  case beat => exact fun s on due => ⟨_, execGroupHeartbeatSend_due on due, rfl, rfl⟩
  case acted =>
    intro m s on peer acted
    refine (execGroupHeartbeat_eq on peer).trans ?_
    rw [acted]
    rfl
  case back =>
    intro m s on peer acted
    refine (execGroupHeartbeat_eq on peer).trans ?_
    dsimp only
    rw [acted, if_neg Bool.false_ne_true, getLsbD_and_not_bit, Bool.and_false]
  case lost => exact fun m s on peer known silent => execGroupMemberLost_silent on peer known silent

end Sys2Proof.Machine

namespace Sys2Proof.Machine
open Sys2Proof

/-! ## Elder requests

An Elder request is taken from release, admitted, and checked against the window and its region (R98 to R100). -/

/-! ### A completion leaves the stacks -/

@[simp] theorem State.ite_stks (c : Prop) [Decidable c] (a b : State) : (if c then a else b).stks = if c then a.stks else b.stks :=
  apply_ite State.stks c a b

@[simp] theorem State.protect_stks (s : State) (p : Packet) : (s.protect p).2.stks = s.stks := by simp [protect, keepKey]

@[simp] theorem State.origDone_stks (s : State) (rtag : BitVec 32) (st : Status) (bo : BitVec 4) (data : Line) (old : Nat) :
    (s.origDone rtag st bo data old).stks = s.stks := by
  unfold origDone
  split <;> simp [schedDone]

@[simp] theorem State.toHost_stks (s : State) (p : Packet) : (s.toHost p).stks = s.stks := by simp [toHost]

@[simp] theorem State.send_stks (s : State) (pref : List Nat) (p : Packet) : (s.send pref p).stks = s.stks := by
  unfold send
  (repeat' split) <;> simp [lostAtUnit]

@[simp] theorem State.closeBatches_stks (s : State) (k : Nat) : (s.closeBatches k).stks = s.stks := by
  unfold closeBatches
  dsimp only
  rw [State.each_same (field := State.stks) (h := fun u (c : List Nat × Packet) => u.send_stks c.1 c.2), setPairRx_stks]

@[simp] theorem State.reply_stks (s : State) (r : Req) (home : Option Nat) (p : Packet) : (s.reply r home p).stks = s.stks := by simp [reply]

@[simp] theorem State.take_stks (s : State) (p : Packet) : (s.take p).2.stks = s.stks := by
  unfold take
  split <;> rfl

@[simp] theorem State.take_dram (s : State) (p : Packet) : (s.take p).2.dram = s.dram := by
  unfold take
  split <;> rfl

/-! ### Taken and admitted -/

section
variable {p : Packet} {s : State}

theorem exec_elderRequest_arrives (elder : s.filtered p.src = true) (vc : p.vc = false) (turn : s.turn p = true)
    (opc : isMemOpc p.opc = true) : exec (.elderRequest p) s = .next ((s.take p).2.memArrive (s.take p).1) :=
  (if_neg (by simp [elder, vc, turn])).trans (if_pos opc)

/-- What is no memory request waits behind its pair's earlier requests, and ends with LEGACY_ABORT. -/
theorem exec_elderRequest_other (elder : s.filtered p.src = true) (vc : p.vc = false) (turn : s.turn p = true)
    (opc : isMemOpc p.opc = false) : exec (.elderRequest p) s =
      if (s.take p).2.pairHeld p.src then .next { (s.take p).2 with admHeld := (s.take p).2.admHeld ++ [(s.take p).1] }
      else .next ((s.take p).2.deliver ((s.take p).2.elderReq (s.take p).1) stLegacy 0 0 0 false) :=
  (if_neg (by simp [elder, vc, turn])).trans (if_neg (by simp [opc]))

/-- A memory request of a filtered requester that need not wait goes to the checks of R98. -/
theorem State.memArrive_elder {u : State} {h : Held} (go : u.mustHold h = false) (opc : isMemOpc h.pkt.opc = true)
    (elder : u.filtered h.pkt.src = true) : u.memArrive h = u.elderIn h := by
  unfold memArrive memGo
  rw [if_neg (by simp [go]), if_neg (by simp [isRowRequest_of_isMemOpc opc]), if_pos elder]

theorem exec_elderRequest_checked (elder : s.filtered p.src = true) (vc : p.vc = false) (turn : s.turn p = true)
    (opc : isMemOpc p.opc = true) (go : (s.take p).2.mustHold (s.take p).1 = false) :
    exec (.elderRequest p) s = .next ((s.take p).2.elderIn (s.take p).1) := by
  rw [exec_elderRequest_arrives elder vc turn opc, State.memArrive_elder go (by simpa using opc) (by simpa using elder)]

end

/-! ### A write to a region without W (R99) -/

/-- The region that an Elder request names (R96). -/
def State.elderRegion (s : State) (h : Held) : ElderReg := s.region (h.pkt.offset.toNat % 2 ^ 36 / 2 ^ 21)

/-- Naming another place makes no other operation of a packet. -/
theorem elderWrite_renamed (p : Packet) (xh : Xh) (offset : BitVec 40) : elderWrite { p with xh := xh, offset := offset } = elderWrite p := rfl

/-- The request on the backing extent writes just when the Elder request does. -/
theorem State.elderReq_writes (s : State) (h : Held) : elderWrite (s.elderReq h).pkt = elderWrite h.pkt := elderWrite_renamed ..

section
variable {s : State} {h : Held}

/-- A request that passes the checks of R98 names an extent of the partition that holds Elder, which is ACTIVE. -/
theorem State.elderOk_owner (ok : s.elderOk h (s.elderReq h) = true) :
    (s.part s.elder.part.toNat).state = 2 ∧ (s.ext (s.elderRegion h).index.toNat).owner = s.elder.part := by
  simp only [elderOk, Bool.and_eq_true, beq_iff_eq, and_assoc] at ok
  obtain ⟨-, active, -, -, -, owner, -⟩ := ok
  exact ⟨active, owner⟩

/-- Its completion carries its own status when no abort of the partition has begun (R35). -/
theorem State.elderReq_notAborted (ok : s.elderOk h (s.elderReq h) = true) (abort : (s.part s.elder.part.toNat).abortAt = none) :
    s.reqAborted (s.elderReq h) = false := by
  obtain ⟨active, owner⟩ := State.elderOk_owner ok
  have eq : s.reqAborted (s.elderReq h) = ((s.part (s.ext (s.elderRegion h).index.toNat).owner.toNat).abortAt.isSome
    || (s.part (s.ext (s.elderRegion h).index.toNat).owner.toNat).state == 4) := rfl
  rw [eq, owner, abort, active]
  rfl

/-- A completion as formed asks for no backoff and holds no reservation. -/
theorem State.cmpFor_noRetry (s : State) (r : Req) (home : Option Nat) (st : Status) :
    { s.cmpFor r home st with ctl := 0, reserved := false } = s.cmpFor r home st := rfl

/-- The completion of an Elder write is its status, as R100 gives it. -/
theorem State.deliver_elderWrite {r : Req} {st : Status} (org : r.org = .elder) (write : elderWrite r.pkt = true)
    (live : s.reqAborted r = false) (fails : elderStatus st ≠ stRetry) :
    s.deliver r st 0 0 0 false = s.reply r r.home (s.cmpFor r r.home (elderStatus st)) := by
  have opc : r.pkt.opc ≠ oRdOnce ∧ r.pkt.opc ≠ oAtomic := by
    simp only [elderWrite, Bool.or_eq_true, decide_eq_true_eq] at write
    rcases write with opc | opc <;> rw [opc] <;> decide
  unfold deliver
  dsimp only
  rw [live, if_neg Bool.false_ne_true, org]
  dsimp only
  rw [if_neg fails, if_neg opc.1, if_neg opc.2, Bool.false_and, ite_self]
  exact congrArg (s.reply r r.home) (s.cmpFor_noRetry r r.home (elderStatus st))

/-- Without W a write goes no further than its checks: OK with R unless STRICT, else LEGACY_ABORT (R99). -/
theorem State.elderIn_readOnly (write : elderWrite h.pkt = true) (ok : s.elderOk h (s.elderReq h) = true) (w : (s.elderRegion h).w = false) :
    s.elderIn h =
      s.deliver (s.elderReq h) (if (s.elderRegion h).r && !(s.part s.elder.part.toNat).strict then stOk else stLegacy) 0 0 0 false := by
  have kind : elderWrite (s.elderReq h).pkt = true := (s.elderReq_writes h).trans write
  have region : s.region (h.pkt.offset.toNat % 2 ^ 36 / 2 ^ 21) = s.elderRegion h := rfl
  unfold elderIn
  dsimp only
  rw [if_neg (by simp [ok]), if_pos kind, region, w, if_neg Bool.false_ne_true, kind, Bool.true_and]
  exact (apply_ite (s.deliver (s.elderReq h) · 0 0 0 false) ..).symm

/-- Its completion is all that it leaves. -/
theorem State.elderIn_readOnly_reply (write : elderWrite h.pkt = true) (ok : s.elderOk h (s.elderReq h) = true)
    (w : (s.elderRegion h).w = false) (abort : (s.part s.elder.part.toNat).abortAt = none) :
    s.elderIn h = s.reply (s.elderReq h) (s.elderReq h).home (s.cmpFor (s.elderReq h) (s.elderReq h).home
      (if (s.elderRegion h).r && !(s.part s.elder.part.toNat).strict then stOk else stLegacy)) := by
  have ends (st : Status) (fails : elderStatus st ≠ stRetry) := State.deliver_elderWrite (s := s) (r := s.elderReq h) rfl
    ((s.elderReq_writes h).trans write) (State.elderReq_notAborted ok abort) fails
  rw [State.elderIn_readOnly write ok w]
  cases (s.elderRegion h).r && !(s.part s.elder.part.toNat).strict
  · exact ends stLegacy (by decide)
  · exact ends stOk (by decide)

end

/-- Settles O55: the write goes no further than its region's rights, and only its completion leaves. -/
theorem readOnlyRegion : Obligations.ReadOnlyRegion := by
  unfold Obligations.ReadOnlyRegion
  intro p s turn elder vc write h u g x pkt go ok w abort
  have mem : isMemOpc p.opc = true := by rcases write with opc | opc <;> rw [opc] <;> decide
  have writes : elderWrite h.pkt = true := by simpa [elderWrite, pkt] using write
  have region : u.elderRegion h = g := by simp only [State.elderRegion, pkt, g]
  have ends : u.elderIn h = u.reply (u.elderReq h) (u.elderReq h).home (u.cmpFor (u.elderReq h) (u.elderReq h).home
      (if g.r && !x.strict then stOk else stLegacy)) :=
    region ▸ State.elderIn_readOnly_reply writes ok (region ▸ w) abort
  obtain ⟨-, -, -, dram, -, -⟩ := u.elderIn_quiet h
  refine ⟨_, exec_elderRequest_checked elder vc turn mem go, ?dram, ?stks, fun r strict => ?ok, fun r strict => ?strict, fun r => ?none⟩
  case dram => exact dram.trans (s.take_dram p)
  case stks => rw [show (s.take p).2.elderIn (s.take p).1 = _ from ends, State.reply_stks, State.take_stks]
  case ok => simpa [r, strict] using ends
  case strict => simpa [r, strict] using ends
  case none => simpa [r] using ends

end Sys2Proof.Machine

namespace Sys2Proof.Machine
open Sys2Proof

/-! ## The directory's answers, and what ends in its own time -/

/-! ### Held requests that go on (R279) -/

/-- The first held request goes on when nothing of its pair comes before it and the arbiter has an entry for it. -/
theorem State.admGo_first {s : State} {h : Held} {l : List Held} (held : s.admHeld = h :: l) (pair : s.pairWaits h.pkt.src = false)
    (room : h.pkt.isCtl = true ∨ isRowRequest h.pkt.opc = false ∨ s.roomFor (s.reqOf h) = true) :
    s.admGo (h :: l) = ({ s with admHeld := l }.memGo h).admGo l := by
  have goes : (h.pkt.isCtl || !isRowRequest h.pkt.opc || s.roomFor (s.reqOf h)) = true := by simpa [or_assoc] using room
  rw [admGo, if_pos (by simp [held, pair, goes]), held, List.erase_cons_head]

/-- The first request that waits for an entry of a stack's arbiter takes it when its flow has room. -/
theorem State.refill_first {s : State} {n : Nat} {r : Req} {l : List Req} (wait : (s.stack n).wait = r :: l)
    (room : (s.stack n).room r.flow = true) :
    s.refill n (r :: l) = ((s.setStack n { s.stack n with wait := l }).joinFlow n r).refill n l := by
  rw [refill]
  dsimp only
  rw [if_pos (by simp [wait, room, heldBack]), wait, List.erase_cons_head]

theorem exec_admitEntryResume {n : Fin 8} {s : State} (on : s.stackEn n.val = true) :
    exec (.admitEntryResume n) s = .next
      ((s.refill n.val (s.stack n.val).wait).admGo (s.refill n.val (s.stack n.val).wait).admHeld) :=
  if_pos on

/-! ### Answers (R116, R470) -/

section
variable {p : Packet} {s : State}

theorem exec_snpAck_taken (turn : s.turn p = true) (opc : p.opc = oSnpAck) : exec (.snpAck p) s = .next
    (if ((s.take p).2.sessionIn p).2 then ((s.take p).2.sessionIn p).1.snoopAnswer p none else ((s.take p).2.sessionIn p).1) :=
  if_pos (by simp [opc, turn])

theorem exec_snpAckData_taken (turn : s.turn p = true) (opc : p.opc = oSnpAckData) : exec (.snpAckData p) s = .next
    (if ((s.take p).2.sessionIn p).2 then ((s.take p).2.sessionIn p).1.snoopAnswer p (some p.data) else ((s.take p).2.sessionIn p).1) :=
  if_pos (by simp [opc, turn])

theorem exec_grantAck_taken (turn : s.turn p = true) (opc : p.opc = oGrantAck) : exec (.grantAck p) s = .next
    (if ((s.take p).2.sessionIn p).2 then ((s.take p).2.sessionIn p).1.grantAcked p else ((s.take p).2.sessionIn p).1) :=
  if_pos (by simp [opc, turn])

/-- The grantee of an open grant closes it. -/
theorem State.grantAcked_grantee (kind : ((s.slice (tagSlice p.tag)).txn (tagTxn p.tag)).kind = .grantWait)
    (eid : ((s.slice (tagSlice p.tag)).txn (tagTxn p.tag)).eid = p.src) :
    s.grantAcked p =
      let v := (s.slice (tagSlice p.tag)).txn (tagTxn p.tag)
      (s.settle (tagSlice p.tag) (tagTxn p.tag) v.way { (s.slice (tagSlice p.tag)).way v.way with state := v.next }).sweep (tagSlice p.tag) :=
  if_pos (by simp [kind, eid])

/-- A GRANT_ACK that matches no open grant changes nothing. -/
theorem State.grantAcked_stray (h : ((s.slice (tagSlice p.tag)).txn (tagTxn p.tag)).kind ≠ .grantWait
    ∨ ((s.slice (tagSlice p.tag)).txn (tagTxn p.tag)).eid ≠ p.src) : s.grantAcked p = s :=
  if_neg (by simpa [imp_iff_not_or] using h)

/-- What is no synthetic and no ABORTED completion is checked in an established session (R470, R471). -/
theorem State.sessionIn_checked (syn : p.syn = false) (kind : p.isCmp = false ∨ p.stat ≠ stAborted) :
    s.sessionIn p = if (s.part (cidPart p.cid)).conf = true ∧ (s.part (cidPart p.cid)).sess = 1
      then (s.noteProt (cidPart p.cid) p, s.protOk (cidPart p.cid) p) else (s, true) := by
  have bare : (p.isCmp && decide (p.stat = stAborted)) = false := by simpa [imp_iff_not_or] using kind
  unfold sessionIn
  dsimp only
  rw [bare, syn]
  simp

end

/-! ### Timeouts (R116, R123) -/

section
variable {q t : Nat} {s : State} (due : ((s.slice q).txn t).since + s.pt ≤ s.now) (retrain : s.qor.retrainAt = none)
include due retrain

/-- A grantee that is silent for the pair timeout is sent SNP_INV. -/
theorem State.txnTimeout_grantee (kind : ((s.slice q).txn t).kind = .grantWait) :
    s.txnTimeout q t =
      let v := (s.slice q).txn t
      (s.setTxn q t { v with kind := .invWait, after := true, await := [v.eid], opc := oSnpInv, since := s.now }).snoop
        q t oSnpInv v.line (some v.req) v.cid v.req.pkt.tc [v.eid] := by
  unfold txnTimeout
  dsimp only
  rw [retrain, if_neg (by simpa using due), kind]

/-- Any other silent target is logged, and counts as answered. -/
theorem State.txnTimeout_target (kind : ((s.slice q).txn t).kind = .shareWait ∨ ((s.slice q).txn t).kind = .invWait
    ∨ ((s.slice q).txn t).kind = .evictWait) :
    s.txnTimeout q t =
      let v := (s.slice q).txn t
      ((s.each v.await fun s e => s.logSilent q v.opc v.line e).setTxn q t { v with await := [], wbWait := [] }).settleTxn q t := by
  unfold txnTimeout
  dsimp only
  rw [retrain, if_neg (by simpa using due)]
  rcases kind with kind | kind | kind <;> rw [kind]

end

theorem exec_reservationExpire_due {q : Fin 4} {l : Nat} {v : Resv} {s : State} (head : (s.slice q.val).resv.find? (·.line = l) = some v)
    (due : v.since + 50000 ≤ s.now) : exec (.reservationExpire q l) s
      = .next ((s.modSlice q.val fun x => { x with resv := resvDrop x.resv s.now (· = v) }).bump (sliceBlk q.val) 2) := by
  refine (show exec (.reservationExpire q l) s = execReservationExpire q l s from rfl).trans ?_
  unfold execReservationExpire
  rw [head]
  exact if_pos due

/-! ### The scan after a host loss (R133) -/

/-- A change of a way is no end of a scan. -/
@[simp] theorem State.setWay_scanning (s : State) (q w o : Nat) (e : DirEntry) : ((s.setWay q w e).slice o).scanning = (s.slice o).scanning := by
  simp only [setWay, modSlice_eq, setSlice_slice]
  split
  next same => rw [same]
  next => rfl

@[simp] theorem State.meetScan_scanning (s : State) (q w o : Nat) : ((s.meetScan q w).slice o).scanning = (s.slice o).scanning := by
  unfold meetScan
  dsimp only
  (repeat' split) <;> simp

@[simp] theorem State.scanWay_scanning (s : State) (q w o : Nat) : ((s.scanWay q w).slice o).scanning = (s.slice o).scanning := by
  have noted (u : State) (f : Slice → Tbl (Nat × Nat)) :
      ((u.modSlice q fun x => { x with orphans := f x }).slice o).scanning = (u.slice o).scanning := by
    simp only [modSlice_eq, setSlice_slice]
    split
    next same => rw [same]
    next => rfl
  have marked (u : State) (a : Nat) (m : Mark) : (u.markLine a m).slice o = u.slice o := rfl
  unfold scanWay
  dsimp only
  split
  · rw [noted, freeWay, setWay_scanning, marked, meetScan_scanning]
  · exact s.meetScan_scanning q w o

@[simp] theorem State.noteFor_slices (s : State) (w : Wait) : (s.noteFor w).slices = s.slices := by
  obtain ⟨j, h⟩ := s.noteFor_frame w
  rw [h]

/-- What the end of back-invalidations wakes is no part of the slices. -/
@[simp] theorem State.sweepsDone_slices (s : State) : s.sweepsDone.slices = s.slices := by
  unfold sweepsDone
  dsimp only
  refine (each_same _ State.slices _ _ fun u w => ?turn).trans ?first
  case turn => split <;> simp [setAgent, apply_ite State.slices]
  case first => simp [setAgent, apply_ite State.slices]

/-- While another slice still scans, the end of a slice's scan is no end of the whole. -/
theorem State.scanDone_waits {s : State} {q o : Nat} (scans : (s.slice q).scanning = true) (other : (s.slice o).scanning = true) (small : o < 4)
    (ne : o ≠ q) : s.scanDone q =
      ((s.each ((s.slice q).ways.map (·.1)) fun s w => s.scanWay q w).modSlice q fun x => { x with scanning := false }).sweepsDone := by
  have kept : ((s.each ((s.slice q).ways.map (·.1)) fun s w => s.scanWay q w).slice o).scanning = true :=
    (s.each_same (fun u => (u.slice o).scanning) _ _ fun u w => u.scanWay_scanning q w o).trans other
  have still : (((s.each ((s.slice q).ways.map (·.1)) fun s w => s.scanWay q w).modSlice q fun x =>
      { x with scanning := false }).sweepsDone.slice o).scanning = true := by
    rw [State.slice, State.sweepsDone_slices, ← State.slice, State.modSlice_eq, State.setSlice_slice, if_neg ne, kept]
  refine (if_neg (by simp [scans])).trans (if_pos (List.any_eq_true.mpr ⟨o, ?_, still⟩))
  simp
  omega

/-- Settles O22: each row is one guard, and the answer that the directory gives once the guard holds. -/
theorem directoryRows : Obligations.DirectoryRows := by
  unfold Obligations.DirectoryRows
  refine ⟨fun p s => exec_elderRequest_checked, ?other, ?idle, ?held, ?waits, ?ack, ?ackData, ?grantee, ?stray, ?silentGrantee, ?silentTarget,
    fun q l v s => exec_reservationExpire_due, fun q o s scans others ne => ⟨?scan, ?ackLost, ?dataLost, ?grantLost, ?session⟩⟩
  case other =>
    intro p s elder vc turn opc
    exact ⟨fun held => (exec_elderRequest_other elder vc turn opc).trans (if_pos held),
      fun free => (exec_elderRequest_other elder vc turn opc).trans (if_neg (by simp [free]))⟩
  case idle =>
    intro n s on held wait
    rw [exec_admitEntryResume on, wait]
    exact congrArg (fun l => Host.Outcome.next (s.admGo l)) held
  case held =>
    intro n h l s on wait held pair room
    rw [exec_admitEntryResume on, wait, State.refill, held, State.admGo_first held pair room]
  case waits =>
    intro n r l s on wait room
    rw [exec_admitEntryResume on, wait, State.refill_first wait room]
  case ack => exact fun p s turn opc ok => (exec_snpAck_taken turn opc).trans (congrArg _ (if_pos ok))
  case ackData => exact fun p s turn opc ok => (exec_snpAckData_taken turn opc).trans (congrArg _ (if_pos ok))
  case grantee =>
    exact fun p s turn opc ok kind eid =>
      (exec_grantAck_taken turn opc).trans (congrArg _ ((if_pos ok).trans (State.grantAcked_grantee kind eid)))
  case stray =>
    exact fun p s turn opc ok stray => (exec_grantAck_taken turn opc).trans (congrArg _ ((if_pos ok).trans (State.grantAcked_stray stray)))
  case silentGrantee => exact fun q t s due retrain kind => congrArg Host.Outcome.next (State.txnTimeout_grantee due retrain kind)
  case silentTarget => exact fun q t s due retrain kind => congrArg Host.Outcome.next (State.txnTimeout_target due retrain kind)
  case scan => exact congrArg Host.Outcome.next (State.scanDone_waits scans others o.isLt (by simpa [Fin.ext_iff] using ne))
  case ackLost => exact fun p s turn opc bad => (exec_snpAck_taken turn opc).trans (congrArg _ (if_neg (by simp [bad])))
  case dataLost => exact fun p s turn opc bad => (exec_snpAckData_taken turn opc).trans (congrArg _ (if_neg (by simp [bad])))
  case grantLost => exact fun p s turn opc bad => (exec_grantAck_taken turn opc).trans (congrArg _ (if_neg (by simp [bad])))
  case session => exact fun p s => State.sessionIn_checked

end Sys2Proof.Machine

namespace Sys2Proof.Machine
open Sys2Proof

/-! ## The walkers -/

/-! ### Jobs taken (R153) -/

section
variable {t : Fin 32} {s : State}

/-- The jobs of a tile that its walker may take: those QUEUED, and those stopped with entries to re-resolve (R148, R89). -/
def Tile.walkable (t : Tile) : List Nat := t.slots.filter fun k => (t.job k).st == .queued || ((t.job k).st == .suspended && (t.job k).reres)

theorem exec_walkerTakeJob_busy (busy : (s.tile t.val).walk.isSome = true) : exec (.walkerTakeJob t) s = .next s :=
  if_pos (by simp [busy])

theorem exec_walkerTakeJob_takes {k : Nat} (idle : (s.tile t.val).walk = none) (parked : (s.tile t.val).parked = false)
    (alive : s.tileDead t.val = false) (on : s.walkersOff = false)
    (first : least (fun k => ((s.tile t.val).job k).order) (s.tile t.val).walkable = some k)
    (active : (s.ctx ((s.tile t.val).job k).cid.toNat).state = 2) :
    exec (.walkerTakeJob t) s = .next
      (((s.setWalk t.val (some (Walk.root { slot := k, reres := ((s.tile t.val).job k).st == .suspended }
          (s.ctx ((s.tile t.val).job k).cid.toNat)))).modJob t.val k fun j =>
        if j.st = .queued then { j with st := .resolving } else j).walkGo t.val walkFuel) := by
  refine (if_neg (by simp [idle, parked, alive, on])).trans ?_
  unfold Tile.walkable at first
  rw [first]
  exact if_neg (not_not.mpr active)

end

/-! ### Table reads (R76, R77) -/

/-- The walks of the tiles of a quadrant, by tile, as WALKER_TABLE_READ_DONE looks at them. -/
def State.quadWalks (s : State) (q : Nat) : List (Nat × Walk) :=
  ((List.range 8).map (8 * q + ·)).filterMap fun n => (s.tile n).walk.map fun w => (n, w)

theorem State.walk_of_mem_quadWalks {s : State} {q n : Nat} {w : Walk} (h : (n, w) ∈ s.quadWalks q) : (s.tile n).walk = some w := by
  obtain ⟨m, -, walk⟩ := List.mem_filterMap.mp h
  obtain ⟨v, found, eq⟩ := Option.map_eq_some_iff.mp walk
  cases eq
  exact found

section
variable {q : Fin 4} {n : Nat} {w : Walk} {d : EDone} {s : State}

theorem exec_walkerTableReadDone_ready (found : (s.quadWalks q.val).find? (fun x => x.2.ready.isSome) = some (n, w)) (ready : w.ready = some d) :
    exec (.walkerTableReadDone q) s = .next (s.walkDoneRead n w d) := by
  refine (show exec (.walkerTableReadDone q) s = execWalkerTableReadDone q s from rfl).trans ?_
  unfold State.quadWalks at found
  unfold execWalkerTableReadDone
  dsimp only
  rw [found]
  dsimp only
  rw [ready]

theorem exec_walkerTableReadDone_unread (unread : (s.quadWalks q.val).find? (fun x => x.2.ready.isSome) = none) :
    exec (.walkerTableReadDone q) s = .next (s.each (((s.quadWalks q.val).filter fun x => !x.2.waiting).map (·.1)) State.walkOn) := by
  refine (show exec (.walkerTableReadDone q) s = execWalkerTableReadDone q s from rfl).trans ?_
  unfold State.quadWalks at unread ⊢
  unfold execWalkerTableReadDone
  dsimp only
  rw [unread]

theorem State.walkOn_next (walk : (s.tile n).walk = some w) (line : w.kept = none) : s.walkOn n = s.walkGo n walkFuel := by
  unfold walkOn
  rw [walk]
  dsimp only
  rw [line]

theorem State.walkOn_kept (walk : (s.tile n).walk = some w) (line : w.kept = some d) : s.walkOn n = s.walkLine n w d := by
  unfold walkOn
  rw [walk]
  dsimp only
  rw [line]

end

section
variable {n : Nat} {w : Walk} {d : EDone} {s : State}

/-- A walk that an invalidation has met meanwhile begins again at its root. -/
theorem State.walkDoneRead_restarts (restart : w.restart = true) :
    s.walkDoneRead n w d
      = (s.setWalk n (some (Walk.root { w with ready := none } (s.ctx (s.job n w.slot).cid.toNat)))).walkGo n walkFuel :=
  if_pos restart

/-- RETRY makes the walk wait, for longer with each attempt's BACKOFF. -/
theorem State.walkDoneRead_retries (restart : w.restart = false) (retry : d.status = stRetry) :
    s.walkDoneRead n w d = s.setWalk n (some { w with
      ready := none, attempt := min 15 (w.attempt + 1), retryAt := d.at_ + 64 * 2 ^ d.backoff.toNat }) :=
  (if_neg (by simp [restart])).trans (if_pos retry)

/-- Any other failure faults the walk, at the page that it resolves next. -/
theorem State.walkDoneRead_fails (restart : w.restart = false) (retry : d.status ≠ stRetry) (fails : d.status ≠ stOk) :
    s.walkDoneRead n w d = s.walkFault n { w with ready := none } 0x14 (s.job n w.slot).nextPva w.level
      ((s.job n w.slot).todo.headD (0, 0, 0)).2.2 0 d.status :=
  (if_neg (by simp [restart])).trans ((if_neg retry).trans (if_pos fails))

/-- The line of a successful read is used. -/
theorem State.walkDoneRead_reads (restart : w.restart = false) (ok : d.status = stOk) :
    s.walkDoneRead n w d = s.walkLine n { w with ready := none } d :=
  (if_neg (by simp [restart])).trans ((if_neg (by rw [ok]; decide)).trans (if_neg (not_not.mpr ok)))

/-! ### The entries of a line (R77, R148) -/

variable {b pva : Nat} {acc : BitVec 2} {l : List Nat} {u : State}

theorem State.useLine_unneeded (need : (s.job n w.slot).needs b (2 ^ spanBits w.level) = none) : s.useLine n w d (b :: l) = s.useLine n w d l := by
  rw [useLine, need]

/-- What an entry that is needed gives decides whether the rest of the line is used. -/
theorem State.useLine_needed (need : (s.job n w.slot).needs b (2 ^ spanBits w.level) = some (pva, acc)) :
    (s.takeEntry n w pva acc (lineEntry d.data (w.place pva)) = .fault u → s.useLine n w d (b :: l) = (u, false))
    ∧ (s.takeEntry n w pva acc (lineEntry d.data (w.place pva)) = .table u → s.useLine n w d (b :: l) = u.useLine n w d l)
    ∧ (s.takeEntry n w pva acc (lineEntry d.data (w.place pva)) = .leaf u → s.useLine n w d (b :: l) = u.useLine n w d l)
    ∧ (s.takeEntry n w pva acc (lineEntry d.data (w.place pva)) = .full → s.useLine n w d (b :: l)
      = (s.setWalk n (some { w with kept := some d }), false)) := by
  rw [useLine, need]
  dsimp only
  exact ⟨fun takes => by rw [takes], fun takes => by rw [takes], fun takes => by rw [takes], fun takes => by rw [takes]⟩

end

/-! ### The conditions of R71 -/

/-- Whether a reserved bit of an entry is set, of a pool or of a host target (R70). -/
def pteReserved (e : Word) : Bool := if ptePool e then e.extractLsb' 59 5 != 0 else e.extractLsb' 8 4 != 0 || e.extractLsb' 52 12 != 0

/-- Whether an entry stands where its form may not: a leaf at level 3 or a table at level 0, a table outside the context's table space, or a host
page in tables that the pool holds. -/
def pteMisplaced (host : Bool) (level : Nat) (e : Word) : Bool :=
  if pteLeaf e then level == 3 || (!ptePool e && !host) else level == 0 || ptePool e == host

/-- The page number of an entry's target. -/
def pteNumber (e : Word) : Nat := if ptePool e then pteOff e else pteHpa e

section
variable {host : Bool} {level : Nat} {e : Word}

theorem pteFault_invalid (valid : pteV e = false) : pteFault host level e = some 0x10 := if_pos (by simp [valid])

theorem pteFault_of_valid (valid : pteV e = true) :
    pteFault host level e = if pteReserved e || pteMisplaced host level e then some 0x12
      else if pteLeaf e && pteNumber e % 2 ^ (9 * level) != 0 then some 0x13 else none := by
  have shape : pteMisplaced host level e = ((pteLeaf e && level == 3 || !pteLeaf e && level == 0) || (!pteLeaf e && ptePool e == host)
      || (pteLeaf e && !ptePool e && !host)) := by
    cases leaf : pteLeaf e <;> simp [pteMisplaced, leaf]
  refine (if_neg (by simp [valid])).trans ?_
  rw [shape]
  simp only [Bool.or_eq_true, ite_or]
  rfl

theorem pteFault_malformed (valid : pteV e = true) (bad : pteReserved e = true ∨ pteMisplaced host level e = true) :
    pteFault host level e = some 0x12 :=
  (pteFault_of_valid valid).trans (if_pos (by simpa using bad))

theorem pteFault_table (valid : pteV e = true) (clear : pteReserved e = false) (placed : pteMisplaced host level e = false)
    (table : pteLeaf e = false) : pteFault host level e = none := by
  rw [pteFault_of_valid valid, clear, placed, table]
  rfl

/-- A leaf faults just when its target is not aligned to the level's span. -/
theorem pteFault_leaf (valid : pteV e = true) (clear : pteReserved e = false) (placed : pteMisplaced host level e = false)
    (leaf : pteLeaf e = true) :
    (pteFault host level e = some 0x13 ↔ pteNumber e % 2 ^ (9 * level) ≠ 0)
      ∧ (pteFault host level e = none ↔ pteNumber e % 2 ^ (9 * level) = 0) := by
  rw [pteFault_of_valid valid, clear, placed, leaf]
  simp

end

/-- Settles O28: each row of the walkers is one guard, and each clause of R71 makes an entry invalid, malformed (a reserved bit or a wrong place),
a table, or a leaf whose alignment decides. -/
theorem walkerRows : Obligations.WalkerRows := by
  unfold Obligations.WalkerRows
  refine ⟨?takes, fun t s => exec_walkerTakeJob_busy, ?ready, ?one, ?others, ?uses, fun host level e _ => ?faults⟩
  case takes => exact fun t k s => exec_walkerTakeJob_takes
  case ready => exact fun q n w d s => exec_walkerTableReadDone_ready
  case one =>
    intro q n w s unread one
    have walk : (s.tile n).walk = some w :=
      State.walk_of_mem_quadWalks (List.mem_of_mem_filter (one ▸ List.mem_singleton_self _ : (n, w) ∈ (s.quadWalks q.val).filter fun x => !x.2.waiting))
    have on : exec (.walkerTableReadDone q) s = .next (s.walkOn n) :=
      (exec_walkerTableReadDone_unread unread).trans (congrArg (fun l => Host.Outcome.next (s.each (l.map (·.1)) State.walkOn)) one)
    exact ⟨fun line => on.trans (congrArg _ (State.walkOn_next walk line)), fun d line => on.trans (congrArg _ (State.walkOn_kept walk line))⟩
  case others => exact fun q s => exec_walkerTableReadDone_unread
  case uses =>
    exact fun n w d s => ⟨State.walkDoneRead_retries, fun restart retry fails => ⟨_, _, State.walkDoneRead_fails restart retry fails⟩,
      State.walkDoneRead_restarts, State.walkDoneRead_reads, fun b l => State.useLine_unneeded,
      fun b pva acc l u => State.useLine_needed⟩
  case faults =>
    have poolClear (pool : ptePool e = true) (clear : e.extractLsb' 59 5 = 0) : pteReserved e = false := by simp [pteReserved, pool, clear]
    have hostClear (pool : ptePool e = false) (low : e.extractLsb' 8 4 = 0) (high : e.extractLsb' 52 12 = 0) : pteReserved e = false := by
      simp [pteReserved, pool, low, high]
    refine ⟨pteFault_invalid, fun valid pool bad => pteFault_malformed valid (.inl ?poolReserved),
      fun valid pool bad => pteFault_malformed valid (.inl ?hostReserved), fun valid leaf top => pteFault_malformed valid (.inr ?topLeaf),
      fun valid table bottom => pteFault_malformed valid (.inr ?bottomTable), fun valid table space => pteFault_malformed valid (.inr ?wrongSpace),
      fun valid leaf target space => pteFault_malformed valid (.inr ?hostPage),
      fun valid pool clear table up space => pteFault_table valid (poolClear pool clear) ?poolTable table,
      fun valid pool low high table up space => pteFault_table valid (hostClear pool low high) ?hostTable table,
      fun valid pool clear leaf below => ?poolLeaf, fun valid pool low high leaf below space => ?hostLeaf⟩
    case poolReserved => simpa [pteReserved, pool] using bad
    case hostReserved => simpa [pteReserved, pool] using bad
    case topLeaf => simp [pteMisplaced, leaf, top]
    case bottomTable => simp [pteMisplaced, table, bottom]
    case wrongSpace => simp [pteMisplaced, table, space]
    case hostPage => simp [pteMisplaced, leaf, target, space]
    case poolTable => simp [pteMisplaced, table, pool, space, up.ne']
    case hostTable => simp [pteMisplaced, table, pool, space, up.ne']
    case poolLeaf =>
      have number : pteNumber e = (e.extractLsb' 32 27).toNat := if_pos pool
      exact number ▸ pteFault_leaf valid (poolClear pool clear) (by simp [pteMisplaced, leaf, pool, below.ne]) leaf
    case hostLeaf =>
      have number : pteNumber e = (e.extractLsb' 12 40).toNat := if_neg (by simp [pool])
      exact number ▸ pteFault_leaf valid (hostClear pool low high) (by simp [pteMisplaced, leaf, space, below.ne]) leaf

end Sys2Proof.Machine

namespace Sys2Proof

/-! ## Order-free accumulation (R192 to R200) -/

/-! ### Balanced digits (R196) -/

theorem bal_digit (x : Int) : x = (bal x).1 + 2 ^ 24 * (bal x).2 ∧ -(2 ^ 23) ≤ (bal x).1 ∧ (bal x).1 < 2 ^ 23 := by
  unfold bal
  dsimp only
  split <;> omega

/-- A balanced digit and its carry are the only ones of their sum. -/
theorem bal_eq {x d k : Int} (sum : x = d + 2 ^ 24 * k) (low : -(2 ^ 23) ≤ d) (high : d < 2 ^ 23) : bal x = (d, k) := by
  obtain ⟨eq, low', high'⟩ := bal_digit x
  exact Prod.ext (by dsimp only; omega) (by dsimp only; omega)

/-- Every number has three bins of which the lower two are balanced. -/
theorem exists_bins (x : Int) : ∃ t2 d1 d0 : Int, -(2 ^ 23) ≤ d0 ∧ d0 < 2 ^ 23 ∧ -(2 ^ 23) ≤ d1 ∧ d1 < 2 ^ 23
    ∧ t2 * 2 ^ 48 + d1 * 2 ^ 24 + d0 = x := by
  obtain ⟨eq0, low0, high0⟩ := bal_digit x
  obtain ⟨eq1, low1, high1⟩ := bal_digit (bal x).2
  exact ⟨(bal (bal x).2).2, _, _, low0, high0, low1, high1, by omega⟩

/-! ### Folding -/

section
variable {a c : Nat} {b2 b1 b0 t2 d1 d0 : Int}

/-- A fold writes the balanced bins of the word's value. -/
theorem Ofa.fold_word (low0 : -(2 ^ 23) ≤ d0) (high0 : d0 < 2 ^ 23) (low1 : -(2 ^ 23) ≤ d1) (high1 : d1 < 2 ^ 23)
    (sum : t2 * 2 ^ 48 + d1 * 2 ^ 24 + d0 = b2 * 2 ^ 48 + b1 * 2 ^ 24 + b0) :
    (Ofa.word a b2 b1 b0 c).fold =
      if -(2 ^ 35) ≤ t2 ∧ t2 < 2 ^ 35 then .word a t2 d1 d0 (if t2 = 0 ∧ d1 = 0 ∧ d0 = 0 then 0 else 1) else .special 8 := by
  have digit0 : bal b0 = (d0, (t2 - b2) * 2 ^ 24 + d1 - b1) := bal_eq (by omega) low0 high0
  have digit1 : bal (b1 + ((t2 - b2) * 2 ^ 24 + d1 - b1)) = (d1, t2 - b2) := bal_eq (by omega) low1 high1
  have range : (decide (t2 < -34359738368) || decide (t2 ≥ 34359738368)) = true ↔ ¬(-(2 ^ 35) ≤ t2 ∧ t2 < 2 ^ 35) := by simp; omega
  have zero : (d0 = 0 ∧ d1 = 0) ∧ t2 = 0 ↔ t2 = 0 ∧ d1 = 0 ∧ d0 = 0 := by tauto
  unfold fold
  simp only [digit0, digit1]
  simp only [add_sub_cancel, range, Bool.and_eq_true, decide_eq_true_eq, zero, ite_not, fOvf]

end

/-- The fold of a word depends on its value alone. -/
theorem Ofa.fold_congr {a c k : Nat} {x2 x1 x0 y2 y1 y0 : Int}
    (sum : x2 * 2 ^ 48 + x1 * 2 ^ 24 + x0 = y2 * 2 ^ 48 + y1 * 2 ^ 24 + y0) :
    (Ofa.word a x2 x1 x0 c).fold = (Ofa.word a y2 y1 y0 k).fold := by
  obtain ⟨t2, d1, d0, low0, high0, low1, high1, eq⟩ := exists_bins (x2 * 2 ^ 48 + x1 * 2 ^ 24 + x0)
  rw [fold_word low0 high0 low1 high1 eq, fold_word low0 high0 low1 high1 (eq.trans sum)]

/-! ### Merging -/

section
variable (a b c k f : Nat) (x2 x1 x0 y2 y1 y0 : Int)

@[simp] theorem Ofa.at_same : (Ofa.word a x2 x1 x0 c).at a = .word a x2 x1 x0 c := if_pos rfl
@[simp] theorem Ofa.at_special : (Ofa.special f).at a = .special f := rfl
theorem Ofa.at_other (ne : b ≠ a) : (Ofa.word b x2 x1 x0 c).at a = .special 1 := if_neg ne

@[simp] theorem Ofa.flags_special : (Ofa.special f).flags = f := rfl
@[simp] theorem Ofa.flags_word : (Ofa.word a x2 x1 x0 c).flags = 0 := rfl

/-- A special word takes the flags of what is merged into it. -/
theorem Ofa.merge_special (x y : Ofa) (special : x.at a = .special f) : x.merge a y = .special (f ||| (y.at a).flags) := by
  unfold merge
  rw [special]
  cases y.at a <;> rfl

theorem Ofa.special_merge (x y : Ofa) (special : y.at a = .special f) : x.merge a y = .special ((x.at a).flags ||| f) := by
  unfold merge
  rw [special]
  cases x.at a <;> rfl

/-- Two words of one anchor add bin by bin. -/
theorem Ofa.addWords_word : Ofa.addWords a (.word a x2 x1 x0 c) (.word a y2 y1 y0 k) =
    if -(2 ^ 35) ≤ x2 + y2 ∧ x2 + y2 < 2 ^ 35 then .word a (x2 + y2) (x1 + y1) (x0 + y0) (c + k) else .special 8 := by
  have range : (decide (x2 + y2 < -34359738368) || decide (x2 + y2 ≥ 34359738368)) = true ↔ ¬(-(2 ^ 35) ≤ x2 + y2 ∧ x2 + y2 < 2 ^ 35) := by
    simp; omega
  simp only [addWords, range, ite_not, fOvf]

theorem Ofa.merge_words (room : c + k ≤ 4095) : (Ofa.word a x2 x1 x0 c).merge a (.word a y2 y1 y0 k) =
    if -(2 ^ 35) ≤ x2 + y2 ∧ x2 + y2 < 2 ^ 35 then .word a (x2 + y2) (x1 + y1) (x0 + y0) (c + k) else .special 8 := by
  rw [← addWords_word]
  unfold merge
  rw [at_same, at_same]
  exact if_neg (by simpa [count] using room)

/-- Past COUNT 4,095 both words are folded first. -/
theorem Ofa.merge_folds {w n : Nat} {u2 u1 u0 v2 v1 v0 : Int} (full : 4095 < c + k)
    (left : (Ofa.word a x2 x1 x0 c).fold = .word a u2 u1 u0 w) (right : (Ofa.word a y2 y1 y0 k).fold = .word a v2 v1 v0 n) :
    (Ofa.word a x2 x1 x0 c).merge a (.word a y2 y1 y0 k) = Ofa.addWords a (.word a u2 u1 u0 w) (.word a v2 v1 v0 n) := by
  unfold merge
  rw [at_same, at_same]
  refine (if_pos (by simpa [count] using full)).trans ?_
  rw [left, right]

end

/-- The fold of a word that is a word has COUNT 0 or 1. -/
theorem Ofa.count_fold_le {x : Ofa} {a n : Nat} {u2 u1 u0 : Int} (h : x.fold = .word a u2 u1 u0 n) : n ≤ 1 := by
  cases x with
  | special f => cases h
  | word a' x2 x1 x0 c =>
    obtain ⟨t2, d1, d0, low0, high0, low1, high1, eq⟩ := exists_bins (x2 * 2 ^ 48 + x1 * 2 ^ 24 + x0)
    rw [fold_word low0 high0 low1 high1 eq] at h
    split at h
    · simp only [word.injEq] at h
      obtain ⟨-, -, -, -, rfl⟩ := h
      split <;> omega
    · cases h

theorem Ofa.flags_comm (x y : Ofa) : Ofa.special (Nat.lor x.flags y.flags) = .special (Nat.lor y.flags x.flags) :=
  congrArg special (Nat.lor_comm ..)

theorem Ofa.addWords_comm (a : Nat) (x y : Ofa) : Ofa.addWords a x y = Ofa.addWords a y x := by
  cases x with
  | special f => cases y <;> exact flags_comm _ _
  | word p x2 x1 x0 c =>
    cases y with
    | special g => exact flags_comm _ _
    | word q y2 y1 y0 k => simp only [addWords, Int.add_comm, Nat.add_comm]

theorem Ofa.merge_comm (a : Nat) (x y : Ofa) : x.merge a y = y.merge a x := by
  cases hx : x.at a with
  | special f => rw [merge_special a f x y hx, special_merge a f y x hx, Nat.lor_comm]
  | word p x2 x1 x0 c =>
    cases hy : y.at a with
    | special g => rw [merge_special a g y x hy, special_merge a g x y hy, Nat.lor_comm]
    | word q y2 y1 y0 k =>
      unfold merge
      rw [hx, hy]
      dsimp only
      rw [Nat.add_comm (Ofa.count _), addWords_comm]
      refine ite_congr rfl (fun _ => ?_) fun _ => rfl
      cases (word p x2 x1 x0 c).fold with
      | special f => cases (word q y2 y1 y0 k).fold <;> exact flags_comm _ _
      | word =>
        cases (word q y2 y1 y0 k).fold with
        | special g => exact flags_comm _ _
        | word => exact addWords_comm ..

end Sys2Proof

namespace Sys2Proof

/-! ### Contributions (R195) -/

/-- A finite value within the range of the anchor contributes its balanced bins. -/
theorem Ofa.contrib_fin {a m : Nat} {g : Bool} {e : Int} (small : rne.toGrid g m e (ofaL0 a) ≤ 2 ^ 59) :
    ∃ d2 d1 d0 : Int, Ofa.contrib a (.fin g m e) = .word a d2 d1 d0 1
      ∧ d2 * 2 ^ 48 + d1 * 2 ^ 24 + d0 = (if g then -(rne.toGrid g m e (ofaL0 a) : Int) else rne.toGrid g m e (ofaL0 a))
      ∧ -(2 ^ 23) ≤ d0 ∧ d0 < 2 ^ 23 ∧ -(2 ^ 23) ≤ d1 ∧ d1 < 2 ^ 23 ∧ -(2 ^ 11) ≤ d2 ∧ d2 ≤ 2 ^ 11 := by
  generalize grid : rne.toGrid g m e (ofaL0 a) = k at small
  generalize value : (if g then -(k : Int) else k) = n
  have range : -(2 ^ 59) ≤ n ∧ n ≤ 2 ^ 59 := by split at value <;> omega
  obtain ⟨eq0, low0, high0⟩ := bal_digit n
  obtain ⟨eq1, low1, high1⟩ := bal_digit (bal n).2
  refine ⟨(bal (bal n).2).2, (bal (bal n).2).1, (bal n).1, ?_, by omega, low0, high0, low1, high1, by omega, by omega⟩
  unfold contrib
  simp only [grid, value]
  exact if_neg (by omega)

theorem Ofa.contrib_overflow {a m : Nat} {g : Bool} {e : Int} (large : 2 ^ 59 < rne.toGrid g m e (ofaL0 a)) :
    Ofa.contrib a (.fin g m e) = .special 8 := if_pos large

/-! ### The sum of contributions -/

/-- A word that n contributions may make, and the value of its bins: the top bin stays within n times that of the largest contribution. -/
def Ofa.Sums (a n : Nat) (x : Int) (w : Ofa) : Prop :=
  ∃ (b2 b1 b0 : Int) (c : Nat), w = .word a b2 b1 b0 c ∧ c ≤ 4095 ∧ b2 * 2 ^ 48 + b1 * 2 ^ 24 + b0 = x
    ∧ -(n * 2 ^ 59) ≤ x ∧ x ≤ n * 2 ^ 59 ∧ -(n * 2 ^ 11) ≤ b2 ∧ b2 ≤ n * 2 ^ 11

/-- A contribution is special, or the word of one contribution. -/
theorem Ofa.contrib_cases (a : Nat) (v : Val) : (∃ f, Ofa.contrib a v = .special f) ∨ ∃ x, (Ofa.contrib a v).Sums a 1 x := by
  cases v with
  | nan => exact .inl ⟨_, rfl⟩
  | inf g => exact .inl ⟨_, rfl⟩
  | fin g m e =>
    rcases Nat.lt_or_ge (2 ^ 59) (rne.toGrid g m e (ofaL0 a)) with large | small
    · exact .inl ⟨_, contrib_overflow large⟩
    · obtain ⟨d2, d1, d0, eq, sum, low0, high0, low1, high1, low2, high2⟩ := contrib_fin small
      have range : -(2 ^ 59) ≤ d2 * 2 ^ 48 + d1 * 2 ^ 24 + d0 ∧ d2 * 2 ^ 48 + d1 * 2 ^ 24 + d0 ≤ 2 ^ 59 := by split at sum <;> omega
      exact .inr ⟨_, d2, d1, d0, 1, eq, by omega, rfl, by omega, by omega, by omega, by omega⟩

section
variable {a n k : Nat} {x y : Int} {u v : Ofa}

theorem Ofa.Sums.at_self (h : u.Sums a n x) : u.at a = u := by
  obtain ⟨b2, b1, b0, c, rfl, -⟩ := h
  exact if_pos rfl

theorem Ofa.Sums.flags_eq (h : u.Sums a n x) : u.flags = 0 := by
  obtain ⟨b2, b1, b0, c, rfl, -⟩ := h
  rfl

/-- Words of one value fold to the same word. -/
theorem Ofa.Sums.fold_eq (h : u.Sums a n x) (k : v.Sums a n x) : u.fold = v.fold := by
  obtain ⟨b2, b1, b0, c, rfl, -, sum, -⟩ := h
  obtain ⟨d2, d1, d0, j, rfl, -, sum', -⟩ := k
  exact fold_congr (sum.trans sum'.symm)

/-- Within the limit of R200 a fold does not overflow, and keeps the value. -/
theorem Ofa.Sums.fold (h : u.Sums a n x) (limit : n < 2 ^ 24) : u.fold.Sums a n x := by
  obtain ⟨b2, b1, b0, c, rfl, -, sum, low, high, -⟩ := h
  obtain ⟨t2, d1, d0, low0, high0, low1, high1, eq⟩ := exists_bins (b2 * 2 ^ 48 + b1 * 2 ^ 24 + b0)
  refine ⟨t2, d1, d0, if t2 = 0 ∧ d1 = 0 ∧ d0 = 0 then 0 else 1, ?_, by split <;> omega, eq.trans sum, low, high, by omega, by omega⟩
  exact (fold_word low0 high0 low1 high1 eq).trans (if_pos (by omega))

/-- Within the limit of R200 a merge adds the values. -/
theorem Ofa.Sums.addWords (h : u.Sums a n x) (h' : v.Sums a k y) (limit : n + k < 2 ^ 24) (room : u.count + v.count ≤ 4095) :
    (Ofa.addWords a u v).Sums a (n + k) (x + y) := by
  obtain ⟨b2, b1, b0, c, rfl, -, sum, low, high, low2, high2⟩ := h
  obtain ⟨d2, d1, d0, j, rfl, -, sum', low', high', low2', high2'⟩ := h'
  refine ⟨b2 + d2, b1 + d1, b0 + d0, c + j, ?_, room, by omega, by push_cast; omega, by push_cast; omega, by push_cast; omega,
    by push_cast; omega⟩
  exact (addWords_word ..).trans (if_pos (by omega))

theorem Ofa.Sums.merge (h : u.Sums a n x) (h' : v.Sums a k y) (limit : n + k < 2 ^ 24) : (u.merge a v).Sums a (n + k) (x + y) := by
  have folded := h.fold (by omega)
  have folded' := h'.fold (by omega)
  have added := h.addWords h' limit
  have addedFolds := folded.addWords folded' limit
  obtain ⟨b2, b1, b0, c, rfl, -⟩ := h
  obtain ⟨d2, d1, d0, j, rfl, -⟩ := h'
  rcases Nat.lt_or_ge 4095 (c + j) with full | room
  · obtain ⟨t2, t1, t0, i, eq, -⟩ := folded
    obtain ⟨r2, r1, r0, i', eq', -⟩ := folded'
    have counts := Nat.add_le_add (count_fold_le eq) (count_fold_le eq')
    rw [eq, eq'] at addedFolds
    rw [merge_folds a c j b2 b1 b0 d2 d1 d0 full eq eq']
    exact addedFolds (by simp only [count]; omega)
  · rw [merge_words a c j b2 b1 b0 d2 d1 d0 room, ← addWords_word]
    exact added room

end

/-! ### The order of contributions (R200) -/

/-- Whether every value of a list contributes a finite word. -/
def Ofa.AllFinite (a : Nat) (l : List Val) : Prop := ∀ v ∈ l, ∀ f, Ofa.contrib a v ≠ .special f

/-- The value of a finite word's bins. -/
def Ofa.binSum : Ofa → Int
  | .special _ => 0
  | .word _ b2 b1 b0 _ => b2 * 2 ^ 48 + b1 * 2 ^ 24 + b0

theorem Ofa.Sums.binSum_eq {a n : Nat} {x : Int} {w : Ofa} (h : w.Sums a n x) : w.binSum = x := by
  obtain ⟨b2, b1, b0, c, rfl, -, sum, -⟩ := h
  exact sum

/-- The values that a list contributes, summed. -/
def Ofa.total (a : Nat) (l : List Val) : Int := (l.map fun v => (Ofa.contrib a v).binSum).sum

/-- The flags that a list contributes. -/
def Ofa.allFlags (a : Nat) (l : List Val) : Nat := l.foldl (fun f v => f ||| (Ofa.contrib a v).flags) 0

/-- What the contributions of a list make, in whatever order they came: the sum, or the flags of the special ones. -/
def Ofa.Collects (a : Nat) (l : List Val) (w : Ofa) : Prop :=
  (Ofa.AllFinite a l → w.Sums a l.length (Ofa.total a l)) ∧ (¬ Ofa.AllFinite a l → w = .special (Ofa.allFlags a l))

section
variable {a : Nat} {l k : List Val} {v : Val} {w : Ofa}

theorem Ofa.allFinite_append : Ofa.AllFinite a (l ++ [v]) ↔ Ofa.AllFinite a l ∧ ∀ f, Ofa.contrib a v ≠ .special f := by
  simp [AllFinite, or_imp, forall_and]

theorem Ofa.total_append : Ofa.total a (l ++ [v]) = Ofa.total a l + (Ofa.contrib a v).binSum := by simp [total]

theorem Ofa.allFlags_append : Ofa.allFlags a (l ++ [v]) = Ofa.allFlags a l ||| (Ofa.contrib a v).flags := by simp [allFlags]

/-- Finite words contribute no flags. -/
theorem Ofa.allFlags_allFinite (h : Ofa.AllFinite a l) : Ofa.allFlags a l = 0 := by
  induction l using List.reverseRecOn with
  | nil => rfl
  | append_singleton l v ih =>
    obtain ⟨front, last⟩ := allFinite_append.mp h
    obtain ⟨f, special⟩ | ⟨x, sums⟩ := contrib_cases a v
    · exact absurd special (last f)
    · rw [allFlags_append, ih front, sums.flags_eq, Nat.or_zero]

theorem Ofa.collects_empty : Ofa.Collects a [] (.empty a) :=
  ⟨fun _ => ⟨0, 0, 0, 0, rfl, by simp [total]⟩, fun special => absurd (fun _ mem => absurd mem List.not_mem_nil) special⟩

theorem Ofa.contrib_at (a : Nat) (v : Val) : (Ofa.contrib a v).at a = Ofa.contrib a v := by
  obtain ⟨f, special⟩ | ⟨x, sums⟩ := contrib_cases a v
  · rw [special, at_special]
  · exact sums.at_self

theorem Ofa.Collects.absorb (h : Ofa.Collects a l w) (limit : l.length + 1 < 2 ^ 24) : Ofa.Collects a (l ++ [v]) (w.absorb a v) := by
  by_cases front : AllFinite a l
  · have sums := h.1 front
    obtain ⟨f, special⟩ | ⟨x, last⟩ := contrib_cases a v
    · refine ⟨fun all => absurd special ((allFinite_append.mp all).2 f), fun _ => ?_⟩
      have flags : (w.at a).flags = allFlags a l := by rw [sums.at_self, sums.flags_eq, allFlags_allFinite front]
      rw [Ofa.absorb, special, special_merge a f _ _ (at_special a f), allFlags_append, special, flags, flags_special]
    · refine ⟨fun _ => ?_, fun some => absurd (allFinite_append.mpr ⟨front, fun f special => ?_⟩) some⟩
      · rw [total_append, last.binSum_eq, List.length_append]
        exact sums.merge last limit
      · obtain ⟨_, _, _, _, eq, _⟩ := last
        exact absurd (eq.symm.trans special) (by simp)
  · refine ⟨fun all => absurd (allFinite_append.mp all).1 front, fun _ => ?_⟩
    rw [h.2 front, Ofa.absorb, merge_special a _ _ _ (at_special ..), contrib_at, allFlags_append]

/-- The contributions absorbed one after another. -/
theorem Ofa.collects_foldl (limit : l.length < 2 ^ 24) : Ofa.Collects a l (l.foldl (Ofa.absorb a) (.empty a)) := by
  induction l using List.reverseRecOn with
  | nil => exact collects_empty
  | append_singleton l v ih =>
    rw [List.length_append] at limit
    rw [List.foldl_append]
    exact (ih (Nat.lt_of_succ_lt limit)).absorb limit

theorem Ofa.allFlags_perm (perm : l.Perm k) : Ofa.allFlags a l = Ofa.allFlags a k :=
  perm.foldl_eq' (fun _ _ _ _ _ => Nat.or_right_comm ..) 0

/-- What is collected does not depend on the order. -/
theorem Ofa.Collects.perm (h : Ofa.Collects a l w) (perm : l.Perm k) : Ofa.Collects a k w := by
  have finite : AllFinite a k ↔ AllFinite a l := forall_congr' fun v => imp_congr_left perm.mem_iff.symm
  have total : Ofa.total a l = Ofa.total a k := (perm.map _).sum_eq
  unfold Collects
  rw [finite, ← perm.length_eq, ← total, ← allFlags_perm perm]
  exact h

/-- What is collected folds to one word. -/
theorem Ofa.Collects.fold_eq {u : Ofa} (h : Ofa.Collects a l w) (h' : Ofa.Collects a l u) : w.fold = u.fold := by
  by_cases finite : AllFinite a l
  · exact (h.1 finite).fold_eq (h'.1 finite)
  · rw [h.2 finite, h'.2 finite]

/-- Contributions within the limit of R200 fold to the same word in every order. -/
theorem Ofa.foldl_absorb_perm (perm : l.Perm k) (limit : l.length < 2 ^ 24) :
    (l.foldl (Ofa.absorb a) (.empty a)).fold = (k.foldl (Ofa.absorb a) (.empty a)).fold :=
  ((collects_foldl limit).perm perm).fold_eq (collects_foldl (perm.length_eq ▸ limit))

end

end Sys2Proof

namespace Sys2Proof

/-! ## Formats and rounding (R177, R184 to R191) -/

/-! ### Rounding to a grid (R184 to R187) -/

section
variable (d : Rnd) (g : Bool) (m : Nat) (e l : Int)

/-- What is on the grid already is not rounded. -/
theorem Rnd.toGrid_coarse (on : l ≤ e) : d.toGrid g m e l = m * 2 ^ (e - l).toNat := if_pos on

theorem Rnd.toGrid_self : d.toGrid g m l l = m := by simp [toGrid_coarse d g m l l le_rfl]

/-- What lies off the grid is a quotient with its remainder, and is rounded up when the mode says so. -/
theorem Rnd.toGrid_fine (off : e < l) : d.toGrid g m e l =
    if m % 2 ^ (l - e).toNat = 0 then m / 2 ^ (l - e).toNat
    else if d.up g (m / 2 ^ (l - e).toNat) (m % 2 ^ (l - e).toNat) (l - e).toNat then m / 2 ^ (l - e).toNat + 1
    else m / 2 ^ (l - e).toNat := if_neg (by omega)

theorem Rnd.toGrid_exact (off : e < l) (exact : m % 2 ^ (l - e).toNat = 0) : d.toGrid g m e l = m / 2 ^ (l - e).toNat :=
  (d.toGrid_fine g m e l off).trans (if_pos exact)

theorem Rnd.toGrid_inexact (off : e < l) (rest : 0 < m % 2 ^ (l - e).toNat) : d.toGrid g m e l =
    if d.up g (m / 2 ^ (l - e).toNat) (m % 2 ^ (l - e).toNat) (l - e).toNat then m / 2 ^ (l - e).toNat + 1
    else m / 2 ^ (l - e).toNat :=
  (d.toGrid_fine g m e l off).trans (if_neg rest.ne')

end

section
variable {d : Rnd} {g : Bool} {q r s : Nat}

/-- The half of a power of two above 1. -/
theorem two_mul_half (pos : 0 < s) : 2 * (2 ^ s / 2) = 2 ^ s := Nat.mul_div_cancel' (dvd_pow_self 2 pos.ne')

/-- To nearest, ties to even. -/
theorem Rnd.up_even (mode : d.mode = 0) (pos : 0 < s) : d.up g q r s = true ↔ 2 ^ s < 2 * r ∨ 2 * r = 2 ^ s ∧ q % 2 = 1 := by
  have half := two_mul_half pos
  simp only [up, mode, Bool.or_eq_true, Bool.and_eq_true, decide_eq_true_eq, beq_iff_eq]
  omega

/-- To nearest, ties away from zero. -/
theorem Rnd.up_away (mode : d.mode = 1) (pos : 0 < s) : d.up g q r s = true ↔ 2 ^ s ≤ 2 * r := by
  have half := two_mul_half pos
  simp only [up, mode, decide_eq_true_eq]
  omega

theorem Rnd.up_zero (mode : d.mode = 2) : d.up g q r s = false := by simp only [up, mode]

theorem Rnd.up_ceil (mode : d.mode = 3) (rest : 0 < r) : d.up g q r s = !g := by simp [up, mode, rest]

theorem Rnd.up_floor (mode : d.mode = 4) (rest : 0 < r) : d.up g q r s = g := by simp [up, mode, rest]

theorem Rnd.up_draw (mode : d.mode = 5) : d.up g q r s = decide (d.draw < r * 2 ^ 24 / 2 ^ s) := by simp only [up, mode]

end

/-- A rounding of what lies off the grid takes one of the two neighbours, as its mode says. -/
theorem Rnd.rounds {d : Rnd} {g : Bool} {q r s x : Nat} (pos : 0 < s) (rest : 0 < r) (value : x = if d.up g q r s then q + 1 else q) :
    (d.mode = 0 → (2 * r < 2 ^ s → x = q) ∧ (2 ^ s < 2 * r → x = q + 1) ∧ (2 * r = 2 ^ s → x % 2 = 0 ∧ (x = q ∨ x = q + 1)))
    ∧ (d.mode = 1 → (2 * r < 2 ^ s → x = q) ∧ (2 ^ s ≤ 2 * r → x = q + 1))
    ∧ (d.mode = 2 → x = q)
    ∧ (d.mode = 3 → x = if g then q else q + 1)
    ∧ (d.mode = 4 → x = if g then q + 1 else q)
    ∧ (d.mode = 5 → x = if d.draw < r * 2 ^ 24 / 2 ^ s then q + 1 else q) := by
  refine ⟨fun mode => ?even, fun mode => ?away, fun mode => ?zero, fun mode => ?ceil, fun mode => ?floor, fun mode => ?draw⟩
  case even => simp only [up_even mode pos] at value; split at value <;> omega
  case away => simp only [up_away mode pos] at value; split at value <;> omega
  case zero => simpa only [up_zero mode, Bool.false_eq_true, if_false] using value
  case ceil => rw [value, up_ceil mode rest]; cases g <;> rfl
  case floor => rw [value, up_floor mode rest]
  case draw => simpa only [up_draw mode, decide_eq_true_eq] using value

/-! ### Decoding (R177) -/

section
variable (f : Fp) (n : Nat)

/-- The fields of an encoding. -/
def Fp.negOf : Bool := bitsOf n (f.ebits + f.fbits) 1 == 1
def Fp.expOf : Nat := bitsOf n f.fbits f.ebits
def Fp.fracOf : Nat := bitsOf n 0 f.fbits

theorem Fp.expOf_lt : f.expOf n < 2 ^ f.ebits := Nat.mod_lt _ (Nat.two_pow_pos _)

theorem Fp.fracOf_lt : f.fracOf n < 2 ^ f.fbits := Nat.mod_lt _ (Nat.two_pow_pos _)

/-- An encoding is its fields. -/
theorem Fp.sign_fields (h : n < 2 ^ (1 + f.ebits + f.fbits)) : f.sign (f.negOf n) (f.expOf n * 2 ^ f.fbits + f.fracOf n) = n := by
  have low : f.expOf n * 2 ^ f.fbits + f.fracOf n = n % 2 ^ (f.ebits + f.fbits) := by
    rw [expOf, fracOf, bitsOf, bitsOf, Nat.shiftRight_zero, Nat.shiftRight_eq_div_pow, Nat.add_comm f.ebits, pow_add, Nat.mod_mul,
      Nat.mul_comm, Nat.add_comm]
  have top : n / 2 ^ (f.ebits + f.fbits) < 2 := by
    rw [Nat.div_lt_iff_lt_mul (Nat.two_pow_pos _)]
    simpa only [Nat.add_assoc, pow_add, pow_one] using h
  have split := Nat.div_add_mod n (2 ^ (f.ebits + f.fbits))
  rw [sign, low, negOf, bitsOf, Nat.shiftRight_eq_div_pow, pow_one, Nat.mod_eq_of_lt top]
  rcases Nat.lt_succ_iff_lt_or_eq.mp top with zero | one
  · rw [Nat.lt_one_iff.mp zero] at split ⊢
    simpa using split
  · rw [one] at split ⊢
    simpa using split

/-- An exponent and a fraction that name no infinity and no NaN stay within the largest code. -/
theorem Fp.code_le_maxCode {f : Fp} {x r : Nat} (exp : x < 2 ^ f.ebits) (frac : r < 2 ^ f.fbits)
    (noInf : f.top = .ieee → x ≠ 2 ^ f.ebits - 1) (noNan : f.top = .e4m3 → x = 2 ^ f.ebits - 1 → r ≠ 2 ^ f.fbits - 1) :
    x * 2 ^ f.fbits + r ≤ f.maxCode := by
  have below {b : Nat} (h : x + 1 ≤ b) : x * 2 ^ f.fbits + 2 ^ f.fbits ≤ b * 2 ^ f.fbits := by
    simpa only [Nat.succ_mul] using Nat.mul_le_mul_right (2 ^ f.fbits) h
  cases top : f.top with
  | ieee =>
    have := below (b := 2 ^ f.ebits - 1) (by have := noInf top; omega)
    simp only [maxCode, top]
    omega
  | e4m3 =>
    simp only [maxCode, top, pow_add]
    rcases Nat.lt_or_ge (x + 1) (2 ^ f.ebits) with small | large
    · have := below (b := 2 ^ f.ebits - 1) (by omega)
      rw [Nat.sub_one_mul] at this
      omega
    · have := below exp
      have := noNan top (by omega)
      omega
  | none =>
    have := below exp
    simp only [maxCode, top, pow_add]
    omega

/-- A number is what its fields say, and its exponent field names no infinity and no NaN: its code is within the largest one. -/
theorem Fp.dec_fin {g : Bool} {m : Nat} {e : Int} (h : f.dec n = .fin g m e) :
    f.dec n = .fin (f.negOf n) (if f.expOf n = 0 then f.fracOf n else 2 ^ f.fbits + f.fracOf n)
        (if f.expOf n = 0 then 1 - (f.bias : Int) - f.fbits else (f.expOf n : Int) - f.bias - f.fbits)
      ∧ f.expOf n * 2 ^ f.fbits + f.fracOf n ≤ f.maxCode := by
  have exp := f.expOf_lt n
  have frac := f.fracOf_lt n
  have dec : f.dec n =
      if (f.top == .ieee && f.expOf n == 2 ^ f.ebits - 1) = true then (if f.fracOf n = 0 then .inf (f.negOf n) else .nan)
      else if (f.top == .e4m3 && f.expOf n == 2 ^ f.ebits - 1 && f.fracOf n == 2 ^ f.fbits - 1) = true then .nan
      else if f.expOf n = 0 then .fin (f.negOf n) (f.fracOf n) (1 - (f.bias : Int) - f.fbits)
      else .fin (f.negOf n) (2 ^ f.fbits + f.fracOf n) ((f.expOf n : Int) - f.bias - f.fbits) := rfl
  rw [dec] at h ⊢
  split at h
  · split at h <;> cases h
  next noInf =>
    split at h
    · cases h
    next noNan =>
      rw [if_neg noInf, if_neg noNan]
      simp only [Bool.and_eq_true, beq_iff_eq] at noInf noNan
      exact ⟨by split <;> rfl, code_le_maxCode exp frac (fun ieee top => noInf ⟨ieee, top⟩) fun e4m3 top all => noNan ⟨⟨e4m3, top⟩, all⟩⟩

end

/-! ### Encoding a number (R189) -/

section
variable (f : Fp) (d : Rnd) (g : Bool)

/-- A significand that needs no rounding gives the code of its exponent, or its own below the first normal one. -/
theorem Fp.encFin_exact {m : Nat} {e : Int} (pos : m ≠ 0) (grid : max (1 - (f.bias : Int) - f.fbits) (flog2 m e - f.fbits) = e)
    (small : m < 2 ^ (f.fbits + 1))
    (fits : (if m < 2 ^ f.fbits then m else (e + f.bias + f.fbits).toNat * 2 ^ f.fbits + (m - 2 ^ f.fbits)) ≤ f.maxCode) :
    f.encFin d g m e = f.sign g (if m < 2 ^ f.fbits then m else (e + f.bias + f.fbits).toNat * 2 ^ f.fbits + (m - 2 ^ f.fbits)) := by
  unfold encFin
  rw [if_neg pos]
  dsimp only
  rw [grid, d.toGrid_self, if_neg (Nat.not_le.mpr small)]
  exact if_neg (Nat.not_lt.mpr fits)

theorem Fp.encFin_subnormal {r : Nat} (pos : r ≠ 0) (frac : r < 2 ^ f.fbits) (fits : r ≤ f.maxCode) :
    f.encFin d g r (1 - (f.bias : Int) - f.fbits) = f.sign g r := by
  have log := (Nat.log2_lt pos).mpr frac
  have exact := f.encFin_exact d g (e := 1 - (f.bias : Int) - f.fbits) pos (by unfold flog2; omega) (by rw [pow_succ]; omega)
  rw [if_pos frac] at exact
  exact exact fits

theorem Fp.encFin_normal {x r : Nat} (pos : x ≠ 0) (frac : r < 2 ^ f.fbits) (fits : x * 2 ^ f.fbits + r ≤ f.maxCode) :
    f.encFin d g (2 ^ f.fbits + r) ((x : Int) - f.bias - f.fbits) = f.sign g (x * 2 ^ f.fbits + r) := by
  have top := Nat.two_pow_pos f.fbits
  have small : 2 ^ f.fbits + r < 2 ^ (f.fbits + 1) := by rw [pow_succ]; omega
  have log : (2 ^ f.fbits + r).log2 = f.fbits := (Nat.log2_eq_iff (by omega)).mpr ⟨by omega, small⟩
  have exact := f.encFin_exact d g (m := 2 ^ f.fbits + r) (e := (x : Int) - f.bias - f.fbits) (by omega) (by unfold flog2; omega) small
  rw [if_neg (by omega), show ((x : Int) - f.bias - f.fbits + f.bias + f.fbits).toNat = x by omega, Nat.add_sub_cancel_left] at exact
  exact exact fits

/-- Every number of a format converts to itself, whatever the rounding. -/
theorem Fp.enc_dec {g : Bool} {n m : Nat} {e : Int} (width : n < 2 ^ (1 + f.ebits + f.fbits)) (number : f.dec n = .fin g m e) :
    f.enc d (f.dec n) = n := by
  obtain ⟨dec, fits⟩ := f.dec_fin n number
  have frac := f.fracOf_lt n
  rw [dec]
  refine Eq.trans ?_ (f.sign_fields n width)
  show f.encFin d _ _ _ = _
  by_cases exp : f.expOf n = 0
  · rw [if_pos exp, if_pos exp, exp, Nat.zero_mul, Nat.zero_add]
    rw [exp, Nat.zero_mul, Nat.zero_add] at fits
    by_cases zero : f.fracOf n = 0
    · rw [zero]
      exact if_pos rfl
    · exact f.encFin_subnormal d _ zero frac fits
  · rw [if_neg exp, if_neg exp]
    exact f.encFin_normal d _ exp frac fits

end

/-! ### NaN, infinities and overflows (R178, R189 to R191) -/

section
variable (f : Fp) (d : Rnd) (g : Bool)

theorem Fp.enc_nan : f.enc d .nan = f.nanCode := rfl

/-- An infinity of a format that has infinities is encoded as one, whatever the rounding. -/
theorem Fp.enc_inf_ieee (top : f.top = .ieee) : f.enc d (.inf g) = f.sign g ((2 ^ f.ebits - 1) * 2 ^ f.fbits) := by
  simp only [enc, top]

theorem Fp.dec_enc_inf (mem : f ∈ [fp64, fp32, bf16, fp16, fp8e5m2]) : f.dec (f.enc d (.inf g)) = .inf g := by
  have code : ∀ f ∈ [fp64, fp32, bf16, fp16, fp8e5m2], ∀ g : Bool,
      f.top = .ieee ∧ f.dec (f.sign g ((2 ^ f.ebits - 1) * 2 ^ f.fbits)) = .inf g := by
    decide
  obtain ⟨top, dec⟩ := code f mem g
  rw [f.enc_inf_ieee d g top, dec]

/-- Whether a mode rounds away from zero in the direction of an overflow (R189). -/
def Rnd.grows : Bool := !(d.mode = 2 ∨ (d.mode = 3 ∧ g = true) ∨ (d.mode = 4 ∧ g = false))

/-- What an overflow writes that does not saturate. -/
theorem Fp.overflow_grows : f.overflow d g = if d.sat || !d.grows g then f.sign g f.maxCode else f.enc { d with sat := false } (.inf g) := by
  have big : f.enc { d with sat := false } (.inf g) = match f.top with
      | .ieee => f.sign g ((2 ^ f.ebits - 1) * 2 ^ f.fbits)
      | .e4m3 => f.nanCode
      | .none => f.sign g f.maxCode := by
    cases top : f.top <;> simp [enc, top]
  have grows : d.grows g = match d.mode with
      | 2 => false | 3 => !g | 4 => g | _ => true := by
    unfold Rnd.grows
    split <;> cases g <;> simp_all
  rw [big, grows]
  rfl

/-- An overflow saturates to the largest number where SAT, the format or the mode's direction asks for it, and is the infinity else. -/
theorem Fp.overflow_eq : f.overflow d g =
    if d.sat = true ∨ f.top = .none ∨ d.mode = 2 ∨ (d.mode = 3 ∧ g = true) ∨ (d.mode = 4 ∧ g = false)
      then f.sign g f.maxCode else f.enc { d with sat := false } (.inf g) := by
  rw [overflow_grows]
  by_cases none : f.top = .none
  · rw [if_pos (c := _ ∨ _) (.inr (.inl none))]
    simp [enc, none]
  · exact if_congr (by simp [Rnd.grows, none]) rfl rfl

end

end Sys2Proof

namespace Sys2Proof

/-! ## Bytes of a line -/

/-- A bit of a byte list read as a number is a bit of its byte. -/
theorem testBit_ofLe (l : List Byte) (i : Nat) : (ofLe l).testBit i = (l.getD (i / 8) 0).getLsbD (i % 8) := by
  induction l generalizing i with
  | nil => simp [ofLe]
  | cons b l ih =>
    rw [ofLe, Nat.add_comm, show (256 : Nat) = 2 ^ 8 from rfl, Nat.testBit_two_pow_mul_add _ b.isLt]
    split
    next low => rw [Nat.div_eq_of_lt low, Nat.mod_eq_of_lt low]; rfl
    next high =>
      obtain ⟨j, rfl⟩ := Nat.exists_eq_add_of_le (Nat.not_lt.mp high)
      rw [ih, Nat.add_sub_cancel_left, Nat.add_mod_left, Nat.add_div_left j (by decide)]
      rfl

/-- The bits of a line that a byte mask selects. -/
theorem getLsbD_wideMask (m : BitVec 128) {i : Nat} (h : i < 1024) : (wideMask m).getLsbD i = m.getLsbD (i / 8) := by
  have byte : i / 8 < 128 := by omega
  have bit : i % 8 < 8 := by omega
  rw [wideMask, BitVec.getLsbD_ofNat, testBit_ofLe, List.getD_eq_getElem _ _ (by simpa using byte)]
  simp only [h, decide_true, Bool.true_and, List.getElem_map, List.getElem_range]
  cases m.getLsbD (i / 8)
  · simp
  · generalize i % 8 = j at bit
    revert j
    decide

/-- A merge takes the selected bytes of the second line. -/
theorem getLsbD_mergeBytes (m : BitVec 128) (d e : Line) {i : Nat} (h : i < 1024) :
    (mergeBytes m d e).getLsbD i = if m.getLsbD (i / 8) then e.getLsbD i else d.getLsbD i := by
  simp only [mergeBytes, BitVec.getLsbD_or, BitVec.getLsbD_and, BitVec.getLsbD_not, getLsbD_wideMask m h, h, decide_true, Bool.true_and]
  cases m.getLsbD (i / 8) <;> simp

theorem getLsbD_byteMask (lo n : Nat) {i : Nat} (h : i < 128) : (byteMask lo n).getLsbD i = decide (lo ≤ i ∧ i < lo + n) := by
  simp only [byteMask, BitVec.getLsbD_ofNat, Nat.testBit_mod_two_pow, h, decide_true, Bool.true_and, Nat.testBit_shiftLeft,
    Nat.testBit_two_pow_sub_one, ← Bool.decide_and]
  exact decide_eq_decide.mpr (by omega)

/-- A field of n bytes put into a line at byte lo: the bits of the field, and elsewhere those of the line. -/
theorem getLsbD_mergeField (lo n : Nat) (d : Line) (x : Nat) {i : Nat} (h : i < 1024) :
    (mergeBytes (byteMask lo n) d (BitVec.ofNat 1024 (x <<< (8 * lo)))).getLsbD i =
      if 8 * lo ≤ i ∧ i < 8 * lo + 8 * n then x.testBit (i - 8 * lo) else d.getLsbD i := by
  rw [getLsbD_mergeBytes _ _ _ h, getLsbD_byteMask lo n (by omega), BitVec.getLsbD_ofNat, Nat.testBit_shiftLeft]
  refine if_ctx_congr (by rw [decide_eq_true_iff]; omega) (fun field => ?_) fun _ => rfl
  simp [h, field.1]

end Sys2Proof

namespace Sys2Proof.Machine
open Sys2Proof

/-! ## Atomics (R126) -/

/-- A number below 2^w as a signed one of w bits. -/
theorem intDec_eq_toInt {w n : Nat} (pos : 0 < w) (h : n < 2 ^ w) : intDec true w n = (BitVec.ofNat w n).toInt := by
  obtain ⟨k, rfl⟩ := Nat.exists_eq_add_of_le' pos
  simp only [intDec, BitVec.toInt_eq_toNat_cond, BitVec.toNat_ofNat, Nat.mod_eq_of_lt h, Bool.true_and, decide_eq_true_eq,
    Nat.add_sub_cancel]
  push_cast
  rw [pow_succ]
  split <;> split <;> omega

/-- The bits of an atomic's operand. -/
def atomicWidth (p : Packet) : Nat := if p.wide then 64 else 32

section
variable (p : Packet) (d : Line)

theorem atomicLine_old : (atomicLine p d).2 = (d.toNat >>> (8 * (p.offset.toNat % 128))) % 2 ^ atomicWidth p := rfl

/-- What an atomic writes. -/
def atomicResult : Nat :=
  atomicNew p.aop.toNat (atomicWidth p) (atomicLine p d).2 (p.opnd.toNat % 2 ^ atomicWidth p) (p.opnd.toNat / 2 ^ 64 % 2 ^ atomicWidth p)

theorem atomicLine_new : (atomicLine p d).1 = mergeBytes (byteMask (p.offset.toNat % 128) (atomicWidth p / 8)) d
    (BitVec.ofNat 1024 (atomicResult p d <<< (8 * (p.offset.toNat % 128)))) := by
  rw [atomicResult, atomicLine_old, ← Nat.shiftRight_eq_div_pow]
  rfl

theorem atomicLine_bit {i : Nat} (h : i < 1024) : (atomicLine p d).1.getLsbD i =
    if 8 * (p.offset.toNat % 128) ≤ i ∧ i < 8 * (p.offset.toNat % 128) + atomicWidth p
      then (atomicResult p d).testBit (i - 8 * (p.offset.toNat % 128)) else d.getLsbD i := by
  have bytes : 8 * (atomicWidth p / 8) = atomicWidth p := by unfold atomicWidth; split <;> rfl
  rw [atomicLine_new, getLsbD_mergeField _ _ _ _ h, bytes]

/-- The field holds the result. -/
theorem atomicLine_field (fits : 8 * (p.offset.toNat % 128) + atomicWidth p ≤ 1024) :
    ((atomicLine p d).1.toNat >>> (8 * (p.offset.toNat % 128))) % 2 ^ atomicWidth p = atomicResult p d % 2 ^ atomicWidth p := by
  refine Nat.eq_of_testBit_eq fun j => ?_
  rw [Nat.testBit_mod_two_pow, Nat.testBit_mod_two_pow, Nat.testBit_shiftRight, BitVec.testBit_toNat]
  by_cases h : j < atomicWidth p
  · rw [atomicLine_bit p d (by omega), if_pos (by omega), Nat.add_sub_cancel_left]
  · simp [h]

/-- No other bit changes. -/
theorem atomicLine_frame {i : Nat} (other : i < 8 * (p.offset.toNat % 128) ∨ 8 * (p.offset.toNat % 128) + atomicWidth p ≤ i) :
    (atomicLine p d).1.getLsbD i = d.getLsbD i := by
  rcases Nat.lt_or_ge i 1024 with h | h
  · exact (atomicLine_bit p d h).trans (if_neg (by omega))
  · rw [BitVec.getLsbD_of_ge _ _ h, BitVec.getLsbD_of_ge _ _ h]

end

section
variable {w old c v : Nat} (pos : 0 < w) (old_lt : old < 2 ^ w) (v_lt : v < 2 ^ w)
include pos old_lt v_lt

theorem atomicNew_signedMin : atomicNew 6 w old c v = if (BitVec.ofNat w v).toInt < (BitVec.ofNat w old).toInt then v else old := by
  rw [← intDec_eq_toInt pos old_lt, ← intDec_eq_toInt pos v_lt]
  rfl

theorem atomicNew_signedMax : atomicNew 7 w old c v = if (BitVec.ofNat w old).toInt < (BitVec.ofNat w v).toInt then v else old := by
  rw [← intDec_eq_toInt pos old_lt, ← intDec_eq_toInt pos v_lt]
  rfl

end

end Sys2Proof.Machine

namespace Sys2Proof.Machine
open Sys2Proof

/-! ### An atomic's access (R126, R373, R384) -/

section
variable {s : State} {r : Req}

section
variable (mirror : (s.ext r.ext).mirror = false) (parity : (s.ext r.ext).parity = false)
include parity

theorem State.standIn_unprotected (off : Nat) : s.standIn (s.ext r.ext) off = false := by simp [standIn, parity]

theorem State.stripeLost_unprotected (off : Nat) : s.stripeLost (s.ext r.ext) off = false := by
  simp [stripeLost, standIn_unprotected parity]

include mirror

/-- What lies in no group extent is forwarded to no member. -/
theorem State.endFwd_unprotected (was new data : Line) (old : Nat) : s.endFwd r was new data old = s.endReq r stOk data old := by
  have none : s.forwardTo r = [] := by simp [forwardTo, mirror, parity]
  rw [endFwd, none]

theorem State.readAt_clean {c0 c1 : RawEcc} (clean : lineCls (clsOf (s.lineMeta r.line).mark c0) (clsOf (s.lineMeta r.line).mark c1) = .clean) :
    s.readAt r c0 c1 = (.ok (s.lineData r.ext r.line (s.reqTweak r)), s) := by
  unfold readAt
  dsimp only
  rw [clean, mirror, parity]
  rfl

end

/-- An atomic stores what it makes of the line as read, and returns the old operand. -/
theorem State.accessEnd_atom (act : r.act = .atom) (mirror : (s.ext r.ext).mirror = false) (parity : (s.ext r.ext).parity = false)
    {c0 c1 : RawEcc} (clean : lineCls (clsOf (s.lineMeta r.line).mark c0) (clsOf (s.lineMeta r.line).mark c1) = .clean) :
    s.accessEnd r c0 c1 =
      let d := s.lineData r.ext r.line (s.reqTweak r)
      ((s.storeLine r.line (atomicLine r.pkt d).1 (s.ext r.ext).key (s.reqTweak r)).bump (sliceBlk (lineQuad r.line)) 7).endReq r stOk 0
        (atomicLine r.pkt d).2 := by
  have kept (d : Line) (w : Nat) (k : Option Nat) (blk : Nat) : ((s.storeLine r.line d k w).bump blk 7).ext r.ext = s.ext r.ext := by
    simp [State.ext, storeLine]
  unfold accessEnd
  dsimp only
  rw [stripeLost_unprotected parity, act, readAt_clean mirror parity clean, Bool.and_false, if_neg Bool.false_ne_true]
  dsimp only
  rw [parity, Bool.false_and, if_neg Bool.false_ne_true]
  exact endFwd_unprotected (by rw [kept, mirror]) (by rw [kept, parity]) ..

/-- Only a write serves the reads that follow it. -/
theorem State.serveReads_unwritten (n c : Nat) (write : r.isWrite = false) : s.serveReads n c r = s := by
  simp [serveReads, write]

theorem exec_dramAccessDone_request {n : Fin 8} {c : Fin 16} {c0 c1 : RawEcc} {l : List Req} (issued : ((s.stack n.val).chan c.val).issued = r :: l)
    (serves : ((s.stack n.val).chan c.val).blackout = false) (org : ∀ p q h w, r.org ≠ .spill p q h w) :
    exec (.dramAccessDone n c c0 c1) s =
      .next (((s.modChan n.val c.val fun x => { x with issued := l }).accessEnd r c0 c1).serveReads n.val c.val r) := by
  have ends (u : State) : u.accessDone r c0 c1 = u.accessEnd r c0 c1 := by
    unfold State.accessDone
    split
    · exact absurd ‹_› (org _ _ _ _)
    · rfl
  refine (show exec (.dramAccessDone n c c0 c1) s = execDramAccessDone n c c0 c1 s from rfl).trans ?_
  unfold execDramAccessDone
  dsimp only
  rw [issued]
  exact (if_neg (by simp [serves])).trans (by rw [ends])

/-- The end of an atomic's access to a clean line that no member shares. -/
theorem exec_dramAccessDone_atom {n : Fin 8} {c : Fin 16} {l : List Req} (issued : ((s.stack n.val).chan c.val).issued = r :: l)
    (act : r.act = .atom) (serves : ((s.stack n.val).chan c.val).blackout = false) (org : ∀ p q h w, r.org ≠ .spill p q h w)
    (mirror : (s.ext r.ext).mirror = false) (parity : (s.ext r.ext).parity = false)
    (clean : lineCls (clsOf (s.lineMeta r.line).mark .clean) (clsOf (s.lineMeta r.line).mark .clean) = .clean) :
    exec (.dramAccessDone n c .clean .clean) s = .next
      (let u := s.modChan n.val c.val fun x => { x with issued := l }
       let d := u.lineData r.ext r.line (u.reqTweak r)
       ((u.storeLine r.line (atomicLine r.pkt d).1 (s.ext r.ext).key (u.reqTweak r)).bump (sliceBlk (lineQuad r.line)) 7).endReq r stOk 0
         (atomicLine r.pkt d).2) := by
  rw [exec_dramAccessDone_request issued serves org, State.serveReads_unwritten _ _ (by simp [Req.isWrite, act])]
  exact congrArg Host.Outcome.next (State.accessEnd_atom (s := s.modChan n.val c.val fun x => { x with issued := l }) act mirror parity clean)

end

/-- Settles O24: an atomic's access is one step on the line, of which the operand alone changes; a number needs no rounding, so that it converts to
itself; and what a merge or a fold writes depends on the sum of the bins alone, so that no order of contributions shows. -/
theorem atomicDone : Obligations.AtomicDone := by
  unfold Obligations.AtomicDone
  refine ⟨fun n c r l s => exec_dramAccessDone_atom, ?line, ?operations, fun f d n g m e mem => f.enc_dec d, ?rounding, ?specials,
    Ofa.merge_comm, ?merges, ?folds, ?contributions, fun a l k => Ofa.foldl_absorb_perm⟩
  case line =>
    intro p d form opc fits
    have width : 8 * p.accLen = atomicWidth p := by
      rw [Packet.accLen, if_neg (by rw [opc]; decide), if_pos opc, atomicWidth]
      split <;> rfl
    exact ⟨rfl, atomicLine_field p d (by omega), fun i => atomicLine_frame p d⟩
  case operations =>
    intro w old c v old_lt c_lt v_lt width
    have pos : 0 < w := by omega
    have least := atomicNew_signedMin (c := c) pos old_lt v_lt
    have greatest := atomicNew_signedMax (c := c) pos old_lt v_lt
    exact ⟨rfl, fun i => Nat.testBit_and .., fun i => Nat.testBit_or .., fun i => Nat.testBit_xor .., rfl, fun h => if_pos h, fun h => if_neg h,
      fun h => least.trans (if_pos h), fun h => least.trans (if_neg h.not_gt), fun h => greatest.trans (if_pos h),
      fun h => greatest.trans (if_neg h.not_gt), Nat.min_eq_right, Nat.min_eq_left, Nat.max_eq_left, Nat.max_eq_right, rfl⟩
  case rounding =>
    intro d g m e l
    exact ⟨d.toGrid_coarse g m e l, d.toGrid_exact g m e l,
      fun off rest => Rnd.rounds (by omega) rest (d.toGrid_inexact g m e l off rest)⟩
  case specials =>
    intro d
    refine ⟨?_, ?_, ?_, ?_, ?_, ?_, fun g => rfl, fun f g => f.dec_enc_inf d g, fun sg b => ⟨rfl, rfl, rfl⟩, fun f g => f.overflow_eq d g⟩
    all_goals rw [Fp.enc_nan]; decide
  case merges =>
    intro a b x2 x1 x0 y2 y1 y0 c k f
    refine ⟨?_, ?_, fun ne => ⟨?_, ?_⟩, fun room => Ofa.merge_words (room := room) .., fun full folds => ?_⟩
    · rw [Ofa.special_merge a f _ _ rfl, Ofa.at_same, Ofa.flags_word, Nat.zero_or]
    · rw [Ofa.special_merge a f _ _ rfl, Ofa.at_special, Ofa.flags_special]
    · rw [Ofa.special_merge a 1 _ _ (Ofa.at_other _ _ _ _ _ _ ne), Ofa.at_same, Ofa.flags_word, Nat.zero_or]
    · rw [Ofa.special_merge a 1 _ _ (Ofa.at_other _ _ _ _ _ _ ne), Ofa.at_special, Ofa.flags_special]
    · obtain ⟨w, n, u2, u1, u0, v2, v1, v0, left, right⟩ := folds
      have counts := Nat.add_le_add (Ofa.count_fold_le left) (Ofa.count_fold_le right)
      rw [Ofa.merge_folds a c k _ _ _ _ _ _ full left right, left, right, Ofa.merge_words a w n _ _ _ _ _ _ (by omega), Ofa.addWords_word]
  case folds => exact fun a c b2 b1 b0 t2 d1 d0 low0 high0 low1 high1 => Ofa.fold_word low0 high0 low1 high1
  case contributions => exact fun a g m e => ⟨rfl, rfl, rfl, Ofa.contrib_overflow, Ofa.contrib_fin⟩

end Sys2Proof.Machine

namespace Sys2Proof.Machine
open Sys2Proof

/-! ## Requests at the directory -/

/-! ### A slice that no scan is on (R133) -/

section
variable {s : State} {q : Nat} (idle : (s.slice q).scanning = false)
include idle

theorem State.meetScan_idle (w : Nat) : s.meetScan q w = s := if_pos (by simp [idle])

theorem State.meetLine_idle (a : Nat) : s.meetLine q a = s := by
  unfold meetLine
  split
  · exact meetScan_idle idle _
  · rfl

theorem State.each_meetScan_idle (l : List Nat) (f : Nat → Nat) : (s.each l fun s i => s.meetScan q (f i)) = s :=
  s.each_induction (fun u => u = s) l _ rfl fun _ _ _ same => same ▸ meetScan_idle idle _

end

/-! ### From the request to its row (R116, R119, R127) -/

/-- What a slice's answer leaves: the state that serves the request, or the RETRY. -/
def State.orNack (s : State) (q : Nat) (r : Req) (x : Served) : State :=
  match x with
  | .ok u => u
  | .error bo => s.dirNack q r bo

section
variable {s : State} {r : Req}

/-- A requester that is no agent asks for no copy. -/
theorem State.dirRequest_noAgent (caching : isCaching r.pkt.opc = true) (agent : s.isAgent r.pkt.src = false) :
    s.dirRequest r = s.finish r stDenied :=
  if_pos (by simp [caching, agent])

/-- On a line with no open transaction and no reservation a request is served, once it is known where an atomic is placed. -/
theorem State.dirRequest_serves {b : Bool} {u : State} (agent : isCaching r.pkt.opc = true → s.isAgent r.pkt.src = true)
    (placed : (if r.org = .fab && r.pkt.opc = oAtomic && s.isAgent r.pkt.src then s.predict (lineQuad r.line) r else (false, s)) = (b, u))
    (idle : (u.slice (lineQuad r.line)).scanning = false) (unreserved : ∀ v ∈ (u.slice (lineQuad r.line)).resv, v.line ≠ r.line)
    (shut : ∀ w, (u.slice (lineQuad r.line)).find r.line = some w → ((u.slice (lineQuad r.line)).way w).opn = false) :
    s.dirRequest r = u.orNack (lineQuad r.line) { r with atReq := b } (u.serve (lineQuad r.line) { r with atReq := b }) := by
  have noHead : (u.slice (lineQuad r.line)).resv.find? (fun v => decide (v.line = r.line)) = none := by
    simpa [List.find?_eq_none] using unreserved
  have noOpen : ((u.slice (lineQuad r.line)).find r.line).bind (fun w =>
      if ((u.slice (lineQuad r.line)).way w).opn then some ((u.slice (lineQuad r.line)).way w) else none) = none := by
    cases found : (u.slice (lineQuad r.line)).find r.line with
    | none => rfl
    | some w => simp [shut w found]
  unfold dirRequest
  rw [if_neg (by simpa using agent)]
  simp only [placed, meetLine_idle idle, noOpen, noHead]
  cases u.serve (lineQuad r.line) { r with atReq := b } <;> rfl

/-- The predictor's turn changes neither the entries nor the reservations of the slice. -/
theorem State.predict_slice (s : State) (q : Nat) (r : Req) : ∃ p, (s.predict q r).2.slice q = { s.slice q with pred := p } :=
  ⟨_, State.setSlice_slice_same ..⟩

end

/-! ### Lines in I -/

section
variable {s : State} {q : Nat} {r : Req}

theorem State.serve_absent (absent : (s.slice q).find r.line = none) : s.serve q r = s.serveI q r := by
  unfold serve
  rw [absent]

theorem State.direct_reclaim (opc : r.pkt.opc = oReclaim) : s.direct r = s.toDram { r with act := .reclaim, cost := 256 } := if_pos opc

theorem State.direct_other (opc : r.pkt.opc ≠ oReclaim) :
    s.direct r = s.toDram { r with act := (directAct r.pkt).1, cost := (directAct r.pkt).2 } := if_neg opc

theorem State.serveI_grants (grants : r.grants = true) : s.serveI q r = s.allocate q r := if_pos grants

theorem State.serveI_wbDirty (grants : r.grants = false) (opc : r.pkt.opc = oWbDirty) : s.serveI q r = .ok (s.finish r stDenied) :=
  (if_neg (by simp [grants])).trans (if_pos opc)

theorem State.serveI_evictClean (grants : r.grants = false) (opc : r.pkt.opc = oEvictClean) : s.serveI q r = .ok (s.finish r stOk) :=
  (if_neg (by simp [grants])).trans ((if_neg (by rw [opc]; decide)).trans (if_pos opc))

theorem State.serveI_direct (grants : r.grants = false) (wb : r.pkt.opc ≠ oWbDirty) (evict : r.pkt.opc ≠ oEvictClean) :
    s.serveI q r = .ok (s.direct r) :=
  (if_neg (by simp [grants])).trans ((if_neg wb).trans (if_neg evict))

theorem State.allocate_full (idle : (s.slice q).scanning = false) (full : (s.slice q).freeTxn = none) : s.allocate q r = .error 4 := by
  unfold allocate
  dsimp only
  rw [each_meetScan_idle idle, full]

/-- The first FREE way of the set is taken with the first free transaction. -/
theorem State.allocate_free {t i : Nat} (idle : (s.slice q).scanning = false) (free : (s.slice q).freeTxn = some t)
    (way : (List.range 16).find? (fun i => ((s.slice q).way (setOf r.line * 16 + i)).state = 0
      && !((s.slice q).way (setOf r.line * 16 + i)).opn) = some i) :
    s.allocate q r = .ok ((s.setWay q (setOf r.line * 16 + i) { tag := tagOf r.line, sharers := slotsWord [r.pkt.src] }).fetch
      q t (setOf r.line * 16 + i) r r.nextI) := by
  unfold allocate
  dsimp only
  rw [each_meetScan_idle idle, free]
  dsimp only
  rw [way]

end

/-! ### Lines in S, E and M -/

section
variable {s : State} {q w : Nat} {r : Req}

theorem State.serve_orphan (found : (s.slice q).find r.line = some w) (orphan : ((s.slice q).way w).state = 4) : s.serve q r = s.serveOrphan r := by
  unfold serve
  rw [found]
  exact if_pos orphan

theorem State.serve_held (found : (s.slice q).find r.line = some w) (held : ((s.slice q).way w).state ≠ 4) : s.serve q r = s.serveHeld q w r := by
  unfold serve
  rw [found]
  exact if_neg held

/-- Whether an entry records an owner. -/
def DirEntry.owned (e : DirEntry) : Bool := e.state = 2 || e.state = 3

theorem DirEntry.owned_iff (e : DirEntry) : e.owned = true ↔ e.state = 2 ∨ e.state = 3 := by simp [owned]

theorem DirEntry.owned_of_shared {e : DirEntry} (shared : e.state = 1) : e.owned = false := by simp [owned, shared]

/-- The owner's request: its copy comes back, or it has none any more. -/
theorem State.serveHeld_owner (owned : ((s.slice q).way w).owned = true) (owner : ((s.slice q).way w).owner = r.pkt.src) :
    s.serveHeld q w r =
      if r.pkt.opc = oWbDirty then .ok ((s.freeWay q w).toDram { r with act := .write r.pkt.data, cost := 128 })
      else if r.pkt.opc = oEvictClean then .ok ((s.freeWay q w).finish r stOk)
      else (s.freeWay q w).serveI q r :=
  if_pos (by simpa [owner] using (DirEntry.owned_iff _).mp owned)

/-- A read of a line in S, or in E or M of another EID (R116): a grant from S, HOST_LOST for the host that is gone, or a snoop of the owner. -/
def State.serveRead (s : State) (q w : Nat) (r : Req) : Served :=
  let e := (s.slice q).way w
  match (s.slice q).freeTxn with
  | none => .error 4
  | some t =>
    if !e.owned then .ok (s.fetch q t w r 1)
    else if s.gone e.owner then .ok (s.finish r stHostLost)
    else .ok ((s.openTxn q t w { kind := .shareWait, eid := r.pkt.src, cid := r.pkt.cid, req := r, await := [e.owner]
                                 opc := oSnpShare, next := 1 }).snoop q t oSnpShare r.line (some r) r.pkt.cid r.pkt.tc [e.owner])

/-- A request of any other EID, row by row of R116. -/
theorem State.serveHeld_other (other : ((s.slice q).way w).owned = true → ((s.slice q).way w).owner ≠ r.pkt.src) :
    s.serveHeld q w r =
      if r.pkt.opc = oWbDirty then .ok (s.finish r stDenied)
      else if r.pkt.opc = oReclaim then .ok (s.finish r stOk)
      else if r.pkt.opc = oEvictClean then .ok
        ((if ((s.slice q).way w).owned || ((s.slice q).way w).fmt then s
          else s.setWay q w (if (((s.slice q).way w).drop r.pkt.src).sharers = noSharers then {} else ((s.slice q).way w).drop r.pkt.src)).finish
            r stOk)
      else if r.pkt.opc = oRdOnce && !((s.slice q).way w).owned then .ok (s.direct r)
      else if r.pkt.opc = oRdShared || r.pkt.opc = oRdOnce then s.serveRead q w r
      else s.serveInv q w r := by
  unfold serveHeld serveRead
  dsimp only
  generalize (s.slice q).freeTxn = txn
  exact if_neg (by simpa [DirEntry.owned] using other)

section
variable (other : ((s.slice q).way w).owned = true → ((s.slice q).way w).owner ≠ r.pkt.src)
include other

theorem State.serveHeld_wbDirty (opc : r.pkt.opc = oWbDirty) : s.serveHeld q w r = .ok (s.finish r stDenied) := by
  rw [serveHeld_other other, opc]
  rfl

theorem State.serveHeld_reclaim (opc : r.pkt.opc = oReclaim) : s.serveHeld q w r = .ok (s.finish r stOk) := by
  rw [serveHeld_other other, opc]
  rfl

theorem State.serveHeld_evictClean (opc : r.pkt.opc = oEvictClean) : s.serveHeld q w r = .ok
    ((if ((s.slice q).way w).owned || ((s.slice q).way w).fmt then s
      else s.setWay q w (if (((s.slice q).way w).drop r.pkt.src).sharers = noSharers then {} else ((s.slice q).way w).drop r.pkt.src)).finish
        r stOk) := by
  rw [serveHeld_other other, opc]
  rfl

/-- An eviction by no owner, and one of a line with set groups, changes no entry. -/
theorem State.serveHeld_evictClean_kept (opc : r.pkt.opc = oEvictClean)
    (kept : ((s.slice q).way w).owned = true ∨ ((s.slice q).way w).fmt = true) : s.serveHeld q w r = .ok (s.finish r stOk) :=
  (serveHeld_evictClean other opc).trans (by rw [if_pos (Bool.or_eq_true_iff.mpr kept)])

/-- An eviction by a sharer with an exact slot takes the slot. -/
theorem State.serveHeld_evictClean_dropped (opc : r.pkt.opc = oEvictClean) (shared : ((s.slice q).way w).owned = false)
    (exact : ((s.slice q).way w).fmt = false) : s.serveHeld q w r = .ok
      ((s.setWay q w (if (((s.slice q).way w).drop r.pkt.src).sharers = noSharers then {} else ((s.slice q).way w).drop r.pkt.src)).finish
        r stOk) :=
  (serveHeld_evictClean other opc).trans (by rw [shared, exact]; rfl)

theorem State.serveHeld_rdOnce (opc : r.pkt.opc = oRdOnce) (shared : ((s.slice q).way w).owned = false) :
    s.serveHeld q w r = .ok (s.toDram { r with act := .read, cost := 128 }) := by
  rw [serveHeld_other other, shared, opc]
  refine Eq.trans (b := .ok (s.direct r)) rfl ?_
  rw [direct_other (by rw [opc]; decide), directAct, opc]
  rfl

theorem State.serveHeld_read (opc : r.pkt.opc = oRdShared ∨ r.pkt.opc = oRdOnce ∧ ((s.slice q).way w).owned = true) :
    s.serveHeld q w r = s.serveRead q w r := by
  have reads : r.pkt.opc = oRdShared ∨ r.pkt.opc = oRdOnce := opc.imp_right And.left
  have row : r.pkt.opc ≠ oWbDirty ∧ r.pkt.opc ≠ oReclaim ∧ r.pkt.opc ≠ oEvictClean := by
    rcases reads with opc | opc <;> rw [opc] <;> decide
  have once : ¬(r.pkt.opc = oRdOnce ∧ ((s.slice q).way w).owned = false) := by
    rcases opc with opc | ⟨-, owned⟩
    · rw [opc]; exact fun h => absurd h.1 (by decide)
    · simp [owned]
  simp [serveHeld_other other, row, once, reads]

/-- A request that needs every other copy gone. -/
theorem State.serveHeld_inv
    (opc : r.pkt.opc = oRdOwn ∨ r.pkt.opc = oUpgrade ∨ r.pkt.opc = oWrLine ∨ r.pkt.opc = oWrPartial ∨ r.pkt.opc = oAtomic) :
    s.serveHeld q w r = s.serveInv q w r := by
  have row : r.pkt.opc ≠ oWbDirty ∧ r.pkt.opc ≠ oReclaim ∧ r.pkt.opc ≠ oEvictClean ∧ r.pkt.opc ≠ oRdOnce ∧ r.pkt.opc ≠ oRdShared := by
    rcases opc with opc | opc | opc | opc | opc <;> rw [opc] <;> decide
  simp [serveHeld_other other, row]

end

theorem State.serveRead_full (full : (s.slice q).freeTxn = none) : s.serveRead q w r = .error 4 := by
  unfold serveRead
  dsimp only
  rw [full]

section
variable {t : Nat} (free : (s.slice q).freeTxn = some t)
include free

theorem State.serveRead_shared (shared : ((s.slice q).way w).owned = false) : s.serveRead q w r = .ok (s.fetch q t w r 1) := by
  unfold serveRead
  dsimp only
  rw [free]
  exact if_pos (by simp [shared])

theorem State.serveRead_lost (owned : ((s.slice q).way w).owned = true) (gone : s.gone ((s.slice q).way w).owner = true) :
    s.serveRead q w r = .ok (s.finish r stHostLost) := by
  unfold serveRead
  dsimp only
  rw [free]
  exact (if_neg (by simp [owned])).trans (if_pos gone)

theorem State.serveRead_owned (owned : ((s.slice q).way w).owned = true) (here : s.gone ((s.slice q).way w).owner = false) :
    s.serveRead q w r = .ok
      ((s.openTxn q t w { kind := .shareWait, eid := r.pkt.src, cid := r.pkt.cid, req := r, await := [((s.slice q).way w).owner]
                          opc := oSnpShare, next := 1 }).snoop q t oSnpShare r.line (some r) r.pkt.cid r.pkt.tc [((s.slice q).way w).owner]) := by
  unfold serveRead
  dsimp only
  rw [free]
  exact (if_neg (by simp [owned])).trans (if_neg (by simp [here]))

end

/-! ### Invalidating requests (R115) -/

/-- The holders that a request invalidates, and those of them that can answer. -/
def State.invTargets (s : State) (q w : Nat) (r : Req) : List Eid :=
  (s.holders ((s.slice q).way w)).filter fun h => !(r.grants && h == r.pkt.src)
def State.invLive (s : State) (q w : Nat) (r : Req) : List Eid := (s.invTargets q w r).filter fun h => !s.gone h

section
variable (full : (s.slice q).freeTxn = none)
include full

theorem State.serveInv_full (needs : s.invLive q w r ≠ [] ∨ r.grants = true) : s.serveInv q w r = .error 4 := by
  unfold serveInv
  dsimp only
  rw [full]
  exact if_neg (by simpa [invLive, invTargets, imp_iff_not_or] using needs)

theorem State.serveInv_alone (alone : s.invLive q w r = []) (grants : r.grants = false) : s.serveInv q w r = .ok ((s.freeWay q w).direct r) := by
  unfold serveInv
  dsimp only
  rw [full]
  exact if_pos (by simpa [invLive, invTargets, grants] using alone)

end

section
variable {t : Nat} (free : (s.slice q).freeTxn = some t)
include free

theorem State.serveInv_snoops (needs : s.invLive q w r ≠ []) : s.serveInv q w r = .ok
    ((s.openTxn q t w { kind := .invWait, eid := r.pkt.src, cid := r.pkt.cid, req := r, await := s.invLive q w r, opc := oSnpInv
                        next := 3 }).snoop q t oSnpInv r.line (some r) r.pkt.cid r.pkt.tc (s.invLive q w r)) := by
  unfold serveInv
  dsimp only
  rw [free]
  exact if_pos (by simpa [invLive, invTargets] using needs)

theorem State.serveInv_noneLive (alone : s.invLive q w r = []) : s.serveInv q w r =
    if r.pkt.opc = oUpgrade && (!((s.slice q).way w).fmt && ((s.slice q).way w).slots.contains r.pkt.src) && (s.invTargets q w r).isEmpty then
      .ok ((s.openTxn q t w { kind := .grantWait, eid := r.pkt.src, cid := r.pkt.cid, req := r, opc := r.pkt.opc }).grant q t r 3 true 0)
    else .ok (s.invalidated q t w r) := by
  unfold serveInv
  dsimp only
  rw [free]
  exact if_neg (by simpa [invLive, invTargets] using alone)

/-- An UPGRADE of the only sharer is granted at once. -/
theorem State.serveInv_upgrade (alone : s.invTargets q w r = []) (opc : r.pkt.opc = oUpgrade) (exact : ((s.slice q).way w).fmt = false)
    (listed : r.pkt.src ∈ ((s.slice q).way w).slots) : s.serveInv q w r = .ok
      ((s.openTxn q t w { kind := .grantWait, eid := r.pkt.src, cid := r.pkt.cid, req := r, opc := r.pkt.opc }).grant q t r 3 true 0) :=
  (serveInv_noneLive free (by rw [invLive, alone]; rfl)).trans (if_pos (by simp [opc, exact, listed, alone]))

theorem State.serveInv_gone (alone : s.invLive q w r = [])
    (other : r.pkt.opc ≠ oUpgrade ∨ ((s.slice q).way w).fmt = true ∨ r.pkt.src ∉ ((s.slice q).way w).slots ∨ s.invTargets q w r ≠ []) :
    s.serveInv q w r = .ok (s.invalidated q t w r) :=
  (serveInv_noneLive free alone).trans (if_neg (by
    simp only [Bool.and_eq_true, decide_eq_true_eq, Bool.not_eq_true', List.contains_iff_mem, List.isEmpty_iff]
    rintro ⟨⟨opc, exact, listed⟩, none⟩
    simp [opc, exact, listed, none] at other))

end

/-! ### Every holder invalidated -/

theorem State.invalidated_direct {t : Nat} (grants : r.grants = false) :
    s.invalidated q t w r = (((s.dropTxn q t).freeWay q w).direct r).sweep q := if_neg (by simp [grants])

theorem State.invalidated_grants {t : Nat} (grants : r.grants = true) : s.invalidated q t w r =
    (s.setWay q w (if ((s.slice q).way w).mayHold r.pkt.src then { ((s.slice q).way w).only r.pkt.src with state := 1 }
      else { ((s.slice q).way w) with state := 0, fmt := false, sharers := slotsWord [r.pkt.src] })).fetch q t w r 3 := if_pos grants

end

/-! ### Orphaned lines (R119, R134) -/

section
variable {s : State} {r : Req}

theorem State.serveOrphan_blocked (opc : r.pkt.opc = oWrLine ∨ r.pkt.opc = oReclaim) : s.serveOrphan r = .error 5 := if_pos (by simpa using opc)

theorem State.serveOrphan_wbDirty (opc : r.pkt.opc = oWbDirty) : s.serveOrphan r = .ok (s.finish r stDenied) :=
  (if_neg (by rw [opc]; decide)).trans (if_pos opc)

theorem State.serveOrphan_evictClean (opc : r.pkt.opc = oEvictClean) : s.serveOrphan r = .ok (s.finish r stOk) :=
  (if_neg (by rw [opc]; decide)).trans ((if_neg (by rw [opc]; decide)).trans (if_pos opc))

/-- What would read or change the lost data learns of the loss. -/
theorem State.serveOrphan_lost
    (opc : r.pkt.opc = oRdOnce ∨ r.pkt.opc = oRdShared ∨ r.pkt.opc = oRdOwn ∨ r.pkt.opc = oUpgrade ∨ r.pkt.opc = oWrPartial) :
    s.serveOrphan r = .ok (s.finish r stHostLost) := by
  have row : r.pkt.opc ≠ oWrLine ∧ r.pkt.opc ≠ oReclaim ∧ r.pkt.opc ≠ oWbDirty ∧ r.pkt.opc ≠ oEvictClean := by
    rcases opc with opc | opc | opc | opc | opc <;> rw [opc] <;> decide
  simp [serveOrphan, row]

end

/-! ### Answers to snoops (R116) -/

section
variable {s : State} {p : Packet} {d : Option Line} {v : Txn} (txn : (s.slice (tagSlice p.tag)).txn (tagTxn p.tag) = v)
include txn

/-- An answer that is not awaited, or has come already, changes nothing. -/
theorem State.snoopAnswer_stray (stray : p.src ∉ v.await ∨ p.src ∈ v.wbWait) : s.snoopAnswer p d = s := by
  subst txn
  exact if_pos (by simpa using stray)

section
variable (awaited : p.src ∈ v.await) (fresh : p.src ∉ v.wbWait)
include awaited fresh

/-- The owner's answer that announces a WB_DIRTY waits for it. -/
theorem State.snoopAnswer_pending (pending : p.wbPending = true) (bare : d = none)
    (owner : v.owner ((s.slice (tagSlice p.tag)).way v.way) = some p.src) (due : p.src ∉ v.wbDone) :
    s.snoopAnswer p d = s.setTxn (tagSlice p.tag) (tagTxn p.tag) { v with wbWait := p.src :: v.wbWait } := by
  subst txn
  exact (if_neg (by simp [awaited, fresh])).trans (if_pos (by simp [pending, bare, owner, due]))

/-- Any other answer counts, once the data that it brings is written, unless they are to be discarded. -/
theorem State.snoopAnswer_counts (counts : p.wbPending = false ∨ d ≠ none ∨ v.owner ((s.slice (tagSlice p.tag)).way v.way) ≠ some p.src
      ∨ p.src ∈ v.wbDone) : ∃ u : State, s.snoopAnswer p d
        = (u.modSlice (tagSlice p.tag) fun x =>
            { x with txns := tmod {} x.txns (tagTxn p.tag) fun v => { v with await := v.await.filter (· ≠ p.src) } }).settleTxn
              (tagSlice p.tag) (tagTxn p.tag)
      ∧ (d = none ∨ v.discard = true → u = s) ∧ ∀ l, d = some l → v.discard = false → u = s.writeBack v.line v.cid l := by
  subst txn
  refine ⟨_, (if_neg (by simp [awaited, fresh])).trans (if_neg ?counts), ?kept, ?written⟩
  case counts =>
    simp only [Bool.and_eq_true, decide_eq_true_eq, Bool.not_eq_true', Option.isNone_iff_eq_none, List.contains_eq_mem, decide_eq_false_iff_not]
    rintro ⟨⟨⟨pending, bare⟩, owner⟩, due⟩
    simp [pending, bare, owner, due] at counts
  case kept =>
    rintro (rfl | discard)
    · rfl
    · cases d
      · rfl
      · exact if_pos discard
  case written =>
    rintro l rfl discard
    exact if_neg (by simp [discard])

end

end

/-! ### The last answer (R116) -/

section
variable {s : State} {q t : Nat} {v : Txn} (txn : (s.slice q).txn t = v)
include txn

theorem State.settleTxn_waits (await : v.await ≠ []) : s.settleTxn q t = s := by
  subst txn
  exact if_pos (by simpa using await)

section
variable (answered : v.await = [])
include answered

/-- The owner of a line that was to be shared keeps it in S; the reader gets its grant, or its data. -/
theorem State.settleTxn_shareWait (kind : v.kind = .shareWait) :
    let e := (s.slice q).way v.way
    let e' : DirEntry := { e with state := 1, fmt := false, sharers := slotsWord [e.owner] }
    s.settleTxn q t =
      if v.aborted then (s.settle q t v.way e').sweep q
      else if v.req.pkt.opc = oRdShared then ((s.dropTxn q t).setWay q v.way { e' with state := e.state, opn := false }).fetch q t v.way v.req 1
      else ((s.settle q t v.way e').direct v.req).sweep q := by
  subst txn
  unfold settleTxn
  dsimp only
  rw [answered, kind]
  rfl

/-- With every copy invalidated the entry is freed, or the request goes on. -/
theorem State.settleTxn_invWait (kind : v.kind = .invWait) :
    let e := (s.slice q).way v.way
    s.settleTxn q t =
      if v.after then ((s.dropTxn q t).freeWay q v.way).sweep q
      else if v.aborted then
        (s.settle q t v.way (if v.req.grants && e.mayHold v.req.pkt.src then e.only v.req.pkt.src else {})).sweep q
      else s.invalidated q t v.way v.req := by
  subst txn
  unfold settleTxn
  dsimp only
  rw [answered, kind]
  rfl

theorem State.settleTxn_evicted (kind : v.kind = .evictWait) (parked : v.parked = none) :
    s.settleTxn q t = ((s.dropTxn q t).freeWay q v.way).sweep q := by
  subst txn
  unfold settleTxn
  dsimp only
  rw [answered, kind, parked]
  rfl

/-- The request that an eviction parked is served on what its line has become. -/
theorem State.settleTxn_parked {r : Req} (kind : v.kind = .evictWait) (parked : v.parked = some r) :
    s.settleTxn q t = (((s.dropTxn q t).freeWay q v.way).serveParked q r).sweep q := by
  subst txn
  unfold settleTxn
  dsimp only
  rw [answered, kind, parked]
  rfl

end

end

/-! ### The statement -/

section
variable {s : State} {r : Req}

/-- A request that is no atomic placed at its requester is marked as none already. -/
theorem Req.atHome (home : r.atReq = false) : { r with atReq := false } = r := home ▸ rfl

theorem Req.grants_of_noCaching (caching : isCaching r.pkt.opc = false) (home : r.atReq = false) : r.grants = false := by
  simp [Req.grants, caching, home]

/-- A request that reads no predictor. -/
theorem State.dirRequest_plain (agent : isCaching r.pkt.opc = true → s.isAgent r.pkt.src = true)
    (plain : r.org ≠ .fab ∨ r.pkt.opc ≠ oAtomic ∨ s.isAgent r.pkt.src = false) (home : r.atReq = false)
    (idle : (s.slice (lineQuad r.line)).scanning = false) (unreserved : ∀ v ∈ (s.slice (lineQuad r.line)).resv, v.line ≠ r.line)
    (shut : ∀ w, (s.slice (lineQuad r.line)).find r.line = some w → ((s.slice (lineQuad r.line)).way w).opn = false) :
    s.dirRequest r = s.orNack (lineQuad r.line) r (s.serve (lineQuad r.line) r) := by
  have placed : (if r.org = .fab && r.pkt.opc = oAtomic && s.isAgent r.pkt.src then s.predict (lineQuad r.line) r else (false, s)) = (false, s) :=
    if_neg (by simp only [Bool.and_eq_true, decide_eq_true_eq, and_assoc, not_and_or, Bool.not_eq_true]; exact plain)
  have served := dirRequest_serves agent placed idle unreserved shut
  rwa [Req.atHome home] at served

/-- An agent's atomic, placed by the predictor. -/
theorem State.dirRequest_placed (fab : r.org = .fab) (opc : r.pkt.opc = oAtomic) (agent : s.isAgent r.pkt.src = true)
    (idle : (s.slice (lineQuad r.line)).scanning = false) (unreserved : ∀ v ∈ (s.slice (lineQuad r.line)).resv, v.line ≠ r.line)
    (shut : ∀ w, (s.slice (lineQuad r.line)).find r.line = some w → ((s.slice (lineQuad r.line)).way w).opn = false) :
    s.dirRequest r = (s.predict (lineQuad r.line) r).2.orNack (lineQuad r.line) { r with atReq := (s.predict (lineQuad r.line) r).1 }
      ((s.predict (lineQuad r.line) r).2.serve (lineQuad r.line) { r with atReq := (s.predict (lineQuad r.line) r).1 }) := by
  obtain ⟨pred, same⟩ := s.predict_slice (lineQuad r.line) r
  exact dirRequest_serves (fun _ => agent) (if_pos (by simp [fab, opc, agent])) (by rw [same]; exact idle) (by rw [same]; exact unreserved)
    (by rw [same]; exact shut)

end

/-- Settles O21: each row of R116 is one guard of the request's way to its entry, and each end of a wait is one guard of the transaction. -/
theorem directoryRequests : Obligations.DirectoryRequests := by
  unfold Obligations.DirectoryRequests
  refine ⟨?plain, ?caching, ?served, ?held, ?owner, ?invalidating, ?invalidated, ?answers, ?settled⟩
  case plain =>
    intro r s caching atomic idle unreserved home
    have grants := Req.grants_of_noCaching caching home
    have plain : r.org ≠ .fab ∨ r.pkt.opc ≠ oAtomic ∨ s.isAgent r.pkt.src = false := .inr (not_or_of_imp atomic)
    have served := State.dirRequest_plain (s := s) (by simp [caching]) plain home idle unreserved
    refine ⟨fun absent => ?_, fun w found shut held => ?_⟩
    · have row := served (by simp [absent])
      rw [State.serve_absent absent] at row
      refine ⟨fun opc => ?_, fun opc => ?_, fun opc => ?_, fun opc => ?_⟩
      · rw [row, State.serveI_wbDirty grants opc]; rfl
      · rw [row, State.serveI_evictClean grants opc]; rfl
      · rw [row, State.serveI_direct grants (by rw [opc]; decide) (by rw [opc]; decide), State.direct_reclaim opc]; rfl
      · have direct : r.pkt.opc ≠ oWbDirty ∧ r.pkt.opc ≠ oEvictClean ∧ r.pkt.opc ≠ oReclaim := by
          rcases opc with opc | opc | opc | opc <;> rw [opc] <;> decide
        rw [row, State.serveI_direct grants direct.1 direct.2.1, State.direct_other direct.2.2]; rfl
    · have row := served fun w' found' => by rwa [Option.some.inj (found'.symm.trans found)]
      have owned := (DirEntry.owned_iff _).mpr held
      rw [State.serve_held found (by rcases held with state | state <;> rw [state] <;> decide)] at row
      refine ⟨fun opc owner => ?_, fun opc owner => ?_, fun opc owner => ?_⟩
      · rw [row, State.serveHeld_owner owned owner, if_pos opc]; rfl
      · rw [row, State.serveHeld_wbDirty (fun _ => owner) opc]; rfl
      · rw [row, State.serveHeld_owner owned owner, if_neg (by rw [opc]; decide), if_pos opc]; rfl
  case caching =>
    intro r s caching home
    refine ⟨State.dirRequest_noAgent caching, fun agent idle absent unreserved => ?_⟩
    have plain : r.org ≠ .fab ∨ r.pkt.opc ≠ oAtomic ∨ s.isAgent r.pkt.src = false :=
      .inr (.inl fun opc => absurd (opc ▸ caching) (by decide))
    have row := State.dirRequest_plain (fun _ => agent) plain home idle unreserved (by simp [absent])
    rw [State.serve_absent absent, State.serveI_grants (by simp [Req.grants, caching])] at row
    exact ⟨fun full => by rw [row, State.allocate_full idle full]; rfl, fun t i free way => by rw [row, State.allocate_free idle free way]; rfl⟩
  case served =>
    intro r s agent home idle unreserved shut q
    refine ⟨fun plain => ?_, fun fab opc isAgent => ?_⟩
    · have row := State.dirRequest_plain agent plain home idle unreserved shut
      exact ⟨fun u served => by rw [row, served]; rfl, fun bo retry => by rw [row, retry]; rfl⟩
    · have row := State.dirRequest_placed fab opc isAgent idle unreserved shut
      exact ⟨fun u served => by rw [row, served]; rfl, fun bo retry => by rw [row, retry]; rfl⟩
  case held =>
    intro r s q w found atomic home x e
    refine ⟨fun shared => ?shared, fun state owner => ?owned, fun orphan => ?orphan⟩
    case shared =>
      have row := State.serve_held found (show e.state ≠ 4 by rw [shared]; decide)
      have noOwner := DirEntry.owned_of_shared shared
      have other : e.owned = true → e.owner ≠ r.pkt.src := by simp [noOwner]
      rw [row]
      refine ⟨State.serveHeld_wbDirty other, State.serveHeld_reclaim other,
        fun opc coarse => State.serveHeld_evictClean_kept other opc (.inr coarse),
        fun opc => State.serveHeld_evictClean_dropped other opc noOwner, fun opc => State.serveHeld_rdOnce other opc noOwner, fun opc full => ?_,
        fun t opc free => ?_⟩
      · rw [State.serveHeld_read other (.inl opc), State.serveRead_full full]
      · rw [State.serveHeld_read other (.inl opc), State.serveRead_shared free noOwner]; rfl
    case owned =>
      have row := State.serve_held found (show e.state ≠ 4 by rcases state with state | state <;> rw [state] <;> decide)
      have owned := (DirEntry.owned_iff e).mpr state
      have reads (opc : r.pkt.opc = oRdShared ∨ r.pkt.opc = oRdOnce) : s.serveHeld q w r = s.serveRead q w r :=
        State.serveHeld_read (fun _ => owner) (opc.imp_right fun opc => ⟨opc, owned⟩)
      rw [row]
      refine ⟨State.serveHeld_wbDirty fun _ => owner, fun opc => ?_, fun opc full => ?_, fun t opc free gone => ?_, fun t opc free here => ?_⟩
      · rcases opc with opc | opc
        · exact State.serveHeld_reclaim (fun _ => owner) opc
        · exact State.serveHeld_evictClean_kept (fun _ => owner) opc (.inl owned)
      · rw [reads opc, State.serveRead_full full]
      · rw [reads opc, State.serveRead_lost free owned gone]
      · rw [reads opc, State.serveRead_owned free owned here]
    case orphan =>
      rw [State.serve_orphan found orphan]
      exact ⟨State.serveOrphan_blocked, State.serveOrphan_wbDirty, State.serveOrphan_evictClean, State.serveOrphan_lost⟩
  case owner =>
    intro r s q w found state owner wb evict
    rw [State.serve_held found (by rcases state with state | state <;> rw [state] <;> decide),
      State.serveHeld_owner ((DirEntry.owned_iff _).mpr state) owner, if_neg wb, if_neg evict]
  case invalidating =>
    intro r s q w found opc entry x e targets live
    have held : e.state ≠ 4 := by rcases entry with state | ⟨state | state, -⟩ <;> rw [state] <;> decide
    have other : e.owned = true → e.owner ≠ r.pkt.src := by
      rcases entry with shared | ⟨-, owner⟩
      · exact fun owned => absurd owned (ne_true_of_eq_false (DirEntry.owned_of_shared shared))
      · exact fun _ => owner
    rw [State.serve_held found held, State.serveHeld_inv other opc]
    exact ⟨State.serveInv_full, State.serveInv_alone, fun t => State.serveInv_snoops, fun t => State.serveInv_upgrade,
      fun t => State.serveInv_gone⟩
  case invalidated =>
    intro r s q t w
    exact ⟨State.invalidated_direct, fun grants may => by rw [State.invalidated_grants grants, if_pos may],
      fun grants may => by rw [State.invalidated_grants grants, if_neg (by simp [may])]⟩
  case answers =>
    intro p d s q t v e
    exact ⟨State.snoopAnswer_stray rfl, fun awaited fresh =>
      ⟨State.snoopAnswer_pending rfl awaited fresh, State.snoopAnswer_counts rfl awaited fresh⟩⟩
  case settled =>
    intro s q t v e e'
    refine ⟨State.settleTxn_waits rfl, fun answered kind => ?share, fun answered kind => ?inv, fun answered kind => ?evict⟩
    case share =>
      have row := State.settleTxn_shareWait rfl answered kind
      exact ⟨fun aborted => row.trans (if_pos aborted), fun live opc => row.trans ((if_neg (ne_true_of_eq_false live)).trans (if_pos opc)),
        fun live opc => row.trans ((if_neg (ne_true_of_eq_false live)).trans (if_neg opc))⟩
    case inv =>
      have row := State.settleTxn_invWait rfl answered kind
      refine ⟨fun after => row.trans (if_pos after),
        fun before live => row.trans ((if_neg (ne_true_of_eq_false before)).trans (if_neg (ne_true_of_eq_false live))),
        fun before aborted none => ?_, fun before aborted grants may => ?_⟩
      · have freed : ¬(v.req.grants && e.mayHold v.req.pkt.src) = true := by simpa [imp_iff_not_or] using none
        rw [row, if_neg (ne_true_of_eq_false before), if_pos aborted, if_neg freed]
      · rw [row, if_neg (ne_true_of_eq_false before), if_pos aborted, if_pos (Bool.and_eq_true_iff.mpr ⟨grants, may⟩)]
    case evict => exact ⟨State.settleTxn_evicted rfl answered kind, fun r => State.settleTxn_parked rfl answered kind⟩

end Sys2Proof.Machine

namespace Sys2Proof.Machine
open Sys2Proof

/-! ## Fault records (R167, R168, R490) -/

section
variable {p : Fin 64} {s : State}

theorem execFaultRecordPost_full (full : 256 ≤ (s.part p.val).fq.length) : execFaultRecordPost p s = .next s :=
  if_pos (by simp [full])

section
/-! A record is posted while the queue has a place and the partition is not one that discards its records (R168). -/
variable (room : (s.part p.val).fq.length < 256) (kept : s.discards p.val = false)
include room kept

theorem faultQueue_open : ¬(decide ((s.part p.val).fq.length ≥ 256) || s.discards p.val) = true := by
  simp [kept, room]

theorem execFaultRecordPost_overflow {r : FaultRec} {l : List FaultRec} (overflow : (s.part p.val).overflow = r :: l) :
    execFaultRecordPost p s = .next ((s.setPart p.val { s.part p.val with overflow := l }).postFault p.val r) := by
  unfold execFaultRecordPost
  dsimp only
  rw [if_neg (faultQueue_open room kept), overflow]

theorem execFaultRecordPost_tile {m n : Nat} {o : List (Nat × Nat)} {b : Nat × FaultRec} (overflow : (s.part p.val).overflow = [])
    (first : s.pendOf p.val = (m, n) :: o) (pending : (s.tile n).pend = some b) :
    execFaultRecordPost p s = .next ((s.postFault p.val b.2).unpark n) := by
  unfold execFaultRecordPost
  dsimp only
  rw [if_neg (faultQueue_open room kept), overflow, first]
  dsimp only
  rw [pending]

theorem execFaultRecordPost_held {r : FaultRec} {l : List FaultRec} (overflow : (s.part p.val).overflow = []) (tiles : s.pendOf p.val = [])
    (held : (s.part p.val).held = r :: l) :
    execFaultRecordPost p s = .next ((s.setPart p.val { s.part p.val with held := l }).postFault p.val r) := by
  unfold execFaultRecordPost
  dsimp only
  rw [if_neg (faultQueue_open room kept), overflow, tiles, held]

end

theorem execPendingRecordTimeout_moves {t : Fin 32} {k : Nat} {r : FaultRec} (pending : (s.tile t.val).pend = some (k, r))
    (late : (s.tile t.val).pendAt + 1000000 ≤ s.now) (up : s.stewardUp = true) (room : (s.part (cidPart r.cid)).overflow.length < 1024) :
    execPendingRecordTimeout t s
      = .next (((s.modPart (cidPart r.cid) fun x => { x with overflow := x.overflow ++ [r] }).bump (tileBlk t.val) 7).unpark t.val) := by
  unfold execPendingRecordTimeout
  dsimp only
  rw [pending]
  exact if_pos (by simp [late, up, room])

end

/-- Settles O16: the first of the three sources that holds a record gives the one that is posted, and a record that waited 1 ms moves. -/
theorem faultRecords : Obligations.FaultRecords := by
  unfold Obligations.FaultRecords
  refine ⟨?overflow, ?tile, ?held, fun p s => execFaultRecordPost_full, ?timeout⟩
  case overflow => exact fun p r l s room kept overflow => execFaultRecordPost_overflow room kept overflow
  case tile => exact fun p k n o b s room kept overflow first pending => execFaultRecordPost_tile room kept overflow first pending
  case held => exact fun p r l s room kept overflow tiles held => execFaultRecordPost_held room kept overflow tiles held
  case timeout => exact fun t k r s pending late up room => execPendingRecordTimeout_moves pending late up room
end Sys2Proof.Machine

namespace Sys2Proof.Machine
open Sys2Proof

/-! ## Jobs in the engine, and the landing windows -/

/-! ### Dispatch and blocks (R156, R159, R519) -/

/-- The capper leaves the issue of scheduled operations alone until its last step, and takes that of dynamic jobs first. -/
theorem Pwr.issue_sched (p : Pwr) (m : Nat) : p.issue true m = if p.schedThr = 16 then 0 else m := by
  simp [Pwr.issue]

theorem Pwr.issue_dynamic (p : Pwr) (m : Nat) : p.issue false m = if p.schedThr ≠ 0 ∨ (p.level = 1 ∧ p.step = 15) then 0 else m := by
  simp [Pwr.issue]

section
variable {t : Fin 32} {k i : Nat} {s : State}

theorem execDispatch_runs (free : s.engineFree t.val = true) (selected : s.selects t.val = some k) :
    execDispatch t s = .next (s.runJob t.val k) := by
  unfold execDispatch
  rw [if_pos free, selected]

theorem execDispatch_idle (idle : s.engineFree t.val = false ∨ s.selects t.val = none) : execDispatch t s = .next s := by
  unfold execDispatch
  rcases idle with busy | none
  · exact if_neg (by simp [busy])
  · rw [none]
    exact ite_self _

theorem execBlockEnd_sched {e p : Nat} (runs : (s.tile t.val).srun.isSome = true) :
    execBlockEnd t e p s = .next (s.schedBlock t.val (s.pwr.issue true e) (s.pwr.issue true p)) :=
  if_pos runs

theorem execBlockEnd_job {e p : Nat} (unscheduled : (s.tile t.val).srun = none) (running : (s.tile t.val).running = some k) :
    execBlockEnd t e p s
      = .next (((s.jobBlock t.val k (s.pwr.issue false e) (s.pwr.issue false p)).startDue t.val).invalCheck) := by
  unfold execBlockEnd
  dsimp only
  rw [if_neg (by simp [unscheduled]), running]

/-! ### The completion catcher and the retries (R161, R165) -/

theorem execEngineAccessComplete_sched {r : SRun} {d : EDone} {l : List EDone} (runs : (s.tile t.val).srun = some r)
    (completed : r.eng.done = d :: l) : execEngineAccessComplete t s = .next (s.opDone t.val r d) := by
  unfold execEngineAccessComplete
  simp only [runs, completed, Option.bind_some, List.head?_cons, Option.map_some]

theorem execEngineAccessComplete_job {d : EDone} {l : List EDone} (unscheduled : (s.tile t.val).srun = none)
    (first : (s.tile t.val).slots.find? (fun k => !((s.tile t.val).job k).eng.done.isEmpty) = some k)
    (completed : ((s.tile t.val).job k).eng.done = d :: l) : execEngineAccessComplete t s = .next (s.jobDone t.val k d) := by
  unfold execEngineAccessComplete
  simp only [unscheduled, Option.bind_none, first, completed, List.head?_cons]

theorem execEngineRetryReissue_capped (capped : s.pwr.issue (s.tile t.val).srun.isSome 1 = 0) : execEngineRetryReissue t s = .next s :=
  if_pos capped

theorem execEngineRetryReissue_sched {r : SRun} {a : EAcc} {d : Desc} {u : State} (runs : (s.tile t.val).srun = some r)
    (sound : r.eng.failed = false) (issues : s.pwr.issue true 1 ≠ 0)
    (due : r.eng.retry.find? (fun a => decide (a.readyAt ≤ s.now) && r.mayIssue a) = some a) (desc : r.ent.descOf a.slot a.write = some d)
    (sent : (s.modRun t.val fun e => { e with retry := e.retry.erase a }).issueSched t.val r d a = (u, true)) :
    execEngineRetryReissue t s = .next u := by
  unfold execEngineRetryReissue
  dsimp only
  rw [if_neg (by rwa [runs]), runs]
  dsimp only
  rw [if_neg (by simp [sound]), due]
  dsimp only
  rw [desc]
  dsimp only
  rw [sent]
  rfl

theorem execEngineRetryReissue_job {a : EAcc} {u : State} (unscheduled : (s.tile t.val).srun = none)
    (running : (s.tile t.val).running = some k) (issues : s.pwr.issue false 1 ≠ 0) (active : (s.job t.val k).st = .running)
    (due : (s.job t.val k).eng.retry.find? (fun a => decide (a.readyAt ≤ s.now)) = some a)
    (sent : (s.modJob t.val k fun j => { j with eng := { j.eng with retry := j.eng.retry.erase a } }).issueJob t.val k a = .sent u) :
    execEngineRetryReissue t s = .next u := by
  unfold execEngineRetryReissue
  simp only [Bool.and_true]
  rw [if_neg (by rwa [unscheduled]), unscheduled, running]
  dsimp only
  rw [if_neg (not_not.mpr active), due]
  dsimp only
  rw [sent]

/-! ### Quantum and budget (R157, R164) -/

theorem execBudgetExhausted_marks (running : (s.tile t.val).running = some k) (limited : (s.job t.val k).budget ≠ 0)
    (spent : (s.job t.val k).budget * 1000 ≤ (s.job t.val k).engNs + (s.hubNs - (s.job t.val k).eng.blockFt))
    (unmarked : (s.job t.val k).mark = none) :
    execBudgetExhausted t s = .next (s.modJob t.val k fun j => { j with mark := some jcBudget }) := by
  unfold execBudgetExhausted
  dsimp only
  rw [running]
  exact if_pos (by simp [limited, State.blockFtNs, spent, unmarked])

section
variable (running : (s.tile t.val).running = some k) (spent : 1000000 ≤ (s.job t.val k).quantNs + (s.now - (s.job t.val k).eng.blockAt))
include running

theorem State.askStop_running (c : StopCause) : s.askStop t.val c = s.modJob t.val k fun j =>
    if j.st = .running then { j with st := .stopping, stop := c } else if c = .quantum then { j with quantum := true } else j := by
  unfold askStop
  rw [running]

include spent

/-- Once the quantum is spent, another partition's candidate decides whether the job stops. -/
theorem execQuantumExpiry_spent : execQuantumExpiry t s = .next
    (if s.othersWait t.val (s.job t.val k).part (s.candidates t.val) then s.askStop t.val .quantum
      else (s.time (tileBlk t.val) 0 (s.blockNs (s.job t.val k).eng)).modJob t.val k fun j =>
        { j with quantNs := 0, engNs := j.engNs + s.blockFtNs (s.job t.val k).eng
                 eng := { j.eng with blockAt := s.now, blockFt := s.hubNs } }) := by
  unfold execQuantumExpiry
  dsimp only
  rw [running]
  exact (if_neg (Nat.not_lt.mpr spent)).trans (apply_ite _ _ _ _).symm

theorem execQuantumExpiry_stops (candidate : i ∈ s.candidates t.val)
    (other : cidPart (s.job t.val i).cid ≠ cidPart (s.job t.val k).cid) :
    execQuantumExpiry t s = .next (s.modJob t.val k fun j =>
      if j.st = .running then { j with st := .stopping, stop := .quantum } else { j with quantum := true }) := by
  have waits : s.othersWait t.val (s.job t.val k).part (s.candidates t.val) = true :=
    List.any_eq_true.mpr ⟨i, candidate, decide_eq_true other⟩
  rw [execQuantumExpiry_spent running spent, if_pos waits, State.askStop_running running]
  rfl

theorem execQuantumExpiry_restarts
    (alone : ∀ i ∈ s.candidates t.val, cidPart (s.job t.val i).cid = cidPart (s.job t.val k).cid) :
    execQuantumExpiry t s = .next
      (let d := s.now - (s.job t.val k).eng.blockAt
       (s.time (tileBlk t.val) 0 d).modJob t.val k fun j =>
         { j with quantNs := 0, engNs := j.engNs + (s.hubNs - (s.job t.val k).eng.blockFt)
                  eng := { j.eng with blockAt := s.now, blockFt := s.hubNs } }) := by
  have noneWaits : ¬s.othersWait t.val (s.job t.val k).part (s.candidates t.val) = true := by
    simp only [State.othersWait, List.any_eq_true, decide_eq_true_eq, not_exists, not_and, not_not]
    exact alone
  rw [execQuantumExpiry_spent running spent, if_neg noneWaits]
  rfl

end

/-! ### Landing windows (R225, R228) -/

theorem execLandingAbsorb_empty (empty : (s.tile t.val).lands = []) : execLandingAbsorb t s = .next s := by
  unfold execLandingAbsorb
  rw [empty]

theorem execLandingAbsorb_first {x : Landed} {l : List Landed} (queued : (s.tile t.val).lands = x :: l) :
    execLandingAbsorb t s = .next ((s.modTile t.val fun y => { y with lands := l }).absorbOne t.val x.win x.req) := by
  unfold execLandingAbsorb
  rw [queued]

theorem execChunkReleaseDone_drops {w : Fin 16} (valid : (s.land (16 * t.val + w.val)).v = true)
    (draining : (s.land (16 * t.val + w.val)).draining = true) (merged : tget 0 (s.tile t.val).consumed w.val = 2048) :
    execChunkReleaseDone t w s = .next
      ((((s.bump (stageBlk (t.val / 8)) 1).dropWin t.val w.val).replaceChunk t.val (s.land (16 * t.val + w.val)).ext
        (s.land (16 * t.val + w.val)).chunk).placeLands) :=
  if_pos (by simp [valid, draining, merged])

end

/-! ### The combine unit (R223, R224) -/

section
variable {s : State} {r : Req} {t w : Nat}

theorem State.combOk_of_unset {x : Ext} {p : Packet} (unset : (s.comb x.protRef.toNat).valid = false ∨ (s.comb x.protRef.toNat).clearing = true) :
    s.combOk x p = false := by
  unfold combOk
  rcases unset with h | h <;> simp [h]

theorem State.combine_denied (refused : s.combOk (s.ext r.ext) r.pkt = false) : s.combine r = s.finish r stDenied :=
  if_pos (by simp [refused])

section
variable (taken : s.combOk (s.ext r.ext) r.pkt = true)
include taken

theorem State.combine_read (read : r.pkt.opc = oRdOnce) : s.combine r = s.toDram { r with act := .combRead, cost := 128 } :=
  (if_neg (by simp [taken])).trans (if_pos read)

theorem State.combine_landing (write : r.pkt.opc ≠ oRdOnce)
    (lands : s.landing r.ext (s.comb (s.ext r.ext).protRef.toNat) r.pkt = some (t, w)) :
    s.combine r = s.modTile t fun y => { y with lands := y.lands ++ [{ win := w, req := r }] } := by
  unfold combine
  dsimp only
  rw [if_neg (by simp [taken]), if_neg write, lands]

theorem State.combine_dram (write : r.pkt.opc ≠ oRdOnce)
    (outside : s.landing r.ext (s.comb (s.ext r.ext).protRef.toNat) r.pkt = none) :
    s.combine r = (s.lateCount r.ext (s.comb (s.ext r.ext).protRef.toNat) r.pkt).dramPath r (s.comb (s.ext r.ext).protRef.toNat) := by
  unfold combine
  dsimp only
  rw [if_neg (by simp [taken]), if_neg write, outside]

end

end

/-- Settles O29: each row of the engine is one guard, and the combine unit sends a request where its opcode and the landing directory say. -/
theorem engineRows : Obligations.EngineRows := by
  unfold Obligations.EngineRows
  refine ⟨fun t k s => execDispatch_runs, fun t s => execDispatch_idle, fun t e p s => execBlockEnd_sched, fun t e p k s => execBlockEnd_job,
    fun t r d l s => execEngineAccessComplete_sched, fun t k d l s => execEngineAccessComplete_job,
    fun t r a d s u => execEngineRetryReissue_sched, fun t k a s u => execEngineRetryReissue_job, fun t s => execEngineRetryReissue_capped,
    fun t k s => execBudgetExhausted_marks, fun t k i s => execQuantumExpiry_stops, fun t k s => execQuantumExpiry_restarts,
    fun p m => ⟨p.issue_sched m, p.issue_dynamic m⟩, fun t x l s => execLandingAbsorb_first, fun t s => execLandingAbsorb_empty,
    fun r s => ⟨State.combine_denied, State.combOk_of_unset, State.combine_read, fun t w => State.combine_landing, State.combine_dram⟩,
    fun t w s => execChunkReleaseDone_drops⟩

end Sys2Proof.Machine

namespace Sys2Proof.Machine
open Sys2Proof

/-! ## Job and combine commands -/

theorem mem_of_least {key : Nat → Nat} {l : List Nat} {n : Nat} (h : least key l = some n) : n ∈ l := by
  induction l generalizing n with
  | nil => cases h
  | cons k r ih =>
    unfold least at h
    split at h
    next => exact Option.some_inj.mp h ▸ List.mem_cons_self
    next b tail =>
      split at h
      next => exact List.mem_cons_of_mem _ (Option.some_inj.mp h ▸ ih tail)
      next => exact Option.some_inj.mp h ▸ List.mem_cons_self

section
variable {u : State} {c : Cmd} {a : Nat}

/-! ### Jobs (R149 to R152, R169) -/

/-- The range entries that a descriptor holds itself (R150). -/
def inlineRanges (a : Nat) : List Nat := (List.range (arg a 16 2)).map fun i => arg a (32 + 16 * i) 16

/-- The job that a descriptor without a range list and without a parameter block makes of a slot of a tile. -/
def inlineJob (a : Nat) (t : Tile) (k : Nat) : Job :=
  { st := .queued, inc := (t.job k).inc + 1, cid := BitVec.ofNat 16 (arg a 0 2), flags := BitVec.ofNat 8 (arg a 2 1)
    tag := BitVec.ofNat 32 (arg a 4 4), seed := BitVec.ofNat 64 (arg a 8 8), nstage := arg a 18 1, budget := arg a 20 4, rlist := false
    opblk := BitVec.ofNat 256 (arg a 96 32), ranges := (inlineRanges a).map rngOf, param := 0
    todo := ((inlineRanges a).map rngOf).map fun r => (r.pva, r.len.toNat, r.acc), order := t.nextOrder }

/-- The lowest FREE slot of a tile. -/
def Tile.freeSlot (t : Tile) : Nat := ((List.range 64).find? fun k => (t.job k).st == .free).getD 0

/-- The tiles that can take a descriptor's job when its ranges are inline. -/
def State.inlineTiles (s : State) (a : Nat) : List Nat := (s.tilesFor (arg a 2 1) (arg a 3 1)).filter fun n => s.takes (arg a 0 2 / 1024) 0 n

theorem State.place_inline {n : Nat} (inline : (arg a 2 1).testBit 3 = false)
    (best : least (fun n => (u.tile n).slots.length) (u.inlineTiles a) = some n) :
    u.place a ((inlineRanges a).map rngOf) 0 =
      let t := u.tile n
      let j := inlineJob a t t.freeSlot
      done (u.setTile n { t.setJob t.freeSlot j with nextOrder := t.nextOrder + 1 }) (jobId n t.freeSlot j) := by
  unfold place
  dsimp only
  rw [inline]
  unfold inlineTiles at best
  simp only [Bool.false_eq_true, if_false]
  rw [best]
  rfl

theorem jobSubmit_places (opened : (u.part (arg a 0 2 / 1024)).state = 2) (active : (u.ctx (arg a 0 2)).state = 2)
    (inline : (arg a 2 1).testBit 3 = false) (hasRange : arg a 16 2 ≠ 0) (ranges : arg a 16 2 ≤ 4) (hasStage : arg a 18 1 ≠ 0)
    (stages : arg a 18 1 ≤ 4) (static : opStatic (arg a 96 32) (arg a 18 1) = true)
    (entries : ∀ i, i < arg a 16 2 → rngOk (arg a (32 + 16 * i) 16) = true) (block : blockOk (arg a 96 32) (arg a 18 1) 0 = true)
    (noParam : bitsOf (arg a 96 32) 192 64 = 0) (op : opOk (arg a 96 32) (arg a 18 1) 0 ((inlineRanges a).map rngOf) = true)
    (named : u.tilesFor (arg a 2 1) (arg a 3 1) ≠ []) : jobSubmit u c a = u.place a ((inlineRanges a).map rngOf) 0 := by
  have entries' : ((List.range (arg a 16 2)).map fun i => arg a (32 + 16 * i) 16).all rngOk = true := by simpa using entries
  unfold inlineRanges at op
  unfold jobSubmit
  dsimp only
  rw [if_neg (by simp [opened, active]), if_neg (by simp [inline, hasRange, hasStage, static, entries', ranges, stages]),
    if_neg (by simp [block]), if_neg (by simpa using named), if_neg (by simp [inline]), if_neg (by simp [entries']), if_pos noParam, if_pos op]
  rfl

/-- A cancelled job that is FREE at once leaves nothing to wait for. -/
theorem jobCancel_cancels {n k inc : Nat} (hn : n = bitsOf (arg a 0 4) 27 5) (hk : k = bitsOf (arg a 0 4) 21 6)
    (hi : inc = bitsOf (arg a 0 4) 0 21) (used : (u.job n k).st ≠ .free) (going : (u.job n k).st ≠ .ending)
    (same : (u.job n k).inc.toNat = inc) (own : ∀ p, c.mb.part = some p → cidPart (u.job n k).cid = p.val) :
    jobCancel u c a =
      let v := (u.cancelJob n k jcCancelled).invalCheck
      await v (if (v.job n k).st = .free then [] else [.job n k inc]) := by
  have permitted : ¬(c.mb.part.any fun p => (u.job n k).part ≠ p.val) = true := by
    simp only [Option.any_eq_true, decide_eq_true_eq, not_exists, not_and, not_not]
    exact own
  subst hn hk hi
  unfold jobCancel
  dsimp only
  rw [if_neg (by simp [used, same]), if_neg permitted, if_neg going]
  split <;> rfl

/-! ### Combining (R221, R226, R228) -/

theorem combineSetup_fills (live : u.live (arg a 0 3) = true) (combines : (u.ext (xhIdx (arg a 0 3))).combine = true)
    (noResident : (u.combOf (xhIdx (arg a 0 3))).resident = 0) (idle : (u.combOf (xhIdx (arg a 0 3))).clearing = false)
    (session : u.sessOk (xhIdx (arg a 0 3)) = true) (fmt : combFmt (arg a 4 1) = true) (anchor : arg a 5 1 < 0x7F) :
    combineSetup u c a = u.zeroFill (xhIdx (arg a 0 3)) fun r =>
      { r with fmt := BitVec.ofNat 5 (arg a 4 1), anchor := BitVec.ofNat 7 (arg a 5 1), valid := false } := by
  unfold combineSetup
  dsimp only
  rw [if_neg (by simp [live, combines, noResident, idle, session]), if_neg (by simp [fmt, anchor])]

theorem combineClear_fills (live : u.live (arg a 0 3) = true) (combines : (u.ext (xhIdx (arg a 0 3))).combine = true)
    (valid : (u.combOf (xhIdx (arg a 0 3))).valid = true) (idle : (u.combOf (xhIdx (arg a 0 3))).clearing = false)
    (noResident : (u.combOf (xhIdx (arg a 0 3))).resident = 0) : combineClear u c a = u.zeroFill (xhIdx (arg a 0 3)) fun r => r :=
  if_neg (by simp [live, combines, valid, idle, noResident])

theorem combineReside_places (live : u.live (arg a 0 3) = true) (combines : (u.ext (xhIdx (arg a 0 3))).combine = true)
    (valid : (u.combOf (xhIdx (arg a 0 3))).valid = true) (idle : (u.combOf (xhIdx (arg a 0 3))).clearing = false)
    (chunks : u.chunksOk (xhIdx (arg a 0 3)) (arg a 4 4) (arg a 8 4) = true)
    (absent : ∀ k, k < arg a 8 4 → u.isResident (xhIdx (arg a 0 3)) (arg a 4 4 + k) = false)
    (room : (u.placeChunks (xhIdx (arg a 0 3)) ((List.range (arg a 8 4)).map (arg a 4 4 + ·))).isSome = true) :
    combineReside u c a = done ((u.placeChunks (xhIdx (arg a 0 3)) ((List.range (arg a 8 4)).map (arg a 4 4 + ·))).getD u) := by
  have noResident : ¬((List.range (arg a 8 4)).map (arg a 4 4 + ·)).any (u.isResident (xhIdx (arg a 0 3))) = true := by
    simpa using absent
  obtain ⟨v, placed⟩ := Option.isSome_iff_exists.mp room
  unfold combineReside
  dsimp only
  rw [if_neg (by simp [live, combines, valid, idle]), if_neg (by simp [chunks]), if_neg noResident, placed]
  rfl

theorem combineRelease_drains (live : u.live (arg a 0 3) = true) (combines : (u.ext (xhIdx (arg a 0 3))).combine = true)
    (chunks : u.chunksOk (xhIdx (arg a 0 3)) (arg a 4 4) (arg a 8 4) = true)
    (unscheduled : ∀ k ∈ u.winsOf (xhIdx (arg a 0 3)) (arg a 4 4) (arg a 8 4), (u.land k).sched = false)
    (unawaited : ∀ e ∈ u.lands, e.2.awaits (xhIdx (arg a 0 3)) (arg a 4 4) (arg a 8 4) = false) :
    combineRelease u c a =
      let i := xhIdx (arg a 0 3)
      let l := u.winsOf i (arg a 4 4) (arg a 8 4)
      let v := u.each l fun s k => s.releaseWin (k / 16) (k % 16)
      await v ((l.filter fun k => (v.land k).v && (v.land k).ext == i).map fun k => .window (k / 16) (k % 16)) := by
  have held : ((u.winsOf (xhIdx (arg a 0 3)) (arg a 4 4) (arg a 8 4)).any fun k => (u.land k).sched) = false := by
    simpa using unscheduled
  have awaited : (u.lands.any fun e => e.2.awaits (xhIdx (arg a 0 3)) (arg a 4 4) (arg a 8 4)) = false := by
    simpa using unawaited
  unfold combineRelease
  dsimp only
  rw [if_neg (by simp [live, combines]), if_neg (by simp [chunks]), if_neg (by simp only [held, awaited]; decide)]

end

/-- Settles O46: each form of the rows passes its checks and answers as stated; a tile that can take the job is one that the descriptor names. -/
theorem jobAndCombineCommands : Obligations.JobAndCombineCommands := by
  unfold Obligations.JobAndCombineCommands
  refine ⟨?submit, ?cancel, ?setup, ?clear, ?reside, ?release⟩
  case submit =>
    refine fun mb s n => .of_row rfl ?_ fun _ _ _ h => h
    rintro u c a ⟨opened, active, inline, hasRange, ranges, hasStage, stages, static, entries, block, noParam, op, best⟩
    have named : u.tilesFor (arg a 2 1) (arg a 3 1) ≠ [] := List.ne_nil_of_mem (List.mem_of_mem_filter (mem_of_least best))
    exact (jobSubmit_places opened active inline hasRange ranges hasStage stages static entries block noParam op named).trans
      (State.place_inline inline best)
  case cancel =>
    exact fun mb s => .of_row rfl (fun _ _ _ ⟨used, going, same, own⟩ => jobCancel_cancels rfl rfl rfl used going same own) fun _ _ _ h => h
  case setup =>
    exact fun mb s => .of_row rfl (fun _ _ _ ⟨live, combines, noResident, idle, session, fmt, anchor⟩ =>
      combineSetup_fills live combines noResident idle session fmt anchor) fun _ _ _ h => h
  case clear =>
    exact fun mb s => .of_row rfl (fun _ _ _ ⟨live, combines, valid, idle, noResident⟩ =>
      combineClear_fills live combines valid idle noResident) fun _ _ _ h => h
  case reside =>
    exact fun mb s => .of_row rfl fun _ _ _ ⟨live, combines, valid, idle, chunks, absent, room⟩ =>
      combineReside_places live combines valid idle chunks absent room
  case release =>
    exact fun mb s => .of_row rfl (fun _ _ _ ⟨live, combines, chunks, unscheduled, unawaited⟩ =>
      combineRelease_drains live combines chunks unscheduled unawaited) fun _ _ _ h => h
end Sys2Proof.Machine

namespace Sys2Proof.Machine
open Sys2Proof

/-! ## A nanosecond without a command -/

/-- As `tget_foldl_tput`, for entries that depend on their keys. -/
theorem tget_foldl_tput_each {α : Type} [DecidableEq α] (d : α) (f : Nat → α) (l : List Nat) (t : Tbl α) (k : Nat) :
    tget d (l.foldl (fun t n => tput d t n (f n)) t) k = if k ∈ l then f k else tget d t k := by
  induction l generalizing t with
  | nil => simp
  | cons n l ih =>
    rw [List.foldl_cons, ih, tget_tput]
    by_cases same : k = n <;> simp [same]

/-- Between two broadcasts the replica of a link die runs on with the reference clock (R13). -/
theorem Replicas.tick_die (r : Replicas) {d : Nat} (h : d < 4) : tget 0 r.tick.die d = tget 0 r.die d + 65536 := by
  simp only [tick, tget_foldl_tput_each, List.mem_range, if_pos h]

/-- A stopped keeper keeps its FT (R524). -/
theorem Keeper.tick_stopped {k : Keeper} (h : k.stopped = true) : k.tick = k := if_pos h

theorem Keeper.tick_going {k : Keeper} (h : k.stopped = false) : k.tick = { k with
    ft := k.ft + 65536 + BitVec.ofInt 80 (slewStep k.slew), slew := k.slew - slewStep k.slew
    freqAdj := adjOf (k.slew - slewStep k.slew) } :=
  if_neg (by simp [h])

/-- A nanosecond neither stops a keeper nor starts one. -/
@[simp] theorem Keeper.stopped_tick (k : Keeper) : k.tick.stopped = k.stopped := by
  unfold tick
  split <;> rfl

theorem Replicas.next_stopped (r : Replicas) {k : Keeper} (h : k.stopped = true) (now : Nat) : r.next k now = r := if_pos h

theorem Replicas.next_between (r : Replicas) {k : Keeper} {now : Nat} (h : k.stopped = false) (off : now % 256 ≠ 0) : r.next k now = r.tick :=
  (if_neg (by simp [h])).trans (if_neg off)

theorem Replicas.next_broadcast (r : Replicas) {k : Keeper} {now : Nat} (h : k.stopped = false) (beat : now % 256 = 0) :
    r.next k now = Replicas.at_ k.ft :=
  (if_neg (by simp [h])).trans (if_pos beat)

/-- In the phases in which FT runs the keeper and the replicas run on (R532). -/
theorem State.tick_running {s : State} (h : s.pwr.running = true) :
    s.tick = { s with now := s.now + 1, keeper := s.keeper.tick, repl := s.repl.next s.keeper.tick (s.now + 1) } := by
  unfold tick
  split
  case h_5 =>
    simp only [Pwr.running, Bool.or_eq_true, beq_iff_eq] at h
    tauto
  all_goals rfl

/-- In the others the clock alone runs on. -/
theorem State.tick_waiting {s : State} (h : s.pwr.running = false) : s.tick = { s with now := s.now + 1 } := by
  unfold tick
  split
  case h_5 => rfl
  all_goals simp_all [Pwr.running]

theorem step_idle {s : State} (h : s.pending = []) : step s = .next s.tick := by
  unfold step
  rw [h]

/-- Settles O2: an idle step is a tick of the clock, of the keeper and of the replicas, by whether FT runs and the keeper goes. -/
theorem stepIdles : Obligations.StepIdles := by
  unfold Obligations.StepIdles
  intro s idle
  cases running : s.pwr.running with
  | false =>
    refine ⟨s.keeper, s.repl, (step_idle idle).trans (congrArg _ (State.tick_waiting running)), fun runs => ?_, fun _ => ⟨rfl, rfl⟩⟩
    exact absurd runs Bool.false_ne_true
  | true =>
    refine ⟨s.keeper.tick, s.repl.next s.keeper.tick (s.now + 1), (step_idle idle).trans (congrArg _ (State.tick_running running)), ?goes, ?stands⟩
    case goes =>
      intro _ going
      have going' : s.keeper.tick.stopped = false := by simp [going]
      refine ⟨Keeper.tick_going going, fun between => ?_, fun beat => ?_⟩
      · rw [Replicas.next_between _ going' between]
        exact ⟨rfl, rfl, rfl, fun d die => Replicas.tick_die _ die⟩
      · rw [Replicas.next_broadcast _ going' beat]
        exact ⟨rfl, rfl, rfl, fun d die => Replicas.at_die _ die⟩
    case stands =>
      rintro (waiting | stopped)
      · exact absurd waiting.symm Bool.false_ne_true
      · exact ⟨Keeper.tick_stopped stopped, Replicas.next_stopped _ (by simp [stopped]) _⟩

end Sys2Proof.Machine

namespace Sys2Proof.Machine
open Sys2Proof

/-! ## Reads of the control region -/

/-! ### A word and the effect of its read -/

section
variable {s : State} {k : Packet} {o : Nat}

/-- FT_NOW_NS reads the nanoseconds and latches the fraction (R233). -/
theorem State.readWord_ftNow (h : locOf o = .dev 0x6000) :
    s.readWord k o = (s.ftNs, { s with keeper := { s.keeper with frac := s.keeper.ft.extractLsb' 0 16 } }) := by
  unfold readWord
  rw [h]
  rfl

theorem State.readWord_elogAck {i : Nat} (h : locOf o = .dev (0x51000 + 8 * i)) (range : i < 1024) :
    (s.readWord k o).2 = s.elogAck i := by
  have ne : 0x51000 + 8 * i ≠ 0x6000 := by omega
  have acks : (decide (0x51000 ≤ 0x51000 + 8 * i) && decide (0x51000 + 8 * i < 0x53000)) = true := by simp; omega
  have index : (0x51000 + 8 * i - 0x51000) / 8 = i := by omega
  unfold readWord
  rw [h]
  dsimp only
  rw [if_neg ne, if_pos acks, index]

/-- A device-window register that is neither FT_NOW_NS nor an acknowledge register reads without an effect. -/
theorem State.readWord_dev {i : Nat} (h : locOf o = .dev i) (ft : i ≠ 0x6000) (ack : i < 0x51000 ∨ 0x53000 ≤ i) :
    s.readWord k o = (s.devWord i, s) := by
  have acks : ¬(decide (0x51000 ≤ i) && decide (i < 0x53000)) = true := by simp; omega
  unfold readWord
  rw [h]
  dsimp only
  rw [if_neg ft, if_neg acks]

theorem State.readWord_fqAck {i p : Nat} (h : locOf o = .part p (0x2800 + 8 * i)) (range : i < 256) (mine : s.partReq p k = true) :
    (s.readWord k o).2 = s.fqAck p i := by
  have acks : (s.partReq p k && decide (0x2800 ≤ 0x2800 + 8 * i) && decide (0x2800 + 8 * i < 0x3000)) = true := by simp [mine]; omega
  have index : (0x2800 + 8 * i - 0x2800) / 8 = i := by omega
  unfold readWord
  rw [h]
  dsimp only
  rw [if_pos acks, index]

/-- A partition-window register reads without an effect when it is no acknowledge register, or its reader is no requester of the partition. -/
theorem State.readWord_part {i p : Nat} (h : locOf o = .part p i) (quiet : s.partReq p k = false ∨ i < 0x2800 ∨ 0x3000 ≤ i) :
    (s.readWord k o).2 = s := by
  have acks : ¬(s.partReq p k && decide (0x2800 ≤ i) && decide (i < 0x3000)) = true := by
    rcases quiet with other | off
    · simp [other]
    · simp; omega
  unfold readWord
  rw [h]
  dsimp only
  rw [if_neg acks]

/-- Only FT_NOW_NS and the acknowledge registers have an effect when they are read. -/
theorem State.readWord_noEffect (dev : ∀ i, locOf o ≠ .dev i ∨ (i ≠ 0x6000 ∧ (i < 0x51000 ∨ 0x53000 ≤ i)))
    (part : ∀ p i, locOf o ≠ .part p i ∨ i < 0x2800 ∨ 0x3000 ≤ i) : (s.readWord k o).2 = s := by
  cases loc : locOf o with
  | dev i =>
    obtain ⟨ft, ack⟩ := (dev i).resolve_left (not_not.mpr loc)
    rw [readWord_dev loc ft ack]
  | part p i => exact readWord_part loc (.inr ((part p i).resolve_left (not_not.mpr loc)))
  | mbox m r i => simp only [readWord, loc]
  | abort p => simp only [readWord, loc]
  | view sn i => simp only [readWord, loc]
  | reserved => simp only [readWord, loc]

/-- The record at the head of the error log is freed when its number matches (R497). -/
theorem State.elogAck_head {r : ErrRec} {rest : List ErrRec} (h : s.elog.recs = r :: rest) (i : Nat) :
    s.elogAck i = if r.seq.toNat % 1024 = i then { s with elog := { s.elog with recs := rest } } else s := by
  simp only [elogAck, h]

/-- The record at the head of a fault queue is freed when its number matches (R492). -/
theorem State.fqAck_head {p : Nat} {n : BitVec 32} {r : FaultRec} {rest : List (BitVec 32 × FaultRec)} (h : (s.part p).fq = (n, r) :: rest)
    (i : Nat) : s.fqAck p i = if n.toNat % 256 = i then s.setPart p { s.part p with fq := rest } else s := by
  simp only [fqAck, h, modPart_eq]

end

/-! ### FT_NOW_NS and FT_NOW_FRAC (R233) -/

theorem State.ftNs_eq (s : State) : s.ftNs = (s.keeper.ft.extractLsb' 16 64).toNat := by
  have bound := s.keeper.ft.isLt
  simp only [ftNs, BitVec.extractLsb'_toNat, Nat.shiftRight_eq_div_pow]
  omega

theorem locOf_ftNow : locOf 0x6000 = .dev 0x6000 := by decide

theorem locOf_ftFrac : locOf 0x6008 = .dev 0x6008 := by decide

/-- Settles O58: the two registers lie in the device window, which no access writes there, and read as R233 says. -/
theorem ftNowRegisters : Obligations.FtNowRegisters := by
  unfold Obligations.FtNowRegisters
  refine ⟨fun k s => ?now, fun k s => ?frac, by decide, by decide, fun k s => ⟨rfl, rfl⟩⟩
  case now => rw [State.readWord_ftNow locOf_ftNow, s.ftNs_eq]
  case frac =>
    have reads : s.readWord k 0x6008 = (s.keeper.frac.toNat, s) := State.readWord_dev locOf_ftFrac (by decide) (by decide)
    exact ⟨reads, reads ▸ s.keeper.frac.isLt⟩

/-! ### The row of a read -/

@[simp] theorem State.take_stew (s : State) (p : Packet) : (s.take p).2.stew = s.stew := by
  unfold take
  split <;> rfl

/-- What it takes for a control access to be served as its row runs. -/
theorem State.ctlTurn_iff (s : State) (o : Byte) (p : Packet) :
    s.ctlTurn o p = true ↔ p.opc = o ∧ s.filtered p.src = false ∧ s.turn p = true ∧ p.nocmp = false ∧ (s.take p).2.pairHeld p.src = false := by
  simp [ctlTurn, and_assoc]

section
variable {s : State} {o : Byte} {p : Packet} {h : Held} {l : List Nat}

theorem State.ctlRow_waits (h : p.opc ≠ o ∨ s.filtered p.src = true ∨ s.turn p = false) : s.ctlRow o p = s :=
  if_pos (by simpa [or_assoc] using h)

/-- A control access in its turn waits behind a held request of its pair (R279). -/
theorem State.ctlRow_held (opc : p.opc = o) (direct : s.filtered p.src = false) (turn : s.turn p = true)
    (held : (s.take p).2.pairHeld p.src = true) :
    s.ctlRow o p = { (s.take p).2 with admHeld := (s.take p).2.admHeld ++ [(s.take p).1] } :=
  have held' : (s.take p).2.pairHeld (s.take p).1.pkt.src = true := by simpa using held
  (if_neg (by simp [opc, direct, turn])).trans (if_pos held')

theorem State.ctlRow_goes (opc : p.opc = o) (direct : s.filtered p.src = false) (turn : s.turn p = true)
    (free : (s.take p).2.pairHeld p.src = false) : s.ctlRow o p = (s.take p).2.ctlGo (s.take p).1 :=
  have free' : ¬(s.take p).2.pairHeld (s.take p).1.pkt.src = true := by simp [free]
  (if_neg (by simp [opc, direct, turn])).trans (if_neg free')

/-- A control access with NOCMP applies nothing (R342). -/
theorem State.ctlGo_nocmp (nocmp : h.pkt.nocmp = true) : s.ctlGo h = s.ctlEnd h stDenied := if_pos nocmp

theorem State.ctlGo_reads (opc : h.pkt.opc = oCtlRd) (cmp : h.pkt.nocmp = false) : s.ctlGo h = s.ctlRead h :=
  (if_neg (by simp [cmp])).trans (if_pos opc)

theorem State.ctlRow_reads (turn : s.ctlTurn oCtlRd p = true) : s.ctlRow oCtlRd p = (s.take p).2.ctlRead (s.take p).1 := by
  obtain ⟨opc, direct, turn, cmp, free⟩ := (s.ctlTurn_iff oCtlRd p).mp turn
  rw [State.ctlRow_goes opc direct turn free, State.ctlGo_reads (by simpa using opc) (by simpa using cmp)]

/-- A read that has not the form of R403 is denied. -/
theorem State.ctlRead_malformed (form : readOffs h.pkt = none) : s.ctlRead h = s.ctlEnd h stDenied := by
  simp only [ctlRead, form]
  rfl

/-- A read of a word that R404 does not allow is denied. -/
theorem State.ctlRead_denied (form : readOffs h.pkt = some l) (rights : (l.all fun o => s.mayRead h.pkt (locOf o)) = false) :
    s.ctlRead h = (s.noteCtl h.pkt (l.map locOf)).ctlEnd h stDenied := by
  unfold ctlRead
  dsimp only
  rw [form]
  dsimp only
  rw [rights]
  exact if_pos rfl

/-- While an image is being committed the identity and update registers answer BUSY (R478). -/
theorem State.ctlRead_busy (form : readOffs h.pkt = some l) (rights : (l.all fun o => s.mayRead h.pkt (locOf o)) = true)
    (commit : s.stew.commit = true) (identity : (l.any fun o => decide (0x70000 ≤ o) && decide (o < 0x71000)) = true) :
    s.ctlRead h = (s.noteCtl h.pkt (l.map locOf)).ctlEnd h stBusy := by
  unfold ctlRead
  dsimp only
  rw [form]
  dsimp only
  rw [rights, commit, identity]
  exact (if_neg Bool.false_ne_true).trans (if_pos rfl)

/-- Any other read of words that R404 allows is answered with them. -/
theorem State.ctlRead_answers (form : readOffs h.pkt = some l) (rights : (l.all fun o => s.mayRead h.pkt (locOf o)) = true)
    (ready : s.stew.commit = false ∨ (l.any fun o => decide (0x70000 ≤ o) && decide (o < 0x71000)) = false) :
    s.ctlRead h =
      let w := (s.noteCtl h.pkt (l.map locOf)).readWords h.pkt l
      w.2.reply h.req none { w.2.ctlCmp h stOk with
        opc := oCmpData, len := 160, data := BitVec.ofNat 1024 (packBits (w.1.mapIdx fun i x => (64 * i, 64, x))) } := by
  have goes : (s.stew.commit && l.any fun o => decide (0x70000 ≤ o) && decide (o < 0x71000)) = false := by
    rw [Bool.and_eq_false_iff]
    exact ready
  unfold ctlRead
  dsimp only
  rw [form]
  dsimp only
  rw [rights, goes]
  exact (if_neg Bool.false_ne_true).trans (if_neg Bool.false_ne_true)

end

/-- Settles O13: each row is one guard of the access or one branch of the read, and each effect of a read is that of one location. -/
theorem controlReadRows : Obligations.ControlReadRows := by
  unfold Obligations.ControlReadRows
  refine ⟨fun c p s reads => ?rows, fun k o s loc => State.readWord_ftNow loc, ?elog, ?fq, ?other, ?quiet⟩
  case rows =>
    have row : exec c s = .next (s.ctlRow oCtlRd p) := by rcases reads with rfl | rfl | rfl | rfl <;> rfl
    rw [row]
    simp only [Host.Outcome.next.injEq]
    refine ⟨?answers, ?busy, ?malformed, ?denied, ?nocmp, ?held, State.ctlRow_waits⟩
    case answers =>
      intro l turn form rights ready
      rw [State.ctlRow_reads turn, State.ctlRead_answers (by simpa using form) (by simpa using rights) (by simpa using ready), State.take_pkt]
    case busy =>
      intro l turn form rights commit identity
      rw [State.ctlRow_reads turn, State.ctlRead_busy (by simpa using form) (by simpa using rights) (by simpa using commit) identity,
        State.take_pkt]
    case malformed =>
      intro turn form
      rw [State.ctlRow_reads turn, State.ctlRead_malformed (by simpa using form)]
    case denied =>
      intro l turn form rights
      rw [State.ctlRow_reads turn, State.ctlRead_denied (l := l) (by simpa using form) (by simpa using rights), State.take_pkt]
    case nocmp =>
      intro opc direct turn free nocmp
      rw [State.ctlRow_goes opc direct turn free, State.ctlGo_nocmp (by simpa using nocmp)]
    case held => exact State.ctlRow_held
  case elog =>
    intro k o i r rest s range loc recs
    rw [State.readWord_elogAck loc range, State.elogAck_head recs]
  case fq =>
    intro k o i p n r rest s range loc mine head
    rw [State.readWord_fqAck loc range mine, State.fqAck_head head]
  case other => exact fun k o i p s loc other => State.readWord_part loc (.inl other)
  case quiet => exact fun k o s dev part => State.readWord_noEffect dev part

end Sys2Proof.Machine

namespace Sys2Proof.Machine
open Sys2Proof

/-! ## The schedule's registers under what does not act on them

The end of an image gives landing windows back, whose release writes lines to DRAM; none of the steps of such a write touches the schedule. -/

section
variable (s : State)

@[simp] theorem State.ite_sched (c : Prop) [Decidable c] (a b : State) : (if c then a else b).sched = if c then a.sched else b.sched :=
  apply_ite State.sched c a b

@[simp] theorem State.each_sched {α : Type} (l : List α) {f : State → α → State} (h : ∀ u a, (f u a).sched = u.sched) :
    (s.each l f).sched = s.sched :=
  s.each_same State.sched l f h

/-! ### Completions -/

@[simp] theorem State.setWay_sched (q w : Nat) (e : DirEntry) : (s.setWay q w e).sched = s.sched := by simp [setWay]

@[simp] theorem State.setTxn_sched (q t : Nat) (v : Txn) : (s.setTxn q t v).sched = s.sched := by simp [setTxn]

@[simp] theorem State.protect_sched (p : Packet) : (s.protect p).2.sched = s.sched := by simp [protect, keepKey]

@[simp] theorem State.engDone_sched (n k inc : Nat) (d : EDone) : (s.engDone n k inc d).sched = s.sched := by simp [engDone, modJob]

@[simp] theorem State.schedDone_sched (n : Nat) (d : EDone) : (s.schedDone n d).sched = s.sched := by simp [schedDone]

@[simp] theorem State.walkDone_sched (n : Nat) (d : EDone) : (s.walkDone n d).sched = s.sched := by simp [walkDone]

@[simp] theorem State.origDone_same_sched (rtag : BitVec 32) (st : Status) (bo : BitVec 4) (data : Line) (old : Nat) :
    (s.origDone rtag st bo data old).sched = s.sched := by
  unfold origDone
  split <;> simp

@[simp] theorem State.lostAtUnit_sched (p : Packet) (st : Status) : (s.lostAtUnit p st).sched = s.sched := by simp [lostAtUnit]

@[simp] theorem State.toHost_sched (p : Packet) : (s.toHost p).sched = s.sched := by simp [toHost]

@[simp] theorem State.send_sched (pref : List Nat) (p : Packet) : (s.send pref p).sched = s.sched := by
  unfold send
  (repeat' split) <;> simp

@[simp] theorem State.closeBatches_sched (k : Nat) : (s.closeBatches k).sched = s.sched := by simp [closeBatches]

@[simp] theorem State.reply_sched (r : Req) (home : Option Nat) (p : Packet) : (s.reply r home p).sched = s.sched := by simp [reply]

@[simp] theorem State.deliver_sched (r : Req) (st : Status) (data : Line) (old : Nat) (bo : BitVec 4) (rsv : Bool) :
    (s.deliver r st data old bo rsv).sched = s.sched := by
  unfold deliver
  dsimp only
  split <;> simp

@[simp] theorem State.leave_sched (r : Req) : (s.leave r).sched = s.sched := by simp [leave]

@[simp] theorem State.finish_sched (r : Req) (st : Status) (data : Line) (old : Nat) : (s.finish r st data old).sched = s.sched := by
  simp [finish]

/-! ### Transactions of the directory -/

@[simp] theorem State.note_sched (token : Nat) (kind : JKind) : (s.note token kind).sched = s.sched := rfl

@[simp] theorem State.noteFor_sched (w : Wait) : (s.noteFor w).sched = s.sched := s.each_sched _ fun _ _ => rfl

@[simp] theorem State.touch_sched (q w : Nat) : (s.touch q w).sched = s.sched := by simp [touch]

@[simp] theorem State.snoop_sched (q t : Nat) (opc : Byte) (a : Nat) (req : Option Req) (cid : Cid) (tc : Fin 8) (dst : List Eid) :
    (s.snoop q t opc a req cid tc dst).sched = s.sched := by
  simp [snoop]

@[simp] theorem State.openTxn_sched (q t w : Nat) (v : Txn) : (s.openTxn q t w v).sched = s.sched := by simp [openTxn]

@[simp] theorem State.freeWay_sched (q w : Nat) : (s.freeWay q w).sched = s.sched := by simp [freeWay]

@[simp] theorem State.dropTxn_sched (q t : Nat) : (s.dropTxn q t).sched = s.sched := by simp [dropTxn]

@[simp] theorem State.settle_sched (q t w : Nat) (e : DirEntry) : (s.settle q t w e).sched = s.sched := by simp [settle]

@[simp] theorem State.meetScan_sched (q w : Nat) : (s.meetScan q w).sched = s.sched := by simp [meetScan]

@[simp] theorem State.binvWay_sched (q w : Nat) : (s.binvWay q w).sched = s.sched := by
  unfold binvWay
  dsimp only
  split <;> simp

@[simp] theorem State.sweepsDone_sched : s.sweepsDone.sched = s.sched := by
  refine (State.each_sched _ _ fun u w => ?_).trans ?_
  · split <;> simp
  · split <;> rfl

@[simp] theorem State.sweep_sched (q : Nat) : (s.sweep q).sched = s.sched :=
  (State.sweepsDone_sched _).trans (s.each_sched _ fun u w => u.binvWay_sched q w)

@[simp] theorem State.grant_sched (q t : Nat) (r : Req) (next : BitVec 3) (nodata : Bool) (data : Line) :
    (s.grant q t r next nodata data).sched = s.sched := by
  simp [grant]

@[simp] theorem State.fetched_sched (q t : Nat) (r : Req) (st : Status) (data : Line) : (s.fetched q t r st data).sched = s.sched := by
  simp [fetched]

/-! ### Lines on their way to DRAM -/

@[simp] theorem State.stepDone_sched (k : Nat) (st : Status) : (s.stepDone k st).sched = s.sched := by
  unfold stepDone
  split <;> simp

@[simp] theorem State.endReq_sched (r : Req) (st : Status) (data : Line) (old : Nat) : (s.endReq r st data old).sched = s.sched := by
  unfold endReq
  split <;> simp

@[simp] theorem State.postFault_sched (p : Nat) (r : FaultRec) : (s.postFault p r).sched = s.sched := by simp [postFault]

@[simp] theorem State.extentFault_sched (p cause xh lines lowest : Nat) : (s.extentFault p cause xh lines lowest).sched = s.sched := by
  simp [extentFault]

@[simp] theorem State.dataLost_sched (idx lines lowest : Nat) : (s.dataLost idx lines lowest).sched = s.sched := by simp [dataLost]

@[simp] theorem State.forwardWhole_sched (r : Req) (m : Nat) : (s.forwardWhole r m).sched = s.sched := by
  simp [forwardWhole, postFwd]

@[simp] theorem State.enqueue_sched (r : Req) : (s.enqueue r).sched = s.sched := by simp [enqueue, joinFlow]

@[simp] theorem State.toDram_sched (r : Req) : (s.toDram r).sched = s.sched := by
  unfold toDram
  dsimp only
  (repeat' split) <;> simp

/-! ### Windows given back -/

@[simp] theorem State.mergeNext_sched (t w : Nat) : (s.mergeNext t w).sched = s.sched := by
  unfold mergeNext
  dsimp only
  (repeat' split) <;> simp

@[simp] theorem State.releaseWin_sched (t w : Nat) : (s.releaseWin t w).sched = s.sched := by simp [releaseWin]

@[simp] theorem State.freeSched_sched : s.freeSched.sched = s.sched := s.each_sched _ fun _ _ => rfl

@[simp] theorem State.endLands_sched : s.endLands.sched = s.sched := by
  refine (State.each_sched _ _ fun u w => ?_).trans (s.each_sched _ fun _ _ => rfl)
  split <;> simp

@[simp] theorem State.leaveImage_sched : s.leaveImage.sched = s.sched := by
  unfold leaveImage
  refine (State.each_sched _ _ fun _ _ => ?_).trans ((State.each_sched _ _ fun _ _ => ?_).trans ?_)
  · rfl
  · rfl
  · simp

@[simp] theorem State.rouse_sched (n : Nat) : (s.rouse n).sched = s.sched := by simp [rouse]

end

end Sys2Proof.Machine

namespace Sys2Proof.Machine
open Sys2Proof

/-! ## The life of a schedule image -/

/-- Whether every link die's replica has reached an FT. -/
theorem State.diesAt_iff (s : State) (t : Nat) : s.diesAt t = true ↔ ∀ d ∈ s.dieList, t ≤ s.dieNs d := by simp [diesAt]

/-- Every replica reads T_x when those of the tiles, the hub islands and the link dies do. -/
theorem State.atTx_iff (s : State) :
    s.atTx = true ↔ s.sched.tx ≤ s.tileNs ∧ s.sched.tx ≤ s.hubNs ∧ ∀ d ∈ s.dieList, s.sched.tx ≤ s.dieNs d := by
  simp [atTx, diesAt_iff, and_assoc]

section
variable {s : State} {im : Image}

/-- A pending image takes over when every replica reads T_x. -/
theorem execSchedTakeover_image (pending : s.sched.pending = true) (ready : s.atTx = true) (next : s.sched.next = some im) :
    execSchedTakeover s = .next (s.takeover im) :=
  (if_pos (by simp [pending, ready])).trans (by rw [next])

/-- A pending disarming lets the no-image state take over (R269). -/
theorem execSchedTakeover_disarm (pending : s.sched.pending = true) (ready : s.atTx = true) (next : s.sched.next = none)
    (disarm : s.sched.disarm = true) : execSchedTakeover s = .next s.disarm :=
  (if_pos (by simp [pending, ready])).trans (by rw [next]; simp only [disarm, if_true])

theorem execSchedTakeover_early (early : s.atTx = false) : execSchedTakeover s = .next s := if_neg (by simp [early])

theorem execArmLateDeadline_eq (next : s.sched.next = some im) (waits : s.sched.pending = false) (late : s.sched.tx ≤ s.ftNs + 100000) :
    execArmLateDeadline s = .next
      (((s.abandonArm csArmLate).each (s.abandonArm csArmLate).tileList fun s n => s.modTile n fun t => { t with staged := {} }).schedEvent
        2 im.id 0 (((s.abandonArm csArmLate).each (s.abandonArm csArmLate).tileList fun s n =>
          s.modTile n fun t => { t with staged := {} }).cycleNo)) := by
  unfold execArmLateDeadline
  rw [next]
  exact if_pos (by simp [waits, late])

/-- The image that ran is staged again unless one is staged (R240 step 6). -/
def State.restage (s : State) : State :=
  if s.sched.staged then s else { s with sched := { s.sched with stagedImg := s.sched.armedImg, staged := true } }

theorem State.restage_sched (s : State) : s.restage.sched.syncLost = s.sched.syncLost ∧ s.restage.sched.staged = true
    ∧ s.restage.sched.stagedImg = (if s.sched.staged then s.sched.stagedImg else s.sched.armedImg) := by
  unfold restage
  cases staged : s.sched.staged <;> simp [staged]

theorem State.restage_quiet (s : State) : s.Quiet s.restage := by simp [restage, Quiet]

/-- The state in which STATE is IDLE again after a loss of synchronisation (R240 step 6). -/
def State.idled (s : State) : State :=
  let u := ({ s with sched := { s.sched with syncLost := false } } : State).leaveImage.restage
  u.each u.tileList fun s n => s.rouse n

theorem execSchedIdleAfterLoss_eq (lost : s.sched.syncLost = true) (drained : s.landsDrain = false)
    (ended : ∀ n ∈ s.tileList, (s.tile n).srun = none) : execSchedIdleAfterLoss s = .next s.idled :=
  if_pos (by simpa [lost, drained] using ended)

/-- What STATE and the staged image are then. -/
theorem State.idled_sched (s : State) : s.idled.sched.syncLost = false ∧ s.idled.sched.staged = true
    ∧ s.idled.sched.stagedImg = (if s.sched.staged then s.sched.stagedImg else s.sched.armedImg) := by
  have roused : s.idled.sched = ({ s with sched := { s.sched with syncLost := false } } : State).leaveImage.restage.sched := by simp [idled]
  rw [roused]
  simpa using ({ s with sched := { s.sched with syncLost := false } } : State).leaveImage.restage_sched

theorem State.idled_quiet (s : State) : s.Quiet s.idled :=
  State.Quiet.trans (t := ({ s with sched := { s.sched with syncLost := false } } : State).leaveImage)
    (State.leaveImage_quiet _) ((State.restage_quiet _).trans (State.each_quiet _ _ _ State.rouse_quiet))

end

/-- Settles O31: each row is one guard of the schedule's registers and replicas, and what the image's life does once it holds. -/
theorem imageRows : Obligations.ImageRows := by
  unfold Obligations.ImageRows
  refine ⟨?armed, fun im s => execArmLateDeadline_eq, ?takeover, ?disarm, ?early, ?idle⟩
  case armed =>
    intro im s next waits freed time
    exact if_pos (by simp [next, waits, freed, time])
  case takeover =>
    exact fun im s pending next tiles hub dies => execSchedTakeover_image pending (s.atTx_iff.mpr ⟨tiles, hub, dies⟩) next
  case disarm =>
    exact fun s pending next disarm tiles hub dies => execSchedTakeover_disarm pending (s.atTx_iff.mpr ⟨tiles, hub, dies⟩) next disarm
  case early =>
    intro s early
    refine execSchedTakeover_early (Bool.eq_false_iff.mpr fun ready => ?_)
    exact absurd (s.atTx_iff.mp ready).1 (Nat.not_le.mpr early)
  case idle =>
    intro s lost drained ended
    obtain ⟨-, -, -, dram, pwr, -⟩ := s.idled_quiet
    obtain ⟨syncLost, staged, img⟩ := s.idled_sched
    exact ⟨s.idled, execSchedIdleAfterLoss_eq lost drained ended, syncLost, staged, img, dram, pwr⟩

end Sys2Proof.Machine

namespace Sys2Proof.Machine
open Sys2Proof

/-! ## A running schedule image -/

section
variable {s : State} {im : Image}

theorem execListSwitch_eq (runs : s.sched.running = some im) (ready : s.diesAt (s.sched.lastSwitch + 16 * max 1 im.cycle) = true) :
    execListSwitch s = .next
      (let b := s.sched.lastSwitch + 16 * max 1 im.cycle
       let u := ({ s with sched := { s.sched with lastSwitch := b } }).each im.lists fun s e => s.gateMove e.1 e.2 0 b
       u.columns im u.cycleNo b) := by
  unfold execListSwitch
  rw [runs]
  exact if_pos ready

theorem execListSwitch_idle (idle : s.sched.running = none) : execListSwitch s = .next s := by
  unfold execListSwitch
  rw [idle]

/-- A gate unit moves on when its entry's duration has passed, unless the entry is the last of its list (R255). -/
theorem execGateEntryBoundary_eq {p : Fin 17} {l : List GateEntry} {e : GateEntry} (list : s.gateList p.val = some l)
    (entry : l[(s.port p.val).gateIdx]? = some e) (due : (s.port p.val).gateStart + 16 * e.dur ≤ s.dieNs (p.val / 4))
    (more : (s.port p.val).gateIdx + 1 < l.length) : execGateEntryBoundary p s
      = .next (s.gateMove p.val l ((s.port p.val).gateIdx + 1) ((s.port p.val).gateStart + 16 * e.dur)) := by
  unfold execGateEntryBoundary
  dsimp only
  rw [list]
  dsimp only
  rw [entry]
  exact if_pos (by simp [due, more])

/-- An operation that runs past its deadline is counted once (R261). -/
theorem execSchedOpDeadline_eq {t : Fin 32} {r : SRun} (runs : (s.tile t.val).srun = some r) : execSchedOpDeadline t s =
    if !r.overrun && r.deadline ≤ s.tileNs then
      .next (((s.modTile t.val fun x => { x with srun := some { r with overrun := true } }).bump (tileBlk t.val) 10).schedEvent 3 s.imageId
        t.val s.cycleNo)
    else .next s := by
  unfold execSchedOpDeadline
  dsimp only
  rw [runs]
  rfl

section
/-! An entry of the running image that falls due in cycle k and has not fired in it, while no takeover is pending (R260). -/
variable {t : Fin 32} {i : Fin 512} {e : SEntry} {k : Nat}
  (runs : s.sched.running = some im) (entry : (s.tile t.val).armed.entries[i.val]? = some e)
  (cycle : k = (s.tileNs - s.sched.runStart) / (16 * max 1 im.cycle)) (valid : e.valid = true)
  (due : s.sched.runStart + k * (16 * max 1 im.cycle) + 16 * e.start ≤ s.tileNs) (phase : k % max 1 e.every = e.phase)
  (fresh : tget 0 (s.tile t.val).fired i.val ≠ k + 1) (settled : s.sched.pending = false)
include runs entry cycle valid due phase fresh settled

/-- It fires: it is skipped and counted while it still waits or runs, and otherwise waits for the engine. -/
theorem execSchedOpDue_eq : execSchedOpDue t i s =
    if (s.tile t.val).swait.any (·.1 = i.val) || ((s.tile t.val).srun.any fun r => r.entry == i.val && r.ent == e) then
      .next (((s.modTile t.val fun x => { x with fired := tput 0 x.fired i.val (k + 1) }).bump (tileBlk t.val) 11).schedEvent 4 im.id t.val k)
    else
      .next (((((s.modTile t.val fun x => { x with fired := tput 0 x.fired i.val (k + 1) }).modTile t.val fun x =>
        { x with swait := x.swait ++ [(i.val, k)] }).setLate t.val e).askStop t.val .sched).startDue t.val) := by
  subst cycle
  unfold execSchedOpDue
  dsimp only
  rw [runs, entry]
  exact if_neg (by simp [valid, due, phase, fresh, settled])

theorem execSchedOpDue_waits (waiting : ∀ x ∈ (s.tile t.val).swait, x.1 ≠ i.val) (free : (s.tile t.val).srun = none) :
    execSchedOpDue t i s =
      .next (((((s.modTile t.val fun x => { x with fired := tput 0 x.fired i.val (k + 1) }).modTile t.val fun x =>
        { x with swait := x.swait ++ [(i.val, k)] }).setLate t.val e).askStop t.val .sched).startDue t.val) := by
  have idle : ((s.tile t.val).swait.any (·.1 = i.val)) = false := List.any_eq_false.mpr fun x hx => by simpa using waiting x hx
  rw [execSchedOpDue_eq runs entry cycle valid due phase fresh settled, idle, free]
  exact if_neg Bool.false_ne_true

theorem execSchedOpDue_skips (waiting : ∃ x ∈ (s.tile t.val).swait, x.1 = i.val) : execSchedOpDue t i s =
    .next (((s.modTile t.val fun x => { x with fired := tput 0 x.fired i.val (k + 1) }).bump (tileBlk t.val) 11).schedEvent 4 im.id t.val k) := by
  have waits : ((s.tile t.val).swait.any (·.1 = i.val)) = true := by simpa using waiting
  rw [execSchedOpDue_eq runs entry cycle valid due phase fresh settled, waits]
  exact if_pos rfl

end
end

/-- Settles O32: each row is one guard of the running image's clocks, and the step of the gate or the operation that it allows. -/
theorem runningRows : Obligations.RunningRows := by
  unfold Obligations.RunningRows
  refine ⟨fun im s runs dies => execListSwitch_eq runs ((s.diesAt_iff _).mpr dies), fun s => execListSwitch_idle,
    fun p l e s => execGateEntryBoundary_eq, ?due, ?deadline, ?counted⟩
  case due =>
    intro t i im e k s runs entry cycle valid due phase fresh settled
    exact ⟨execSchedOpDue_waits runs entry cycle valid due phase fresh settled,
      execSchedOpDue_skips runs entry cycle valid due phase fresh settled⟩
  case deadline =>
    intro t r s runs first late
    exact (execSchedOpDeadline_eq runs).trans (if_pos (by simp [first, late]))
  case counted =>
    intro t r s runs counted
    exact (execSchedOpDeadline_eq runs).trans (if_neg (by simp [counted]))

end Sys2Proof.Machine

namespace Sys2Proof.Machine
open Sys2Proof

/-! ## Schedule, shaping and limit commands -/

/-- A command goes on with the bytes of a reference that it may use and that can be read. -/
theorem withRef_reads {u : State} {c : Cmd} {part : Option Nat} {r : Ref} {len : Nat} {go : State → List Byte → Answer} {b : List Byte}
    (ok : u.refOk part r = true) (read : (u.refRead c.eid r (len / 128 + 2) r.off len).1 = .ok b) :
    withRef u c part r len go = go (u.refRead c.eid r (len / 128 + 2) r.off len).2 b := by
  unfold withRef
  rw [if_neg (by simp [ok])]
  generalize u.refRead c.eid r (len / 128 + 2) r.off len = got at read ⊢
  obtain ⟨g, v⟩ := got
  cases read
  rfl

section
variable {u : State} {c : Cmd} {a : Nat}

theorem ftConfig_writes (ok : ftCfgOk (arg a 0 8) = true) (idle : u.schedBusyCmd = false) :
    ftConfig u c a = done { u with keeper := u.keeper.config (arg a 0 8) } :=
  (if_neg (by simp [ok])).trans ((if_neg (by simp [idle])).trans (if_neg (by simp [idle])))

theorem schedStage_copies {b : List Byte} (low : 512 ≤ arg a 12 4) (high : arg a 12 4 ≤ 33554432) (free : u.sched.next = none)
    (ref : u.refOk none (argRef a 0 8) = true)
    (read : (u.refRead c.eid (argRef a 0 8) (arg a 12 4 / 128 + 2) (argRef a 0 8).off (arg a 12 4)).1 = .ok b)
    (magic : fieldLe b 0 4 = imgMagic) (long : 512 ≤ imgLength b) (whole : imgLength b ≤ arg a 12 4) :
    schedStage u c a =
      let v := (u.refRead c.eid (argRef a 0 8) (arg a 12 4 / 128 + 2) (argRef a 0 8).off (arg a 12 4)).2
      done { v with sched := { v.sched with stagedImg := b.take (imgLength b), staged := true } } := by
  unfold schedStage
  dsimp only
  rw [if_neg (by simp; omega), if_neg (by simp [free]), withRef_reads ref read]
  exact if_neg (by simp [magic]; omega)

theorem schedArm_arms {tx : Nat} (staged : u.sched.staged = true) (locked : u.keeper.state = 2) (settled : u.sched.pending = false)
    (free : u.sched.next = none) (sync : u.sched.syncLost = false)
    (checks : u.imgCheck u.sched.stagedImg (arg a 0 8) ((arg a 8 1).testBit 0) = (0, tx)) :
    schedArm u c a =
      let v := { u with sched := { u.sched with next := some (imageOf u.sched.stagedImg), tx := tx, armToken := some c.token, loaded := false } }
      let w := v.each v.tileList fun s n => s.modTile n fun t => { t with staged := sectionOf u.sched.stagedImg n }
      await w.armWins [.arm] tx := by
  unfold schedArm
  dsimp only
  rw [if_neg (by simp [staged, locked, settled, free, sync]), checks]
  rfl

theorem schedDisarm_pends {im : Image} (runs : u.sched.running = some im) (state : u.schedState = 2) (free : u.sched.next = none)
    (time : u.ftNs + 5000000 ≤ u.takeoverAt im.mode false (16 * max 1 im.cycle) (arg a 0 8)) (grid : im.mode = true ∨ arg a 0 8 % 16 = 0) :
    schedDisarm u c a =
      let tx := u.takeoverAt im.mode false (16 * max 1 im.cycle) (arg a 0 8)
      done { u with sched := { u.sched with pending := true, disarm := true, tx := tx } } tx := by
  have onGrid : (im.mode || arg a 0 8 % 16 == 0) = true := by simpa using grid
  unfold schedDisarm
  dsimp only
  rw [runs]
  dsimp only
  rw [onGrid]
  exact (if_neg (by simp [state, free])).trans (if_neg (by simp [time]))

theorem schedCancel_discards (pending : u.sched.pending = true) (time : u.ftNs + 100000 < u.sched.tx) :
    schedCancel u c a =
      let v := { u with sched := { u.sched with pending := false, disarm := false, next := none, loaded := false } }
      done (v.each v.tileList fun s n => s.modTile n fun t => { t with staged := {} }) :=
  if_neg (by simp [pending, time])

theorem shapePortSet_shapes (port : arg a 0 1 ≤ 15) (enabled : u.portEn (arg a 0 1) = true) (fits : arg a 8 8 < 2 ^ 56) :
    shapePortSet u c a = done (u.modPort (arg a 0 1) fun x => x.shape (arg a 8 8)) :=
  if_neg (by simp [enabled]; omega)

/-- The weights of a partition are written, and a flow whose weight rises from 0 has its tags set (R278). -/
theorem shapePartSet_eq (known : arg a 0 1 < 64) (ok : shapeOk (arg a 8 8) = true) (used : (u.part (arg a 0 1)).state ≠ 0) :
    shapePartSet u c a =
      let v := u.modPart (arg a 0 1) fun x => { x with shape := BitVec.ofNat 64 (arg a 8 8) }
      done (if (u.part (arg a 0 1)).weight = 0 && arg a 8 8 ≠ 0 then v.each v.stackList fun s n => s.flowTags (3 + arg a 0 1) n else v) :=
  (if_neg (Nat.not_le.mpr known)).trans ((if_neg (by simp [ok])).trans (if_neg used))

theorem shapePartSet_keepsTags (known : arg a 0 1 < 64) (ok : shapeOk (arg a 8 8) = true) (used : (u.part (arg a 0 1)).state ≠ 0)
    (weighs : (u.part (arg a 0 1)).weight ≠ 0) :
    shapePartSet u c a = done (u.modPart (arg a 0 1) fun x => { x with shape := BitVec.ofNat 64 (arg a 8 8) }) :=
  (shapePartSet_eq known ok used).trans (congrArg (done ·) (if_neg (by simp [weighs])))

theorem shapePartSet_setsTags (known : arg a 0 1 < 64) (ok : shapeOk (arg a 8 8) = true) (used : (u.part (arg a 0 1)).state ≠ 0)
    (weighs : (u.part (arg a 0 1)).weight = 0) (rises : arg a 8 8 ≠ 0) :
    shapePartSet u c a =
      let v := u.modPart (arg a 0 1) fun x => { x with shape := BitVec.ofNat 64 (arg a 8 8) }
      done (v.each v.stackList fun s n => s.flowTags (3 + arg a 0 1) n) :=
  (shapePartSet_eq known ok used).trans (congrArg (done ·) (if_pos (by simp [weighs, rises])))

theorem limitSet_writes (nonzero : arg a 2 2 ≠ 0) (few : arg a 2 2 ≤ 4096) (fits : arg a 0 2 + arg a 2 2 ≤ 4095) (rate : arg a 4 2 ≤ 4095)
    (burst : arg a 6 2 ≤ 4095) (both : arg a 4 2 ≠ 0 → arg a 6 2 ≠ 0) :
    limitSet u c a = done (u.each ((List.range (arg a 2 2)).map (arg a 0 2 + ·)) fun s e =>
      s.modLimit e fun x => x.write (arg a 4 2) (arg a 6 2) s.hubNs) :=
  if_neg (by simp [nonzero]; omega)

end

/-- Settles O47: each form of the rows passes its checks and answers as stated. -/
theorem scheduleAndShapeCommands : Obligations.ScheduleAndShapeCommands := by
  unfold Obligations.ScheduleAndShapeCommands
  refine ⟨?ft, ?stage, ?arm, ?disarm, ?cancel, ?port, ?part, ?partTags, ?limit⟩
  case ft => exact fun mb s => .of_row rfl (fun _ _ _ ⟨ok, idle⟩ => ftConfig_writes ok idle) fun _ _ _ h => h
  case stage =>
    exact fun mb s b => .of_row rfl fun _ _ _ ⟨low, high, free, ref, read, magic, long, whole⟩ =>
      schedStage_copies low high free ref read magic long whole
  case arm =>
    exact fun mb s tx => .of_row rfl (fun _ _ _ ⟨staged, locked, settled, free, sync, checks⟩ =>
      schedArm_arms staged locked settled free sync checks) fun _ _ _ h => h
  case disarm =>
    exact fun mb s im => .of_row rfl (fun _ _ _ ⟨runs, state, free, time, grid⟩ => schedDisarm_pends runs state free time grid)
      fun _ _ _ h => h
  case cancel => exact fun mb s => .of_row rfl (fun _ _ _ ⟨pending, time⟩ => schedCancel_discards pending time) fun _ _ _ h => h
  case port => exact fun mb s => .of_row rfl (fun _ _ _ ⟨port, enabled, fits⟩ => shapePortSet_shapes port enabled fits) fun _ _ _ h => h
  case part =>
    exact fun mb s => .of_row rfl (fun _ _ _ ⟨known, ok, used, weighs⟩ => shapePartSet_keepsTags known ok used weighs) fun _ _ _ h => h
  case partTags =>
    exact fun mb s => .of_row rfl (fun _ _ _ ⟨known, ok, used, weighs, rises⟩ => shapePartSet_setsTags known ok used weighs rises)
      fun _ _ _ h => h
  case limit =>
    exact fun mb s => .of_row rfl (fun _ _ _ ⟨nonzero, few, fits, rate, burst, both⟩ =>
      limitSet_writes nonzero few fits rate burst both) fun _ _ _ h => h

end Sys2Proof.Machine

namespace Sys2Proof.Machine
open Sys2Proof

/-! ## Blocks, frames, replay and spill -/

section
variable {p : Fin 17} {s : State}

theorem b2n_add_eq_zero {a b : Bool} : b2n a + b2n b = 0 ↔ a = false ∧ b = false := by
  cases a <;> simp [b2n]

/-- A port that a block reaches measures it and counts its corrected symbols; whether a codeword is uncorrectable decides what follows (R291). -/
theorem execFecBlockReceive_eq {b : FecBlock} (listens : 2 ≤ (s.port p.val).state.toNat) : ∃ x : Port,
    execFecBlockReceive p b s =
      (let u := if b.corrected = [] then s.setPort p.val x else (s.setPort p.val x).bumpBy (portBlk p.val + 8) b.corrected.length
       let bad := b2n b.bad0 + b2n b.bad1
       if bad = 0 then .next (u.each [b.f0, b.f1, b.f2, b.f3, b.f4] fun s f => s.flitIn p.val f)
       else .next (if (s.port p.val).state = 3 then (u.bumpBy (portBlk p.val + 16) bad).setNak p.val
         else u.bumpBy (portBlk p.val + 16) bad))
    ∧ x.lastBlock = (if b2n b.bad0 + b2n b.bad1 = 0 then s.now else (s.port p.val).lastBlock) ∧ x.state = (s.port p.val).state
    ∧ x.exp = (s.port p.val).exp ∧ x.store = (s.port p.val).store := by
  unfold execFecBlockReceive
  dsimp only
  simp only [List.isEmpty_iff]
  exact ⟨_, if_neg (Nat.not_lt.mpr listens), rfl, rfl, rfl, rfl⟩

/-- The flits of a block without an uncorrectable codeword are received in order. -/
theorem execFecBlockReceive_good {b : FecBlock} (listens : 2 ≤ (s.port p.val).state.toNat) (good0 : b.bad0 = false) (good1 : b.bad1 = false) :
    ∃ x : Port, execFecBlockReceive p b s = .next
      ((if b.corrected = [] then s.setPort p.val x else (s.setPort p.val x).bumpBy (portBlk p.val + 8) b.corrected.length).each
        [b.f0, b.f1, b.f2, b.f3, b.f4] fun s f => s.flitIn p.val f)
    ∧ x.lastBlock = s.now ∧ x.state = (s.port p.val).state ∧ x.exp = (s.port p.val).exp ∧ x.store = (s.port p.val).store := by
  obtain ⟨x, row, lastBlock, kept⟩ := execFecBlockReceive_eq (b := b) listens
  have good := b2n_add_eq_zero.mpr ⟨good0, good1⟩
  exact ⟨x, row.trans (if_pos good), lastBlock.trans (if_pos good), kept⟩

/-- A port in UP discards a block with an uncorrectable codeword, counts it and asks for a replay. -/
theorem execFecBlockReceive_bad {b : FecBlock} (up : (s.port p.val).state = 3) (bad : b.bad0 = true ∨ b.bad1 = true) : ∃ x : Port,
    execFecBlockReceive p b s = .next
      (((if b.corrected = [] then s.setPort p.val x else (s.setPort p.val x).bumpBy (portBlk p.val + 8) b.corrected.length).bumpBy
        (portBlk p.val + 16) (b2n b.bad0 + b2n b.bad1)).setNak p.val)
    ∧ x.lastBlock = (s.port p.val).lastBlock ∧ x.state = 3 ∧ x.exp = (s.port p.val).exp ∧ x.store = (s.port p.val).store := by
  obtain ⟨x, row, lastBlock, state, kept⟩ := execFecBlockReceive_eq (b := b) (show 2 ≤ (s.port p.val).state.toNat by simp [up])
  have bad : b2n b.bad0 + b2n b.bad1 ≠ 0 := mt b2n_add_eq_zero.mp fun ⟨good0, good1⟩ => by simp [good0, good1] at bad
  exact ⟨x, row.trans ((if_neg bad).trans (congrArg Host.Outcome.next (if_pos up))), lastBlock.trans (if_neg bad), state.trans up, kept⟩

/-- A port in UP that runs no replay and has sent its last frame starts the next one, by the rule of its link. -/
theorem execPortFrameStart_starts (up : (s.port p.val).state = 3) (replay : (s.port p.val).replay = none)
    (sent : ∀ f ∈ (s.port p.val).store, f.sentAt ≠ none) :
    execPortFrameStart p s = .next (if p.val = 16 then s.qoreusFrame else s.svaopFrame p.val) := by
  have allSent : ((s.port p.val).store.all (·.sentAt.isSome)) = true :=
    List.all_eq_true.mpr fun f mem => Option.isSome_iff_ne_none.mpr (sent f mem)
  exact if_pos (by simp [up, replay, allSent])

theorem execFecBlockTransmit_sends (sends : (s.port p.val).state = 3 ∨ (s.port p.val).state = 4
    ∨ ((s.port p.val).state = 2 ∧ (s.port p.val).train.step = 5)) : execFecBlockTransmit p s = .next (s.sendBlock p.val) :=
  if_pos (by simpa [or_assoc] using sends)

theorem execNakRepeatTimer_repeats (up : (s.port p.val).state = 3) (hold : (s.port p.val).nakHold = true)
    (late : (s.port p.val).nakAt + 2000 + (s.port p.val).rtt.toNat ≤ s.now) :
    execNakRepeatTimer p s = .next (s.setPort p.val { s.port p.val with nakSend := true, nakAt := s.now }) :=
  if_pos (by simp [up, hold, late])

theorem execReplayTimeout_restarts {f : TxFlit} {l : List TxFlit} {t : Nat} (oldest : (s.port p.val).store = f :: l) (sent : f.sentAt = some t)
    (up : (s.port p.val).state = 3) (replay : (s.port p.val).replay = none) (late : t + 8000 + (s.port p.val).rtt.toNat < s.now) :
    execReplayTimeout p s = .next (s.startReplay p.val) := by
  have first : (s.port p.val).store.head?.bind (·.sentAt) = some t := by rw [oldest]; exact sent
  unfold execReplayTimeout
  dsimp only
  rw [first]
  exact if_pos (by simp [up, replay, late])

theorem execSpillWrite_spills (svaop : p.val < 16) (full : 2048 ≤ (s.port p.val).onDie.length) : execSpillWrite p s = .next (s.spillGroup p.val) :=
  if_pos (by simp [svaop, full])

/-- A group that goes to the spill region is of 8 flits when as many are on die. -/
theorem State.spillGroup_eight {p : Nat} (full : 8 ≤ (s.port p).onDie.length) : s.spillGroup p =
    (let g := (s.port p).onDie.take 8
     let l := (s.port p).store.map fun f => if g.any (·.seq = f.seq) then { f with spill := true } else f
     ((s.setPort p { s.port p with store := l }).bumpBy (portBlk p + 8 + 8 * 6) 8).each g fun s f => s.spillReq p f true) := by
  unfold spillGroup
  dsimp only
  rw [List.length_take_of_le full]

end

/-- Settles O36: each row is one guard of the link layer and the operation that it allows; a block splits on its uncorrectable codewords. -/
theorem blockRows : Obligations.BlockRows := by
  unfold Obligations.BlockRows
  refine ⟨fun p b s => execFecBlockReceive_good, fun p b s => execFecBlockReceive_bad, ?svaop, ?qoreus, fun p s => execFecBlockTransmit_sends,
    fun p s => execNakRepeatTimer_repeats, fun p f l t s => execReplayTimeout_restarts, ?spill⟩
  case svaop =>
    intro p s svaop up replay sent
    exact (execPortFrameStart_starts up replay sent).trans (congrArg Host.Outcome.next (if_neg (by omega)))
  case qoreus =>
    intro s up replay sent
    exact (execPortFrameStart_starts (p := 16) up replay sent).trans (congrArg Host.Outcome.next (if_pos rfl))
  case spill =>
    intro p s svaop full
    exact (execSpillWrite_spills svaop full).trans (congrArg Host.Outcome.next (State.spillGroup_eight (Nat.le_trans (by decide) full)))

end Sys2Proof.Machine

namespace Sys2Proof.Machine
open Sys2Proof

/-! ## The channels and the timers of the stacks -/

section
variable {s : State} {n : Fin 8} {c : Fin 16}

/-! ### Admission and scheduling -/

theorem State.admitNext_admits {n f : Nat} {r : Req} (admits : (s.stack n).paused = false) (runs : (s.stack n).state = 2)
    (flow : s.pickFlow n = some f) (head : s.flowHead n f = some r) : s.admitNext n =
      (let x := s.stack n
       (s.setStack n (s.afterServe { x with
         queue := x.queue.erase r, delaySum := x.delaySum + (s.now - r.arrived), delayCnt := x.delayCnt + 1
         thrNext := x.slowNext s.now r.cost, capNext := if f < 3 then x.capNext else s.capAfter x r.cost
         chans := tput {} x.chans (lineChan r.line) { x.chan (lineChan r.line) with
           entries := (x.chan (lineChan r.line)).entries ++ [{ r with admitted := s.now }] } } f)).refill n x.wait) := by
  unfold admitNext
  dsimp only
  rw [if_neg (by simp [admits, runs]), flow]
  dsimp only
  rw [head]
  rfl

theorem State.admitNext_idle {n : Nat} (idle : (s.stack n).state ≠ 2) : s.admitNext n = s := if_pos (by simpa using Or.inr idle)

theorem execDramSchedule_issues {m : BitVec 64} {r : Req} (serves : ((s.stack n.val).chan c.val).blackout = false)
    (runs : (s.stack n.val).state = 2 ∨ (s.stack n.val).state = 3)
    (picks : ((s.stack n.val).chan c.val).pick m
      (((s.stack n.val).chan c.val).drains || ((s.stack n.val).chan c.val).entries.all Req.isWrite) s.now = some r) :
    execDramSchedule n c m s = .next ((s.modChan n.val c.val fun x =>
        { x with draining := x.drains, entries := x.entries.erase r, issued := x.issued ++ [r] }).openRow n.val c.val (lineBankNo r.line)
      (lineRow r.line) ((((s.stack n.val).chan c.val).entries.erase r).any fun q =>
        lineBankNo q.line == lineBankNo r.line && lineRow q.line == lineRow r.line)) := by
  have issues : ¬ (((s.stack n.val).chan c.val).blackout || ((s.stack n.val).state ≠ 2 && (s.stack n.val).state ≠ 3)) = true := by
    rcases runs with runs | runs <;> simp [serves, runs]
  unfold execDramSchedule
  dsimp only
  rw [if_neg issues, picks]
  rfl

section
variable {n c b row : Nat} {keep : Bool}

/-- A bank whose row is used: the row stays open or is closed (R372). -/
def State.rowUsed (s : State) (n c b row : Nat) (keep : Bool) : State :=
  s.modChan n c fun x => { x with openRow := tput none x.openRow b (if keep then some row else none) }

theorem State.openRow_hit (hit : tget none ((s.stack n).chan c).openRow b = some row) : s.openRow n c b row keep = s.rowUsed n c b row keep :=
  if_pos (by simpa using hit)

theorem State.openRow_miss (miss : tget none ((s.stack n).chan c).openRow b ≠ some row) : s.openRow n c b row keep =
    (let u := s.rowUsed n c b row keep
     if Config.rowDraw u.fresh then (({ u with fresh := u.fresh + 1 }).modChan n c fun x =>
       { x with nref := some (b, u.nv.neighbours ((n * 16 + c) * 64 + b) row) }).bump (stackBlk n) 4
     else { u with fresh := u.fresh + 1 }) :=
  if_neg (by simpa using miss)

end

/-! ### The end of an access -/

theorem execDramAccessDone_dark {c0 c1 : RawEcc} {r : Req} {l : List Req} (issued : ((s.stack n.val).chan c.val).issued = r :: l)
    (dark : ((s.stack n.val).chan c.val).blackout = true) : execDramAccessDone n c c0 c1 s = .next s := by
  unfold execDramAccessDone
  dsimp only
  rw [issued]
  exact if_pos dark

theorem execDramAccessDone_spill {c0 c1 : RawEcc} {r : Req} {l : List Req} {p : Nat} {q : BitVec 16} {h w : Bool}
    (issued : ((s.stack n.val).chan c.val).issued = r :: l) (serves : ((s.stack n.val).chan c.val).blackout = false)
    (org : r.org = .spill p q h w) : execDramAccessDone n c c0 c1 s = .next
      (((s.modChan n.val c.val fun x => { x with issued := l }).spillEnd r p q h w c0 c1).serveReads n.val c.val r) := by
  have ends (u : State) : u.accessDone r c0 c1 = u.spillEnd r p q h w c0 c1 := by
    unfold State.accessDone
    rw [org]
  unfold execDramAccessDone
  dsimp only
  rw [issued]
  exact (if_neg (by simp [serves])).trans (by rw [ends])

/-! ### Refresh -/

section
variable {b : Fin 64}

/-- The time at which a bank's next refresh falls due: each postponed refresh puts it off by one interval (R374). -/
def Stack.dueAt (x : Stack) (c b : Nat) : Nat :=
  tget 0 (x.chan c).refreshed b + (tget 0 (x.chan c).postponed b + 1) * x.refreshNs

theorem execRefreshDue_early (early : s.now < (s.stack n.val).dueAt c.val b.val) : execRefreshDue n c b s = .next s :=
  if_pos (by simpa using .inr early)

theorem execRefreshDue_late (runs : (s.stack n.val).state = 2 ∨ (s.stack n.val).state = 3) (late : (s.stack n.val).dueAt c.val b.val ≤ s.now) :
    execRefreshDue n c b s =
      if ((s.stack n.val).chan c.val).blackout || (s.stack n.val).state = 3 then
        .next (s.modChan n.val c.val fun x => { x with postponed := tmod 0 x.postponed b.val fun k => min 8 (k + 1) })
      else .next (s.modChan n.val c.val fun x =>
        { x with refreshed := tput 0 x.refreshed b.val s.now, openRow := tput none x.openRow b.val none }) :=
  if_neg (by rcases runs with runs | runs <;> simpa [runs, Stack.dueAt] using late)

theorem execRefreshDue_issued (runs : (s.stack n.val).state = 2) (serves : ((s.stack n.val).chan c.val).blackout = false)
    (late : (s.stack n.val).dueAt c.val b.val ≤ s.now) : execRefreshDue n c b s = .next (s.modChan n.val c.val fun x =>
      { x with refreshed := tput 0 x.refreshed b.val s.now, openRow := tput none x.openRow b.val none }) :=
  (execRefreshDue_late (.inl runs) late).trans (if_neg (by simp [serves, runs]))

theorem execRefreshDue_postponed
    (waits : (s.stack n.val).state = 2 ∧ ((s.stack n.val).chan c.val).blackout = true ∨ (s.stack n.val).state = 3)
    (late : (s.stack n.val).dueAt c.val b.val ≤ s.now) : execRefreshDue n c b s = .next (s.modChan n.val c.val fun x =>
      { x with postponed := tmod 0 x.postponed b.val fun k => min 8 (k + 1) }) :=
  (execRefreshDue_late (waits.imp_left And.left) late).trans (if_pos (by simpa using waits.imp_left And.right))

end

theorem Stack.refreshNs_eq (x : Stack) : x.refreshNs = if x.hot = true then 1953 else 3906 := by
  unfold refreshNs
  split <;> rfl

/-! ### Calibration -/

section
variable (runs : (s.stack n.val).state = 2) (good : (s.stack n.val).failed.getLsbD c.val = false)
include runs good

theorem execCalibrationDue_eq : execCalibrationDue n c s =
    if !(s.stack n.val).dark && ((s.stack n.val).chan c.val).issued.isEmpty && (s.schedState = 0 || s.quiet) then .next (s.blackout n.val c.val)
    else .next (s.modChan n.val c.val fun x => { x with calDue := !x.blackout }) :=
  if_neg (by rw [runs, good]; decide)

theorem execCalibrationDue_begins (lit : (s.stack n.val).dark = false) (idle : ((s.stack n.val).chan c.val).issued = [])
    (time : s.schedState = 0 ∨ s.quiet = true) : execCalibrationDue n c s = .next (s.blackout n.val c.val) :=
  (execCalibrationDue_eq runs good).trans (if_pos (by simpa [lit, idle] using time))

theorem execCalibrationDue_waits
    (waits : (s.stack n.val).dark = true ∨ ((s.stack n.val).chan c.val).issued ≠ [] ∨ (s.schedState ≠ 0 ∧ s.quiet = false)) :
    execCalibrationDue n c s = .next (s.modChan n.val c.val fun x => { x with calDue := !x.blackout }) := by
  refine (execCalibrationDue_eq runs good).trans (if_neg ?_)
  rcases waits with dark | issued | ⟨sched, loud⟩
  · simp [dark]
  · simp [issued]
  · simp [sched, loud]

theorem execCalibrationForced_begins (sched : s.schedState ≠ 0) (free : s.schedBusy = false) (lit : (s.stack n.val).dark = false)
    (idle : ((s.stack n.val).chan c.val).issued = []) (late : ((s.stack n.val).chan c.val).lastCal + 200000000 ≤ s.now) :
    execCalibrationForced n c s = .next
      (((s.blackout n.val c.val).bump (stackBlk n.val) 6).logErr (errRec 0x33 0 none (chanUnit n.val c.val) c.val)) :=
  if_pos (by rw [good]; simp [runs, sched, free, lit, idle, late])

end

/-- Before the third failed retrain in succession a blackout ends, and its channel goes on (R376, R390). -/
theorem execCalibrationDone_ends {ok : Bool} (dark : ((s.stack n.val).chan c.val).blackout = true)
    (few : (if ok then 0 else ((s.stack n.val).chan c.val).phyFails + 1) < 3) :
    execCalibrationDone n c ok s = .next ((s.modChan n.val c.val fun x =>
      { x.catchUp s.now with
        blackout := false, lastCal := s.now, phyFails := if ok then 0 else ((s.stack n.val).chan c.val).phyFails + 1 }).bump
          (stackBlk n.val) 5) :=
  (if_neg (by simp [dark])).trans (congrArg Host.Outcome.next (if_neg (Nat.not_le.mpr few)))

theorem execStackControllerFailure_fails (en : s.stackEn n.val = true) (trained : 2 ≤ (s.stack n.val).state.toNat)
    (alive : (s.stack n.val).state ≠ 5) : execStackControllerFailure n s = .next (s.chansFail n.val 0 true none) :=
  if_pos (by simpa [en, trained] using alive)

/-! ### Samples and the patrol -/

theorem execLoadInterval_samples (due : s.hubNs % 1000 = 0) : execLoadInterval s = .next (s.each s.stackList fun s n => s.modStack n fun x =>
    { x with lastMean := if x.delayCnt = 0 then 0 else x.delaySum / x.delayCnt, delaySum := 0, delayCnt := 0 }) :=
  if_pos due

section
variable {c0 c1 : RawEcc} {l : Nat} (line : l = n.val * stackLines + (s.stack n.val).patrol) (en : s.stackEn n.val = true)
  (runs : (s.stack n.val).state = 2) (due : (s.stack n.val).patrolAt + s.patrolNs ≤ s.now)
  (used : (s.stack n.val).diag = true → lineChan l ≠ 15) (good : (s.stack n.val).failed.getLsbD (lineChan l) = false)
include line en runs due used good

/-- A line that is due and not passed over waits for its channel and for the pace of background work (R276, R389). -/
theorem execPatrolStep_eq : execPatrolStep n c0 c1 s =
    if ((s.stack n.val).chan (lineChan l)).blackout || !s.paceOk n.val then .next s
    else .next ((((s.patrolOn n.val).pace n.val 128).useRow l).patrolLine l c0 c1) := by
  subst line
  unfold execPatrolStep
  dsimp only
  rw [if_neg (by simp [en, runs, due]), if_neg (by simpa [good] using used)]

theorem execPatrolStep_reads (serves : ((s.stack n.val).chan (lineChan l)).blackout = false) (pace : s.paceOk n.val = true) :
    execPatrolStep n c0 c1 s = .next ((((s.patrolOn n.val).pace n.val 128).useRow l).patrolLine l c0 c1) :=
  (execPatrolStep_eq line en runs due used good).trans (if_neg (by simp [serves, pace]))

theorem execPatrolStep_waits (waits : ((s.stack n.val).chan (lineChan l)).blackout = true ∨ s.paceOk n.val = false) :
    execPatrolStep n c0 c1 s = .next s :=
  (execPatrolStep_eq line en runs due used good).trans (if_pos (by simpa using waits))

end

/-! ### Rate changes -/

/-- The timing set that a stack does not run on takes a timing word. -/
theorem Stack.ite_timing (x : Stack) (w : Word) : (if x.tset then { x with timA := w } else { x with timB := w }) =
    { x with timA := if x.tset then w else x.timA, timB := if x.tset then x.timB else w } := by
  split <;> rfl

/-- When the stack that changes its rate leaves the change, the next one starts. -/
theorem State.rateDrop_current {n : Nat} (current : (List.range 8).find? s.mem.rcMask.getLsbD = some n) : s.rateDrop n =
    ({ s with mem := { s.mem with rcMask := s.mem.rcMask &&& ~~~(BitVec.ofNat 8 (1 <<< n)) } }).rateNext :=
  if_pos (by simp [current])

theorem execRateChangeStackDone_changes {n : Nat} (current : (List.range 8).find? s.mem.rcMask.getLsbD = some n) (on : s.mem.rcOn = true)
    (pauses : (s.stack n).state = 3)
    (empty : ∀ c ∈ (s.stack n).chans, c.2.entries = [] ∧ c.2.issued = [] ∧ c.2.blackout = false) : ∃ x : Stack,
    execRateChangeStackDone s = .next
      ({ (s.setStack n x).bumpBy (stackBlk n + 8 + 8 * 5) ((List.range 16).filter fun c => !(s.stack n).failed.getLsbD c).length with
           mem := { s.mem with rcMask := s.mem.rcMask &&& ~~~(BitVec.ofNat 8 (1 <<< n)) } }).rateNext
      ∧ x.rate = (if s.mem.rcLower then (s.stack n).rate + 1 else s.mem.rcCode) ∧ x.tset = !(s.stack n).tset
      ∧ (if x.tset then x.timB else x.timA) = s.nv.timingOf n x.rate ∧ x.state = 2 ∧ x.paused = false ∧ x.queue = (s.stack n).queue
      ∧ x.failed = (s.stack n).failed := by
  have idle : ((s.stack n).chans.any fun c => !c.2.entries.isEmpty || !c.2.issued.isEmpty || c.2.blackout) = false :=
    List.any_eq_false.mpr fun c mem => by
      obtain ⟨entries, issued, lit⟩ := empty c mem
      simp [entries, issued, lit]
  unfold execRateChangeStackDone
  rw [current]
  dsimp only
  rw [if_neg (by simp [on, pauses, idle]), State.rateDrop_current (by simpa using current), Stack.ite_timing, State.bumpBy_mem,
    State.setStack_mem]
  refine ⟨_, rfl, rfl, rfl, ?timing, rfl, rfl, rfl, rfl⟩
  cases (s.stack n).tset <;> rfl

end

/-- Settles O23: each row is one guard of a channel or a timer and the operation that it allows; of a rate change, only the stack that changes
and its place in the mask are touched before the next one starts; of the histograms the row writes out the definition. -/
theorem channelRows : Obligations.ChannelRows := by
  unfold Obligations.ChannelRows
  refine ⟨?admits, ?idle, fun n c m r s => execDramSchedule_issues, ?openRow, ?done, fun n c b s => execRefreshDue_issued,
    fun n c b s => execRefreshDue_postponed, fun n c b s => execRefreshDue_early, Stack.refreshNs_eq,
    fun n c s => execCalibrationDue_begins, fun n c s => execCalibrationDue_waits, fun n c s => execCalibrationForced_begins, ?passed, ?failed,
    fun n s => execStackControllerFailure_fails, fun s => execLoadInterval_samples, fun s => rfl, ?patrol,
    fun n s => execRateChangeStackDone_changes⟩
  case admits =>
    intro n f r s admits runs flow head
    exact congrArg Host.Outcome.next (State.admitNext_admits admits runs flow head)
  case idle =>
    intro n s idle
    exact congrArg Host.Outcome.next (State.admitNext_idle idle)
  case openRow =>
    intro n c b row keep s
    exact ⟨s.rowUsed n c b row keep, rfl, State.openRow_hit, State.openRow_miss⟩
  case done =>
    intro n c c0 c1 r l s issued
    exact ⟨execDramAccessDone_dark issued, exec_dramAccessDone_request issued, fun p q h w => execDramAccessDone_spill issued⟩
  case passed =>
    intro n c s dark
    exact execCalibrationDone_ends (ok := true) dark (by simp)
  case failed =>
    intro n c s dark few
    exact execCalibrationDone_ends (ok := false) dark (by simp; omega)
  case patrol =>
    intro n c0 c1 s en runs due used good
    exact ⟨fun ⟨serves, pace⟩ => execPatrolStep_reads rfl en runs due used good serves pace, execPatrolStep_waits rfl en runs due used good⟩

end Sys2Proof.Machine

namespace Sys2Proof.Machine
open Sys2Proof

/-! ## Training -/

section
variable {p : Fin 17} {s : State}

theorem Port.retryDue_iff {x : Port} {now : Nat} :
    x.retryDue now = true ↔ x.auto = true ∧ (x.lastDown = 0 ∨ x.lastDown = 6 ∨ x.downAt + 100000000 ≤ now) := by
  simp [Port.retryDue, or_assoc]

/-- A DOWN port with EN starts step 1, on a signal, or on a retry that is due. -/
theorem execTrainingStart_starts {g : TrainTrigger} (enabled : s.portEn p.val = true) (on : s.portsOn = true)
    (down : (s.port p.val).state = 1) (en : (s.port p.val).en = true)
    (trigger : g = .signal p ∨ (g = .retry p ∧ (s.port p.val).retryDue s.now = true)) :
    execTrainingStart g s
      = .next (s.setPort p.val { s.port p.val with state := 2, train := { step := 1, at_ := s.now }, lctl := [] }) := by
  have ready : (s.portEn p.val && s.portsOn && (s.port p.val).state = 1 && (s.port p.val).en) = true := by
    simp [enabled, on, down, en]
  rcases trigger with rfl | ⟨rfl, due⟩
  · exact congrArg Host.Outcome.next (if_pos ready)
  · exact congrArg Host.Outcome.next ((if_pos due).trans (if_pos ready))

/-- A port that is not DOWN does not start, nor does a retry that is not due start one. -/
theorem execTrainingStart_stays {g : TrainTrigger}
    (idle : ((g = .signal p ∨ g = .retry p) ∧ (s.port p.val).state ≠ 1) ∨ (g = .retry p ∧ (s.port p.val).retryDue s.now = false)) :
    execTrainingStart g s = .next s := by
  have stays (up : (s.port p.val).state ≠ 1) :
      ¬(s.portEn p.val && s.portsOn && (s.port p.val).state = 1 && (s.port p.val).en) = true := by
    simp only [decide_eq_false up, Bool.and_false, Bool.false_and, Bool.false_eq_true, not_false_eq_true]
  rcases idle with ⟨rfl | rfl, up⟩ | ⟨rfl, early⟩
  · exact congrArg Host.Outcome.next (if_neg (stays up))
  · exact congrArg Host.Outcome.next ((ite_congr rfl (fun _ => if_neg (stays up)) fun _ => rfl).trans (ite_self s))
  · exact congrArg Host.Outcome.next (if_neg (by simp [early]))

/-- The marker of R529: SHORT in bit 12, above the EID. -/
theorem State.marker_eid (s : State) (p : Nat) : (s.marker p).extractLsb' 0 12 = s.node.eid := by
  have apart : (0x1000#16).extractLsb' 0 12 = 0 := rfl
  have kept : (s.node.eid.setWidth 16).extractLsb' 0 12 = s.node.eid := by
    rw [← BitVec.setWidth_eq_extractLsb' (by decide)]
    exact BitVec.setWidth_setWidth_of_le _ (by decide)
  cases short : (s.port p).shortOk && (s.port p).coeffs <;> simp [marker, short, kept, apart, BitVec.extractLsb'_or]

theorem State.marker_short (s : State) (p : Nat) : (s.marker p).getLsbD 12 = ((s.port p).shortOk && (s.port p).coeffs) := by
  cases short : (s.port p).shortOk && (s.port p).coeffs <;> simp [marker, short]

theorem State.shortTraining_iff {p : Nat} {v : BitVec 16} : s.shortTraining p v = true ↔
    (s.marker p).getLsbD 12 = true ∧ v.getLsbD 12 = true ∧ (s.port p).coeffEid = v.extractLsb' 0 12 := by
  simp [shortTraining, and_assoc]

/-! ### Steps (R296, R297, R529) -/

section
variable {v : BitVec 16} {l : Byte} {u : State} (trains : (s.port p.val).state = 2)
include trains

theorem execTrainingStepDone_ok_one (step : (s.port p.val).train.step = 1) :
    execTrainingStepDone p (.ok v l) s = .next (s.setPort p.val { s.port p.val with train := { (s.port p.val).train with
      step := 2, at_ := s.now, short := s.shortTraining p.val v, marker := v } }) := by
  unfold execTrainingStepDone
  dsimp only
  rw [if_neg (not_not_intro trains), step]
  rfl

theorem execTrainingStepDone_ok_two (step : (s.port p.val).train.step = 2) :
    execTrainingStepDone p (.ok v l) s = .next (s.setPort p.val { s.port p.val with
      train := { (s.port p.val).train with step := 3, at_ := s.now }, coeffs := true
      coeffEid := (s.port p.val).train.marker.extractLsb' 0 12 }) := by
  unfold execTrainingStepDone
  dsimp only
  rw [if_neg (not_not_intro trains), step]
  rfl

theorem execTrainingStepDone_ok_four (step : (s.port p.val).train.step = 4) :
    execTrainingStepDone p (.ok v 0xFF) s = .next (s.setPort p.val { s.port p.val with
      train := { (s.port p.val).train with step := 5, at_ := s.now }, laneOk := 0xFF
      lctl := (s.port p.val).lctl ++ [lctlFlit (ownParam s p.val).flitBody] }) := by
  unfold execTrainingStepDone
  dsimp only
  rw [if_neg (not_not_intro trains), step]
  rfl

theorem execTrainingStepDone_ok_five (step : (s.port p.val).train.step = 5)
    (noted : u = s.setPort p.val { s.port p.val with rtt := v, train := { (s.port p.val).train with gotRtt := true } }) :
    execTrainingStepDone p (.ok v l) s = .next (if (s.port p.val).train.gotParam then u.portUp p.val else u) := by
  subst noted
  unfold execTrainingStepDone
  dsimp only
  rw [if_neg (not_not_intro trains), step]
  rfl

theorem execTrainingStepDone_failed : execTrainingStepDone p (.failed l) s
    = .next ((s.modPort p.val fun x => if x.train.step = 4 then { x with laneOk := l } else x).trainFail p.val 7) :=
  if_neg (not_not_intro trains)

theorem execTrainingStepTimeout_fails
    (late : (s.port p.val).train.at_ + stepBound (s.port p.val).train.step (s.port p.val).train.short < s.now) :
    execTrainingStepTimeout p s = .next (s.trainFail p.val 7) :=
  if_pos (by simp [trains, late])

/-! ### PARAM (R298, R354) -/

theorem State.paramIn_bad {b : ParamBody} (step : (s.port p.val).train.step = 5) (bad : paramBodyOk p.val b = false) :
    s.paramIn p.val b = s.trainFail p.val 8 :=
  (if_neg (by simp [trains, step])).trans (if_pos (by simp [bad]))

/-- A valid PARAM at a Svaop port, which has no snoop credits. -/
theorem State.paramIn_svaop {b : ParamBody} {u : State} (svaop : p.val < 16) (step : (s.port p.val).train.step = 5)
    (ok : paramBodyOk p.val b = true) (taken : u = s.setPort p.val { s.port p.val with
      train := { (s.port p.val).train with gotParam := true }, peerEid := b.eid, peerCaps := b.caps
      credReq := b.credReq.setWidth 15, credRsp := b.credRsp.setWidth 15, credSnp := 0
      cred := tput 0 (tput 0 (tput 0 [] 0 b.credReq.toNat) 1 b.credRsp.toNat) 2 0 }) :
    s.paramIn p.val b = if (s.port p.val).train.gotRtt then u.portUp p.val else u := by
  have notHost : p.val ≠ 16 := svaop.ne
  subst taken
  unfold paramIn
  dsimp only
  rw [if_neg (by simp [trains, step]), if_neg (by simp [ok])]
  simp [notHost]

end

theorem State.portUp_svaop {p : Nat} (svaop : p < 16) : s.portUp p = s.modPort p fun x =>
    { x with state := 3, train := {}, shortOk := false, nextSeq := 0, lastAck := 0xFFFF, exp := 0, crr := 0, crs := 0, crn := 0
             lastBlock := s.now, lastData := s.now, tsxAt := s.now } :=
  if_neg svaop.ne

end

/-- Settles O33: each row is one step of training with its guard; what ends training is `trainFail` or `portUp`. -/
theorem trainingRows : Obligations.TrainingRows := by
  unfold Obligations.TrainingRows
  refine ⟨fun p g s => execTrainingStart_starts, fun p g s => execTrainingStart_stays, fun x now => Port.retryDue_iff,
    fun p v l s => execTrainingStepDone_ok_one, fun p v s => ⟨State.shortTraining_iff, s.marker_eid p, s.marker_short p⟩,
    fun p v l s => execTrainingStepDone_ok_two, fun p v s => execTrainingStepDone_ok_four,
    fun p v l s u => execTrainingStepDone_ok_five, fun p l s => execTrainingStepDone_failed,
    fun p s => execTrainingStepTimeout_fails, ?bad, ?valid, fun p s => State.portUp_svaop⟩
  case bad =>
    intro p b s trains step bad
    exact congrArg Host.Outcome.next (State.paramIn_bad trains step bad)
  case valid =>
    intro p b s u svaop trains step ok taken
    exact congrArg Host.Outcome.next (State.paramIn_svaop trains svaop step ok taken)

end Sys2Proof.Machine

namespace Sys2Proof.Machine
open Sys2Proof

/-! ## Retrain and link-down -/

/-- The retrains of a port within the last 100 ms (R296). -/
def Port.recentRetrains (x : Port) (now : Nat) : List Nat := x.retrains.filter fun t => now < t + 100000000

/-- A port as its retrain begins (R307): one that joins its peer sends no RETRAIN_REQ, and a TSX that waits is dropped (R317). -/
def Port.retraining (x : Port) (cause : BitVec 4) (now : Nat) : Port :=
  { x with
    state := 4, retrainCause := cause, protoErr := false, gotResume := none, train := { step := 1, at_ := now }
    retrains := x.recentRetrains now ++ [now]
    lctl := (x.lctl.filter fun f => !isTsx f) ++ if cause = 6 then [] else [retrainReqFlit cause.toNat] }

@[simp] theorem State.bump_port (s : State) (blk k p : Nat) : (s.bump blk k).port p = s.port p := s.bumpBy_port _ 1 p

theorem RetrainCause.code_eq_peer {c : RetrainCause} : c.code = 6 ↔ c = .peer := by
  cases c <;> decide

section
variable {p : Nat} {cause : BitVec 4} {s : State} (up : (s.port p).state = 3)
include up

/-- The fourth retrain within 100 ms is FLAPPING (R296). -/
theorem State.retrain_flaps (many : 3 ≤ ((s.port p).recentRetrains s.now).length) :
    s.retrain p cause = (s.setPort p { s.port p with retrainCause := cause }).linkDown p 3 :=
  (if_neg (not_not_intro up)).trans (if_pos many)

/-- A retrain begins and is counted; Qoreus notes when (R363). -/
theorem State.retrain_begins (few : ((s.port p).recentRetrains s.now).length < 3) : s.retrain p cause =
    (let u := (s.setPort p ((s.port p).retraining cause s.now)).bump (portBlk p) 8
     if p = 16 then { u with qor := { u.qor with retrainAt := some u.now } } else u) :=
  (if_neg (not_not_intro up)).trans (if_neg (Nat.not_le.mpr few))

theorem State.retrain_svaop (svaop : p < 16) (few : ((s.port p).recentRetrains s.now).length < 3) :
    s.retrain p cause = (s.setPort p ((s.port p).retraining cause s.now)).bump (portBlk p) 8 :=
  (retrain_begins up few).trans (if_neg svaop.ne)

theorem State.retrain_port (few : ((s.port p).recentRetrains s.now).length < 3) :
    (s.retrain p cause).port p = (s.port p).retraining cause s.now := by
  rw [retrain_begins up few]
  dsimp only
  split
  · exact (bump_port _ _ _ _).trans (setPort_port_same _ _ _)
  · exact (bump_port _ _ _ _).trans (setPort_port_same _ _ _)

end

section
variable {p : Fin 17} {s : State}

theorem execRetrainTrigger_retrains {c : RetrainCause} (triggered : (s.port p.val).triggered c = true) :
    execRetrainTrigger p c s = .next (s.retrain p.val c.code) :=
  if_pos triggered

theorem execRetrainTrigger_begins {c : RetrainCause} (svaop : p.val < 16) (triggered : (s.port p.val).triggered c = true)
    (up : (s.port p.val).state = 3) (few : ((s.port p.val).recentRetrains s.now).length < 3) :
    execRetrainTrigger p c s = .next ((s.setPort p.val { s.port p.val with
      state := 4, retrainCause := c.code, protoErr := false, gotResume := none, train := { step := 1, at_ := s.now }
      retrains := (s.port p.val).recentRetrains s.now ++ [s.now]
      lctl := ((s.port p.val).lctl.filter fun f => !isTsx f) ++ if c = .peer then [] else [retrainReqFlit c.code.toNat] }).bump
        (portBlk p.val) 8) := by
  rw [execRetrainTrigger_retrains triggered, State.retrain_svaop up svaop few]
  simp only [Port.retraining, RetrainCause.code_eq_peer]

/-- A RETRAIN_REQ takes a Svaop port into the retrain of its peer, and leaves its replay store, DRAM and Qoreus. -/
theorem execRetrainReq_joins {b : Byte} (svaop : p.val < 16) (up : (s.port p.val).state = 3)
    (few : ((s.port p.val).recentRetrains s.now).length < 3) : ∃ t : State,
    execRetrainReq p b s = .next t ∧ (t.port p.val).state = 4 ∧ (t.port p.val).retrainCause = 6 ∧ (t.port p.val).train.step = 1
      ∧ (t.port p.val).store = (s.port p.val).store ∧ t.dram = s.dram ∧ t.qor = s.qor := by
  have qor : (s.retrain p.val 6).qor = s.qor := by
    rw [State.retrain_svaop up svaop few, State.bump_qor, State.setPort_qor]
  obtain ⟨-, -, -, dram, -, -⟩ := s.retrain_quiet p.val 6
  have port := State.retrain_port (cause := 6) up few
  exact ⟨s.retrain p.val 6, rfl, by rw [port]; rfl, by rw [port]; rfl, by rw [port]; rfl, by rw [port]; rfl, dram, qor⟩

/-! ### Steps (R308) -/

section
variable {v : BitVec 16} {l : Byte} (retrains : (s.port p.val).state = 4)
include retrains

/-- A step before the qualification goes on to the next one. -/
theorem execRetrainStepDone_goes (early : (s.port p.val).train.step + 1 < 5) :
    execRetrainStepDone p (.ok v l) s = .next (s.setPort p.val { s.port p.val with
      train := { (s.port p.val).train with step := (s.port p.val).train.step + 1 } }) := by
  have notLast : (s.port p.val).train.step + 1 ≠ 5 := early.ne
  unfold execRetrainStepDone
  dsimp only
  rw [if_neg (by simpa [retrains] using by omega), if_neg (by simp [notLast])]
  simp only [if_neg notLast]
  split <;> rfl

/-- RESUME is sent when every lane has passed its qualification. -/
theorem execRetrainStepDone_resumes (step : (s.port p.val).train.step = 4) (waits : (s.port p.val).gotResume = none) :
    execRetrainStepDone p (.ok v 0xFF) s = .next (s.setPort p.val { s.port p.val with
      train := { (s.port p.val).train with step := 5 }, laneOk := 0xFF, lctl := (s.port p.val).lctl ++ [resumeFlit] }) := by
  unfold execRetrainStepDone
  dsimp only
  rw [if_neg (by simp [retrains, step]), step, if_neg (by simp), waits]
  rfl

theorem execRetrainStepDone_failed (early : (s.port p.val).train.step < 5) : execRetrainStepDone p (.failed l) s
    = .next ((if (s.port p.val).train.step = 4 then s.setPort p.val { s.port p.val with laneOk := l } else s).linkDown p.val 2) :=
  if_neg (by simpa [retrains] using early)

theorem State.resumeIn_keeps (h : BitVec 16 × List (Nat × BitVec 16)) (early : (s.port p.val).train.step ≠ 5) :
    s.resumeIn p.val h = s.setPort p.val { s.port p.val with gotResume := some h } :=
  (if_neg (not_not_intro retrains)).trans (if_neg early)

theorem State.resumeIn_resumes (h : BitVec 16 × List (Nat × BitVec 16)) (last : (s.port p.val).train.step = 5) :
    s.resumeIn p.val h = s.resumed p.val h :=
  (if_neg (not_not_intro retrains)).trans (if_pos last)

theorem execRetrainTimeout_downs (late : (s.port p.val).train.at_ + 50000 < s.now) :
    execRetrainTimeout p s = .next (s.linkDown p.val 2) :=
  if_pos (by simp [retrains, late])

end

/-- A RESUME whose header R306 refuses is a protocol error. -/
theorem State.resumed_refused {p : Nat} {h : BitVec 16 × List (Nat × BitVec 16)} (bad : s.resumeHeader p h = none) :
    s.resumed p h = (s.bump (portBlk p) 10).linkDown p 9 := by
  rw [resumed, bad]

/-! ### Link-down and listening (R310, R524) -/

theorem Port.linked_iff {x : Port} : x.linked = true ↔ x.state = 3 ∨ x.state = 4 := by
  simp [Port.linked]

theorem execSignalLost_downs (linked : (s.port p.val).state = 3 ∨ (s.port p.val).state = 4)
    (late : (s.port p.val).lastBlock + 2000 ≤ s.now) : execSignalLost p s = .next (s.linkDown p.val 1) :=
  if_pos (by simp [Port.linked_iff.mpr linked, late])

theorem State.downIn_downs {r : Byte} (linked : (s.port p.val).state = 3 ∨ (s.port p.val).state = 4) :
    s.downIn p.val r = (s.setPort p.val { s.port p.val with shortOk := r = 0 }).linkDown p.val 5 :=
  if_pos (Port.linked_iff.mpr linked)

theorem State.downIn_stays {r : Byte} (notUp : (s.port p.val).state ≠ 3) (noRetrain : (s.port p.val).state ≠ 4) : s.downIn p.val r = s :=
  if_neg fun linked => (Port.linked_iff.mp linked).elim notUp noRetrain

theorem execPortListenIdle_listens (d1 : s.pwr.state = 1) (up : (s.port p.val).state = 3) (idle : (s.port p.val).lastData + 100000 ≤ s.now)
    (sent : (s.port p.val).store = []) (empty : s.frameQueued p.val = false) :
    execPortListenIdle p s = .next (s.setPort p.val { s.port p.val with listening := true }) :=
  if_pos (by simp [d1, up, idle, sent, empty])

end

/-- Settles O34: a trigger begins a retrain or is FLAPPING, by the retrains of the last 100 ms; every other row is one guard and its end. -/
theorem retrainRows : Obligations.RetrainRows := by
  unfold Obligations.RetrainRows
  refine ⟨fun p c s => execRetrainTrigger_begins, ?flaps, fun p b s => execRetrainReq_joins (b := b), fun p v l s => execRetrainStepDone_goes (v := v),
    fun p v s => execRetrainStepDone_resumes (v := v), fun p l s => execRetrainStepDone_failed, ?kept, ?resumed,
    fun p h s => State.resumed_refused, fun p s => execRetrainTimeout_downs, fun p s => execSignalLost_downs, ?down, ?stays,
    fun p s => execPortListenIdle_listens⟩
  case flaps =>
    intro p c s triggered up many
    exact (execRetrainTrigger_retrains triggered).trans (congrArg Host.Outcome.next (State.retrain_flaps up many))
  case kept =>
    intro p a s retrains early
    exact congrArg Host.Outcome.next (State.resumeIn_keeps retrains (a, []) early)
  case resumed =>
    intro p a s retrains last
    exact congrArg Host.Outcome.next (State.resumeIn_resumes retrains (a, []) last)
  case down =>
    intro p r s linked
    exact congrArg Host.Outcome.next (State.downIn_downs linked)
  case stays =>
    intro p r s notUp noRetrain
    exact congrArg Host.Outcome.next (State.downIn_stays notUp noRetrain)

end Sys2Proof.Machine

namespace Sys2Proof.Machine
open Sys2Proof

/-! ## Flits received -/

/-- What the header of a good flit does (R299, R306): its ACK and credits when they count now, then in UP its NAK. -/
def State.headIn (s : State) (p : Nat) (f : Flit) : State :=
  let u := if headerNow (s.port p).state f then s.applyHeader p f else s
  if (s.port p).state = 3 && f.nak then u.nakIn p f.ack else u

section
variable {p : Nat} {f : Flit} {s : State}

/-! ### The header -/

theorem State.headIn_up (up : (s.port p).state = 3) (quiet : f.nak = false) : s.headIn p f = s.applyHeader p f :=
  (if_neg (by simp [quiet])).trans (if_pos (by rw [up]; rfl))

theorem State.headIn_nak (up : (s.port p).state = 3) (nak : f.nak = true) : s.headIn p f = (s.applyHeader p f).nakIn p f.ack :=
  (if_pos (by simp [up, nak])).trans (congrArg (State.nakIn · p f.ack) (if_pos (by rw [up]; rfl)))

/-- In RETRAIN the header of any flit but RESUME counts when it comes. -/
theorem State.headIn_retrain (retrains : (s.port p).state = 4) (notResume : f.typ ≠ 2 ∨ f.byte 0 ≠ 4) :
    s.headIn p f = s.applyHeader p f := by
  have now : headerNow 4 f = true := by simpa [headerNow, imp_iff_not_or] using notResume
  exact (if_neg (by simp [retrains])).trans (if_pos (by rw [retrains, now]))

theorem State.headIn_resume (retrains : (s.port p).state = 4) (lctl : f.typ = 2) (resume : f.byte 0 = 4) : s.headIn p f = s :=
  (if_neg (by simp [retrains])).trans (if_neg (by simp [headerNow, retrains, lctl, resume]))

theorem State.headIn_training (trains : (s.port p).state = 2) : s.headIn p f = s :=
  (if_neg (by simp [trains])).trans (if_neg (by simp [headerNow, trains]))

/-! ### The flit (R293) -/

/-- A flit with a bad CRC is counted. -/
theorem State.flitIn_badCrc (bad : f.crcOk = false) :
    s.flitIn p f = if (s.port p).state = 3 then (s.bump (portBlk p) 2).setNak p else s.bump (portBlk p) 2 :=
  if_pos (by simp [bad])

section
variable (good : f.crcOk = true)
include good

theorem State.flitIn_reserved (up : (s.port p).state = 3) (typ : f.typ = 3) : s.flitIn p f = s.protoErr p :=
  (if_neg (by simp [good])).trans ((if_pos typ).trans (if_pos (by simp [up])))

theorem State.flitIn_idle (typ : f.typ = 0) : s.flitIn p f = s.headIn p f := by
  have branches : s.flitIn p f = _ := (if_neg (by simp [good])).trans (if_neg (by simp [typ]))
  exact branches.trans ((if_neg (by simp [typ])).trans (if_neg (by simp [typ])))

theorem State.flitIn_data (up : (s.port p).state = 3) (typ : f.typ = 1) : s.flitIn p f = (s.headIn p f).dataIn p f :=
  (if_neg (by simp [good])).trans ((if_neg (by simp [typ])).trans ((if_pos typ).trans (if_pos up)))

theorem State.flitIn_lctl (typ : f.typ = 2) : s.flitIn p f = (s.headIn p f).lctlIn p f :=
  (if_neg (by simp [good])).trans ((if_neg (by simp [typ])).trans ((if_neg (by simp [typ])).trans (if_pos typ)))

end

theorem exec_flitReceive_deaf {p : Fin 17} (down : (s.port p.val).state.toNat < 2) : exec (.flitReceive p f) s = .next s :=
  if_neg (Nat.not_le.mpr down)

theorem exec_flitReceive {p : Fin 17} (listens : 2 ≤ (s.port p.val).state.toNat) :
    exec (.flitReceive p f) s = .next (s.flitIn p.val f) :=
  if_pos listens

/-! ### NAK (R299) -/

/-- A NAK counted and noted at a port. -/
def State.nakNoted (s : State) (p : Nat) (a : BitVec 16) : State :=
  (s.bump (portBlk p) 4).setPort p
    { s.port p with nakSame := if (s.port p).lastNak = some a then (s.port p).nakSame + 1 else 1, lastNak := some a }

/-- A NAK starts a replay unless its ACK is that of the replay that started within a round trip. -/
theorem State.nakIn_eq (a : BitVec 16) : s.nakIn p a =
    if ((s.port p).replayAck.any fun r => r.1 = a && decide (s.now < r.2 + (s.port p).rtt.toNat)) = true then s.nakNoted p a
    else (s.nakNoted p a).startReplay p := by
  unfold nakIn nakNoted
  simp only [bump_port, beq_iff_eq]
  cases (s.port p).replayAck with
  | none => rfl
  | some r => simp

theorem State.nakIn_first {a : BitVec 16} (first : (s.port p).replayAck = none) : s.nakIn p a = (s.nakNoted p a).startReplay p :=
  (nakIn_eq a).trans (if_neg (by simp [first]))

theorem State.nakIn_ignored {a b : BitVec 16} {t : Nat} (replay : (s.port p).replayAck = some (b, t)) (same : b = a)
    (soon : s.now < t + (s.port p).rtt.toNat) : s.nakIn p a = s.nakNoted p a :=
  (nakIn_eq a).trans (if_pos (by simp [replay, same, soon]))

theorem State.nakIn_replays {a b : BitVec 16} {t : Nat} (replay : (s.port p).replayAck = some (b, t))
    (other : b ≠ a ∨ t + (s.port p).rtt.toNat ≤ s.now) : s.nakIn p a = (s.nakNoted p a).startReplay p :=
  (nakIn_eq a).trans (if_neg (by simpa [replay, imp_iff_not_or] using other))

/-! ### DATA and LCTL (R295, R299) -/

section
variable (svaop : p < 16)
include svaop

/-- A Svaop port decides by the sequence difference alone. -/
theorem State.dataIn_svaop : s.dataIn p f =
    if seqDiff f.seq (s.port p).exp = 0 then s.acceptFlit p f else if seqDiff f.seq (s.port p).exp < 0 then s else s.setNak p :=
  if_neg (by simp [svaop.ne])

theorem State.dataIn_gap (gap : 0 < seqDiff f.seq (s.port p).exp) : s.dataIn p f = s.setNak p :=
  (dataIn_svaop svaop).trans ((if_neg gap.ne').trans (if_neg gap.le.not_gt))

theorem State.dataIn_duplicate (duplicate : seqDiff f.seq (s.port p).exp < 0) : s.dataIn p f = s :=
  (dataIn_svaop svaop).trans ((if_neg duplicate.ne).trans (if_pos duplicate))

theorem State.dataIn_next (next : seqDiff f.seq (s.port p).exp = 0) : s.dataIn p f = s.acceptFlit p f :=
  (dataIn_svaop svaop).trans (if_pos next)

end

theorem State.lctlIn_reserved (msg : 5 < (f.byte 0).toNat ∨ (f.byte 0).toNat = 0) : s.lctlIn p f = s.bump (portBlk p) 13 := by
  unfold lctlIn
  split
  case h_6 => rfl
  all_goals omega

end

/-- Settles O35: a good flit is its header's effect, and then that of its TYPE; a row is one TYPE in one state of the port. -/
theorem flitRows : Obligations.FlitRows := by
  unfold Obligations.FlitRows
  refine ⟨fun p f s => exec_flitReceive_deaf, ?badCrc, ?badCrcUp, ?reserved, ?lctlAlone, ?lctlRetrain, ?data, ?dataNak, ?lctlUp, ?idle,
    fun p a s => ⟨State.nakIn_first, fun b t => State.nakIn_ignored, fun b t => State.nakIn_replays⟩, fun p f s => State.dataIn_gap,
    fun p f s => State.dataIn_duplicate, fun p f s => State.dataIn_next, fun p f s => State.lctlIn_reserved⟩
  case badCrc =>
    intro p f s bad state
    rcases state with trains | retrains
    · rw [exec_flitReceive (by simp [trains]), State.flitIn_badCrc bad, if_neg (by simp [trains])]
    · rw [exec_flitReceive (by simp [retrains]), State.flitIn_badCrc bad, if_neg (by simp [retrains])]
  case badCrcUp =>
    intro p f s bad up
    rw [exec_flitReceive (by simp [up]), State.flitIn_badCrc bad, if_pos up]
  case reserved =>
    intro p f s good typ up
    rw [exec_flitReceive (by simp [up]), State.flitIn_reserved good up typ, State.protoErr]
  case lctlAlone =>
    rintro p f s good typ (trains | ⟨retrains, resume⟩)
    · rw [exec_flitReceive (by simp [trains]), State.flitIn_lctl good typ, State.headIn_training trains]
    · rw [exec_flitReceive (by simp [retrains]), State.flitIn_lctl good typ, State.headIn_resume retrains typ resume]
  case lctlRetrain =>
    intro p f s good typ retrains notResume
    rw [exec_flitReceive (by simp [retrains]), State.flitIn_lctl good typ, State.headIn_retrain retrains (.inr notResume)]
  case data =>
    intro p f s good typ quiet up
    rw [exec_flitReceive (by simp [up]), State.flitIn_data good up typ, State.headIn_up up quiet]
  case dataNak =>
    intro p f s good typ nak up
    rw [exec_flitReceive (by simp [up]), State.flitIn_data good up typ, State.headIn_nak up nak]
  case lctlUp =>
    intro p f s good typ up
    rw [exec_flitReceive (by simp [up]), State.flitIn_lctl good typ]
    exact ⟨fun quiet => by rw [State.headIn_up up quiet], fun nak => by rw [State.headIn_nak up nak]⟩
  case idle =>
    intro p f s good typ
    have idle (listens : 2 ≤ (s.port p.val).state.toNat) : exec (.flitReceive p f) s = .next (s.headIn p.val f) := by
      rw [exec_flitReceive listens, State.flitIn_idle good typ]
    refine ⟨fun up quiet => ?_, fun up nak => ?_, fun retrains => ?_, fun trains => ?_⟩
    · rw [idle (by simp [up]), State.headIn_up up quiet]
    · rw [idle (by simp [up]), State.headIn_nak up nak]
    · rw [idle (by simp [retrains]), State.headIn_retrain retrains (.inl (by simp [typ]))]
    · rw [idle (by simp [trains]), State.headIn_training trains]

end Sys2Proof.Machine

namespace Sys2Proof.Machine
open Sys2Proof

/-! ## Link and route commands -/

/-! ### Overwriting an entry -/

section
variable {α : Type} (t : Tbl α) (k : Nat)

theorem tdel_of_unlisted {t : Tbl α} {k : Nat} (unlisted : ∀ e ∈ t, e.1 ≠ k) : tdel t k = t := by
  induction t with
  | nil => rfl
  | cons e t ih =>
    obtain ⟨other, rest⟩ := List.forall_mem_cons.mp unlisted
    exact (if_neg other).trans (congrArg (e :: ·) (ih rest))

theorem tdel_tins_same (v : α) : tdel (tins t k v) k = tdel t k := by
  induction t with
  | nil => exact if_pos rfl
  | cons e t ih =>
    obtain ⟨j, x⟩ := e
    simp only [tins]
    split
    case isTrue below => simp only [tdel, if_neg below.ne, ih]
    case isFalse => exact if_pos rfl

theorem tdel_tput_same [DecidableEq α] (d v : α) : tdel (tput d t k v) k = tdel t k := by
  have unlisted := tdel_of_unlisted (mem_tdel_ne t k)
  unfold tput
  split
  · exact unlisted
  · rw [tdel_tins_same, unlisted]

/-- The last write of an entry is the one that stays. -/
theorem tput_tput_same [DecidableEq α] (d v w : α) : tput d (tput d t k v) k w = tput d t k w :=
  congrArg (fun u => if w = d then u else tins u k w) (tdel_tput_same t k d v)

end

@[simp] theorem State.setPort_setPort_same (s : State) (k : Nat) (v w : Port) : (s.setPort k v).setPort k w = s.setPort k w :=
  congrArg (fun t => { s with ports := t }) (tput_tput_same s.ports k {} v w)

/-! ### Links (R296, R307, R310, R320, R446, R541) -/

section
variable {u : State} {c : Cmd} {a : Nat}

/-- LINK_ENABLE of a Svaop port passes its checks. -/
theorem linkEnable_svaop (svaop : arg a 0 1 < 16) (enabled : u.portEn (arg a 0 1) = true) (noHost : (arg a 1 1).testBit 1 = false) :
    linkEnable u c a =
      let v := u.modPort (arg a 0 1) fun x =>
        { x with en := true, auto := (arg a 1 1).testBit 0, state := if x.state = 0 then 1 else x.state
                 downAt := if x.state = 0 then u.now else x.downAt, lctl := if x.state = 0 then [] else x.lctl }
      done { v with stew := { v.stew with withdrawn := false } } :=
  (if_neg (by simp [enabled, noHost]; omega)).trans (congrArg (done ·) (if_neg svaop.ne))

theorem linkEnable_downs (svaop : arg a 0 1 < 16) (enabled : u.portEn (arg a 0 1) = true) (noHost : (arg a 1 1).testBit 1 = false)
    (disabled : (u.port (arg a 0 1)).state = 0) : linkEnable u c a =
      let v := u.modPort (arg a 0 1) fun x => { x with en := true, auto := (arg a 1 1).testBit 0, state := 1, downAt := u.now, lctl := [] }
      done { v with stew := { v.stew with withdrawn := false } } := by
  rw [linkEnable_svaop svaop enabled noHost]
  simp only [State.modPort, if_pos disabled]

theorem linkEnable_keepsState (svaop : arg a 0 1 < 16) (enabled : u.portEn (arg a 0 1) = true) (noHost : (arg a 1 1).testBit 1 = false)
    (used : (u.port (arg a 0 1)).state ≠ 0) : linkEnable u c a =
      let v := u.modPort (arg a 0 1) fun x => { x with en := true, auto := (arg a 1 1).testBit 0 }
      done { v with stew := { v.stew with withdrawn := false } } := by
  rw [linkEnable_svaop svaop enabled noHost]
  simp only [State.modPort, if_neg used]

theorem State.disablePort_up {p reason : Nat} (up : (u.port p).state = 3) :
    u.disablePort p reason = (u.setPort p { u.port p with en := false }).sendDown p reason :=
  if_pos up

theorem State.disablePort_retrain {p reason : Nat} (retrains : (u.port p).state = 4) :
    u.disablePort p reason = (u.setPort p { u.port p with en := false }).linkDown p 6 :=
  (if_neg (by simp [retrains])).trans (if_pos retrains)

/-- A port that has no link becomes DISABLED at once. -/
theorem State.disablePort_unlinked {p reason : Nat} (unlinked : (u.port p).state.toNat < 3) :
    u.disablePort p reason = u.setPort p { u.port p with en := false, state := 0, train := {}, lctl := [] } := by
  have notUp : (u.port p).state ≠ 3 := fun up => by simp [up] at unlinked
  have noRetrain : (u.port p).state ≠ 4 := fun retrains => by simp [retrains] at unlinked
  exact (if_neg notUp).trans ((if_neg noRetrain).trans (setPort_setPort_same _ _ _ _))

theorem linkDisable_disables (known : arg a 0 1 ≤ 16) (enabled : u.portEn (arg a 0 1) = true) :
    linkDisable u c a = done (u.disablePort (arg a 0 1) 1) :=
  (if_neg known.not_gt).trans (congrArg (done ·) (if_pos enabled))

theorem linkDisable_absent (known : arg a 0 1 ≤ 16) (absent : u.portEn (arg a 0 1) = false) : linkDisable u c a = done u :=
  (if_neg known.not_gt).trans (congrArg (done ·) (if_neg (by simp [absent])))

theorem linkRetrain_waits (known : arg a 0 1 ≤ 16) (up : (u.port (arg a 0 1)).state = 3)
    (few : ((u.port (arg a 0 1)).recentRetrains u.now).length < 3) :
    linkRetrain u c a = await (u.retrain (arg a 0 1) 7) [.retrain (arg a 0 1)] := by
  have retrains : ((u.retrain (arg a 0 1) 7).port (arg a 0 1)).state = 4 := congrArg Port.state (State.retrain_port up few)
  exact (if_neg known.not_gt).trans ((if_neg (not_not_intro up)).trans (if_pos retrains))

theorem linkTune_tunes (known : arg a 0 1 ≤ 16) (enabled : u.portEn (arg a 0 1) = true)
    (idle : (u.port (arg a 0 1)).state = 0 ∨ (u.port (arg a 0 1)).state = 1)
    (fused : arg a 2 1 ≤ (tget 15 u.nv.amplMax (arg a 0 1)).toNat) (preset : arg a 3 1 ≤ 7) :
    linkTune u c a = done (u.modPort (arg a 0 1) fun x =>
      { x with lanes := BitVec.ofNat 8 (arg a 1 1), ampl := BitVec.ofNat 8 (arg a 2 1), preset := BitVec.ofNat 8 (arg a 3 1) }) :=
  (if_neg (by simp [enabled, known])).trans ((if_neg (by rcases idle with h | h <;> simp [h])).trans (if_neg (by simpa using And.intro fused preset)))

/-! ### Routes and the node (R328 to R331, R347) -/

theorem fabricConfig_writes (ok : nodeOk (arg a 0 8) = true)
    (still : BitVec.ofNat 12 (bitsOf (arg a 0 8) 0 12) = u.node.eid ∨ u.anyLive = false) :
    fabricConfig u c a = done { u with node := u.node.write (arg a 0 8) } :=
  (if_neg (by simp [ok])).trans (if_neg (by rcases still with h | h <;> simp [h]))

theorem routeLoad_busy (enabled : u.dieEn (arg a 0 1) = true) (slot : arg a 1 1 ≤ 1)
    (busy : 2 ≤ ((u.die (arg a 0 1)).slotState (arg a 1 1 == 1)).toNat
      ∨ (u.node.flip ≠ none ∧ (u.die (arg a 0 1)).slotState (arg a 1 1 == 1) = 1)) :
    routeLoad u c a = fail u csBadState :=
  (if_neg (by simp [enabled, slot])).trans (if_pos (by simpa [Option.isSome_iff_ne_none] using busy))

/-- A table whose entries Warden takes is loaded into a slot that holds none in use and that no pending flip names. -/
theorem routeLoad_loads {b : List Byte} (enabled : u.dieEn (arg a 0 1) = true) (slot : arg a 1 1 ≤ 1)
    (unused : ((u.die (arg a 0 1)).slotState (arg a 1 1 == 1)).toNat < 2)
    (unnamed : u.node.flip = none ∨ (u.die (arg a 0 1)).slotState (arg a 1 1 == 1) ≠ 1) (ref : u.refOk none (argRef a 8 16) = true)
    (read : (u.refRead c.eid (argRef a 8 16) 130 (argRef a 8 16).off 16384).1 = .ok b)
    (entries : ∀ e, e < 4096 → routeOk (fieldLe b (4 * e) 4) = true) :
    routeLoad u c a =
      let v := (u.refRead c.eid (argRef a 8 16) 130 (argRef a 8 16).off 16384).2
      let t := routeTable ((List.range 4096).map fun e => fieldLe b (4 * e) 4)
      done (v.modDie (arg a 0 1) fun x => x.load (arg a 1 1) (BitVec.ofNat 4 (arg a 2 1)) t) := by
  have taken : (((List.range 4096).map fun e => fieldLe b (4 * e) 4).all routeOk) = true := by
    rw [List.all_map]
    exact List.all_eq_true.mpr fun e mem => entries e (List.mem_range.mp mem)
  have free : ¬(decide (2 ≤ ((u.die (arg a 0 1)).slotState (arg a 1 1 == 1)).toNat)
      || (u.node.flip.isSome && (u.die (arg a 0 1)).slotState (arg a 1 1 == 1) = 1)) = true := by
    simpa [unused, Option.isSome_iff_ne_none, or_iff_not_imp_left] using unnamed
  unfold routeLoad
  dsimp only
  rw [if_neg (by simp [enabled, slot]), if_neg free, withRef_reads ref read]
  exact if_neg (by simp only [taken]; decide)

theorem routeFlip_sets (later : u.ftNs + 1000000 ≤ arg a 0 8) (free : u.node.flip = none)
    (ready : ∀ d ∈ u.dieList, (u.die d).canFlip = true) :
    routeFlip u c a = done { u with node := { u.node with flip := some (arg a 0 8) } } :=
  (if_neg later.not_gt).trans (if_neg (by simpa [free] using ready))

theorem nodeWithdraw_withdraws (quiet : u.quietNode = true) :
    nodeWithdraw u c a =
      let v := { u with stew := { u.stew with withdrawn := true } }
      done (v.each ((List.range 16).filter v.portEn) fun s p => s.disablePort p 0) :=
  if_pos quiet

end

/-- Settles O48: each form of the rows passes its checks and answers as stated. -/
theorem linkAndRouteCommands : Obligations.LinkAndRouteCommands := by
  unfold Obligations.LinkAndRouteCommands
  refine ⟨?enable, ?enableUsed, ?disableUp, ?disableRetrain, ?disableUnlinked, ?disableAbsent, ?retrain, ?tune, ?fabric, ?busy, ?load,
    ?flip, ?withdraw⟩
  case enable =>
    exact fun mb s => .of_row rfl (fun _ _ _ ⟨svaop, enabled, noHost, disabled⟩ => linkEnable_downs svaop enabled noHost disabled)
      fun _ _ _ h => h
  case enableUsed =>
    exact fun mb s => .of_row rfl (fun _ _ _ ⟨svaop, enabled, noHost, used⟩ => linkEnable_keepsState svaop enabled noHost used)
      fun _ _ _ h => h
  case disableUp =>
    exact fun mb s => .of_row rfl (fun _ _ _ ⟨known, enabled, up⟩ =>
      (linkDisable_disables known enabled).trans (congrArg (done ·) (State.disablePort_up up))) fun _ _ _ h => h
  case disableRetrain =>
    exact fun mb s => .of_row rfl (fun _ _ _ ⟨known, enabled, retrains⟩ =>
      (linkDisable_disables known enabled).trans (congrArg (done ·) (State.disablePort_retrain retrains))) fun _ _ _ h => h
  case disableUnlinked =>
    exact fun mb s => .of_row rfl (fun _ _ _ ⟨known, enabled, unlinked⟩ =>
      (linkDisable_disables known enabled).trans (congrArg (done ·) (State.disablePort_unlinked unlinked))) fun _ _ _ h => h
  case disableAbsent =>
    exact fun mb s => .of_row rfl (fun _ _ _ ⟨known, absent⟩ => linkDisable_absent known absent) fun _ _ _ h => h
  case retrain =>
    exact fun mb s => .of_row rfl (fun _ _ _ ⟨known, up, few⟩ => linkRetrain_waits known up few) fun _ _ _ h => h
  case tune =>
    exact fun mb s => .of_row rfl (fun _ _ _ ⟨known, enabled, idle, fused, preset⟩ => linkTune_tunes known enabled idle fused preset)
      fun _ _ _ h => h
  case fabric => exact fun mb s => .of_row rfl (fun _ _ _ ⟨ok, still⟩ => fabricConfig_writes ok still) fun _ _ _ h => h
  case busy =>
    exact fun mb s => .of_refusal rfl (fun _ _ _ ⟨enabled, slot, busy⟩ => routeLoad_busy enabled slot busy)
      fun _ _ _ _ => .inl csBadState_ne_ok
  case load =>
    exact fun mb s b => .of_row rfl fun _ _ _ ⟨enabled, slot, unused, unnamed, ref, read, entries⟩ =>
      routeLoad_loads enabled slot unused unnamed ref read entries
  case flip => exact fun mb s => .of_row rfl (fun _ _ _ ⟨later, free, ready⟩ => routeFlip_sets later free ready) fun _ _ _ h => h
  case withdraw => exact fun mb s => .of_row rfl (fun _ _ _ quiet => nodeWithdraw_withdraws quiet) fun _ _ _ h => h

end Sys2Proof.Machine

namespace Sys2Proof.Machine
open Sys2Proof

/-! ## Routing and the drains of route flips -/

/-! ### Headers (R326) -/

/-- DRAIN may name any destination but the host. -/
theorem badHeader_of_drain {p : Packet} (drain : p.typ = 1) : badHeader p = decide (p.dst = hostEid) := by
  simp [badHeader, drain, Bool.beq_eq_decide_eq]

theorem badHeader_of_data {p : Packet} (data : p.typ = 0) (device : p.dst ≠ hostEid) (addressed : p.dst ≠ 0xFFF) : badHeader p = false := by
  simpa [badHeader, data, device] using addressed

/-! ### Packets at the head of a die (R334, R335, R338, R339) -/

section
variable {d : Fin 4} {s : State}

section
variable {i : Fin 4} {p : Packet}

/-- The next packet of a port is taken, and its header decides what becomes of it. -/
theorem execRoutePacket_arrived (enabled : s.dieEn d.val = true) (next : (s.die d.val).nextOn i p = true)
    (first : (!badHeader p && p.typ = 0 && s.outranked d.val { pkt := p, inp := some i }) = false) :
    execRoutePacket d (some i) p s =
      (let u := s.modDie d.val fun x => { x with arrived := x.arrived.erase (i, p) }
       if badHeader p then .next (u.bump (dieBlk d.val) 0)
       else if p.typ = 1 then .next (u.drainIn d.val i.val)
       else .next (u.routePkt d.val { pkt := p, inp := some i, at_ := s.now })) :=
  (if_neg (by simp [enabled])).trans (if_neg (by simp only [next, first]; decide))

theorem execRoutePacket_bad (enabled : s.dieEn d.val = true) (next : (s.die d.val).nextOn i p = true) (bad : badHeader p = true) :
    execRoutePacket d (some i) p s = .next ((s.modDie d.val fun x => { x with arrived := x.arrived.erase (i, p) }).bump (dieBlk d.val) 0) :=
  (execRoutePacket_arrived enabled next (by simp [bad])).trans (if_pos bad)

theorem execRoutePacket_drain (enabled : s.dieEn d.val = true) (next : (s.die d.val).nextOn i p = true) (drain : p.typ = 1)
    (device : p.dst ≠ hostEid) :
    execRoutePacket d (some i) p s = .next ((s.modDie d.val fun x => { x with arrived := x.arrived.erase (i, p) }).drainIn d.val i.val) :=
  (execRoutePacket_arrived enabled next (by simp [drain])).trans
    ((if_neg (by simp [badHeader_of_drain drain, device])).trans (if_pos drain))

theorem execRoutePacket_data (enabled : s.dieEn d.val = true) (next : (s.die d.val).nextOn i p = true) (data : p.typ = 0)
    (device : p.dst ≠ hostEid) (addressed : p.dst ≠ 0xFFF) (first : s.outranked d.val { pkt := p, inp := some i } = false) :
    execRoutePacket d (some i) p s = .next
      ((s.modDie d.val fun x => { x with arrived := x.arrived.erase (i, p) }).routePkt d.val { pkt := p, inp := some i, at_ := s.now }) :=
  (execRoutePacket_arrived enabled next (by simp [first])).trans
    ((if_neg (by simp [badHeader_of_data data device addressed])).trans (if_neg (by simp [data])))

theorem execRoutePacket_waits (waits : (s.die d.val).nextOn i p = false
      ∨ (p.typ = 0 ∧ p.dst ≠ hostEid ∧ p.dst ≠ 0xFFF ∧ s.outranked d.val { pkt := p, inp := some i } = true)) :
    execRoutePacket d (some i) p s = .next s := by
  have stays : (!(s.die d.val).nextOn i p || (!badHeader p && p.typ = 0 && s.outranked d.val { pkt := p, inp := some i })) = true := by
    rcases waits with behind | ⟨data, device, addressed, outranked⟩
    · simp [behind]
    · simp [data, badHeader_of_data data device addressed, outranked]
  exact (ite_congr rfl (fun _ => rfl) fun _ => if_pos stays).trans (ite_self _)

end

section
variable {p : Packet}

/-- A packet of this device that is next, sequenced and protected, is routed, unless it would stay held without room for it. -/
theorem execRoutePacket_originated {q : Packet} {u : State} (enabled : s.dieEn d.val = true) (next : (s.die d.val).nextOrig p = true)
    (room : (s.die d.val).transitFlits true < 2048) (first : s.outranked d.val { pkt := { p with epoch := (s.die d.val).cur } } = false)
    (sequenced : (s.setDie d.val { s.die d.val with orig := (s.die d.val).orig.erase p }).sequence { p with epoch := (s.die d.val).cur }
      = some (q, u)) :
    execRoutePacket d none p s =
      (let t := (u.protect q).2.routePkt d.val { pkt := (u.protect q).1, at_ := (u.protect q).2.now }
       .next (if s.overHeld t d.val (flitsOf p.len.toNat) then s else t)) := by
  unfold execRoutePacket
  dsimp only
  rw [if_neg (by simp [enabled]), if_neg (by simp [next, room, first]), sequenced]

theorem execRoutePacket_kept (kept : (s.die d.val).nextOrig p = false ∨ 2048 ≤ (s.die d.val).transitFlits true
      ∨ s.outranked d.val { pkt := { p with epoch := (s.die d.val).cur } } = true) :
    execRoutePacket d none p s = .next s := by
  have stays : (!(s.die d.val).nextOrig p || 2048 ≤ (s.die d.val).transitFlits true
      || s.outranked d.val { pkt := { p with epoch := (s.die d.val).cur } }) = true := by
    simpa [or_assoc] using kept
  exact (ite_congr rfl (fun _ => rfl) fun _ => if_pos stays).trans (ite_self _)

end

theorem execTransitReevaluate_offers (enabled : s.dieEn d.val = true) :
    execTransitReevaluate d s = .next (s.each (s.die d.val).transitOrder fun s t =>
      (s.modDie d.val fun x => { x with transit := x.transit.erase t }).routePkt d.val t) :=
  if_neg (by simp [enabled])

end

/-! ### Route selection (R334) -/

section
variable {d : Nat} {t : Transit} {s : State}

/-- A packet whose slot is in use keeps it, and its EPOCH. -/
theorem Die.outSlot_inUse {x : Die} (used : x.slotState t.pkt.epoch ≠ 0) (current : x.slotState t.pkt.epoch ≠ 3) :
    x.late t = false ∧ x.outSlot t = t.pkt.epoch := by
  have own : x.ownSlot t = t.pkt.epoch := if_neg used
  have prompt : x.late t = false := by simp only [late, own, decide_eq_false current, Bool.false_and]
  exact ⟨prompt, by simp [outSlot, prompt, own]⟩

/-- A packet of another EID outside the schedule, its slot in use, goes by its entry. -/
theorem State.routePkt_forward (other : t.pkt.dst ≠ s.node.eid) (free : t.pkt.tc ≠ 7) (used : (s.die d).slotState t.pkt.epoch ≠ 0)
    (current : (s.die d).slotState t.pkt.epoch ≠ 3) :
    s.routePkt d t =
      (let e := s.route d t.pkt.epoch t.pkt.dst
       if !e.v then s.discard d t.inp t.pkt 3
       else if s.node.hopLimit.toNat ≤ t.pkt.hops.toNat then s.discard d t.inp t.pkt 2
       else match s.freePort d ((s.die d).xmask t.pkt.epoch) t.pkt e.ports with
         | some i =>
           let u := s.sendOn (4 * d + i) t.pkt t.demoted t.inp
           if (e.ports.take e.nprod.toNat).contains i then u else u.bump (dieBlk d) 1
         | none => if t.inp.isNone && !s.dieUsable d t.pkt.dst then s.lostAtUnit t.pkt stLinkLost else s.hold d t) := by
  obtain ⟨prompt, slot⟩ := Die.outSlot_inUse used current
  have unscheduled : s.schedHere d t.pkt = none := if_pos free
  have kept : t.lowered = t := if_neg free
  unfold routePkt
  dsimp only
  rw [if_neg other, unscheduled, kept]
  unfold routeOut
  dsimp only
  rw [if_neg used, prompt, slot]
  rfl

end

/-- Settles O17: a packet at the head of its port or pair is one guard and what becomes of it, and one of another EID goes by its entry. -/
theorem routingRows : Obligations.RoutingRows := by
  unfold Obligations.RoutingRows
  refine ⟨fun d i p s => execRoutePacket_bad, fun d i p s => execRoutePacket_drain, fun d i p s => execRoutePacket_data,
    fun d i p s => execRoutePacket_waits, ?originated, fun d p s => execRoutePacket_kept, fun d s => execTransitReevaluate_offers, ?forward⟩
  case originated =>
    rintro d p q s _ u enabled next room first sequenced rfl
    have row := execRoutePacket_originated enabled next room first sequenced
    exact ⟨fun fits => row.trans (congrArg Host.Outcome.next (if_neg (by simp [fits]))),
      fun noRoom => row.trans (congrArg Host.Outcome.next (if_pos noRoom))⟩
  case forward =>
    intro d t s other free used current
    have row := State.routePkt_forward other free used current
    refine ⟨fun absent => ?noEntry, fun entry far => ?hopLimit, fun i entry near port => ?sent, fun entry near blocked arrived => ?held⟩
    case noEntry => exact row.trans (if_pos (by simp [absent]))
    all_goals rw [if_neg (by simp [entry])] at row
    case hopLimit => exact row.trans (if_pos far)
    all_goals rw [if_neg near.not_ge] at row
    case sent => rwa [port] at row
    case held =>
      rw [blocked] at row
      exact row.trans (if_neg (by simp [arrived]))

/-! ### Flips (R331, R332 step 1) -/

section
variable {s : State}

theorem execRouteFlipAtTf_flips {tf : Nat} {u : State} (planned : s.node.flip = some tf) (due : ∀ d ∈ s.dieList, tf ≤ s.dieNs d)
    (flipped : u = ({ s with node := { s.node with flip := none } }).each s.dieList fun s d => s.modDie d fun x => x.flip tf) :
    execRouteFlipAtTf s = .next { u with sched := { u.sched with withdrawn := u.xmasked } } := by
  unfold execRouteFlipAtTf
  rw [planned]
  dsimp only
  rw [if_neg (by simpa using due), ← flipped]

theorem execRouteFlipAtTf_early {tf d : Nat} (planned : s.node.flip = some tf) (listed : d ∈ s.dieList) (early : s.dieNs d < tf) :
    execRouteFlipAtTf s = .next s := by
  unfold execRouteFlipAtTf
  rw [planned]
  exact if_pos (List.any_eq_true.mpr ⟨d, listed, by simpa using early⟩)

theorem Die.flip_second {x : Die} {tf : Nat} (loaded : x.s1 = 1) :
    x.flip tf = { x with cur := true, s0 := if x.s0 = 2 then 3 else x.s0, s1 := 2, drained := 0, flipAt := tf, restamped := false
                         transit := x.transit.map fun t => if t.inp = none then { t with pkt := { t.pkt with epoch := true } } else t } :=
  (if_pos loaded).trans (by simp only [loaded, beq_self_eq_true, Option.isNone_iff_eq_none, slotOld])

theorem Die.flip_first {x : Die} {tf : Nat} (other : x.s1 ≠ 1) (loaded : x.s0 = 1) :
    x.flip tf = { x with cur := false, s0 := 2, s1 := if x.s1 = 2 then 3 else x.s1, drained := 0, flipAt := tf, restamped := false
                         transit := x.transit.map fun t => if t.inp = none then { t with pkt := { t.pkt with epoch := false } } else t } :=
  (if_neg other).trans ((if_pos loaded).trans (by simp only [beq_eq_false_iff_ne.mpr other, Option.isNone_iff_eq_none, slotOld]))

/-! ### Drains (R332) -/

variable {d : Fin 4}

theorem execRestamp_stamps (flipped : (s.die d.val).flipAt ≠ 0) (old : (s.die d.val).restamped = false)
    (late : (s.die d.val).flipAt + s.node.restampDelay.toNat * 1000 ≤ s.dieNs d.val) :
    execRestamp d s = .next ((s.modDie d.val Die.stamp).each [0, 1, 2, 3] fun u i => u.modPort (4 * d.val + i) fun y =>
      let z := y.stamp (u.die d.val).cur
      if y.state = 3 then z.setQueue 8 (y.queue 8 ++ [{ pkt := u.drainPkt, at_ := u.now }]) else z) :=
  if_pos (by simp [State.restampDue, flipped, old, late])

/-- A DRAIN that is next on its port is discarded when it names the host, and drains its port otherwise. -/
theorem execDrain_eq {p : Fin 4} {e : Fin 4 × Packet} (enabled : s.dieEn d.val = true)
    (next : (s.die d.val).arrived.find? (fun e => e.1 = p) = some e) (drain : e.2.typ = 1) :
    execDrain d p s =
      (let u := s.modDie d.val fun x => { x with arrived := x.arrived.erase e }
       .next (if e.2.dst = hostEid then u.bump (dieBlk d.val) 0 else u.drainIn d.val p.val)) := by
  unfold execDrain
  rw [next]
  dsimp only
  rw [if_pos (by simp [drain, enabled]), badHeader_of_drain drain]
  simp only [decide_eq_true_eq]

theorem execDrain_idle {p : Fin 4} (idle : ∀ e ∈ (s.die d.val).arrived, e.1 ≠ p) : execDrain d p s = .next s := by
  have absent : (s.die d.val).arrived.find? (fun e => e.1 = p) = none := List.find?_eq_none.mpr (by simpa using idle)
  unfold execDrain
  rw [absent]

theorem execDrainTimeout_frees (draining : (s.die d.val).s0 = 3 ∨ (s.die d.val).s1 = 3) (late : (s.die d.val).flipAt + 10000000 ≤ s.dieNs d.val) :
    execDrainTimeout d s = .next
      ((((s.setDie d.val { s.die d.val with
            drained := 15, s0 := if (s.die d.val).s0 = 3 then 0 else (s.die d.val).s0, s1 := if (s.die d.val).s1 = 3 then 0 else (s.die d.val).s1
          }).bumpBy (dieBlk d.val + 8 + 8 * 7) (([0, 1, 2, 3].filter fun i => (~~~(s.die d.val).drained).getLsbD i).length)).logErr
        (errRec 0x11 0 none (0x5000 + d.val) (~~~(s.die d.val).drained).toNat)).stewEvent { kind := 7, obj := BitVec.ofNat 32 d.val, cause := 2 }) :=
  if_pos (by simpa [late] using draining)

end

/-- Settles O18: each step of a drain is one guard and what it does once the guard holds; a flip goes by the slot that is LOADED. -/
theorem flipsAndDrains : Obligations.FlipsAndDrains := by
  unfold Obligations.FlipsAndDrains
  refine ⟨fun tf s u => execRouteFlipAtTf_flips, fun tf d s => execRouteFlipAtTf_early, fun x tf => Die.flip_second, fun x tf => Die.flip_first,
    fun d s => execRestamp_stamps, fun d p s => execDrain_idle, ?discarded, ?drained, fun d s => execDrainTimeout_frees⟩
  case discarded =>
    intro d p e s enabled next drain host
    exact (execDrain_eq enabled next drain).trans (congrArg Host.Outcome.next (if_pos host))
  case drained =>
    intro d p e s enabled next drain device
    exact (execDrain_eq enabled next drain).trans (congrArg Host.Outcome.next (if_neg device))

end Sys2Proof.Machine

namespace Sys2Proof.Machine

/-! ## Qoreus and notifications

What ends a host-memory request, how the host is greeted, and how the records of a staging ring leave it and enter it. -/

section
variable {s : State}

/-! ### The end of a host-memory request (R358, R359) -/

@[simp] theorem State.take_qor (s : State) (p : Packet) : (s.take p).2.qor = s.qor := by
  unfold take
  split <;> rfl

theorem State.hostAnswer_ends {p : Packet} {w : Bool} {d : Line} {q : HostReq} (turn : s.turn p = true)
    (asked : (s.take p).2.qor.reqs.find? (fun q => q.tag = p.tag && q.write = w) = some q) :
    s.hostAnswer p w d = (s.take p).2.hostReqDone q (hostStatus p.stat) d := by
  simp [hostAnswer, turn, asked]

theorem State.hostAnswer_unasked {p : Packet} {w : Bool} {d : Line} (turn : s.turn p = true) (idle : s.qor.reqs = []) :
    s.hostAnswer p w d = (s.take p).2 := by
  simp [hostAnswer, turn, idle]

theorem execHostMemoryTimeout_ends {t : BitVec 16} {q : HostReq} (asked : s.qor.reqs.find? (·.tag = t) = some q)
    (late : q.sentAt + 4 * s.pt ≤ s.now) : execHostMemoryTimeout t s = .next (s.hostReqDone q stTimeout 0) := by
  unfold execHostMemoryTimeout
  rw [asked]
  exact if_pos late

/-! ### The greeting of the host (R363, R366) -/

/-- The record that greets the host: QOR_VEC_DROP and the LAST_DOWN of Qoreus. -/
def State.greeting (s : State) : NtfRec :=
  { kind := 9, ft := s.stamp
    spec := BitVec.ofNat 160 (packBytes [(0, 6, tget 0 s.cnt.live (portBlk 16 + 8 + 8 * 16)), (6, 1, (s.port 16).lastDown.toNat)]) }

/-- While Qoreus is UP a VEC joins its queue and nothing else changes. -/
theorem State.toHost_vec {p : Packet} (up : (s.port 16).state = 3) (vec : p.opc = oVec) :
    s.toHost p = { s with qor := { s.qor with
      vec := s.qor.vec ++ [{ p with snp := p.isSnoop, epoch := false, pseq := 0, nocmp := false, last := false }] } } := by
  simp [toHost, up, vec]

theorem execQoreusLinkUp_greets {u : State} (up : (s.port 16).state = 3) (first : s.qor.linkUp = false) (scanned : s.orphanScan = false)
    (steward : s.stewardUp = true) (greeted : u = ({ s with qor := { s.qor with linkUp := true } }).toHost (s.vecPkt 0 s.greeting)) :
    execQoreusLinkUp s = .next
      (if s.qor.hostAgent = true ∧ s.qor.caching = true then { u.setAgent 0xFFE true with qor := { u.qor with leaving := false } }
       else if u.agent 0xFFE = true then ({ u with qor := { u.qor with leaving := true } }).sweepAll else u) := by
  have queued := State.toHost_vec (s := { s with qor := { s.qor with linkUp := true } }) (p := s.vecPkt 0 s.greeting) up rfl
  have hostAgent : u.qor.hostAgent = s.qor.hostAgent := by rw [greeted, queued]
  have caching : u.qor.caching = s.qor.caching := by rw [greeted, queued]
  rw [← hostAgent, ← caching]
  simp only [← Bool.and_eq_true, greeted]
  exact if_pos (by simp [up, first, scanned, steward])

theorem execQoreusLinkUp_once (greeted : s.qor.linkUp = true) : execQoreusLinkUp s = .next s :=
  if_neg (by simp [greeted])

/-! ### A staging ring (R413, R415, R490) -/

variable {t : Fin 65} {r : NtfRec}

/-- A record as it leaves: one other than a JOB_DONE tells what its ring discarded. -/
def NtfRec.telling (r : NtfRec) (dropped : BitVec 16) : NtfRec := if r.kind = 0 then r else { r with dropped := dropped }

@[simp] theorem NtfRec.telling_kind (d : BitVec 16) : (r.telling d).kind = r.kind := by
  unfold telling
  split <;> rfl

/-- A record leaves for the host or for its node, by what its target's register says. -/
def State.notifyOut (s : State) (t : Nat) (r : NtfRec) : State :=
  let w := s.ntfReg t
  if ntfHost w then s.toHost (s.vecPkt (ntfTarget w).toNat r) else s.send [] (s.notifyPkt t (ntfTarget w) r)

theorem execNotifySend_sends {l : List NtfRec} (first : (s.ring t.val).recs = r :: l) (enabled : ntfEn (s.ntfReg t.val) = true)
    (service : s.inService = true) :
    execNotifySend t s = .next
      ((s.setRing t.val { s.ring t.val with recs := l, dropped := if r.kind = 0 then (s.ring t.val).dropped else 0 }).notifyOut t.val
        (r.telling (s.ring t.val).dropped)) := by
  rw [← r.telling_kind (s.ring t.val).dropped]
  unfold execNotifySend
  dsimp only
  rw [first]
  dsimp only
  rw [if_neg (by simp [enabled, service])]
  rfl

theorem execNotifySend_waits (waits : (s.ring t.val).recs = [] ∨ ntfEn (s.ntfReg t.val) = false ∨ s.inService = false) :
    execNotifySend t s = .next s := by
  unfold execNotifySend
  dsimp only
  split
  case h_1 => rfl
  case h_2 r l first => exact if_pos (by simpa [first] using waits)

/-- The record that has waited longest is staged at a free place; a job whose completion it is frees its slot. -/
theorem execStagingPlaceFree_places {job : Option (Nat × Nat)} {l : List (NtfRec × Option (Nat × Nat))} {u : State}
    (longest : (s.ring t.val).waiting = (r, job) :: l) (room : (s.ring t.val).recs.length < 1024)
    (placed : u = s.setRing t.val { s.ring t.val with recs := (s.ring t.val).recs ++ [s.staged r], waiting := l }) :
    execStagingPlaceFree t s = .next (job.elim u fun j => (u.slotFree j.1 j.2).invalCheck) := by
  unfold execStagingPlaceFree
  dsimp only
  rw [longest]
  dsimp only
  rw [if_pos room, ← placed]
  cases job <;> rfl

theorem State.staged_other (other : r.kind ≠ 8) : s.staged r = r := if_neg other

theorem State.staged_fault (fault : r.kind = 8) :
    s.staged r = { r with spec := BitVec.ofNat 160 (s.part (r.obj.toNat % 64)).fq.length } := if_pos fault

end

/-- Settles O37: the guard of each row is met or it is not, and once met the row is the one state it names. -/
theorem hostRows : Obligations.HostRows := by
  unfold Obligations.HostRows
  refine ⟨fun p q s turn asked => congrArg Host.Outcome.next (State.hostAnswer_ends turn asked),
    fun p q s turn asked => congrArg Host.Outcome.next (State.hostAnswer_ends turn asked),
    fun p s turn idle => ⟨congrArg Host.Outcome.next (State.hostAnswer_unasked turn idle),
      congrArg Host.Outcome.next (State.hostAnswer_unasked turn idle)⟩,
    fun t q s => execHostMemoryTimeout_ends,
    fun s up first scanned steward => ⟨s.greeting, rfl, rfl, rfl, execQoreusLinkUp_greets up first scanned steward rfl⟩,
    fun s => execQoreusLinkUp_once, ?discards, ?jobDone, fun t s => execNotifySend_waits,
    fun t r l s longest room => execStagingPlaceFree_places longest room rfl,
    fun t r n k l s longest room => execStagingPlaceFree_places longest room rfl,
    fun r s => ⟨State.staged_other, State.staged_fault⟩⟩
  case discards =>
    intro t r l s first enabled service other
    have row := execNotifySend_sends first enabled service
    rwa [if_neg other, NtfRec.telling, if_neg other] at row
  case jobDone =>
    intro t r l s first enabled service done
    have row := execNotifySend_sends first enabled service
    rwa [if_pos done, NtfRec.telling, if_pos done] at row

end Sys2Proof.Machine

namespace Sys2Proof.Machine
open Sys2Proof

/-! ## The step, the queue and the invariant -/

/-- Settles O1: the step is defined by the queue's front. -/
theorem stepRunsFront : Obligations.StepRunsFront := by
  unfold Obligations.StepRunsFront
  intro c rest s h
  simp only [step, h]

/-- Settles O4: the row of every command keeps the queue. -/
theorem queueUntouched : Obligations.QueueUntouched := by
  unfold Obligations.QueueUntouched
  intro c s t h
  have kept : s.Keeps t := (ends_next s.Keeps t).mp (h ▸ exec_keeps s c)
  exact kept.1

/-- Settles O8: reset has no byte of DRAM listed, the fused limits 250 W and 450 W, and power registers that are all zero. -/
theorem resetInv : Obligations.ResetInv := by
  unfold Obligations.ResetInv
  exact ⟨⟨reset_memory_wf, by unfold Nv.capOk; decide, by unfold Pwr.ok; decide⟩, rfl⟩

end Sys2Proof.Machine

namespace Sys2Proof.Machine
open Sys2Proof

/-! ## The invariant that every step keeps

DRAM stays in canonical form because every write of a line ends in `cellsPut`, which keeps it; the power registers stay legal because each row
that writes them moves along the steps of R527 and R528. The fused limits are permanent (`exec_keeps`). -/

/-! ### Commands that write lines -/

/-- DRAM is in canonical form, as a proposition that `simp` carries from state to state and does not unfold. -/
def Memory.Canonical (m : List Host.Cell) : Prop := Memory.wf m

@[simp] theorem Memory.canonical_ite (c : Prop) [Decidable c] (m n : List Host.Cell) :
    Memory.Canonical (if c then m else n) ↔ if c then Memory.Canonical m else Memory.Canonical n := by
  split <;> rfl

theorem Memory.Canonical.filter {m : List Host.Cell} (h : Memory.Canonical m) (p : Host.Cell → Bool) : Memory.Canonical (m.filter p) :=
  filter_wf m p h

/-- A state has another's power registers, and its DRAM is in canonical form where the other's is. -/
abbrev State.KeepsForm (s t : State) : Prop := (Memory.Canonical s.dram → Memory.Canonical t.dram) ∧ t.pwr = s.pwr

theorem State.Quiet.keepsForm {s t : State} (h : s.Quiet t) : s.KeepsForm t := by
  obtain ⟨-, -, -, dram, pwr, -⟩ := h
  exact ⟨fun w => dram ▸ w, pwr⟩

theorem State.KeepsForm.refl (s : State) : s.KeepsForm s := ⟨id, rfl⟩

theorem State.KeepsForm.trans {s t u : State} (h : s.KeepsForm t) (k : t.KeepsForm u) : s.KeepsForm u := ⟨k.1 ∘ h.1, k.2.trans h.2⟩

theorem absorbs_keepsForm : Absorbs State.KeepsForm := ⟨.refl, fun h => h.keepsForm.trans, fun h k => h.trans k.keepsForm⟩

theorem Ends.keepsForm {s : State} {o : Host.Outcome State Fault Refusal} : Ends s.Quiet o → Ends s.KeepsForm o
  | .next h => .next h.keepsForm
  | .fault r => .fault r
  | .refused r => .refused r

@[simp] theorem State.each_keepsForm {α : Type} (s : State) (l : List α) (f : State → α → State) (h : ∀ (u : State) a, u.KeepsForm (f u a)) :
    s.KeepsForm (s.each l f) :=
  State.each_induction s.KeepsForm l f s (.refl s) fun u a _ k => k.trans (h u a)

theorem State.ran_keepsForm (s : State) (f : CmdForm) (mb : MbId) {body : State → Cmd → Nat → Answer}
    (h : ∀ u c a, State.KeepsForm u (body u c a).st) : Ends s.KeepsForm (s.ran f mb body) :=
  .next (s.command_rel absorbs_keepsForm f mb h)

@[simp] theorem State.storeLine_keepsForm (s : State) (l : Nat) (d : Line) (key : Option Nat) (tweak : Nat) :
    s.KeepsForm (s.storeLine l d key tweak) := ⟨cellsPut_wf _ _ _, rfl⟩

@[simp] theorem State.storeRaw_keepsForm (s : State) (l : Nat) (d : Line) (chk : BitVec 128) : s.KeepsForm (s.storeRaw l d chk) :=
  ⟨cellsPut_wf _ _ _, rfl⟩

/-! ### Accesses -/

@[simp] theorem State.readAt_keepsForm (s : State) (r : Req) (c0 c1 : RawEcc) : s.KeepsForm (s.readAt r c0 c1).2 := by
  unfold readAt
  dsimp only
  split <;> simp +contextual [KeepsForm]

@[simp] theorem State.spillEnd_keepsForm (s : State) (r : Req) (p : Nat) (seq : BitVec 16) (half write : Bool) (c0 c1 : RawEcc) :
    s.KeepsForm (s.spillEnd r p seq half write c0 c1) := by
  unfold spillEnd
  dsimp only
  (repeat' split) <;> simp +contextual [KeepsForm]

@[simp] theorem State.accessEnd_keepsForm (s : State) (r : Req) (c0 c1 : RawEcc) : s.KeepsForm (s.accessEnd r c0 c1) := by
  have read := s.readAt_keepsForm r c0 c1
  have comb := s.combRead_quiet r c0 c1
  unfold accessEnd
  dsimp only
  split
  · simp [KeepsForm]
  · split
    · simp [KeepsForm]
    · split
      · generalize s.readAt r c0 c1 = p at read ⊢
        obtain ⟨_ | _, t⟩ := p <;> simp_all [KeepsForm]
      · simp +contextual [KeepsForm]
    · split <;> simp_all [KeepsForm]
    · split <;> simp_all [KeepsForm]
    · split <;> simp_all [KeepsForm]
    · split
      · simp [KeepsForm]
      · split <;> simp_all [KeepsForm]
    · simp_all +contextual [KeepsForm]
    · split <;> simp_all [KeepsForm]
    · split
      · simp [KeepsForm]
      · simp_all +contextual [KeepsForm]

@[simp] theorem State.accessDone_keepsForm (s : State) (r : Req) (c0 c1 : RawEcc) : s.KeepsForm (s.accessDone r c0 c1) := by
  unfold accessDone
  split
  · exact s.spillEnd_keepsForm ..
  · exact s.accessEnd_keepsForm ..

@[simp] theorem State.serveReads_keepsForm (s : State) (n c : Nat) (r : Req) : s.KeepsForm (s.serveReads n c r) := by
  simp +contextual [serveReads, KeepsForm]

theorem execDramAccessDone_keepsForm (stack : Fin 8) (ch : Fin 16) (c0 c1 : RawEcc) (s : State) :
    Ends s.KeepsForm (execDramAccessDone stack ch c0 c1 s) := by
  unfold execDramAccessDone
  dsimp only
  split <;> simp +contextual [State.KeepsForm]

/-! ### Granules -/

@[simp] theorem State.wipe_keepsForm (s : State) (g : Nat) : s.KeepsForm (s.wipe g) := by
  simp +contextual [KeepsForm, wipe, Memory.Canonical.filter]

theorem execScrubStep_keepsForm (ext : Fin 262144) (s : State) : Ends s.KeepsForm (execScrubStep ext s) := by
  simp +contextual [State.KeepsForm, execScrubStep]

theorem execZeroFillDone_keepsForm (ext : Fin 262144) (s : State) : Ends s.KeepsForm (execZeroFillDone ext s) := by
  simp +contextual [execZeroFillDone, State.KeepsForm]

@[simp] theorem State.deltaIn_keepsForm (s : State) (idx : Nat) (x : Ext) (l tw : Nat) (delta : Line) :
    s.KeepsForm (s.deltaIn idx x l tw delta).1 := by
  unfold deltaIn
  dsimp only
  (repeat' split) <;> simp +contextual [KeepsForm]

theorem execParityDelta_keepsForm (xh : Xh) (offset : BitVec 40) (delta : DeltaIn) (s : State) :
    Ends s.KeepsForm (execParityDelta xh offset delta s) := by
  simp +contextual [State.KeepsForm, execParityDelta]

@[simp] theorem State.moveGran_keepsForm (s : State) (idx i g : Nat) : s.KeepsForm (s.moveGran idx i g) := by
  simp +contextual [KeepsForm, moveGran]

@[simp] theorem State.rebuildDue_keepsForm (s : State) (idx : Nat) : s.KeepsForm (s.rebuildDue idx) := by
  unfold rebuildDue
  dsimp only
  (repeat' split) <;> simp +contextual [KeepsForm]

@[simp] theorem State.rebuildIn_keepsForm (s : State) (src : Nat) (xh : Xh) (g : Nat) (lines : List (Nat × Line)) :
    s.KeepsForm (s.rebuildIn src xh g lines) := by
  unfold rebuildIn
  dsimp only
  split
  · split <;> simp +contextual [KeepsForm]
  · exact .refl s

theorem execRebuildStep_keepsForm (r : RebuildIn) (s : State) : Ends s.KeepsForm (execRebuildStep r s) := by
  cases r <;> simp +contextual [execRebuildStep, State.KeepsForm]

/-! ### References -/

@[simp] theorem State.refRead1_keepsForm (s : State) (e : Eid) (r : Ref) (pos n : Nat) : s.KeepsForm (s.refRead1 e r pos n).2 := by
  unfold refRead1
  dsimp only
  generalize s.refReq e r oRdOnce pos n 0 = q
  split
  · simp [KeepsForm]
  · split
    · simp [KeepsForm]
    · split
      · split <;> simp [KeepsForm]
      · split
        · simp [KeepsForm]
        · generalize hu : (if (s.ext q.ext).coherent then s.meetLine (lineQuad q.line) q.line else s) = u
          have met : s.KeepsForm u := by simp [← hu, KeepsForm]
          clear hu
          generalize (if (s.ext q.ext).coherent then u.lineHeld q.line false else .clear) = hold
          split
          · exact met.trans (u.unheld_quiet q hold).keepsForm
          · have read (c0 c1 : RawEcc) : s.KeepsForm ((u.useRow q.line).readAt q c0 c1).2 :=
              met.trans ((u.useRow_quiet q.line).keepsForm.trans ((u.useRow q.line).readAt_keepsForm q c0 c1))
            split
            · next h => exact (congrArg (s.KeepsForm ·.2) h).mp (read _ _)
            · next h => exact (congrArg (s.KeepsForm ·.2) h).mp (read _ _)

@[simp] theorem State.refWrite1_keepsForm (s : State) (e : Eid) (r : Ref) (pos : Nat) (bytes : List Byte) :
    s.KeepsForm (s.refWrite1 e r pos bytes).2 := by
  unfold refWrite1
  dsimp only
  generalize s.refReq e r oWrPartial pos bytes.length _ = q
  split
  · simp [KeepsForm]
  · split
    · split <;> simp [KeepsForm]
    · split
      · split <;> simp [KeepsForm]
      · split
        · simp [KeepsForm]
        · generalize hu : (if (s.ext q.ext).coherent then s.meetLine (lineQuad q.line) q.line else s) = u
          have met : s.KeepsForm u := by simp [← hu, KeepsForm]
          clear hu
          generalize (if (s.ext q.ext).coherent then u.lineHeld q.line true else .clear) = hold
          split
          · exact met.trans (u.unheld_quiet _ hold).keepsForm
          · have read (c0 c1 : RawEcc) : s.KeepsForm ((u.useRow q.line).readAt q c0 c1).2 :=
              met.trans ((u.useRow_quiet q.line).keepsForm.trans ((u.useRow q.line).readAt_keepsForm q c0 c1))
            split
            · next h => exact ((congrArg (s.KeepsForm ·.2) h).mp (read _ _)).trans (by simp +contextual [KeepsForm])
            · next h => exact (congrArg (s.KeepsForm ·.2) h).mp (read _ _)

@[simp] theorem State.refRead_keepsForm (s : State) (e : Eid) (r : Ref) (k pos left : Nat) : s.KeepsForm (s.refRead e r k pos left).2 := by
  induction k generalizing s pos left with
  | zero => exact .refl s
  | succ k ih =>
    simp only [refRead]
    have first := s.refRead1_keepsForm e r pos (inLine pos left)
    split
    · exact .refl s
    · split
      · next b t h =>
        have rest := ih t (pos + inLine pos left) (left - inLine pos left)
        rw [h] at first
        split
        · next g => rw [g] at rest; exact first.trans rest
        · exact first.trans rest
      · exact first

@[simp] theorem State.refPlan_keepsForm (s : State) (e : Eid) (r : Ref) (k pos : Nat) (l : List Byte) : s.KeepsForm (s.refPlan e r k pos l).2 := by
  induction k generalizing s pos l with
  | zero => exact .refl s
  | succ k ih =>
    simp only [refPlan]
    split
    · exact .refl s
    · split
      · exact ih ..
      · exact s.refWrite1_keepsForm ..

@[simp] theorem State.refWrite_keepsForm (s : State) (e : Eid) (r : Ref) (k pos : Nat) (l : List Byte) : s.KeepsForm (s.refWrite e r k pos l).2 := by
  induction k generalizing s pos l with
  | zero => exact .refl s
  | succ k ih =>
    simp only [refWrite]
    have first := s.refWrite1_keepsForm e r pos (l.take (inLine pos l.length))
    split
    · exact .refl s
    · split
      · next h => rw [h] at first; exact first.trans (ih ..)
      · exact first

@[simp] theorem withRef_keepsForm (s : State) (c : Cmd) (part : Option Nat) (r : Ref) (len : Nat) (go : State → List Byte → Answer)
    (h : ∀ u b, State.KeepsForm u (go u b).st) : s.KeepsForm (withRef s c part r len go).st := by
  unfold withRef
  have bytes := s.refRead_keepsForm c.eid r (len / 128 + 2) r.off len
  split
  · exact (refuse_quiet ..).keepsForm
  · split
    · next g => rw [g] at bytes; exact bytes.trans (h ..)
    · next g => rw [g] at bytes; exact bytes
    · next g => rw [g] at bytes; exact bytes

@[simp] theorem putRef_keepsForm (s : State) (c : Cmd) (part : Option Nat) (r : Ref) (bytes : List Byte) (go : State → Answer)
    (h : ∀ u, State.KeepsForm u (go u).st) : s.KeepsForm (putRef s c part r bytes go).st := by
  unfold putRef
  have plan := s.refPlan_keepsForm c.eid r (bytes.length / 128 + 2) r.off bytes
  split
  · exact (refuse_quiet ..).keepsForm
  · split
    · next g => rw [g] at plan; exact plan
    · next g => rw [g] at plan; exact plan
    · exact (s.refWrite_keepsForm ..).trans (h _)

/-! ### Commands that read or write at references -/

theorem routeLoad_keepsForm (s : State) (c : Cmd) (a : Nat) : s.KeepsForm (routeLoad s c a).st := by
  unfold routeLoad
  dsimp only
  split
  · exact .refl s
  · split
    · exact .refl s
    · exact withRef_keepsForm _ _ _ _ _ _ fun u b => by split <;> exact State.Quiet.keepsForm (by simp [State.Quiet])

theorem schedStage_keepsForm (s : State) (c : Cmd) (a : Nat) : s.KeepsForm (schedStage s c a).st := by simp +contextual [State.KeepsForm, schedStage]

theorem jobSubmit_keepsForm (s : State) (c : Cmd) (a : Nat) : s.KeepsForm (jobSubmit s c a).st := by
  unfold jobSubmit
  dsimp only
  (repeat' split) <;> simp +contextual [State.KeepsForm]

theorem memDiagWrite_keepsForm (s : State) (c : Cmd) (a : Nat) : s.KeepsForm (memDiagWrite s c a).st := by
  simp +contextual [State.KeepsForm, memDiagWrite]

@[simp] theorem State.rawC15_keepsForm (s : State) (l : Nat) : s.KeepsForm (s.rawC15 l) := by
  unfold rawC15
  split <;> simp +contextual [KeepsForm]

theorem memDiagRead_keepsForm (s : State) (c : Cmd) (a : Nat) : s.KeepsForm (memDiagRead s c a).st := by
  simp +contextual [State.KeepsForm, memDiagRead]

@[simp] theorem State.fillGroup3_keepsForm (s : State) (n : Nat) : s.KeepsForm (s.fillGroup3 n) := by
  simp +contextual [fillGroup3, KeepsForm, Memory.Canonical.filter]

theorem memDiagClose_keepsForm (s : State) (c : Cmd) (a : Nat) : s.KeepsForm (memDiagClose s c a).st := by
  simp +contextual [State.KeepsForm, memDiagClose]

theorem certRead_keepsForm (s : State) (c : Cmd) (a : Nat) : s.KeepsForm (certRead s c a).st := by simp +contextual [certRead, State.KeepsForm]

theorem attestReport_keepsForm (s : State) (c : Cmd) (a : Nat) : s.KeepsForm (attestReport s c a).st := by
  simp +contextual [attestReport, State.KeepsForm]

theorem sessionOpen_keepsForm (s : State) (c : Cmd) (a : Nat) : s.KeepsForm (sessionOpen s c a).st := by
  simp +contextual [sessionOpen, State.KeepsForm]

theorem fwStage_keepsForm (s : State) (c : Cmd) (a : Nat) : s.KeepsForm (fwStage s c a).st := by
  unfold fwStage
  split <;> simp +contextual [State.KeepsForm, State.flashStart, State.flashEnd]

end Sys2Proof.Machine

namespace Sys2Proof.Machine
open Sys2Proof

/-! ### Commands that leave the power state -/

/-- The fields of the power registers that `Pwr.ok` speaks of. -/
def Pwr.core (p : Pwr) : BitVec 10 × BitVec 10 × BitVec 10 × BitVec 3 × BitVec 3 × Bool × PwrStep × BitVec 3 :=
  (p.floor, p.cap, p.ceiling, p.state, p.lastAp, p.entering, p.pstep, p.target)

/-- A write of the other power registers leaves the power state. -/
@[simp] theorem Pwr.core_rest (p : Pwr) (phase rail railAt railFails fallen fusedAt elapsed fused tested logicDone phyDone memDone fillDone build
    releasedAt idhash skE skM reservedKey input input1ms lastUnit lastReason level step samples stepAt belowAt
    overAt schedThr capRec lowered answers delays askAt refuse wake wakeFrom token i3cAddr addrS fts) :
    Pwr.core { p with
      phase := phase, rail := rail, railAt := railAt, railFails := railFails, fallen := fallen, fusedAt := fusedAt, elapsed :=
      elapsed, fused := fused, tested := tested, logicDone := logicDone, phyDone := phyDone, memDone := memDone, fillDone :=
      fillDone, build := build, releasedAt := releasedAt, idhash := idhash, skE := skE, skM := skM, reservedKey :=
      reservedKey, input := input, input1ms := input1ms, lastUnit := lastUnit, lastReason := lastReason, level := level, step
      := step, samples := samples, stepAt := stepAt, belowAt := belowAt, overAt := overAt, schedThr := schedThr, capRec :=
      capRec, lowered := lowered, answers := answers, delays := delays, askAt := askAt, refuse := refuse, wake := wake,
      wakeFrom := wakeFrom, token := token, i3cAddr := i3cAddr, addrS := addrS, fts := fts } = p.core := rfl

@[simp] theorem Pwr.core_ite (c : Prop) [Decidable c] (p q : Pwr) : (if c then p else q).core = if c then p.core else q.core :=
  apply_ite Pwr.core c p q

theorem Pwr.ok_of_core {p q : Pwr} (h : q.core = p.core) (k : p.ok) : q.ok := by
  simp only [Pwr.core, Prod.mk.injEq] at h
  simpa only [Pwr.ok, h] using k

/-- A state has another's power state. -/
abbrev State.SamePower (s t : State) : Prop := t.pwr.core = s.pwr.core

@[simp] theorem State.each_core {α : Type} (s : State) (l : List α) (f : State → α → State) (h : ∀ (u : State) a, u.SamePower (f u a)) :
    (s.each l f).pwr.core = s.pwr.core :=
  State.each_induction s.SamePower l f s rfl fun u a _ k => (h u a).trans k

theorem Ends.samePower {s : State} {o : Host.Outcome State Fault Refusal} : Ends s.KeepsForm o → Ends s.SamePower o
  | .next h => .next (congrArg Pwr.core h.2)
  | .fault r => .fault r
  | .refused r => .refused r

theorem execRailPowerGood_samePower (s : State) : Ends s.SamePower (execRailPowerGood s) := by
  simp [State.SamePower, execRailPowerGood]

theorem execRailRetryTimer_samePower (s : State) : Ends s.SamePower (execRailRetryTimer s) := by
  simp [State.SamePower, execRailRetryTimer]

theorem execLogicSelftestDone_samePower (passed : UnitMap) (s : State) : Ends s.SamePower (execLogicSelftestDone passed s) := by
  simp [State.SamePower, execLogicSelftestDone]

theorem execMemPhyTrainingDone_samePower (s : State) : Ends s.SamePower (execMemPhyTrainingDone s) := by
  simp [State.SamePower, State.Quiet, execMemPhyTrainingDone]

theorem execMemSelftestDone_samePower (rows : List RowFail) (s : State) : Ends s.SamePower (execMemSelftestDone rows s) := by
  simp [State.SamePower, execMemSelftestDone]

theorem execMemFillDone_samePower (mc0 mc1 : Bool) (s : State) : Ends s.SamePower (execMemFillDone mc0 mc1 s) := by
  simp [State.SamePower, State.Quiet, execMemFillDone, State.reconcile]

theorem execStewardBootDone_samePower (kat : BitVec 32) (staged : Bool) (s : State) : Ends s.SamePower (execStewardBootDone kat staged s) := by
  simp [State.SamePower, execStewardBootDone, State.bootServe, State.copyVectors]

theorem execI3cDynamicAddressAssign_samePower (setdasa : Bool) (addr : BitVec 7) (s : State) :
    Ends s.SamePower (execI3cDynamicAddressAssign setdasa addr s) := by
  simp [State.SamePower, execI3cDynamicAddressAssign]

theorem execTsx_samePower (port : Fin 17) (x : TsxBody) (arrival : BitVec 80) (s : State) : Ends s.SamePower (execTsx port x arrival s) := by
  simp [State.SamePower, execTsx, State.tsx]

theorem execFtsPulse_samePower (s : State) : Ends s.SamePower (execFtsPulse s) := by simp [State.SamePower, execFtsPulse]

theorem execJournalReplayDone_samePower (s : State) : Ends s.SamePower (execJournalReplayDone s) := by
  simp [State.SamePower, execJournalReplayDone, State.replayEntry]

theorem execSwitchoverBootDone_samePower (ok : Bool) (s : State) : Ends s.SamePower (execSwitchoverBootDone ok s) := by
  unfold execSwitchoverBootDone
  dsimp only
  (repeat' split) <;> simp [State.SamePower]

theorem execSwitchoverComplete_samePower (s : State) : Ends s.SamePower (execSwitchoverComplete s) := by
  simp [State.SamePower, execSwitchoverComplete]

theorem execPowerUnitAnswer_samePower (unit : BitVec 16) (a : UnitAnswer) (s : State) : Ends s.SamePower (execPowerUnitAnswer unit a s) := by
  unfold execPowerUnitAnswer
  cases a <;> simp [State.SamePower]

theorem execPowerDelayReask_samePower (unit : BitVec 16) (s : State) : Ends s.SamePower (execPowerDelayReask unit s) := by
  simp [State.SamePower, execPowerDelayReask]

theorem execPowerDelayExpired_samePower (unit : BitVec 16) (s : State) : Ends s.SamePower (execPowerDelayExpired unit s) := by
  simp [State.SamePower, execPowerDelayExpired]

@[simp] theorem State.lctlIn_core (s : State) (p : Nat) (f : Flit) : (s.lctlIn p f).pwr.core = s.pwr.core := by
  unfold lctlIn
  split <;> simp [tsx]

@[simp] theorem State.flitIn_core (s : State) (p : Nat) (f : Flit) : (s.flitIn p f).pwr.core = s.pwr.core := by simp [flitIn]

theorem execFlitReceive_samePower (port : Fin 17) (f : Flit) (s : State) : Ends s.SamePower (execFlitReceive port f s) := by
  simp [State.SamePower, execFlitReceive]

theorem execFecBlockReceive_samePower (port : Fin 17) (b : FecBlock) (s : State) : Ends s.SamePower (execFecBlockReceive port b s) := by
  simp [State.SamePower, execFecBlockReceive]

@[simp] theorem Pwr.at_core (p : Pwr) (n now : Nat) : (p.at n now).core = p.core := by
  unfold Pwr.at
  dsimp only
  (repeat' split) <;> rfl

@[simp] theorem State.capEvent_core (s : State) (level cause : Nat) : (s.capEvent level cause).pwr.core = s.pwr.core := by
  simp [capEvent]

@[simp] theorem State.capUp_core (s : State) : s.capUp.pwr.core = s.pwr.core := by
  unfold capUp
  dsimp only
  (repeat' split) <;> simp

theorem execCapperSample_samePower (power : BitVec 16) (s : State) : Ends s.SamePower (execCapperSample power s) := by
  unfold execCapperSample
  dsimp only
  (repeat' split) <;> simp [State.SamePower]

theorem execCapperRateLower_samePower (s : State) : Ends s.SamePower (execCapperRateLower s) := by
  simp [State.SamePower, execCapperRateLower]

theorem execCapperRelease_samePower (s : State) : Ends s.SamePower (execCapperRelease s) := by
  unfold execCapperRelease
  split <;> simp [State.SamePower]

end Sys2Proof.Machine

namespace Sys2Proof.Machine
open Sys2Proof

/-! ### Rows that move the power state -/

theorem State.restart_ok (s : State) (nv : Nv) (phase : Phase) : (s.restart nv phase).pwr.ok := by
  simp [restart, Pwr.ok, PwrStep.entry, PwrStep.deep, PwrStep.waking]

theorem State.restartOn_ok (s : State) (nv : Nv) (phase : Phase) (rail : Nat) : (s.restartOn nv phase rail).pwr.ok :=
  Pwr.ok_of_core (p := (s.restart nv phase).pwr) rfl (s.restart_ok nv phase)

/-- The fuses read: CAP is the fused CEILING, which is no less than the fused FLOOR (R520). -/
theorem State.readFuses_ok (s : State) (h : s.nv.capOk) (k : s.pwr.ok) : s.readFuses.pwr.ok := by
  obtain ⟨-, -, rest⟩ := k
  exact ⟨h, Nat.le_refl _, rest⟩

theorem State.wholeReset_ok (s : State) (cause : BitVec 3) (h : s.nv.capOk) : (s.wholeReset cause).pwr.ok :=
  State.readFuses_ok _ h (s.restart_ok ..)

theorem State.earlyReset_ok (s : State) (cause : BitVec 3) (h : s.pwr.ok) : (s.earlyReset cause).pwr.ok := by
  unfold earlyReset
  split
  · split
    · exact s.restartOn_ok ..
    · exact h
  · exact s.restartOn_ok ..
  · exact h

/-- Registers with no entry and no wake in progress, STATE and LAST_AP not reserved, and the limits of legal ones, are legal. -/
theorem Pwr.ok_idle {p q : Pwr} (h : p.ok) (lim : (q.floor, q.cap, q.ceiling) = (p.floor, p.cap, p.ceiling))
    (step : q.pstep = .none) (idle : q.entering = false) (state : q.state.toNat ≤ 4) (ap : q.lastAp.toNat ≤ 4) : q.ok := by
  obtain ⟨low, high, -⟩ := h
  simp only [Prod.mk.injEq] at lim
  simp [Pwr.ok, lim, low, high, step, idle, state, ap, PwrStep.entry, PwrStep.deep, PwrStep.waking]

theorem Pwr.ok.state_le {p : Pwr} (h : p.ok) : p.state.toNat ≤ 4 := by
  obtain ⟨-, -, state, -⟩ := h
  exact state

theorem Pwr.ok.lastAp_le {p : Pwr} (h : p.ok) : p.lastAp.toNat ≤ 4 := by
  obtain ⟨-, -, -, lastAp, -⟩ := h
  exact lastAp

@[simp] theorem State.wakeD1_pwr (s : State) : s.wakeD1.pwr = { s.pwr with state := 0 } := by simp [wakeD1]

theorem State.wakeD1_ok (s : State) (h : s.pwr.ok) (idle : s.pwr.pstep = .none) (e : s.pwr.entering = false) : s.wakeD1.pwr.ok := by
  rw [wakeD1_pwr]
  exact Pwr.ok_idle h rfl idle e (by simp) h.lastAp_le

/-- What an abandoned entry leaves before a wake event wakes the device from D1. -/
def State.abandoned (s : State) (ap : Nat) (u : BitVec 16 × Byte) : State :=
  let p := s.pwr
  let s := { s with pwr := { p.ended with lastAp := BitVec.ofNat 3 ap, lastUnit := u.1, lastReason := u.2 } }
  let s := if ap = 4 then s.gateTiles (p.state == 1) else s
  let s := if 3 ≤ ap then s.hostAgain else s
  let s := if p.wake then s.powerEvent p.target 2 ap else s.powerEvent p.target 4 (packBytes [(0, 2, u.1.toNat), (2, 1, u.2.toNat)])
  match p.token with
  | some t => s.failCmd t csRefused 0 (BitVec.ofNat 1920 (u.1.toNat + u.2.toNat * 65536))
  | none => s

theorem State.abandonEntry_eq (s : State) (ap : Nat) (u : BitVec 16 × Byte) :
    s.abandonEntry ap u = if s.pwr.wake = true ∧ s.pwr.state = 1 then (s.abandoned ap u).wakeD1 else s.abandoned ap u := by
  unfold abandonEntry abandoned
  simp only [Bool.and_eq_true, decide_eq_true_eq] <;> rfl

@[simp] theorem State.abandoned_pwr (s : State) (ap : Nat) (u : BitVec 16 × Byte) :
    (s.abandoned ap u).pwr = { s.pwr.ended with lastAp := BitVec.ofNat 3 ap, lastUnit := u.1, lastReason := u.2 } := by
  unfold abandoned
  dsimp only
  split <;> simp

theorem State.abandonEntry_ok (s : State) (ap : Nat) (u : BitVec 16 × Byte) (h : s.pwr.ok) (le : ap ≤ 4) : (s.abandonEntry ap u).pwr.ok := by
  have small : (BitVec.ofNat 3 ap).toNat ≤ 4 := by rw [BitVec.toNat_ofNat]; omega
  have idle : (s.abandoned ap u).pwr.ok := by
    rw [abandoned_pwr]
    exact Pwr.ok_idle h rfl rfl rfl h.state_le small
  rw [abandonEntry_eq]
  split
  · exact State.wakeD1_ok _ idle (by simp [Pwr.ended]) (by simp [Pwr.ended])
  · exact idle

theorem State.abortPoint_ok (s : State) (ap : Nat) (go : State → State) (h : s.pwr.ok) (le : ap ≤ 4) (k : (go s).pwr.ok) :
    (s.abortPoint ap go).pwr.ok := by
  unfold abortPoint
  split
  · exact s.abandonEntry_ok ap _ h le
  · exact k

/-- The next step of an entry, or of a wake, is legal where the present one is. -/
theorem Pwr.ok_step {p q : Pwr} (h : p.ok) (same : { q with pstep := p.pstep }.core = p.core) (entry : q.pstep.entry = p.pstep.entry)
    (deep : q.pstep.deep = true → 2 ≤ p.target.toNat) (waking : q.pstep.waking = true → p.state.toNat = 2 ∨ p.state.toNat = 3) : q.ok := by
  obtain ⟨low, high, state, ap, ent, target, -, -⟩ := h
  simp only [Pwr.core, Prod.mk.injEq] at same
  obtain ⟨efl, ecap, ecl, est, eap, een, -, etg⟩ := same
  refine ⟨?_, ?_, ?_, ?_, ?_, ?_, ?_, ?_⟩
  all_goals simp_all

theorem Pwr.ok.target_deep {p : Pwr} (h : p.ok) (deep : p.pstep.deep = true) : 2 ≤ p.target.toNat ∧ p.target.toNat ≤ 4 := by
  obtain ⟨-, -, -, -, -, target, far, -⟩ := h
  exact ⟨far deep, (target (by revert deep; cases p.pstep <;> simp [PwrStep.deep, PwrStep.entry])).2⟩

theorem Pwr.ok.target_far {p : Pwr} (h : p.ok) (entry : p.pstep.entry = true) (far : p.target ≠ 1) : 2 ≤ p.target.toNat := by
  obtain ⟨-, -, -, -, -, target, -⟩ := h
  have : p.target.toNat ≠ 1 := fun e => far (BitVec.eq_of_toNat_eq e)
  have := (target entry).1
  omega

@[simp] theorem State.sleepNow_pwr (s : State) : s.sleepNow.pwr = { s.pwr.ended with state := s.pwr.target, fallen := sleepRails } := by
  simp [Quiet, sleepNow]

theorem State.enterD3_ok (s : State) : s.enterD3.pwr.ok :=
  Pwr.ok_idle (s.restartOn_ok s.nv .ready 1) rfl rfl rfl (by simp [enterD3]) (by simp [enterD3, restartOn, restart])

/-- D2 or D2R reached, and the wake that a pending event starts from there. -/
theorem State.sleepNow_ok (s : State) (h : s.pwr.ok) (deep : s.pwr.pstep.deep = true) : s.sleepNow.pwr.ok := by
  rw [sleepNow_pwr]
  exact Pwr.ok_idle h rfl rfl rfl (h.target_deep deep).2 h.lastAp_le

theorem State.wakeStart_ok (s : State) (h : s.pwr.ok) (idle : s.pwr.pstep = .none) (from_ : s.pwr.state.toNat = 2 ∨ s.pwr.state.toNat = 3) :
    s.wakeStart.pwr.ok :=
  Pwr.ok_step h rfl (by simp [wakeStart, idle, PwrStep.entry]) (by simp [wakeStart, PwrStep.deep]) fun _ => from_

theorem State.entered_ok (s : State) (h : s.pwr.ok) (step : s.pwr.pstep = .s6) : s.entered.pwr.ok := by
  have deep : s.pwr.pstep.deep = true := by rw [step]; rfl
  obtain ⟨low, high⟩ := h.target_deep deep
  unfold entered
  dsimp only
  split
  · split
    · exact State.restartOn_ok ..
    · exact s.enterD3_ok
  · next four =>
    have least : s.pwr.target.toNat = 2 ∨ s.pwr.target.toNat = 3 := by
      have : s.pwr.target.toNat ≠ 4 := fun e => four (BitVec.eq_of_toNat_eq e)
      omega
    split
    · exact s.sleepNow.wakeStart_ok (s.sleepNow_ok h deep) (by simp [Pwr.ended]) (by simpa using least)
    · exact s.sleepNow_ok h deep

@[simp] theorem State.stopPorts_pwr (s : State) : s.stopPorts.pwr = { s.pwr with pstep := .s6 } := by simp [Quiet, stopPorts]

@[simp] theorem State.leaveService_pwr (s : State) : s.leaveService.pwr = { s.pwr with pstep := .s5 } := by simp [leaveService]

@[simp] theorem State.drainStart_pwr (s : State) : s.drainStart.pwr = { s.pwr with pstep := .s4 } := by simp [drainStart]

@[simp] theorem State.flushStart_pwr (s : State) : s.flushStart.pwr = { s.pwr with pstep := .s3 } := by simp [flushStart]

@[simp] theorem State.enterD1_pwr (s : State) : s.enterD1.pwr = { s.pwr.ended with state := 1 } := by simp [enterD1]

@[simp] theorem State.hostLeaves_pwr (s : State) : s.hostLeaves.pwr = s.pwr := by simp

/-- The step after one of an entry to a state deeper than D1. -/
theorem Pwr.ok_deeper {p : Pwr} (h : p.ok) (n : PwrStep) (entry : p.pstep.entry = true) (e : n.entry = true) (deep : 2 ≤ p.target.toNat) :
    { p with pstep := n }.ok :=
  Pwr.ok_step h rfl (e.trans entry.symm) (fun _ => deep) (by cases n <;> simp_all [PwrStep.entry, PwrStep.waking])

theorem State.entryStep_ok (s : State) (h : s.pwr.ok) : s.entryStep.pwr.ok := by
  have deeper (n : PwrStep) (deep : s.pwr.pstep.deep = true) (e : n.entry = true) : { s.pwr with pstep := n }.ok :=
    Pwr.ok_deeper h n (by revert deep; cases s.pwr.pstep <;> simp [PwrStep.deep, PwrStep.entry]) e (h.target_deep deep).1
  unfold entryStep
  split
  next step =>
    have refused : ({ s with pwr := { s.pwr with refuse := s.pwr.refuse.or (s.entryRefusal s.pwr.target.toNat) } } : State).pwr.ok :=
      Pwr.ok_of_core (Pwr.core_rest ..) h
    refine State.abortPoint_ok _ 1 _ refused (by decide) (Pwr.ok_step refused rfl ?_ ?_ ?_) <;>
      simp [askUnits, step, PwrStep.entry, PwrStep.deep, PwrStep.waking]
  next step =>
    split
    · refine s.abortPoint_ok 2 _ h (by decide) ?_
      split
      · rw [enterD1_pwr]
        exact Pwr.ok_idle h rfl rfl rfl (by simp) h.lastAp_le
      · next far =>
        have entry : s.pwr.pstep.entry = true := by rw [step]; rfl
        rw [flushStart_pwr]
        exact Pwr.ok_deeper h .s3 entry rfl (h.target_far entry far)
    · exact h
  next step =>
    split
    · refine State.abortPoint_ok _ 3 _ (by rwa [hostLeaves_pwr]) (by decide) ?_
      rw [drainStart_pwr, hostLeaves_pwr]
      exact deeper .s4 (by rw [step]; rfl) rfl
    · exact h
  next step =>
    split
    · exact s.abortPoint_ok 4 _ h (by decide) (by rw [leaveService_pwr]; exact deeper .s5 (by rw [step]; rfl) rfl)
    · exact h
  next step => rw [stopPorts_pwr]; exact deeper .s6 (by rw [step]; rfl) rfl
  next step => exact s.entered_ok h step
  next => exact h

theorem State.wakeEvent_ok (s : State) (h : s.pwr.ok) : s.wakeEvent.pwr.ok := by
  unfold wakeEvent
  split
  next idle =>
    have still : s.pwr.entering = false := by
      obtain ⟨-, -, -, -, ent, -⟩ := h
      rw [ent, idle]; rfl
    split
    next => exact s.wakeD1_ok h idle still
    next e => exact s.wakeStart_ok h idle (.inl e)
    next e => exact s.wakeStart_ok h idle (.inr e)
    next => exact State.restartOn_ok ..
    next => exact h
  all_goals exact Pwr.ok_of_core (Pwr.core_rest ..) h

@[simp] theorem State.wakeStacks_pwr (s : State) : s.wakeStacks.pwr = s.pwr := by simp

@[simp] theorem State.wakeLogic_pwr (s : State) : s.wakeLogic.pwr = s.pwr := by simp

theorem execWakeStepDone_ok (s : State) (h : s.pwr.ok) : Ends (fun t => t.pwr.ok) (execWakeStepDone s) := by
  have next (n : PwrStep) (from_ : s.pwr.pstep.waking = true) (to_ : n.waking = true) : { s.pwr with pstep := n }.ok := by
    obtain ⟨-, -, -, -, -, -, -, sleep⟩ := id h
    exact Pwr.ok_step h rfl (by revert from_ to_; cases n <;> cases s.pwr.pstep <;> simp [PwrStep.entry, PwrStep.waking])
      (by revert to_; cases n <;> simp [PwrStep.deep, PwrStep.waking]) fun _ => sleep from_
  unfold execWakeStepDone
  split
  next step =>
    refine .next ?_
    split
    · exact next .w2 (by rw [step]; rfl) rfl
    · exact h
  next step => exact .next (next .w3 (by rw [step]; rfl) rfl)
  next step => exact .next (by dsimp only; rw [s.wakeStacks_pwr]; exact next .w4 (by rw [step]; rfl) rfl)
  next step => exact .next (by dsimp only; rw [s.wakeLogic_pwr]; exact next .w5 (by rw [step]; rfl) rfl)
  next step => exact .next (next .w6 (by rw [step]; rfl) rfl)
  next step =>
    have still : s.pwr.entering = false := by
      obtain ⟨-, -, -, -, ent, -⟩ := h
      rw [ent, step]; rfl
    refine .next ?_
    simp only [State.postReady_pwr, State.powerEvent_quiet]
    exact Pwr.ok_idle h rfl rfl still (by simp) h.lastAp_le
  next => exact .next h

theorem powerCapSet_ok (s : State) (c : Cmd) (a : Nat) (h : s.pwr.ok) : (powerCapSet s c a).st.pwr.ok := by
  unfold powerCapSet
  dsimp only
  split
  · rwa [(refuse_quiet ..).keepsForm.2]
  · next fits =>
    simp only [Bool.or_eq_true, decide_eq_true_eq, not_or, Nat.not_lt] at fits
    have small : (BitVec.ofNat 10 (arg a 0 2)).toNat = arg a 0 2 := by
      rw [BitVec.toNat_ofNat]; have := s.pwr.ceiling.isLt; omega
    obtain ⟨-, -, rest⟩ := h
    exact ⟨by simpa only [done, small] using fits.1, by simpa only [done, small] using fits.2, rest⟩

theorem powerStateSet_ok (s : State) (c : Cmd) (a : Nat) (h : s.pwr.ok) : (powerStateSet s c a).st.pwr.ok := by
  unfold powerStateSet
  dsimp only
  split
  · exact h
  · next le =>
    split
    · split
      · exact Pwr.ok_of_core (Pwr.core_rest ..) h
      · exact h
    · next idle =>
      have idle : s.pwr.pstep = .none := by simpa using idle
      have still : s.pwr.entering = false := by
        obtain ⟨-, -, -, -, ent, -⟩ := h
        rw [ent, idle]; rfl
      split
      · exact h
      · split
        · exact s.wakeD1_ok h idle still
        · next nz =>
          have small : (BitVec.ofNat 3 (arg a 0 1)).toNat = arg a 0 1 := by rw [BitVec.toNat_ofNat]; omega
          obtain ⟨low, high, state, ap, -⟩ := h
          refine ⟨low, high, state, ap, rfl, fun _ => ?_, ?_, ?_⟩
          · simp only [await, small]; omega
          · simp [await, PwrStep.deep]
          · simp [await, PwrStep.waking]

theorem State.ran_ok (s : State) (f : CmdForm) (mb : MbId) {body : State → Cmd → Nat → Answer}
    (h : ∀ u c a, u.pwr.ok → (body u c a).st.pwr.ok) (k : s.pwr.ok) : Ends (fun t => t.pwr.ok) (s.ran f mb body) :=
  .next (s.command_rel (R := fun s t => s.pwr.ok → t.pwr.ok)
    ⟨fun _ => id, fun q r k => r (q.keepsForm.2 ▸ k), fun r q k => q.keepsForm.2 ▸ r k⟩ f mb h k)

end Sys2Proof.Machine

namespace Sys2Proof.Machine
open Sys2Proof

theorem Ends.mono {P Q : State → Prop} (k : ∀ t, P t → Q t) {o : Host.Outcome State Fault Refusal} : Ends P o → Ends Q o
  | .next h => .next (k _ h)
  | .fault r => .fault r
  | .refused r => .refused r

theorem Ends.ite {P : State → Prop} {c : Prop} [Decidable c] {a b : Host.Outcome State Fault Refusal} (h : Ends P a) (k : Ends P b) :
    Ends P (if c then a else b) := by
  split
  · exact h
  · exact k

/-! ### Commands that restart the device -/

@[simp] theorem Memory.canonical_blank : Memory.Canonical [] := rfl

@[simp] theorem State.restart_dram (s : State) (nv : Nv) (phase : Phase) : (s.restart nv phase).dram = [] := rfl

@[simp] theorem State.restartOn_dram (s : State) (nv : Nv) (phase : Phase) (rail : Nat) : (s.restartOn nv phase rail).dram = [] := rfl

@[simp] theorem State.wholeReset_dram (s : State) (cause : BitVec 3) : (s.wholeReset cause).dram = [] := rfl

/-- DRAM is left, or what it held is lost. -/
@[simp] def State.LeavesOrClears (s t : State) : Prop := Memory.Canonical s.dram → Memory.Canonical t.dram

theorem State.LeavesOrClears.of_clear {s t : State} (h : t.dram = []) : s.LeavesOrClears t := fun _ => h ▸ Memory.canonical_blank

theorem State.earlyReset_canonical (s : State) (cause : BitVec 3) : s.LeavesOrClears (s.earlyReset cause) := by
  unfold earlyReset
  split
  · split <;> simp
  · simp
  · exact id

@[simp] theorem State.abandonEntry_dram (s : State) (ap : Nat) (u : BitVec 16 × Byte) : (s.abandonEntry ap u).dram = s.dram := by
  unfold abandonEntry
  dsimp only
  (repeat' split) <;> simp

theorem State.abortPoint_canonical (s : State) (ap : Nat) (go : State → State) (h : s.LeavesOrClears (go s)) :
    s.LeavesOrClears (s.abortPoint ap go) := by
  unfold abortPoint
  split
  · simp
  · exact h

theorem State.entryStep_canonical (s : State) : s.LeavesOrClears s.entryStep := by
  unfold entryStep
  split
  next => exact fun h => State.abortPoint_canonical _ 1 State.askUnits id h
  next =>
    split
    · exact s.abortPoint_canonical _ _ (by simp [enterD1, flushStart, apply_ite State.dram])
    · exact id
  next =>
    split
    · simpa using s.hostLeaves.abortPoint_canonical 3 State.drainStart (by simp [drainStart])
    · exact id
  next =>
    split
    · exact s.abortPoint_canonical _ _ (by simp [leaveService])
    · exact id
  next => simp [stopPorts, Quiet]
  next =>
    unfold entered
    dsimp only
    (repeat' split) <;> simp [enterD3, wakeD3, wakeStart, sleepNow, Quiet]
  next => exact id

theorem State.wakeEvent_canonical (s : State) : s.LeavesOrClears s.wakeEvent := by
  unfold wakeEvent
  (repeat' split) <;> simp [wakeStart, wakeD3]

/-! ### Every command -/

/-- Whether a command acts on lines of DRAM. -/
def storesLines : Instr → Bool
  | .parityDelta _ _ _ | .dramAccessDone _ _ _ _ | .scrubStep _ | .zeroFillDone _ | .rebuildStep _ | .jobSubmit _ | .schedStage _ | .routeLoad _
  | .memDiagWrite _ | .memDiagRead _ | .memDiagClose _ | .certRead _ | .attestReport _ | .sessionOpen _ | .fwStage _ => true
  | _ => false

/-- A command that acts on lines of DRAM stores lines, and leaves the power registers. -/
theorem exec_keepsForm (s : State) (c : Instr) (h : storesLines c = true) : Ends s.KeepsForm (exec c s) := by
  cases c with
  | parityDelta xh offset delta => exact execParityDelta_keepsForm xh offset delta s
  | dramAccessDone stack ch c0 c1 => exact execDramAccessDone_keepsForm stack ch c0 c1 s
  | scrubStep ext => exact execScrubStep_keepsForm ext s
  | zeroFillDone ext => exact execZeroFillDone_keepsForm ext s
  | rebuildStep r => exact execRebuildStep_keepsForm r s
  | jobSubmit mb => exact s.ran_keepsForm _ mb jobSubmit_keepsForm
  | schedStage mb => exact s.ran_keepsForm _ mb schedStage_keepsForm
  | routeLoad mb => exact s.ran_keepsForm _ mb routeLoad_keepsForm
  | memDiagWrite mb => exact s.ran_keepsForm _ mb memDiagWrite_keepsForm
  | memDiagRead mb => exact s.ran_keepsForm _ mb memDiagRead_keepsForm
  | memDiagClose mb => exact s.ran_keepsForm _ mb memDiagClose_keepsForm
  | certRead mb => exact s.ran_keepsForm _ mb certRead_keepsForm
  | attestReport mb => exact s.ran_keepsForm _ mb attestReport_keepsForm
  | sessionOpen mb => exact s.ran_keepsForm _ mb sessionOpen_keepsForm
  | fwStage mb => exact s.ran_keepsForm _ mb fwStage_keepsForm
  | _ => exact Bool.noConfusion h

/-- Every row leaves DRAM in canonical form: one that does not act on DRAM leaves it, those that act on lines store lines, and a restart of
the device clears it. -/
theorem exec_canonical (s : State) (c : Instr) : Ends s.LeavesOrClears (exec c s) := by
  by_cases frame : c.writesDram = false
  · exact (exec_sameDram s c frame).mono fun t same => by rw [State.LeavesOrClears, same]; exact id
  by_cases lines : storesLines c = true
  · exact (exec_keepsForm s c lines).mono fun _ h => h.1
  cases c with
  | powerOn =>
    simp only [exec, execPowerOn]
    split <;> simp
  | railPowerGoodTimeout => simp [exec, execRailPowerGoodTimeout]
  | resetPin us =>
    exact .ite (.next id) (.ite (.next (s.earlyReset_canonical _)) (.ite (.next (.of_clear rfl)) (.next (.of_clear rfl))))
  | inputFault mv us => simp [exec, execInputFault]
  | thermalTrip => simp [exec, execThermalTrip]
  | i3cWake => exact .ite (.next s.wakeEvent_canonical) (.next id)
  | i3cReset b0 b1 gapUs =>
    exact .ite (.next id) (.ite (.next (.of_clear rfl)) (.ite (.next (.of_clear rfl)) (.ite (.next (.of_clear rfl))
      (.next (s.earlyReset_canonical _)))))
  | deviceResetStart =>
    simp only [exec, execDeviceResetStart]
    split <;> simp
  | debugDisableFuseBlow => simp [exec, execDebugDisableFuseBlow]
  | powerEntryStepDone =>
    refine .next ?_
    split
    · exact s.entryStep_canonical
    · exact id
  | _ => simp [Instr.writesDram, storesLines] at frame lines

/-- Every row leaves the power registers legal. -/
theorem exec_ok (s : State) (c : Instr) (hc : s.nv.capOk) (h : s.pwr.ok) : Ends (fun t => t.pwr.ok) (exec c s) := by
  have same (k : Ends s.SamePower (exec c s)) : Ends (fun t => t.pwr.ok) (exec c s) := k.mono fun _ e => Pwr.ok_of_core e h
  by_cases lines : storesLines c = true
  · exact same (exec_keepsForm s c lines).samePower
  cases c with
  | powerOn =>
    simp only [exec, execPowerOn]
    split <;> simp [State.restart_ok, h]
  | railPowerGoodTimeout =>
    exact .ite (.next (Pwr.ok_of_core (Pwr.core_rest ..) h)) (.ite (.next (Pwr.ok_of_core (Pwr.core_rest ..) (s.restart_ok _ _))) (.next h))
  | oscillatorStable => simp [exec, execOscillatorStable, h, s.readFuses_ok hc]
  | resetPin us => simp [exec, execResetPin, h, s.restartOn_ok, s.wholeReset_ok _ hc, s.earlyReset_ok]
  | inputFault mv us => simp [exec, execInputFault, h, s.restart_ok]
  | thermalTrip => simp [exec, execThermalTrip, h, s.restartOn_ok]
  | i3cWake => simp [exec, execI3cWake, h, s.wakeEvent_ok]
  | i3cReset b0 b1 gapUs => simp [exec, execI3cReset, h, s.restartOn_ok, s.wholeReset_ok _ hc, s.earlyReset_ok]
  | deviceResetStart =>
    simp only [exec, execDeviceResetStart]
    split <;> simp [h, s.wholeReset_ok _ hc]
  | debugDisableFuseBlow => exact .ite (.next (State.wholeReset_ok _ _ hc)) (.next h)
  | powerEntryStepDone =>
    refine .next ?_
    split
    · exact s.entryStep_ok h
    · exact h
  | wakeStepDone => exact execWakeStepDone_ok s h
  | powerCapSet mb => exact s.ran_ok _ mb powerCapSet_ok h
  | powerStateSet mb => exact s.ran_ok _ mb powerStateSet_ok h
  | railPowerGood => exact same (execRailPowerGood_samePower s)
  | railRetryTimer => exact same (execRailRetryTimer_samePower s)
  | logicSelftestDone passed => exact same (execLogicSelftestDone_samePower passed s)
  | memPhyTrainingDone => exact same (execMemPhyTrainingDone_samePower s)
  | memSelftestDone rows => exact same (execMemSelftestDone_samePower rows s)
  | memFillDone mc0 mc1 => exact same (execMemFillDone_samePower mc0 mc1 s)
  | stewardBootDone kat staged => exact same (execStewardBootDone_samePower kat staged s)
  | i3cDynamicAddressAssign setdasa addr => exact same (execI3cDynamicAddressAssign_samePower setdasa addr s)
  | tsx port x arrival => exact same (execTsx_samePower port x arrival s)
  | flitReceive port f => exact same (execFlitReceive_samePower port f s)
  | fecBlockReceive port b => exact same (execFecBlockReceive_samePower port b s)
  | ftsPulse => exact same (execFtsPulse_samePower s)
  | capperSample power => exact same (execCapperSample_samePower power s)
  | capperRateLower => exact same (execCapperRateLower_samePower s)
  | capperRelease => exact same (execCapperRelease_samePower s)
  | journalReplayDone => exact same (execJournalReplayDone_samePower s)
  | switchoverBootDone ok => exact same (execSwitchoverBootDone_samePower ok s)
  | switchoverComplete => exact same (execSwitchoverComplete_samePower s)
  | powerUnitAnswer unit a => exact same (execPowerUnitAnswer_samePower unit a s)
  | powerDelayReask unit => exact same (execPowerDelayReask_samePower unit s)
  | powerDelayExpired unit => exact same (execPowerDelayExpired_samePower unit s)
  | parityDelta | dramAccessDone | scrubStep | zeroFillDone | rebuildStep | jobSubmit | schedStage | routeLoad | memDiagWrite
  | memDiagRead | memDiagClose | certRead | attestReport | sessionOpen | fwStage => exact absurd rfl lines
  | partitionCreate mb | partitionArm mb | partitionRecover mb | partitionClose mb | contextCreate mb | contextSet mb | contextDestroy mb
  | extentCreate mb | extentRevoke mb | extentShareOffer mb | extentShareAccept mb | extentShareWithdraw mb | extentUnshare mb
  | extentQuery mb | deviceSetScrub mb | groupConfig mb | groupPromote mb | groupRebuild mb | invalidateRange mb | elderBind mb
  | elderMap mb | cohAgentSet mb | cohConfig mb | jobCancel mb | combineSetup mb | combineClear mb | combineReside mb
  | combineRelease mb | ftConfig mb | schedArm mb | schedDisarm mb | schedCancel mb | shapePortSet mb | shapePartSet mb | limitSet mb
  | linkEnable mb | linkDisable mb | linkRetrain mb | linkTune mb | fabricConfig mb | routeFlip mb | nodeWithdraw mb | memSetRate mb
  | memConfig mb | memDiagOpen mb | adminSet mb | notifySet mb | mcTakeover mb | counterSnapshot mb | testRun mb | fwCommit mb
  | deviceReset mb | dbgRead mb | dbgWrite mb => exact same (s.ran_quiet _ mb (by simp [State.Quiet])).keepsForm.samePower
  | _ => exact same (Ends.keepsForm (by simp [exec])).samePower

/-- A nanosecond without a command changes neither DRAM, nor the power registers, nor the fuses. -/
theorem State.tick_keepsInv {s : State} (h : s.Inv) : s.tick.Inv := by
  obtain runs | waits := Bool.eq_false_or_eq_true s.pwr.running
  · rw [State.tick_running runs]
    exact h
  · rw [State.tick_waiting waits]
    exact h

/-- The fuses keep CAP's bounds in order. -/
theorem Nv.capOk_of_permanent {m n : Nv} (same : m.permanent = n.permanent) (h : n.capOk) : m.capOk := by
  obtain ⟨-, -, ceiling, floor, -⟩ := (Nv.permanent_eq_iff m n).mp same
  rwa [Nv.capOk, ceiling, floor]

/-- Settles O7: the front command's row, or the tick, keeps each part of the invariant. -/
theorem stepKeepsInv : Obligations.StepKeepsInv := by
  unfold Obligations.StepKeepsInv
  rintro s t inv h
  unfold step at h
  split at h
  · next c rest _ =>
    obtain ⟨wf, caps, ok⟩ := inv
    have kept := (ends_next _ t).mp (h ▸ exec_keeps { s with pending := rest } c)
    have form := (ends_next _ t).mp (h ▸ exec_canonical { s with pending := rest } c)
    have legal := (ends_next _ t).mp (h ▸ exec_ok { s with pending := rest } c caps ok)
    exact ⟨form wf, Nv.capOk_of_permanent kept.2 caps, legal⟩
  · obtain rfl := Host.Outcome.next.inj h
    exact State.tick_keepsInv inv

end Sys2Proof.Machine

namespace Sys2Proof.Machine
open Sys2Proof

/-! ## Every command completes -/

/-- Whether a row answers a next state. -/
def goesOn : Host.Outcome State Fault Refusal → Bool
  | .next _ => true
  | _ => false

@[simp] theorem goesOn_next (s : State) : goesOn (.next s) = true := rfl

@[simp] theorem goesOn_ite (c : Prop) [Decidable c] (a b : Host.Outcome State Fault Refusal) :
    goesOn (if c then a else b) = if c then goesOn a else goesOn b := apply_ite ..

theorem goesOn_iff (o : Host.Outcome State Fault Refusal) : goesOn o = true ↔ ∃ t, o = .next t := by
  cases o <;> simp [goesOn]

/-- Every row but that of an input beyond the ratings answers a next state: it is one, a choice among some, or a case split into some. -/
theorem exec_goesOn (c : Instr) (s : State) (rated : ∀ mv us, c = .inputFault mv us → mv ≤ 80000 ∧ (mv ≤ 66000 ∨ us ≤ 100000)) :
    goesOn (exec c s) = true := by
  cases c with
  | inputFault mv us =>
    obtain ⟨low, brief⟩ := rated mv us rfl
    have within : ¬(80000 < mv ∨ 66000 < mv ∧ 100000 < us) := by omega
    simp [exec, execInputFault, within]
  | railPowerGood | railPowerGoodTimeout | railRetryTimer | oscillatorStable | logicSelftestDone | memPhyTrainingDone | memSelftestDone
  | memFillDone | stewardBootDone | resetPin | thermalTrip | i3cWake | i3cReset | ftCorrectionBroadcast | abortComplete | transitReevaluate
  | admitEntryResume | breakNotice | originatedCompletion | snpAck | snpAckData | grantAck | elderRequest | parityDelta | refreshDue
  | calibrationDue | calibrationForced | calibrationDone | patrolStep | scrubStep | scrubDone | sensorSample | capperSample | capperRateLower
  | loadInterval | zeroFillDone | chunkReleaseDone | phaseDrainDone | revokeDrainDone | contextRetireDone | partitionFree
  | groupHeartbeatSend | groupHeartbeat | groupMemberLost | tsxSend | keeperLock | keeperOffsetLoss | holdoverExpire | schedIdleAfterLoss
  | armStepsDone | portFrameStart | ftsPulse | fecBlockReceive | flitReceive | nakRepeatTimer | spillWrite | trainingStepTimeout
  | retrainTrigger | retrainTimeout | signalLost | portListenIdle | restamp | drainTimeout | qoreusLinkUp | heartbeatWatchdog
  | journalReplayDone | oldCoreCheckDone | switchoverStart | switchoverComplete | katDue | suspectTestDue | katStart | katSegmentEnd
  | snapshotLatch | powerDelayReask | powerDelayExpired | fecBlockTransmit | heartbeatWrite | undefinedOpcodeCommand | stackControllerFailure
  | debugDisableFuseBlow | i3cDynamicAddressAssign =>
    simp [exec, execRailPowerGood, execRailPowerGoodTimeout, execRailRetryTimer, execOscillatorStable, execLogicSelftestDone,
      execMemPhyTrainingDone, execMemSelftestDone, execMemFillDone, execStewardBootDone, execResetPin, execThermalTrip, execI3cWake,
      execI3cReset, execFtCorrectionBroadcast, execAbortComplete, execTransitReevaluate, execAdmitEntryResume, execBreakNotice,
      execOriginatedCompletion, execSnpAck, execSnpAckData, execGrantAck, execElderRequest, execParityDelta, execRefreshDue,
      execCalibrationDue, execCalibrationForced, execCalibrationDone, execPatrolStep, execScrubStep, execScrubDone, execSensorSample,
      execCapperSample, execCapperRateLower, execLoadInterval, execZeroFillDone, execChunkReleaseDone, execPhaseDrainDone,
      execRevokeDrainDone, execContextRetireDone, execPartitionFree, execGroupHeartbeatSend, execGroupHeartbeat, execGroupMemberLost,
      execTsxSend, execKeeperLock, execKeeperOffsetLoss, execHoldoverExpire, execSchedIdleAfterLoss, execArmStepsDone, execPortFrameStart,
      execFtsPulse, execFecBlockReceive, execFlitReceive, execNakRepeatTimer, execSpillWrite, execTrainingStepTimeout, execRetrainTrigger,
      execRetrainTimeout, execSignalLost, execPortListenIdle, execRestamp, execDrainTimeout, execQoreusLinkUp, execHeartbeatWatchdog,
      execJournalReplayDone, execOldCoreCheckDone, execSwitchoverStart, execSwitchoverComplete, execKatDue, execSuspectTestDue, execKatStart,
      execKatSegmentEnd, execSnapshotLatch, execPowerDelayReask, execPowerDelayExpired, execFecBlockTransmit, execHeartbeatWrite,
      execUndefinedOpcodeCommand, execStackControllerFailure, execDebugDisableFuseBlow, execI3cDynamicAddressAssign]
  | powerOn | faultRecordPost | pendingRecordTimeout | routePacket | pairGapTimeout | requestTimeout | reservationExpire | dramSchedule
  | dramAccessDone | rateChangeStackDone | capperRelease | walkerTakeJob | walkerTableReadDone | dispatch | blockEnd | engineAccessComplete
  | engineRetryReissue | budgetExhausted | quantumExpiry | engineFault | landingAbsorb | rebuildStep | listSwitch | schedTakeover
  | armLateDeadline | schedOpDue | schedOpDeadline | replayTimeout | trainingStart | trainingStepDone | retrainStepDone | routeFlipAtTf
  | drain | hostMemoryTimeout | notifySend | stagingPlaceFree | standbyBootDone | switchoverBootDone | katEnd | powerUnitAnswer
  | wakeStepDone | groupExtentCreate | groupExtentRevoke | gateEntryBoundary | deviceResetStart =>
    simp only [exec, execPowerOn, execFaultRecordPost, execPendingRecordTimeout, execRoutePacket, execPairGapTimeout, execRequestTimeout,
      execReservationExpire, execDramSchedule, execDramAccessDone, execRateChangeStackDone, execCapperRelease, execWalkerTakeJob,
      execWalkerTableReadDone, execDispatch, execBlockEnd, execEngineAccessComplete, execEngineRetryReissue, execBudgetExhausted,
      execQuantumExpiry, execEngineFault, execLandingAbsorb, execRebuildStep, execListSwitch, execSchedTakeover, execArmLateDeadline,
      execSchedOpDue, execSchedOpDeadline, execReplayTimeout, execTrainingStart, execTrainingStepDone, execRetrainStepDone,
      execRouteFlipAtTf, execDrain, execHostMemoryTimeout, execNotifySend, execStagingPlaceFree, execStandbyBootDone, execSwitchoverBootDone,
      execKatEnd, execPowerUnitAnswer, execWakeStepDone, execGroupExtentCreate, execGroupExtentRevoke, execGateEntryBoundary,
      execDeviceResetStart]
    (repeat' split) <;> rfl
  | _ => rfl

/-- Settles O3: of all rows only that of an input beyond the ratings does not go on. -/
theorem everyCommandCompletes : Obligations.EveryCommandCompletes := by
  unfold Obligations.EveryCommandCompletes
  refine ⟨fun c s rated => (goesOn_iff _).mp (exec_goesOn c s rated), fun mv us s beyond => ?_⟩
  simp [exec, execInputFault, beyond]

end Sys2Proof.Machine

namespace Sys2Proof.Machine
open Sys2Proof

/-! ## Lines of DRAM -/

@[simp] theorem length_leBytes (n v : Nat) : (leBytes n v).length = n := by
  induction n generalizing v with
  | zero => rfl
  | succ n ih => simp [leBytes, ih]

/-- The bytes of a number spell its low bytes. -/
theorem ofLe_leBytes (n v : Nat) : ofLe (leBytes n v) = v % 256 ^ n := by
  induction n generalizing v with
  | zero => simp [leBytes, ofLe, Nat.mod_one]
  | succ n ih => rw [leBytes, ofLe, ih, BitVec.toNat_ofNat, Nat.pow_succ' (n := n), ← Nat.mod_mul]

/-- A line from its own bytes. -/
theorem lineOf_lineBytes (d : Line) : lineOf (lineBytes d) = d := by
  have whole : (lineBytes d).take 128 = lineBytes d := List.take_of_length_le (by simp [lineBytes])
  have width : 256 ^ 128 = 2 ^ (8 * 128) := (Nat.pow_mul 2 8 128).symm
  rw [lineOf, whole, lineBytes, ofLe_leBytes, width, Nat.mod_eq_of_lt d.isLt, BitVec.ofNat_toNat, BitVec.setWidth_eq]

@[simp] theorem State.lineMeta_storeLine_same (s : State) (l : Nat) (d : Line) (key : Option Nat) (tweak : Nat) :
    (s.storeLine l d key tweak).lineMeta l = { key := key, tweak := tweak } := by
  simp [storeLine, lineMeta, setLineMeta, tget_tput_same]

theorem State.lineMeta_storeLine_ne {l m : Nat} (h : m ≠ l) (s : State) (d : Line) (key : Option Nat) (tweak : Nat) :
    (s.storeLine l d key tweak).lineMeta m = s.lineMeta m := by
  simp [storeLine, lineMeta, setLineMeta, tget_tput_ne, h]

@[simp] theorem State.storeLine_dram (s : State) (l : Nat) (d : Line) (key : Option Nat) (tweak : Nat) :
    (s.storeLine l d key tweak).dram = cellsPut s.dram (l * 128) (lineBytes d) := by
  simp [storeLine]

/-- The bytes of a line as stored. -/
theorem State.rawLine_storeLine_same (s : State) (l : Nat) (d : Line) (key : Option Nat) (tweak : Nat) :
    (s.storeLine l d key tweak).rawLine l = d := by
  have bytes : ((List.range 128).map fun i => (s.storeLine l d key tweak).cell (l * 128 + i)) = lineBytes d := by
    refine List.ext_getElem (by simp [lineBytes]) fun i h _ => ?_
    have inside : l * 128 + i < l * 128 + (lineBytes d).length := by
      simp only [List.length_map, List.length_range] at h
      simpa [lineBytes] using h
    rw [List.getElem_map, List.getElem_range, cell, storeLine_dram, tget_cellsPut, dif_pos ⟨by omega, inside⟩]
    simp
  rw [rawLine, bytes, lineOf_lineBytes]

/-- The bytes of another line. -/
theorem State.rawLine_storeLine_ne {l m : Nat} (h : m ≠ l) (s : State) (d : Line) (key : Option Nat) (tweak : Nat) :
    (s.storeLine l d key tweak).rawLine m = s.rawLine m := by
  unfold rawLine
  congr 1
  refine List.map_congr_left fun i low => ?_
  have outside : ¬(l * 128 ≤ m * 128 + i ∧ m * 128 + i < l * 128 + (lineBytes d).length) := by
    have := List.mem_range.mp low
    simp only [lineBytes, length_leBytes]
    omega
  rw [cell, storeLine_dram, tget_cellsPut, dif_neg outside, cell]

/-- Settles O59: a line's bytes and its key and tweak are what the last write left, and those of another line stay. -/
theorem linesReadBack : Obligations.LinesReadBack := by
  unfold Obligations.LinesReadBack
  intro s l d key tweak
  refine ⟨?same, fun k w other => ?stale, fun m k w other => ?rest, fun wf => cellsPut_wf _ _ _ wf⟩
  case same => simp [State.readLine, State.rawLine_storeLine_same]
  case stale =>
    have differs : ¬(key = k ∧ tweak = w) := by
      rintro ⟨rfl, rfl⟩
      simp at other
    simp [State.readLine, differs]
  case rest => simp [State.readLine, State.lineMeta_storeLine_ne other, State.rawLine_storeLine_ne other]

end Sys2Proof.Machine

namespace Sys2Proof.Machine
open Sys2Proof

/-! ## Event counters -/

/-- A counted event advances its counter up to the greatest value, and no other counter. -/
theorem State.countTo_live (s : State) (off n k : Nat) :
    tget 0 (s.countTo off n).1.cnt.live k = if k = off then min cntMax (tget 0 s.cnt.live off + n) else tget 0 s.cnt.live k :=
  tget_tput 0 s.cnt.live off k _

@[simp] theorem State.countTo_elog (s : State) (off n : Nat) : (s.countTo off n).1.elog = s.elog := rfl

/-- A counter reaches its greatest value when it was below it, and the events take it there. -/
theorem State.countTo_reaches (s : State) (off n : Nat) :
    (s.countTo off n).2 = true ↔ tget 0 s.cnt.live off < cntMax ∧ cntMax ≤ tget 0 s.cnt.live off + n := by
  simp [countTo]

@[simp] theorem State.pushErr_cnt (s : State) (r : ErrRec) : (s.pushErr r).cnt = s.cnt := by
  obtain ⟨e, f, h⟩ := s.pushErr_frame r
  rw [h]

/-- A record logged counts ELOG_DROPPED at most. -/
theorem State.logErr_live (s : State) (r : ErrRec) {k : Nat} (h : k ≠ elogDroppedOff) :
    tget 0 (s.logErr r).cnt.live k = tget 0 s.cnt.live k := by
  unfold logErr
  dsimp only
  split
  · split <;> simp [countTo_live, h]
  · simp

theorem State.bumpBy_eq (s : State) (off n : Nat) :
    s.bumpBy off n =
      if (s.countTo off n).2 then (s.countTo off n).1.logErr (errRec 0x70 0 none 0 (satDetail off)) else (s.countTo off n).1 := rfl

/-- Any counter but ELOG_DROPPED after counted events. -/
theorem State.bumpBy_live (s : State) (off n : Nat) {k : Nat} (h : k ≠ elogDroppedOff) :
    tget 0 (s.bumpBy off n).cnt.live k = if k = off then min cntMax (tget 0 s.cnt.live off + n) else tget 0 s.cnt.live k := by
  rw [bumpBy_eq]
  split
  · rw [logErr_live _ _ h, countTo_live]
  · rw [countTo_live]

/-- Settles O60: `countTo_reaches` decides the record, and the record counts ELOG_DROPPED at most. -/
theorem countersSaturate : Obligations.CountersSaturate := by
  unfold Obligations.CountersSaturate
  intro s off n here
  have greatest : cntMax = 2 ^ 48 - 1 := rfl
  refine ⟨?_, fun k other notDropped => ?_, fun below reached => ⟨_, rfl, ?_⟩, fun stays => ?_⟩
  · rw [s.bumpBy_live off n here, if_pos rfl, greatest]
  · rw [s.bumpBy_live off n notDropped, if_neg other]
  · have value : (s.countTo off n).1 = { s with cnt := { s.cnt with live := tput 0 s.cnt.live off (2 ^ 48 - 1) } } := by
      rw [← greatest] at reached ⊢
      simp only [State.countTo, Nat.min_eq_left reached]
    rw [s.bumpBy_eq, if_pos ((s.countTo_reaches off n).mpr ⟨below, reached⟩), value]
  · have unreached : ¬((s.countTo off n).2 = true) := by
      rw [s.countTo_reaches, greatest]
      omega
    rw [s.bumpBy_eq, if_neg unreached, s.countTo_elog]

end Sys2Proof.Machine

namespace Sys2Proof.Machine
open Sys2Proof

/-! ## Posting answers and replies -/

/-- Settles O53: without back-invalidations an answer ends in `postReady`. -/
theorem postFrame : Obligations.PostFrame := by
  unfold Obligations.PostFrame
  intro r c noBinv noAgents
  unfold Answer.post
  split
  · exact ⟨r.st.cmds, r.st.mboxes, r.st.rings, r.st.journal, rfl⟩
  · dsimp only
    split
    next sweeps =>
      obtain ⟨w, mem, sweeping⟩ := List.any_eq_true.mp sweeps
      cases w with
      | binv i => exact absurd mem (noBinv i)
      | agents e => exact absurd mem (noAgents e)
      | _ => exact Bool.noConfusion sweeping
    next =>
      obtain ⟨cm, mx, rg, jr, posted⟩ := State.postReady_frame { r.st with cmds := r.st.cmds.map _ }
      exact ⟨cm, mx, rg, jr, posted⟩

/-- The command answered leaves the commands in progress, and its entry the journal. -/
def State.retired (s : State) (c : Cmd) : State :=
  { s with cmds := s.cmds.filter (·.token ≠ c.token), journal := (s.journal.write c.token .done).retire c.token }

/-- A reply is discarded unless its mailbox is RUNNING with its MSEQ. -/
theorem State.postReply_discarded {s : State} {c : Cmd} (h : (s.mbox c.mb.idx).running = false ∨ (s.mbox c.mb.idx).mseq ≠ c.mseq) :
    s.postReply c = s.retired c := by
  have out : ¬((s.mbox c.mb.idx).running && decide ((s.mbox c.mb.idx).mseq = c.mseq)) = true := by
    obtain idle | other := h <;> simp [*]
  exact if_neg out

/-- The state once the mailbox of a command holds its reply. -/
def State.stored (s : State) (c : Cmd) : State :=
  (s.retired c).setMbox c.mb.idx
    { s.mbox c.mb.idx with running := false, req := (s.mbox c.mb.idx).req &&& ~~~1, rpl := replySlot c (s.mbox c.mb.idx).tag }

theorem State.postReply_stored {s : State} {c : Cmd} (running : (s.mbox c.mb.idx).running = true) (seq : (s.mbox c.mb.idx).mseq = c.mseq) :
    s.postReply c = if (s.mbox c.mb.idx).notify then
        (s.stored c).doneRec (match c.mb.part with | some p => p.val | none => devTarget) (cmdDone c (s.mbox c.mb.idx).tag) none
      else s.stored c := by
  have here : ((s.mbox c.mb.idx).running && decide ((s.mbox c.mb.idx).mseq = c.mseq)) = true := by simp [running, seq]
  exact if_pos here

@[simp] theorem State.doneRec_mbox (s : State) (t : Nat) (r : NtfRec) (job : Option (Nat × Nat)) (i : Nat) : (s.doneRec t r job).mbox i = s.mbox i := by
  simp [mbox]

/-- A mailbox that has just stored a reply runs no command. -/
theorem State.postReply_stops {s : State} {c : Cmd} (running : (s.mbox c.mb.idx).running = true) (seq : (s.mbox c.mb.idx).mseq = c.mseq) :
    ((s.postReply c).mbox c.mb.idx).running = false := by
  rw [postReply_stored running seq]
  split <;> simp [stored]

/-- Settles O54: RUNNING and MSEQ decide, and a reply stored clears RUNNING. -/
theorem replyPosted : Obligations.ReplyPosted := by
  unfold Obligations.ReplyPosted
  refine fun c s => ⟨fun running seq => ⟨s.stored c, rfl, State.postReply_stored running seq, fun e same => ?_⟩, State.postReply_discarded⟩
  have idle := State.postReply_stops running seq
  rw [← same] at idle
  rw [State.postReply_discarded (.inl idle)]
  rfl

end Sys2Proof.Machine

namespace Sys2Proof.Machine
open Sys2Proof

/-! ## Commands refused before their own row -/

/-- Steward takes the next request of a mailbox that has no command still to run, and runs its command. -/
theorem State.command_taken {s : State} {f : CmdForm} {mb : MbId} {body : State → Cmd → Nat → Answer} (up : s.stewardUp = true)
    (idle : ∀ c ∈ s.cmds, c.mb ≠ mb ∨ c.deferred = false) (next : s.nextMb = some mb.idx) (op : (s.mbox mb.idx).opcode.toNat = f.op)
    (room : s.cmds.length < 64) (noWait : s.stew.step ≠ .swWait) :
    s.command f mb body = (s.takeCmd mb f.names).2.runCmd f (s.takeCmd mb f.names).1 body := by
  have none_waits : (s.cmds.find? fun c => c.mb == mb && c.deferred) = none := by
    refine List.find?_eq_none.mpr fun c mem => ?_
    obtain other | runs := idle c mem <;> simp [*]
  unfold command
  rw [none_waits]
  simp [up, next, op, room, noWait]

/-- A command that fails a check of R432 or R434 answers its status. -/
theorem State.runCmd_failed {s : State} {f : CmdForm} {c : Cmd} {body : State → Cmd → Nat → Answer} {st : Nat}
    (h : s.common f c (s.mbox c.mb.idx).arglen (s.mbox c.mb.idx).args = some st) : s.runCmd f c body = (fail s st).post c := by
  simp only [runCmd, h]

/-- Settles O52: the checks come before the command's own row. -/
theorem commandRefused : Obligations.CommandRefused := by
  unfold Obligations.CommandRefused
  refine ⟨fun f mb body s st up idle next op room noWait failed => ?_, fun mb s up unknown next room noWait => ?_⟩
  · rw [State.ran, State.command_taken up idle next op room noWait, State.runCmd_failed failed]
    rfl
  · have taken : (s.stewardUp && !opcodes.contains (s.mbox mb.idx).opcode.toNat && decide (s.nextMb = some mb.idx)
        && decide (s.cmds.length < 64) && decide (s.stew.step ≠ .swWait)) = true := by simp [up, unknown, next, room, noWait]
    exact if_pos taken

/-! ## Registers -/

theorem State.devWord_memCfg (s : State) : s.devWord 0x40800 = s.mem.patrolH.toNat := rfl

theorem execMemConfig_badPeriod (mb : MbId) (s : State) :
    Runs (.memConfig mb) s memCfgForm mb (fun _ _ a => arg a 0 8 = 0 ∨ 25 ≤ arg a 0 8) fun u c _ => refuse u c wStructure csBadArg :=
  .of_refusal rfl (fun u c a h => if_pos (by simpa [Nat.lt_iff_add_one_le] using h)) fun _ _ _ _ => .inl csBadArg_ne_ok

theorem execMemConfig_period (mb : MbId) (s : State) :
    Runs (.memConfig mb) s memCfgForm mb (fun _ _ a => 1 ≤ arg a 0 8 ∧ arg a 0 8 ≤ 24)
      fun u _ a => { st := { u with mem := { u.mem with patrolH := BitVec.ofNat 5 (arg a 0 8) } } } :=
  .of_row rfl (fun u c a ⟨low, high⟩ => if_neg (by simp; omega)) fun _ _ _ h => h

/-- Settles O56: the register is PATROL_H of five bits, and the row of MEM_CONFIG splits on the period. -/
theorem memCfgRegister : Obligations.MemCfgRegister := by
  unfold Obligations.MemCfgRegister
  refine ⟨fun s => ⟨s.devWord_memCfg, s.mem.patrolH.isLt⟩, by decide, fun k s => rfl, execMemConfig_period, fun mb s takes bad => ?_,
    fun n s low => ?_⟩
  · exact execMemConfig_badPeriod mb s takes (bad.imp_right And.left)
  · rw [State.devWord_memCfg, BitVec.toNat_ofNat]
    exact Nat.mod_eq_of_lt (by omega)

/-- The registers of IDHASH lie in the device window. -/
theorem locOf_idHash : ∀ k < 6, locOf (0x70000 + 8 * k) = .dev (0x70000 + 8 * k) := by decide

/-- A register of IDHASH reads its eight bytes. -/
theorem State.devWord_idHash (s : State) {k : Nat} (h : k < 6) : s.devWord (0x70000 + 8 * k) = bitsOf s.pwr.idhash.toNat (8 * k * 8) 64 := by
  have place (m : Nat) (le : m ≤ 0x70000) : ¬0x70000 + 8 * k < m := by omega
  have within : 0x70000 + 8 * k < 0x70030 := by omega
  simp [devWord, place, within]

/-- Settles O57: the registers lie in the device window, which no access writes there. -/
theorem idHashRegisters : Obligations.IdHashRegisters := by
  unfold Obligations.IdHashRegisters
  refine fun k q s low => ⟨?_, rfl, locOf_idHash k low⟩
  rw [s.devWord_idHash low, bitsOf, BitVec.extractLsb'_toNat, Nat.mul_right_comm]

end Sys2Proof.Machine

namespace Sys2Proof.Machine
open Sys2Proof

/-! ## Writes of the control region -/

/-! ### A write of a mailbox slot (R409) -/

section
variable {s : State} {m : MbId} {reply : Bool} {o : Nat} {p : Packet}

theorem State.mboxWrite_owned (own : (s.mbox m.idx).own = true) : s.mboxWrite m reply o p = none := if_pos own

theorem State.mboxWrite_request (own : (s.mbox m.idx).own = false) (idle : (s.mbox m.idx).replied = false) :
    s.mboxWrite m false o p =
      let x := { s.mbox m.idx with req := slotPut (s.mbox m.idx).req o p.opnd p.data }
      some (s.setMbox m.idx (if x.own then { x with mseq := x.mseq + 1, running := false, eid := p.src } else x)) := by
  simp [mboxWrite, own, idle]

/-- The reply is taken: OWN of its slot is cleared. -/
theorem State.mboxWrite_clear (own : (s.mbox m.idx).own = false) (replied : (s.mbox m.idx).replied = true) (first : o = 0)
    (mask : p.opnd.getLsbD 0 = true) (clear : p.data.getLsbD 0 = false) :
    s.mboxWrite m true o p = some (s.setMbox m.idx { s.mbox m.idx with rpl := (s.mbox m.idx).rpl &&& ~~~1 }) := by
  have takes : (decide (o = 0) && p.opnd.getLsbD 0 && !p.data.getLsbD 0) = true := by rw [mask, clear, first]; rfl
  exact (if_neg (by simp [own])).trans ((if_pos replied).trans (if_pos (by simpa using takes)))

theorem State.mboxWrite_waiting (own : (s.mbox m.idx).own = false) (replied : (s.mbox m.idx).replied = true) :
    s.mboxWrite m false o p = none := by
  simp [mboxWrite, own, replied]

theorem State.mboxWrite_unclear (own : (s.mbox m.idx).own = false) (replied : (s.mbox m.idx).replied = true)
    (other : o ≠ 0 ∨ p.opnd.getLsbD 0 = false ∨ p.data.getLsbD 0 = true) : s.mboxWrite m true o p = none := by
  have keeps : ¬(decide (o = 0) && p.opnd.getLsbD 0 && !p.data.getLsbD 0) = true := by
    rcases other with off | unmasked | set
    · simp [off]
    · rw [unmasked]; simp
    · rw [set]; simp
  exact (if_neg (by simp [own])).trans ((if_pos replied).trans (if_neg (by simpa using keeps)))

theorem State.mboxWrite_reply (own : (s.mbox m.idx).own = false) (idle : (s.mbox m.idx).replied = false) : s.mboxWrite m true o p = none := by
  simp [mboxWrite, own, idle]

end

/-! ### The row of a write -/

section
variable {s : State} {p : Packet} {h : Held} {o : Nat} {l : List Nat}

theorem State.ctlGo_writes (opc : h.pkt.opc = oCtlWr) (cmp : h.pkt.nocmp = false) : s.ctlGo h = s.ctlWrite h :=
  (if_neg (by simp [cmp])).trans (if_neg (by rw [opc]; decide))

theorem State.ctlRow_writes (turn : s.ctlTurn oCtlWr p = true) : s.ctlRow oCtlWr p = (s.take p).2.ctlWrite (s.take p).1 := by
  obtain ⟨opc, direct, turn, cmp, free⟩ := (s.ctlTurn_iff oCtlWr p).mp turn
  rw [ctlRow_goes opc direct turn free, ctlGo_writes (by simpa using opc) (by simpa using cmp)]

/-- A write that has not the form of R403 is denied. -/
theorem State.ctlWrite_malformed (form : writeOffs h.pkt = none) : s.ctlWrite h = s.ctlEnd h stDenied := by
  simp only [ctlWrite, form]
  rfl

theorem State.ctlWrite_nothing (form : writeOffs h.pkt = some []) : s.ctlWrite h = s.ctlEnd h stOk := by
  simp [ctlWrite, form, noteCtl, ctlEnd, Held.req]

/-- A write of a word that R404 does not allow is denied. -/
theorem State.ctlWrite_denied (form : writeOffs h.pkt = some l) (rights : ∃ q ∈ l, s.mayWrite h.pkt (locOf q) = false) :
    s.ctlWrite h = (s.noteCtl h.pkt (l.map locOf)).ctlEnd h stDenied := by
  have refused : (l.all fun o => s.mayWrite h.pkt (locOf o)) = false := by simpa using rights
  unfold ctlWrite
  dsimp only
  rw [form]
  dsimp only
  rw [refused]
  exact if_pos rfl

/-- What an allowed write does at its first word: the state, and the status of its completion. -/
def State.writeAt (s : State) (p : Packet) (o : Nat) : State × Status :=
  match locOf o with
  | .mbox m rp _ => match s.mboxWrite m rp (o / 128 * 128 % 256) p with
    | some t => (t, stOk)
    | none => (s, stDenied)
  | .abort q => (if p.data.getLsbD 0 then s.abortStart q 1 else s, stOk)
  | _ => (s, stDenied)

theorem State.ctlWrite_allowed (form : writeOffs h.pkt = some (o :: l)) (rights : ∀ q ∈ o :: l, s.mayWrite h.pkt (locOf q) = true) :
    s.ctlWrite h =
      let w := (s.noteCtl h.pkt ((o :: l).map locOf)).writeAt h.pkt o
      w.1.ctlEnd h w.2 := by
  have allowed : ((o :: l).all fun o => s.mayWrite h.pkt (locOf o)) = true := by simpa using rights
  unfold ctlWrite writeAt
  dsimp only
  rw [form]
  dsimp only
  rw [allowed]
  cases locOf o with
  | mbox m rp i =>
    refine (if_neg (by decide)).trans ?_
    dsimp only
    cases (s.noteCtl h.pkt ((o :: l).map locOf)).mboxWrite m rp (o / 128 * 128 % 256) h.pkt <;> rfl
  | _ => rfl

theorem State.writeAt_mbox {m : MbId} {rp : Bool} {i : Nat} (loc : locOf o = .mbox m rp i) {t : State}
    (written : s.mboxWrite m rp (o / 128 * 128 % 256) p = some t) : s.writeAt p o = (t, stOk) := by
  simp only [writeAt, loc, written]

theorem State.writeAt_mbox_denied {m : MbId} {rp : Bool} {i : Nat} (loc : locOf o = .mbox m rp i)
    (denied : s.mboxWrite m rp (o / 128 * 128 % 256) p = none) : s.writeAt p o = (s, stDenied) := by
  simp only [writeAt, loc, denied]

theorem State.writeAt_abort {q : Nat} (loc : locOf o = .abort q) :
    s.writeAt p o = (if p.data.getLsbD 0 then s.abortStart q 1 else s, stOk) := by
  simp only [writeAt, loc]

end

/-- Settles O14: each row is a guard of the access, or the state of the slot that it writes. -/
theorem controlWriteRows : Obligations.ControlWriteRows := by
  unfold Obligations.ControlWriteRows
  refine ⟨fun c p s writes => ?rows, ?idle, ?starts⟩
  case rows =>
    have row : exec c s = .next (s.ctlRow oCtlWr p) := by rcases writes with rfl | rfl | rfl | rfl <;> rfl
    rw [row]
    simp only [Host.Outcome.next.injEq]
    refine ⟨fun turn => ?turn, ?nocmp, State.ctlRow_held, State.ctlRow_waits⟩
    case nocmp =>
      intro opc direct turn free nocmp
      rw [State.ctlRow_goes opc direct turn free, State.ctlGo_nocmp (by simpa using nocmp)]
    case turn =>
      rw [State.ctlRow_writes turn]
      refine ⟨fun form => State.ctlWrite_malformed (by simpa using form), fun form => State.ctlWrite_nothing (by simpa using form),
        fun o l form => ?_⟩
      have form' : writeOffs (s.take p).1.pkt = some (o :: l) := by simpa using form
      refine ⟨fun refused => ?_, fun allowed => ?_⟩
      · rw [State.ctlWrite_denied form' (by simpa using refused), State.take_pkt]
      · rw [State.ctlWrite_allowed form' (by simpa using allowed), State.take_pkt]
        dsimp only
        refine ⟨?request, ?clear, ?owned, ?waiting, ?unclear, ?reply, ?abort⟩
        case request =>
          intro m i loc own idle
          rw [State.writeAt_mbox loc (State.mboxWrite_request own idle)]
          exact ⟨fun posts => by rw [if_pos posts], fun fills => by rw [if_neg (Bool.eq_false_iff.mp fills)]⟩
        case clear =>
          intro m i loc own replied first mask clear
          rw [State.writeAt_mbox loc (State.mboxWrite_clear own replied first mask clear)]
        case owned =>
          intro m r i loc own
          rw [State.writeAt_mbox_denied loc (State.mboxWrite_owned own)]
        case waiting =>
          intro m i loc own replied
          rw [State.writeAt_mbox_denied loc (State.mboxWrite_waiting own replied)]
        case unclear =>
          intro m i loc own replied other
          rw [State.writeAt_mbox_denied loc (State.mboxWrite_unclear own replied other)]
        case reply =>
          intro m i loc own idle
          rw [State.writeAt_mbox_denied loc (State.mboxWrite_reply own idle)]
        case abort =>
          intro q loc
          rw [State.writeAt_abort loc]
  case idle =>
    intro p k s notOpen notArmed
    exact if_neg (by simpa using And.intro notOpen notArmed)
  case starts =>
    intro p k s running
    exact if_pos (by simpa using running)

end Sys2Proof.Machine

namespace Sys2Proof.Machine
open Sys2Proof

/-! ## Memory commands -/

theorem bitsOf_lt (n lo w : Nat) : bitsOf n lo w < 2 ^ w := Nat.mod_lt _ (Nat.two_pow_pos w)

/-- A stack mask that is not zero names a stack. -/
theorem stackMask_names {a : Nat} (some_ : arg a 0 1 ≠ 0) : ((List.range 8).filter (arg a 0 1).testBit) ≠ [] := by
  obtain ⟨n, named⟩ := Nat.exists_testBit_of_ne_zero some_
  have small : n < 8 := by
    by_contra high
    have : 2 ^ 8 ≤ 2 ^ n := Nat.pow_le_pow_right (by decide) (Nat.not_lt.mp high)
    exact absurd (Nat.ge_two_pow_of_testBit named) (Nat.not_le.mpr (Nat.lt_of_lt_of_le (bitsOf_lt a 0 8) this))
  exact List.ne_nil_of_mem (List.mem_filter.mpr ⟨List.mem_range.mpr small, named⟩)

theorem memSetRate_begins {u : State} {c : Cmd} {a : Nat} (some_ : arg a 0 1 ≠ 0) (code : arg a 1 1 ≤ 3) (free : u.schedBusyCmd = false)
    (idle : u.mem.rcOn = false)
    (ready : ∀ n, n < 8 → (arg a 0 1).testBit n = true → u.stackEn n = true ∧ (u.stack n).state = 2 ∧ (u.stack n).diag = false) :
    memSetRate u c a = await ({ u with mem := { u.mem with rcMask := BitVec.ofNat 8 (arg a 0 1), rcCode := BitVec.ofNat 2 (arg a 1 1)
                                                           rcOn := true, rcCapper := false, rcLower := false } }).rateNext [.rate] := by
  have named {n : Nat} (mem : n ∈ (List.range 8).filter (arg a 0 1).testBit) :=
    let ⟨low, bit⟩ := List.mem_filter.mp mem
    ready n (List.mem_range.mp low) bit
  have enabled : ((List.range 8).filter (arg a 0 1).testBit).all u.stackEn = true := List.all_eq_true.mpr fun n mem => (named mem).1
  have running : (((List.range 8).filter (arg a 0 1).testBit).all fun n => decide ((u.stack n).state = 2) && !(u.stack n).diag) = true :=
    List.all_eq_true.mpr fun n mem => by simpa using (named mem).2
  have listed : ¬((List.range 8).filter (arg a 0 1).testBit).isEmpty = true := by simpa using stackMask_names some_
  unfold memSetRate
  dsimp only
  rw [if_neg (by simp [enabled]), if_neg (Nat.not_lt.mpr code), if_neg (by rw [free, idle, running]; decide), if_neg listed]

theorem memDiagOpen_opens {u : State} {c : Cmd} {a : Nat} (known : arg a 0 1 ≤ 7) (running : (u.stack (arg a 0 1)).state = 2)
    (closed : (u.stack (arg a 0 1)).diag = false) (unheld : ∀ e ∈ u.rmap, e.2.held = false ∨ inGroup3 (arg a 0 1) e.1 = false) :
    memDiagOpen u c a = done (u.modStack (arg a 0 1) fun x => { x with diag := true }) := by
  have free : (u.rmap.any fun e => e.2.held && inGroup3 (arg a 0 1) e.1) = false := by
    refine List.any_eq_false.mpr fun e mem => ?_
    obtain h | h := unheld e mem <;> simp [h]
  unfold memDiagOpen
  dsimp only
  rw [if_neg (Nat.not_lt.mpr known), if_neg (by simp [running, closed, free])]

section
variable {u : State} {c : Cmd} {a : Nat} (known : arg a 0 1 ≤ 7) (opened : (u.stack (arg a 0 1)).diag = true)
include known opened

theorem memDiagWrite_waits (place : ppaC15 (arg a 0 1) (arg a 8 8) = true) (waits : u.lineWaits (arg a 8 8 / 128) = true) :
    memDiagWrite u c a = { st := u, again := true } := by
  simp [memDiagWrite, Nat.not_lt.mpr known, opened, place, waits]

theorem memDiagWrite_writes (place : ppaC15 (arg a 0 1) (arg a 8 8) = true) (goes : u.lineWaits (arg a 8 8 / 128) = false) :
    memDiagWrite u c a = done ((u.useRow (arg a 8 8 / 128)).storeRaw (arg a 8 8 / 128) (BitVec.ofNat 1024 (arg a 16 128))
      (BitVec.ofNat 128 (arg a 144 16))) := by
  simp [memDiagWrite, Nat.not_lt.mpr known, opened, place, goes]

theorem memDiagRead_waits (place : ppaC15 (arg a 0 1) (arg a 8 8) = true) (waits : u.lineWaits (arg a 8 8 / 128) = true) :
    memDiagRead u c a = { st := u, again := true } := by
  simp [memDiagRead, Nat.not_lt.mpr known, opened, place, waits]

theorem memDiagRead_reads (place : ppaC15 (arg a 0 1) (arg a 8 8) = true) (goes : u.lineWaits (arg a 8 8 / 128) = false) :
    memDiagRead u c a =
      let v := (u.useRow (arg a 8 8 / 128)).rawC15 (arg a 8 8 / 128)
      let d := v.rawLine (arg a 8 8 / 128)
      let k := v.storedChecks (arg a 8 8 / 128)
      done v (packBytes [(0, 128, d.toNat), (128, 16, k.toNat), (144, 1, (rsClass (dataSyms d 0) (checkSyms k 0)).code),
        (145, 1, (rsClass (dataSyms d 1) (checkSyms k 1)).code)]) := by
  simp [memDiagRead, Nat.not_lt.mpr known, opened, place, goes]

theorem memDiagClose_waits (waits : u.group3Waits (arg a 0 1) = true) : memDiagClose u c a = { st := u, again := true } := by
  simp [memDiagClose, Nat.not_lt.mpr known, opened, waits]

theorem memDiagClose_closes (goes : u.group3Waits (arg a 0 1) = false) :
    memDiagClose u c a = done ((u.fillGroup3 (arg a 0 1)).modStack (arg a 0 1) fun x => { x with diag := false }) := by
  simp [memDiagClose, Nat.not_lt.mpr known, opened, goes]

end

/-- Settles O49: each row passes its checks; one whose channel serves nothing now is still to run. -/
theorem memoryCommands : Obligations.MemoryCommands := by
  unfold Obligations.MemoryCommands
  refine ⟨?rate, execMemConfig_period, ?opens, ?writes, ?reads, ?closes, ?writeWaits, ?readWaits, ?closeWaits⟩
  case rate =>
    exact fun mb s => .of_row rfl (fun _ _ _ ⟨some_, code, free, idle, ready⟩ => memSetRate_begins some_ code free idle ready) fun _ _ _ h => h
  case opens =>
    exact fun mb s => .of_row rfl (fun _ _ _ ⟨known, running, closed, unheld⟩ => memDiagOpen_opens known running closed unheld) fun _ _ _ h => h
  case writes =>
    exact fun mb s => .of_row rfl (fun _ _ _ ⟨known, opened, place, goes⟩ => memDiagWrite_writes known opened place goes) fun _ _ _ h => h
  case reads =>
    exact fun mb s => .of_row rfl (fun _ _ _ ⟨known, opened, place, goes⟩ => memDiagRead_reads known opened place goes) fun _ _ _ h => h
  case closes => exact fun mb s => .of_row rfl (fun _ _ _ ⟨known, opened, goes⟩ => memDiagClose_closes known opened goes) fun _ _ _ h => h
  case writeWaits =>
    exact fun mb s => .of_refusal rfl (fun _ _ _ ⟨known, opened, place, waits⟩ => memDiagWrite_waits known opened place waits)
      fun _ _ _ _ => .inr rfl
  case readWaits =>
    exact fun mb s => .of_refusal rfl (fun _ _ _ ⟨known, opened, place, waits⟩ => memDiagRead_waits known opened place waits)
      fun _ _ _ _ => .inr rfl
  case closeWaits =>
    exact fun mb s => .of_refusal rfl (fun _ _ _ ⟨known, opened, waits⟩ => memDiagClose_waits known opened waits) fun _ _ _ _ => .inr rfl

end Sys2Proof.Machine

namespace Sys2Proof.Machine
open Sys2Proof

/-! ## Control commands -/

theorem State.stewardUp_iff (s : State) : s.stewardUp = true ↔
    s.stew.released = true ∧ s.stew.noFw = false ∧ s.stew.step ≠ .booting ∧ s.stew.step ≠ .replay ∧ s.pwr.state.toNat ≤ 1
      ∧ s.pwr.pstep ≠ .s5 ∧ s.pwr.pstep ≠ .s6 := by
  simp [stewardUp, and_assoc]

/-- A trigger of a takeover releases a standby that is READY (R421). -/
theorem State.coreTrigger_boots {s : State} (released : s.stew.released = true) (firmware : s.stew.noFw = false)
    (awake : s.pwr.state.toNat < 2) (ready : s.stew.standby = 0) (claims : s.stew.claim ≠ maxClaim) (cause : BitVec 3) :
    s.coreTrigger cause = { s with stew := { s.stew with standby := 1, lastCause := cause, step := .booting, heartbeat := s.now } } := by
  unfold coreTrigger
  dsimp only
  rw [if_neg (by simp [released, firmware, Nat.not_le.mpr awake]), if_neg (by simp [ready]), if_neg claims]

section
variable {u : State} {c : Cmd} {a : Nat}

theorem adminSet_sets (valid : admitOk (arg a 0 8) = true) :
    adminSet u c a = done { u with stew := { u.stew with admin := BitVec.ofNat 64 (arg a 0 8) } } :=
  if_neg (by simp [valid])

theorem notifySet_part (target : arg a 0 1 < 64) (valid : ntfOk (arg a 8 8) = true)
    (open_ : (u.part (arg a 0 1)).conf = false ∨ (arg a 8 8).testBit 1 = false) :
    notifySet u c a = done (u.modPart (arg a 0 1) fun x => { x with ntf := BitVec.ofNat 64 (arg a 8 8) }) := by
  have notDevice : arg a 0 1 ≠ 0xFF := by omega
  have unhidden : ¬(decide (arg a 0 1 < 64) && (u.part (arg a 0 1)).conf && (arg a 8 8).testBit 1) = true := by
    obtain h | h := open_ <;> simp [h]
  unfold notifySet
  dsimp only
  rw [if_neg (by simp [target]), if_neg (by simp [notDevice]), if_neg (by simp [valid]), if_neg unhidden, if_neg notDevice]

theorem notifySet_device (target : arg a 0 1 = 0xFF) (own : c.mb.part = none) (valid : ntfOk (arg a 8 8) = true) :
    notifySet u c a = done { u with stew := { u.stew with devNtf := BitVec.ofNat 64 (arg a 8 8) } } := by
  unfold notifySet
  dsimp only
  rw [target, if_neg (by decide), if_neg (by simp [own]), if_neg (by simp [valid]), if_neg (by simp), if_pos rfl]

theorem mcTakeover_boots (up : u.stewardUp = true) (ready : u.stew.standby = 0) (claims : u.stew.claim ≠ maxClaim) :
    mcTakeover u c a =
      await { u with stew := { u.stew with standby := 1, lastCause := 4, step := .booting, heartbeat := u.now } } [.takeover] := by
  obtain ⟨released, firmware, -, -, awake, -, -⟩ := u.stewardUp_iff.mp up
  unfold mcTakeover
  rw [if_neg (by simp [ready]), State.coreTrigger_boots released firmware (Nat.lt_succ_of_le awake) ready claims]

theorem counterSnapshot_begins (early : u.ftNs + 20000 ≤ arg a 0 8) (late : arg a 0 8 ≤ u.ftNs + 10000000000) (idle : u.cnt.pending = false) :
    counterSnapshot u c a =
      await { u with cnt := { u.cnt with pending := true, snapFt := BitVec.ofNat 64 (arg a 0 8), todo := u.unitBlocks } } [.snapshot] := by
  unfold counterSnapshot
  dsimp only
  rw [if_neg (by simp [early, late]), if_neg (by simp [idle])]

theorem testRun_due (known : arg a 0 1 ≤ 31) (alive : u.tileDead (arg a 0 1) = false) (idle : (u.tile (arg a 0 1)).kat.running = false)
    (undue : (u.tile (arg a 0 1)).kat.due = false) (unforced : (arg a 1 1).testBit 0 = false) :
    testRun u c a = await (u.katSetDue (arg a 0 1) 2) [.test (arg a 0 1)] := by
  unfold testRun
  dsimp only
  rw [if_neg (Nat.not_lt.mpr known), if_neg (by simp [alive, idle]), unforced, undue]
  rfl

theorem powerCapSet_sets (low : u.pwr.floor.toNat ≤ arg a 0 2) (high : arg a 0 2 ≤ u.pwr.ceiling.toNat) :
    powerCapSet u c a = done { u with pwr := { u.pwr with cap := BitVec.ofNat 10 (arg a 0 2) } } :=
  if_neg (by simp [low, high])

theorem powerStateSet_enters (some_ : 1 ≤ arg a 0 1) (known : arg a 0 1 ≤ 4) (idle : u.pwr.pstep = .none) (other : arg a 0 1 ≠ u.pwr.state.toNat) :
    powerStateSet u c a = await { u with pwr := { u.pwr.ended with
      pstep := .s1, entering := true, target := BitVec.ofNat 3 (arg a 0 1), token := some c.token } } [.power] := by
  unfold powerStateSet
  dsimp only
  rw [if_neg (Nat.not_lt.mpr known), if_neg (by simp [idle]), if_neg other, if_neg (by omega)]

theorem powerStateSet_wakes (awake : arg a 0 1 = 0) (idle : u.pwr.pstep = .none) (d1 : u.pwr.state = 1) :
    powerStateSet u c a = done u.wakeD1 := by
  unfold powerStateSet
  dsimp only
  rw [awake, if_neg (by decide), if_neg (by simp [idle]), if_neg (by simp [d1]), if_pos rfl]

theorem deviceReset_begins (may : (arg a 0 1).testBit 0 = true ∨ u.stew.withdrawn = true) :
    deviceReset u c a = done { u with stew := { u.stew with resetAt := some (u.now + 1000000) } } :=
  if_neg (by obtain h | h := may <;> simp [h])

/-- A debug command of a unit that serves no confidential partition passes its checks. -/
theorem debugOk_goes {unit count : Nat} {go : State → Answer} (enabled : u.dbgdis = false) (plain : u.unitConf unit = false)
    (known : unit < 0xB000) (some_ : count ≠ 0) (few : count ≤ 28) : debugOk u c unit count go = go u := by
  unfold debugOk
  rw [if_neg (by simp [enabled, plain]), if_neg (by simp [known, some_, few])]

end

/-- Settles O50: each row passes its checks and answers as stated. -/
theorem controlCommands : Obligations.ControlCommands := by
  unfold Obligations.ControlCommands
  refine ⟨?admin, ?part, ?device, ?takeover, ?snapshot, ?test, ?cap, ?enters, ?wakes, ?reset, ?reads, ?writes⟩
  case admin => exact fun mb s => .of_row rfl (fun _ _ _ valid => adminSet_sets valid) fun _ _ _ h => h
  case part => exact fun mb s => .of_row rfl (fun _ _ _ ⟨target, valid, open_⟩ => notifySet_part target valid open_) fun _ _ _ h => h
  case device => exact fun mb s => .of_row rfl (fun _ _ _ ⟨target, own, valid⟩ => notifySet_device target own valid) fun _ _ _ h => h
  case takeover => exact fun mb s => .of_row rfl (fun _ _ _ ⟨up, ready, claims⟩ => mcTakeover_boots up ready claims) fun _ _ _ h => h
  case snapshot => exact fun mb s => .of_row rfl (fun _ _ _ ⟨early, late, idle⟩ => counterSnapshot_begins early late idle) fun _ _ _ h => h
  case test =>
    exact fun mb s => .of_row rfl (fun _ _ _ ⟨known, alive, idle, undue, unforced⟩ => testRun_due known alive idle undue unforced) fun _ _ _ h => h
  case cap => exact fun mb s => .of_row rfl (fun _ _ _ ⟨low, high⟩ => powerCapSet_sets low high) fun _ _ _ h => h
  case enters =>
    exact fun mb s => .of_row rfl (fun _ _ _ ⟨some_, known, idle, other⟩ => powerStateSet_enters some_ known idle other) fun _ _ _ h => h
  case wakes => exact fun mb s => .of_row rfl (fun _ _ _ ⟨awake, idle, d1⟩ => powerStateSet_wakes awake idle d1) fun _ _ _ h => h
  case reset => exact fun mb s => .of_row rfl (fun _ _ _ may => deviceReset_begins may) fun _ _ _ h => h
  case reads =>
    exact fun mb s => .of_row rfl (fun _ _ _ ⟨enabled, plain, known, some_, few⟩ => debugOk_goes enabled plain known some_ few) fun _ _ _ h => h
  case writes =>
    exact fun mb s => .of_row rfl (fun _ _ _ ⟨enabled, plain, known, some_, few⟩ => debugOk_goes enabled plain known some_ few) fun _ _ _ h => h

end Sys2Proof.Machine

namespace Sys2Proof.Machine
open Sys2Proof

/-! ## Security and firmware commands -/

section
variable {u : State} {c : Cmd} {a : Nat} {part : Option Nat} {r : Ref}

theorem withRef_got {len : Nat} {go : State → List Byte → Answer} {b : List Byte} {v : State} (ok : u.refOk part r = true)
    (read : u.refRead c.eid r (len / 128 + 2) r.off len = (.ok b, v)) : withRef u c part r len go = go v b := by
  rw [withRef_reads ok (congrArg Prod.fst read), read]

theorem putRef_writes {bytes l : List Byte} {go : State → Answer} (ok : u.refOk part r = true)
    (plan : (u.refPlan c.eid r (bytes.length / 128 + 2) r.off bytes).1 = .ok l) :
    putRef u c part r bytes go = go (u.refWrite c.eid r (bytes.length / 128 + 2) r.off bytes).2 := by
  unfold putRef
  rw [if_neg (by simp [ok])]
  generalize u.refPlan c.eid r (bytes.length / 128 + 2) r.off bytes = planned at plan ⊢
  obtain ⟨g, v⟩ := planned
  cases plan
  rfl

/-- The first line that cannot be written ends the command. -/
theorem putRef_fails {bytes : List Byte} {go : State → Answer} {v : State} {st : Status} (ok : u.refOk part r = true)
    (plan : u.refPlan c.eid r (bytes.length / 128 + 2) r.off bytes = (.failed st, v)) :
    putRef u c part r bytes go = { st := v, status := csRangeRead, detail := st.toNat } := by
  unfold putRef
  rw [if_neg (by simp [ok]), plan]

/-- A certificate that fits goes to its reference. -/
theorem certRead_puts (known : arg a 0 1 ≤ 2) (fits : (Config.cert (arg a 0 1)).length ≤ arg a 20 4) :
    certRead u c a = putRef u c (c.ofPart none) (argRef a 8 16) (Config.cert (arg a 0 1)) fun s => done s (Config.cert (arg a 0 1)).length :=
  (if_neg (Nat.not_lt.mpr known)).trans (if_neg (Nat.not_lt.mpr fits))

/-- The report of a partition goes to its reference. -/
theorem attestReport_puts (known : arg a 0 1 < 64) (used : (u.part (arg a 0 1)).state ≠ 0) (fits : 3661 ≤ arg a 52 4) :
    attestReport u c a = putRef u c (c.ofPart (some (arg a 0 1))) (argRef a 40 48) (u.partReport a) fun s => done s reportLen := by
  have notDevice : arg a 0 1 ≠ 0xFF := by omega
  have ofPart : (if arg a 0 1 = 0xFF then none else some (arg a 0 1)) = some (arg a 0 1) := if_neg notDevice
  unfold attestReport
  dsimp only
  rw [if_neg (by simp [known]), if_neg (by simpa using fun _ => used),
    if_neg (show ¬arg a 52 4 < reportLen from Nat.not_lt.mpr fits), ofPart]
  simp [State.partReport, known]

/-- An open confidential partition without a session reads the hello of its peer. -/
theorem sessionOpen_reads {h : List Byte} {v : State} (known : arg a 0 1 < 64) (conf : (u.part (arg a 0 1)).conf = true)
    (opened : (u.part (arg a 0 1)).state = 1) (idle : (u.part (arg a 0 1)).sess ≠ 1) (ok : u.refOk none (argRef a 8 24) = true)
    (read : u.refRead c.eid (argRef a 8 24) 11 (argRef a 8 24).off 1256 = (.ok h, v)) :
    sessionOpen u c a =
      if !helloOk h (arg a 0 1) v.fresh then fail { v with fresh := v.fresh + 3 } csAuthFailed
      else putRef { v with fresh := v.fresh + 3 } c none (argRef a 16 24) (v.sessionAnswer (arg a 0 1) h) fun s =>
        done (s.openSession (arg a 0 1) (v.stew.sessions.toNat + 1) (linkSecret (sessionPrk h v.fresh) (v.transcript (arg a 0 1) h))
          (v.transcript (arg a 0 1) h)) answerLen := by
  unfold sessionOpen
  dsimp only
  rw [if_neg (Nat.not_le.mpr known), if_neg (by simpa [conf, opened] using idle), withRef_got (len := helloLen) ok read]
  rfl

/-- An image of a length that R476 allows is read, and checked. -/
theorem fwStage_starts {b : List Byte} {v : State} (idle : u.stew.flashing = none) (long : 4096 < arg a 12 4) (short : arg a 12 4 ≤ 67108864)
    (serves : u.stew.step ≠ .swWait) (uncommitted : u.stew.commit = false) (ok : u.refOk none (argRef a 0 8) = true)
    (read : u.refRead c.eid (argRef a 0 8) (arg a 12 4 / 128 + 2) (argRef a 0 8).off (arg a 12 4) = (.ok b, v))
    (magic : fieldLe b 0 4 = 0x47504657) (length : fieldLe b 16 4 + 4096 = arg a 12 4) (verifies : v.fwOk b = true) :
    fwStage u c a = { st := v.flashStart c.token (fwSlotOf b), again := true } := by
  have sized : ¬(decide (arg a 12 4 ≤ fwHeader) || decide (fwHeader + fwBodyMax < arg a 12 4)) = true := by
    rw [Bool.or_eq_true, decide_eq_true_eq, decide_eq_true_eq, not_or]
    exact ⟨Nat.not_le.mpr long, Nat.not_lt.mpr short⟩
  unfold fwStage
  simp only [idle, Option.filter_none]
  rw [if_neg sized, if_neg (by simp [serves, uncommitted]), withRef_got ok read]
  exact (if_neg (by simp [magic, fwHeader, length])).trans (if_neg (by simp [verifies]))

/-- The next run of a command whose image is being written ends the write. -/
theorem fwStage_ends {f : FwSlot} (flashing : u.stew.flashing = some (c.token, f)) : fwStage u c a = done (u.flashEnd f) := by
  have here : u.stew.flashing.filter (·.1 = c.token) = some (c.token, f) := by simp [flashing, Option.filter]
  simp only [fwStage, here]

theorem fwCommit_waits (staged : u.nv.otherSlot.valid = true) (ready : u.stew.standby = 0) :
    fwCommit u c a = await { u with stew := { u.stew with step := .swWait, commitToken := some c.token, swAt := u.now } } [.commit] :=
  if_neg (by simp [staged, ready])

end

/-- A command that is still to run goes on with its row once it passes the checks. -/
theorem State.command_resumed {s : State} {f : CmdForm} {mb : MbId} {body : State → Cmd → Nat → Answer} {c : Cmd} (up : s.stewardUp = true)
    (waiting : s.cmds.find? (fun c => c.mb == mb && c.deferred) = some c) (op : c.opcode.toNat = f.op) (uncommitted : s.stew.commit = false)
    (checks : s.common f c (s.mbox c.mb.idx).arglen (s.mbox c.mb.idx).args = none) (free : s.blocked c = false) :
    s.command f mb body = (s.runBody f c body (s.mbox c.mb.idx).args).post c := by
  unfold command runCmd
  rw [waiting]
  simp [up, op, uncommitted, checks, free]

/-- Settles O51: the rows pass their checks, read or write their references, and answer as stated. -/
theorem securityCommands : Obligations.SecurityCommands := by
  unfold Obligations.SecurityCommands
  refine ⟨?cert, ?certFails, ?report, ?rejected, ?session, ?stage, ?staged, ?commit⟩
  case cert =>
    refine fun mb s l => .of_row rfl ?_
    rintro u c a ⟨known, fits, ok, plan⟩
    rw [certRead_puts known fits, putRef_writes ok plan]
    rfl
  case certFails =>
    refine fun mb s v st => .of_refusal rfl ?_ fun _ _ _ _ => .inl (show csRangeRead ≠ csOk by decide)
    rintro u c a ⟨known, fits, ok, plan⟩
    rw [certRead_puts known fits, putRef_fails ok plan]
  case report =>
    refine fun mb s l => .of_row rfl ?_
    rintro u c a ⟨known, used, fits, ok, plan⟩
    rw [attestReport_puts known used fits, putRef_writes ok plan]
    rfl
  case rejected =>
    refine fun mb s v h => .of_refusal rfl ?_ fun _ _ _ _ => .inl (show csAuthFailed ≠ csOk by decide)
    rintro u c a ⟨known, conf, opened, idle, ok, read, bad⟩
    rw [sessionOpen_reads known conf opened idle ok read, bad]
    rfl
  case session =>
    refine fun mb s h l => .of_row rfl ?_
    rintro u c a ⟨known, conf, opened, idle, ok, read, good, okAnswer, plan⟩
    rw [sessionOpen_reads known conf opened idle ok (Prod.ext read rfl), good, if_neg (by decide), putRef_writes (by exact okAnswer) plan]
    rfl
  case stage =>
    refine fun mb s v b => .of_refusal rfl ?_ fun _ _ _ _ => .inr rfl
    rintro u c a ⟨idle, long, short, serves, uncommitted, ok, read, magic, length, verifies⟩
    exact fwStage_starts idle long short serves uncommitted ok read magic length verifies
  case staged =>
    intro mb s c f up waiting op uncommitted checks free flashing
    refine congrArg Host.Outcome.next ((State.command_resumed up waiting op uncommitted checks free).trans ?_)
    simp only [State.runBody, fwStage_ends flashing]
    exact congrArg (Answer.post · c) (fwStage_ends flashing)
  case commit => exact fun mb s => .of_row rfl (fun _ _ _ ⟨staged, ready⟩ => fwCommit_waits staged ready) fun _ _ _ h => h

end Sys2Proof.Machine

namespace Sys2Proof.Machine
open Sys2Proof

/-! ## Takeovers of the management cores -/

/-! ### Triggers and claims (R419, R421, R424) -/

/-- Without a standby that is READY no core serves (R424). -/
theorem State.coreTrigger_alone {s : State} (released : s.stew.released = true) (firmware : s.stew.noFw = false)
    (awake : s.pwr.state.toNat < 2) (unready : s.stew.standby ≠ 0) (cause : BitVec 3) : s.coreTrigger cause = s.setNoFw 2 := by
  unfold coreTrigger
  dsimp only
  rw [if_neg (by simp [released, firmware, Nat.not_le.mpr awake]), if_pos unready]

/-- At the last claim number no core serves (R421). -/
theorem State.coreTrigger_exhausted {s : State} (released : s.stew.released = true) (firmware : s.stew.noFw = false)
    (awake : s.pwr.state.toNat < 2) (ready : s.stew.standby = 0) (last : s.stew.claim = maxClaim) (cause : BitVec 3) :
    s.coreTrigger cause = s.setNoFw 1 := by
  unfold coreTrigger
  dsimp only
  rw [if_neg (by simp [released, firmware, Nat.not_le.mpr awake]), if_neg (by simp [ready]), if_pos last]

theorem State.present_refused {s : State} {g : OutStage} {c : BitVec 32} (other : g ≠ .warden) (lower : c.toNat < (s.stew.held g).toNat) :
    s.present g c = s.bump devBlk 7 :=
  (if_neg (Nat.not_le.mpr lower)).trans (if_neg other)

theorem State.present_accepted {s : State} {g : OutStage} {c : BitVec 32} (higher : (s.stew.held g).toNat ≤ c.toNat) :
    s.present g c = { s with stew := s.stew.hold g c } := if_pos higher

@[simp] theorem Stew.held_hold (w : Stew) (g : OutStage) (c : BitVec 32) : (w.hold g c).held g = c := by cases g <;> rfl

/-! ### The replay without anything in progress (R423) -/

section
variable {s : State} (idle : s.cmds = [])
include idle

theorem State.wake_idle (w : Wait) : s.wake w = s := if_neg (by simp [idle])

theorem State.invalCheck_idle : s.invalCheck = s := by
  unfold invalCheck
  rw [idle]
  split <;> rfl

theorem State.replayCmds_idle : s.replayCmds = { s with stew := { s.stew with flashing := none } } := by
  have none_ (p : Cmd → Bool) : s.cmds.filter p = [] := by simp [idle]
  unfold replayCmds replayInval
  dsimp only
  rw [none_]
  simp only [State.each, List.foldl_nil, none_, List.flatMap_nil]
  exact State.invalCheck_idle idle

end

/-- The replay of a journal that holds nothing (R435). -/
theorem State.replay_idle {s : State} (idle : s.cmds = []) (uncommitted : s.stew.commitToken = none) (unarmed : s.sched.next = none)
    (entry : s.pwr.pstep = .none) :
    (s.wake .takeover).replayCmds.replayCommit.replayArm.replayEntry = { s with stew := { s.stew with flashing := none } } := by
  rw [State.wake_idle idle, State.replayCmds_idle idle]
  simp [replayCommit, uncommitted, replayArm, unarmed, replayEntry, entry]

theorem State.lateEvents_idle {s : State} (idle : s.stew.late = []) : s.lateEvents = s := by
  have same : { s.stew with late := [] } = s.stew := by rw [← idle]
  unfold lateEvents
  rw [idle, same]
  rfl

/-- A replay with no command, arm, power entry, late event or rate change in progress resumes service, and TAKEOVER is sent. -/
theorem execJournalReplayDone_idle {s : State} (step : s.stew.step = .replay) (idle : s.cmds = []) (uncommitted : s.stew.commitToken = none)
    (unarmed : s.sched.next = none) (entry : s.pwr.pstep = .none) (late : s.stew.late = []) (rate : s.mem.rcOn = false) :
    let u := ({ s with stew := { s.stew with step := .oldCheck, flashing := none }, journal := s.journal.loaded }).postReady
    execJournalReplayDone s = .next (u.event devTarget
      { kind := 10, obj := s.stew.claim, cause := u.stew.lastCause.setWidth 8, spec := BitVec.ofNat 160 (b2n u.stew.active) }) := by
  intro u
  have unmarked (f : Cmd → Cmd) : s.cmds.map f = s.cmds := by simp [idle]
  have quiet : u.lateEvents.rateResume = u := by
    rw [State.lateEvents_idle (by simp [u, late])]
    exact if_pos (by simp [u, rate])
  unfold execJournalReplayDone
  rw [if_pos step]
  dsimp only
  rw [unmarked, State.replay_idle (s := { s with stew := { s.stew with step := .oldCheck }, journal := s.journal.loaded })
    idle uncommitted unarmed entry]
  exact congrArg (fun v : State => Host.Outcome.next (v.event devTarget
    { kind := 10, obj := s.stew.claim, cause := v.stew.lastCause.setWidth 8, spec := BitVec.ofNat 160 (b2n v.stew.active) })) quiet

/-! ### The switchover commit (R479) -/

/-- A boot that fails leaves all as it was, without the staged image (R480). -/
theorem execSwitchoverBootDone_fails {s : State} (step : s.stew.step = .swBoot) (ended : s.sessionsOver = true)
    (replied : s.stew.commitToken = none) :
    execSwitchoverBootDone false s = .next (({ s with nv := s.nv.setOther {} }.endCommit .none 0).fwEvent 3 s.nv.otherSlot) := by
  unfold execSwitchoverBootDone
  simp only [step, ended, replied]
  rfl

/-- With a carried command left, or with none, the state once the new core has loaded the journal goes on. -/
theorem execSwitchoverComplete_loads {s u : State} (step : s.stew.step = .swLoad)
    (loaded : u =
      (({ s with nv := s.nv.switched, stew := { s.stew with step := .swCarry }, journal := s.journal.loaded }).replayCmds.replayArm).postReady)
    (carry : u.stew.step = .swCarry) :
    execSwitchoverComplete s = if u.cmds.any (·.carried) then .next u else .next u.commitDone := by
  unfold execSwitchoverComplete
  dsimp only
  rw [if_pos step, ← loaded, carry]
  cases u.cmds.any (·.carried) <;> rfl

theorem execSwitchoverComplete_carries {s : State} (step : s.stew.step = .swCarry) :
    execSwitchoverComplete s = if s.cmds.any (·.carried) then .next s else .next s.commitDone := by
  unfold execSwitchoverComplete
  dsimp only
  have stays : ¬s.stew.step = .swLoad := by simp [step]
  rw [if_neg stays, step]
  cases s.cmds.any (·.carried) <;> rfl

section
variable {n : Nv}

@[simp] theorem Nv.switched_slot : n.switched.slot = !n.slot := rfl

@[simp] theorem Nv.runSlot_switched : n.switched.runSlot = n.otherSlot := by
  cases h : n.slot <;> simp [runSlot, otherSlot, switched, h]

/-- The image that ran is no longer staged. -/
@[simp] theorem Nv.otherSlot_switched : n.switched.otherSlot = { n.runSlot with valid := false } := by
  cases h : n.slot <;> simp [otherSlot, runSlot, switched, h]

/-- MIN_SVN rises with an image that has ADVANCE, and never falls. -/
theorem Nv.minSvn_switched : n.switched.minSvn.toNat = if n.otherSlot.advance then max n.minSvn.toNat n.otherSlot.svn.toNat else n.minSvn.toNat := by
  unfold switched
  dsimp only
  split
  · split <;> omega
  · rfl

end

/-- Settles O38: each step of a takeover, and of a switchover, by the state of the cores. -/
theorem coreTakeoverRows : Obligations.CoreTakeoverRows := by
  unfold Obligations.CoreTakeoverRows
  refine ⟨?watchdog, ?alive, ?fault, ?alone, ?exhausted, ?booted, ?refused, ?accepted, ?failed, ?replayed, ?checked, ?starts, ?swBooted,
    ?swFailed, ?loads, ?carries, fun s => ⟨_, rfl, rfl⟩, ?flash⟩
  case watchdog =>
    intro s step late released firmware awake ready claims
    have due : (decide (s.stew.step ≠ .booting) && decide (s.stew.heartbeat + 20000000 ≤ s.now)) = true := by simp [step, late]
    exact (if_pos due).trans (congrArg Host.Outcome.next (State.coreTrigger_boots released firmware awake ready claims 1))
  case alive => exact fun s early => if_neg (by simp [early])
  case fault =>
    exact fun s released firmware awake ready claims => congrArg Host.Outcome.next (State.coreTrigger_boots released firmware awake ready claims 2)
  case alone =>
    exact fun s released firmware awake unready => congrArg Host.Outcome.next (State.coreTrigger_alone released firmware awake unready 2)
  case exhausted =>
    exact fun s released firmware awake ready last =>
      congrArg Host.Outcome.next (State.coreTrigger_exhausted released firmware awake ready last 2)
  case booted =>
    rintro s t step rfl
    exact ⟨if_pos step, fun g => if_pos step⟩
  case refused => exact fun g c s other lower => State.present_refused other lower
  case accepted => exact fun g c s higher => ⟨State.present_accepted higher, s.stew.held_hold g c⟩
  case failed => exact fun s step => if_pos step
  case replayed =>
    exact fun s step idle uncommitted unarmed entry late rate =>
      ⟨_, rfl, execJournalReplayDone_idle step idle uncommitted unarmed entry late rate⟩
  case checked => exact fun ok s step => if_pos step
  case starts => exact fun s step ready => if_pos (by simp [step, ready])
  case swBooted =>
    intro s step ended claims
    exact (if_pos (by simp [step, ended])).trans ((if_pos rfl).trans (if_neg claims))
  case swFailed => exact fun s step ended replied => execSwitchoverBootDone_fails step ended replied
  case loads =>
    intro s u step loaded carry
    have row : exec .switchoverComplete s = _ := execSwitchoverComplete_loads step loaded carry
    exact ⟨fun left => by rw [row, if_pos (by simpa using left)], fun gone => by rw [row, if_neg (by simpa using gone)]⟩
  case carries =>
    intro s step
    have row : exec .switchoverComplete s = _ := execSwitchoverComplete_carries step
    exact ⟨fun left => by rw [row, if_pos (by simpa using left)], fun gone => by rw [row, if_neg (by simpa using gone)]⟩
  case flash =>
    intro n
    refine ⟨rfl, fun stays => BitVec.eq_of_toNat_eq ?_, ?_, fun rises => ?_, n.runSlot_switched, ?_⟩
    · rw [Nv.minSvn_switched, stays]
      rfl
    · rw [Nv.minSvn_switched]
      split <;> omega
    · rw [Nv.minSvn_switched, if_pos rises]
    · rw [Nv.otherSlot_switched]

end Sys2Proof.Machine

namespace Sys2Proof.Machine
open Sys2Proof

/-! ## Resets, input faults and the thermal trip -/

section
variable {s : State}

theorem Pwr.not_running {p : Pwr} (h : p.phase = .off ∨ p.phase = .rails ∨ p.phase = .retryWait ∨ p.phase = .dead ∨ p.phase = .tripped ∨ p.phase = .osc) :
    p.running = false := by
  rcases h with h | h | h | h | h | h <;> simp [running, h]

/-- A reset while the rails rise begins the start-up at the rails, with those that are up. -/
theorem State.earlyReset_rising (h : (s.pwr.phase = .rails ∧ 1 ≤ s.pwr.rail) ∨ s.pwr.phase = .osc) (c : BitVec 3) :
    s.earlyReset c = s.restartOn { s.nv with cause := c } s.pwr.phase s.pwr.rail := by
  rcases h with ⟨rails, up⟩ | osc
  · simp [earlyReset, rails, Pwr.i3cUp, up]
  · simp [earlyReset, osc]

/-- Nothing hears a reset before the first rail is up. -/
theorem State.earlyReset_down (h : s.pwr.phase = .off ∨ s.pwr.phase = .retryWait ∨ s.pwr.phase = .dead) (c : BitVec 3) : s.earlyReset c = s := by
  rcases h with h | h | h <;> simp [earlyReset, h]

/-! ### RESET_PIN -/

theorem execResetPin_running {us : Nat} (held : 10 ≤ us) (running : s.pwr.running = true) :
    execResetPin us s = if s.pwr.state = 4 then .next (s.restartOn { s.nv with cause := 2 } .rails 1) else .next (s.wholeReset 2) :=
  (if_neg (Nat.not_lt.mpr held)).trans (if_neg (by simp [running]))

theorem execResetPin_early {us : Nat} (held : 10 ≤ us) (down : s.pwr.running = false) : execResetPin us s = .next (s.earlyReset 2) :=
  (if_neg (Nat.not_lt.mpr held)).trans (if_pos (by simp [down]))

/-! ### I3C_RESET -/

theorem execI3cReset_other {b c : Byte} {g : Nat} (h : (b, c) ≠ (0x5A, 0xA5) ∨ 1000 < g) : execI3cReset b c g s = .next s := by
  refine if_pos ?_
  simp only [Bool.or_eq_true, decide_eq_true_eq]
  by_contra heard
  obtain ⟨⟨first, second⟩, soon⟩ := (not_or.mp heard).imp_left not_or.mp
  exact h.elim (fun differ => differ (Prod.ext (not_not.mp first) (not_not.mp second))) soon

theorem execI3cReset_heard {g : Nat} (soon : g ≤ 1000) :
    execI3cReset 0x5A 0xA5 g s =
      if s.pwr.phase = .tripped then .next (s.restartOn s.nv .rails 1)
      else if s.pwr.running && s.pwr.state = 4 then .next (s.restartOn { s.nv with cause := 3 } .rails 1)
      else if s.pwr.running then .next (s.wholeReset 3)
      else .next (s.earlyReset 3) :=
  if_neg (by simp [Nat.not_lt.mpr soon])

theorem execI3cReset_running {g : Nat} (soon : g ≤ 1000) (running : s.pwr.running = true) :
    execI3cReset 0x5A 0xA5 g s = if s.pwr.state = 4 then .next (s.restartOn { s.nv with cause := 3 } .rails 1) else .next (s.wholeReset 3) := by
  have untripped : s.pwr.phase ≠ .tripped := by
    intro tripped
    rw [Pwr.not_running (by simp [tripped])] at running
    exact Bool.noConfusion running
  rw [execI3cReset_heard soon, if_neg untripped, running]
  simp

theorem execI3cReset_early {g : Nat} (soon : g ≤ 1000) (down : s.pwr.running = false) (untripped : s.pwr.phase ≠ .tripped) :
    execI3cReset 0x5A 0xA5 g s = .next (s.earlyReset 3) := by
  rw [execI3cReset_heard soon, if_neg untripped, down]
  rfl

end

/-- Settles O10: the phase and the power state decide where the start-up begins again. -/
theorem wholeChipResets : Obligations.WholeChipResets := by
  unfold Obligations.WholeChipResets
  refine ⟨fun c s => rfl, ?pin, ?pinD3, ?short, ?command, ?port, ?portD3, ?tripped, ?other, ?fuse, ?pinRising, ?portRising, ?portDown⟩
  case pin => exact fun us s held running awake => (execResetPin_running held running).trans (if_neg awake)
  case pinD3 => exact fun us s held running d3 => (execResetPin_running held running).trans (if_pos d3)
  case short => exact fun us s short => if_pos short
  case command =>
    intro t s set_ due
    have row : exec .deviceResetStart s = if t ≤ s.now then .next (s.wholeReset 3) else .next s := by simp only [exec, execDeviceResetStart, set_]
    rw [row, if_pos due]
  case port => exact fun g s soon running awake => (execI3cReset_running soon running).trans (if_neg awake)
  case portD3 => exact fun g s soon running d3 => (execI3cReset_running soon running).trans (if_pos d3)
  case tripped => exact fun g s soon tripped => (execI3cReset_heard soon).trans (if_pos tripped)
  case other => exact fun b c g s h => execI3cReset_other h
  case fuse => exact fun s running intact => if_pos (by simp [running, intact])
  case pinRising =>
    intro us s held rising
    have down : s.pwr.running = false := Pwr.not_running (by rcases rising with ⟨h, -⟩ | h <;> simp [h])
    exact (execResetPin_early held down).trans (congrArg Host.Outcome.next (State.earlyReset_rising rising 2))
  case portRising =>
    intro g s soon rising
    have down : s.pwr.running = false := Pwr.not_running (by rcases rising with ⟨h, -⟩ | h <;> simp [h])
    have untripped : s.pwr.phase ≠ .tripped := by rcases rising with ⟨h, -⟩ | h <;> simp [h]
    exact (execI3cReset_early soon down untripped).trans (congrArg Host.Outcome.next (State.earlyReset_rising rising 3))
  case portDown =>
    intro g s off
    by_cases late : 1000 < g
    · exact execI3cReset_other (.inr late)
    have soon : g ≤ 1000 := Nat.not_lt.mp late
    have down : s.pwr.running = false := Pwr.not_running (by rcases off with h | h | h <;> simp [h])
    have untripped : s.pwr.phase ≠ .tripped := by rcases off with h | h | h <;> simp [h]
    exact (execI3cReset_early soon down untripped).trans (congrArg Host.Outcome.next (State.earlyReset_down off 3))

/-- Settles O11: an input fault or a trip restarts the device; the port takes an address while it has none. -/
theorem inputAndTrip : Obligations.InputAndTrip := by
  unfold Obligations.InputAndTrip
  refine ⟨?fault, ?inside, ?trip, ?address⟩
  case fault =>
    intro mv us s low brief out on
    have rated : ¬(decide (80000 < mv) || decide (66000 < mv) && decide (100000 < us)) = true := by simp; omega
    have outside : (decide (64000 < mv) && decide (1000 ≤ us) || decide (mv < 38000) && decide (100 ≤ us)) = true := by simpa using out
    exact (if_neg rated).trans ((if_pos outside).trans (if_neg on))
  case inside =>
    intro mv us s low high
    have rated : ¬(decide (80000 < mv) || decide (66000 < mv) && decide (100000 < us)) = true := by simp; omega
    have inside : ¬(decide (64000 < mv) && decide (1000 ≤ us) || decide (mv < 38000) && decide (100 ≤ us)) = true := by simp; omega
    exact (if_neg rated).trans (if_neg inside)
  case trip =>
    intro s running hot
    have trips : s.trips = true := by simpa [State.trips] using hot
    exact if_pos (by simp [running, trips])
  case address =>
    intro d a s up free static
    refine if_pos ?_
    cases d
    · simp [Pwr.i3cUp, up, free]
    · simp [Pwr.i3cUp, up, free, Pwr.i3cStatic, Option.isSome_iff_ne_none, static rfl]

end Sys2Proof.Machine

namespace Sys2Proof.Machine
open Sys2Proof

/-! ## The power capper -/

/-- Level 3 goes one step deeper. -/
theorem Pwr.at_last (p : Pwr) (now : Nat) : p.at 48 now = { p with stepAt := now, level := 3, step := p.step + 1, schedThr := 16 } := rfl

section
variable {s : State}

theorem execCapperRateLower_due (pos : 47 ≤ s.pwr.pos) (above : s.pwr.overAt.isSome = true) (late : s.pwr.stepAt + 10000000 ≤ s.now)
    (idle : s.schedState = 0) (free : s.mem.rcOn = false) (some_ : s.lowerable ≠ []) :
    execCapperRateLower s =
      let t := { s with pwr := { ({ s.pwr with step := if s.pwr.pos = 47 then 15 else s.pwr.step }).at 48 s.now with lowered := true } }
      .next (if s.pwr.pos = 47 then t.capEvent 3 1 else t).capLower :=
  if_pos (by simp [pos, above, late, idle, free, some_])

/-- The step that goes back after 1 ms below the band. -/
theorem execCapperRelease_due {t : Nat} (below : s.pwr.belowAt = some t) (late : t + 1000000 ≤ s.now) (acted : s.pwr.pos ≠ 0) :
    execCapperRelease s =
      let u := { s with pwr := ({ s.pwr with belowAt := some s.now }).at (s.pwr.pos - 1) s.now }
      .next (if s.pwr.pos = 1 then u.capEvent 1 2 else if s.pwr.pos = 33 then u.capEvent 2 2 else if s.pwr.pos = 48 then u.capEvent 3 2 else u) := by
  unfold execCapperRelease
  rw [below]
  exact (if_neg (Nat.not_lt.mpr late)).trans (if_neg acted)

/-- With both levels released the rate goes back. -/
theorem execCapperRelease_rate {t : Nat} (below : s.pwr.belowAt = some t) (late : t + 1000000 ≤ s.now) (released : s.pwr.pos = 0)
    (lowered : s.pwr.lowered = true) (free : s.mem.rcOn = false) (idle : s.schedState = 0) :
    execCapperRelease s = .next (({ s with pwr := { s.pwr with belowAt := some s.now, lowered := false } }).capRate 0) := by
  have may : (s.pwr.lowered && !s.mem.rcOn && decide (s.schedState = 0)) = true := by simp [lowered, free, idle]
  unfold execCapperRelease
  rw [below]
  exact (if_neg (Nat.not_lt.mpr late)).trans ((if_pos released).trans (if_pos may))

end

/-- Settles O27: the position of the capper decides its next step. -/
theorem capperRows : Obligations.CapperRows := by
  unfold Obligations.CapperRows
  refine ⟨?first, ?next, fun s => rfl, ?rate, ?last, ?between, ?level⟩
  case first =>
    intro s pos above late idle free some_
    refine (execCapperRateLower_due pos.ge above late idle free some_).trans ?_
    have wraps : (15 : BitVec 4) + 1 = 0 := by decide
    simp only [if_pos pos, Pwr.at_last, wraps]
  case next =>
    intro s pos above late idle free some_
    have deeper : s.pwr.pos ≠ 47 := by omega
    refine (execCapperRateLower_due (by omega) above late idle free some_).trans ?_
    simp only [if_neg deeper]
    rfl
  case rate =>
    exact fun t s below late released lowered free idle => execCapperRelease_rate below late released lowered free idle
  case last =>
    intro t s below late pos
    refine (execCapperRelease_due below late (by omega)).trans ?_
    simp only [pos]
    rfl
  case between =>
    intro t s below late more notLevel2 notLevel3
    refine (execCapperRelease_due below late (by omega)).trans ?_
    simp only [if_neg (show ¬s.pwr.pos = 1 by omega), if_neg notLevel2, if_neg notLevel3]
  case level =>
    intro t s below late pos
    refine (execCapperRelease_due below late (by omega)).trans ?_
    have notLast : ¬s.pwr.pos = 1 := by omega
    rcases pos with level2 | level3
    · simp only [if_neg notLast, if_pos level2]
    · have deeper : ¬s.pwr.pos = 33 := by omega
      simp only [if_neg notLast, if_neg deeper, if_pos level3]

/-! ## The handshake of a power entry -/

/-- An answer of a unit that is still to accept. -/
theorem execPowerUnitAnswer_asked {u : BitVec 16} {s : State} (asked : s.unitAsked u.toNat = true) (a : UnitAnswer) :
    execPowerUnitAnswer u a s = match a with
      | .accept => .next { s with pwr := { s.pwr with
          answers := tput false s.pwr.answers u.toNat true, delays := tput 0 s.pwr.delays u.toNat 0 } }
      | .delay us => .next { s with pwr := { s.pwr with delays := tput 0 s.pwr.delays u.toNat (s.now + 1000 * us) } }
      | .refuse r => if !reasonOk r then .next s else .next { s with pwr := { s.pwr with refuse := s.pwr.refuse.or (some (u, r)) } } := by
  cases a <;> exact if_neg (by simp [asked])

theorem reasonOk_iff (r : Byte) : reasonOk r = true ↔ 1 ≤ r.toNat ∧ r.toNat ≤ 10 := by simp [reasonOk]

/-- Settles O39: the answers of a unit that is still to accept, by their kind. -/
theorem handshakeRows : Obligations.HandshakeRows := by
  unfold Obligations.HandshakeRows
  refine ⟨fun u s asked => execPowerUnitAnswer_asked asked .accept, fun u us s asked => execPowerUnitAnswer_asked asked (.delay us),
    fun u r s asked first => ?refuse, fun u a s unasked => if_pos (by simp [unasked]), ?again, ?late⟩
  case refuse =>
    refine ⟨fun low high => ?_, fun out => ?_⟩
    · have valid : ¬(!reasonOk r) = true := by simp [(reasonOk_iff r).mpr ⟨low, high⟩]
      refine (execPowerUnitAnswer_asked asked (.refuse r)).trans ((if_neg valid).trans ?_)
      rw [first, Option.none_or]
    · have invalid : (!reasonOk r) = true := by
        rw [Bool.not_eq_true', Bool.eq_false_iff, Ne, reasonOk_iff]
        omega
      exact (execPowerUnitAnswer_asked asked (.refuse r)).trans (if_pos invalid)
  case again =>
    intro u s asked delayed over_
    exact if_pos (by simp [asked, delayed, over_])
  case late =>
    intro u s asked late first
    refine (if_pos (by simp [asked, late])).trans ?_
    rw [first]
    rfl

end Sys2Proof.Machine

namespace Sys2Proof.Machine
open Sys2Proof

/-! ## Sensors, power samples and snapshots -/

section
variable (x : Sensor) (k : Nat) (v : Int) (now : Nat)

theorem Sensor.sampled_peak : (x.sampled k v now).1.peak = x.peakWith k (BitVec.ofInt 16 v) := rfl

theorem Sensor.sampled_warn :
    (x.sampled k v now).1.warn = if (sensorBand k v).1 then true else if (sensorBand k v).2 then false else x.warn := rfl

/-- A record is due at a change of WARN, a second after the last one. -/
theorem Sensor.sampled_due :
    (x.sampled k v now).2 = true ↔ (x.sampled k v now).1.warn ≠ x.warn ∧ ∀ t, x.recAt = some t → t + 1000000000 ≤ now := by
  rw [sampled_warn]
  unfold sampled
  cases x.recAt <;> simp

variable {x k}

theorem Sensor.peakWith_first (v : BitVec 16) (first : x.valid = false) : x.peakWith k v = v := if_pos (by simp [first])

/-- The highest temperature. -/
theorem Sensor.peakWith_temperature (v : BitVec 16) (later : x.valid = true) (temperature : k < 20) :
    (x.peakWith k v).toInt = max x.peak.toInt v.toInt := by
  unfold peakWith
  rw [if_neg (by simp [later]), if_pos temperature]
  split <;> omega

/-- The lowest voltage. -/
theorem Sensor.peakWith_voltage (v : BitVec 16) (later : x.valid = true) (voltage : 20 ≤ k) :
    (x.peakWith k v).toNat = min x.peak.toNat v.toNat := by
  unfold peakWith
  rw [if_neg (by simp [later]), if_neg (Nat.not_lt.mpr voltage)]
  split <;> omega

end

/-- The power registers once a sample of the input power has entered the means. -/
def State.powerSampled (s : State) (w : BitVec 16) : Pwr :=
  let l := w :: s.pwr.samples.take 999
  let p := { s.pwr with samples := l, input := meanOf (l.take 10), input1ms := meanOf l }
  { p with overAt := if p.over then some (p.overAt.getD s.now) else none
           belowAt := if p.under then some (p.belowAt.getD s.now) else none }

theorem execCapperSample_samples {s : State} (released : s.stew.released = true) (w : BitVec 16) :
    execCapperSample w s =
      .next (if (s.powerSampled w).over then { s with pwr := s.powerSampled w }.capUp else { s with pwr := s.powerSampled w }) :=
  if_neg (by simp [released])

theorem execSnapshotLatch_latches {s u : State} (pending : s.cnt.pending = true)
    (latched : u = s.latch (s.cnt.todo.filter fun b => decide (s.cnt.snapFt.toNat ≤ s.unitNs b))) :
    execSnapshotLatch s =
      if u.cnt.todo.isEmpty then .next ({ u with cnt := { u.cnt with
        pending := false, seq := u.cnt.seq + 1, synced := u.keeper.state = 2 || u.keeper.state = 3 } }.wake .snapshot)
      else .next u := by
  subst latched
  exact if_neg (by simp [pending])

/-- The blocks that latch hold the number of the snapshot. -/
theorem State.latch_hdr (s : State) (l : List Nat) (b : Nat) :
    tget 0 (s.latch l).cnt.hdr b = if b ∈ l then s.cnt.seq + 1 else tget 0 s.cnt.hdr b :=
  tget_foldl_tput_each ..

/-- Settles O26: each part of a sample, and of a latch, is read off its definition. -/
theorem sampleRows : Obligations.SampleRows := by
  unfold Obligations.SampleRows
  refine ⟨fun x k v now => ?sensor, fun l s released => if_pos released, ?sleeping, fun w s released => ?power, fun s u pending latched => ?latch,
    fun l s => ?latched⟩
  case sensor =>
    refine ⟨rfl, rfl, x.sampled_peak k v now ▸ Sensor.peakWith_first _, x.sampled_peak k v now ▸ Sensor.peakWith_temperature _,
      x.sampled_peak k v now ▸ Sensor.peakWith_voltage _, fun hot => ?_, fun notHot cool => ?_, fun notHot notCool => ?_, x.sampled_due k v now⟩
    · rw [Sensor.sampled_warn, if_pos hot]
    · rw [Sensor.sampled_warn, notHot, cool]
      rfl
    · rw [Sensor.sampled_warn, notHot, notCool]
      rfl
  case sleeping =>
    intro l s reset ready d3
    exact (if_neg (by simp [reset])).trans (if_pos (by simp [ready, d3]))
  case power =>
    have row : exec (.capperSample w) s = _ := execCapperSample_samples released w
    refine ⟨s.powerSampled w, rfl, rfl, rfl, rfl, rfl, rfl, fun within => ⟨?_, ?_⟩, fun above => ⟨?_, ?_⟩, fun under => ?_, fun notUnder => ?_⟩
    · rw [row, within]
      rfl
    · exact if_neg (Bool.eq_false_iff.mp within)
    · rw [row, above]
      rfl
    · exact if_pos above
    · exact if_pos under
    · exact if_neg (Bool.eq_false_iff.mp notUnder)
  case latch =>
    have row : exec .snapshotLatch s = _ := execSnapshotLatch_latches pending latched
    exact ⟨fun left => by rw [row, if_neg (by simpa using left)], fun gone => by rw [row, if_pos (by simpa using gone)]⟩
  case latched =>
    refine ⟨rfl, rfl, fun b => ?_, s.latch_hdr l⟩
    simp [State.latch]

end Sys2Proof.Machine

namespace Sys2Proof.Machine
open Sys2Proof

/-! ## Known-answer tests and the health of a tile -/

section
variable {s : State} {n : Nat}

/-! ### When a test starts (R499, R500) -/

/-- A tile has no chunk to release when each of its windows that is in use is held by the armed image. -/
theorem State.chunksOf_unheld (held : ∀ w, w < 16 → (s.land (16 * n + w)).v = true → (s.land (16 * n + w)).sched = true) :
    s.chunksOf n false = [] := by
  refine List.filterMap_eq_nil_iff.mpr fun x mem => ?_
  obtain ⟨w, low, rfl⟩ := List.mem_map.mp mem
  refine if_neg fun free => ?_
  simp only [Bool.false_or, Bool.and_eq_true, Bool.not_eq_true'] at free
  obtain ⟨⟨used, unheld⟩, -⟩ := free
  exact absurd (held w (List.mem_range.mp low) used) (Bool.eq_false_iff.mp unheld)

theorem execKatStart_starts {t : Fin 32} (due : (s.tile t.val).kat.due = true) (idle : (s.tile t.val).kat.running = false)
    (alive : s.tileDead t.val = false) (job : (s.tile t.val).running = none) (op : (s.tile t.val).srun = none)
    (waits : (s.tile t.val).swait = []) (open_ : (s.tile t.val).gated = false)
    (held : ∀ w, w < 16 → (s.land (16 * t.val + w)).v = true → (s.land (16 * t.val + w)).sched = true) :
    execKatStart t s = .next (((s.modTile t.val fun x => { x with kat := { x.kat with
      due := false, running := true, paused := false, began := s.ftNs, segAt := s.now, covers := x.heldJobs } }).march t.val).bump
      (tileBlk t.val) 14) := by
  have unreleased : ¬((List.range 16).any fun w => (s.land (16 * t.val + w)).v && !(s.land (16 * t.val + w)).sched) = true := by
    simpa using held
  have noChunks : ¬(!(s.chunksOf t.val false).isEmpty) = true := by simp [State.chunksOf_unheld held]
  refine (if_pos (by simp [due, idle, alive, job, op, waits, open_])).trans ?_
  exact (if_neg noChunks).trans (if_neg unreleased)

/-! ### What a test decides (R502) -/

theorem State.tileFails_kat (s : State) (n : Nat) : ((s.tileFails n).1.tile n).kat =
    { (s.tile n).kat with health := 1, fails := min 3 (if (s.tile n).kat.health = 0 then 1 else (s.tile n).kat.fails + 1)
                          passes := 0, lastFail := s.now } := by
  simp [tileFails]

/-- The third failure of an episode is to disable the tile. -/
theorem State.tileFails_dead (s : State) (n : Nat) :
    (s.tileFails n).2 = true ↔ (s.tile n).kat.health = 1 ∧ 2 ≤ (s.tile n).kat.fails := by
  simp [tileFails]

theorem State.katPass_normal (healthy : (s.tile n).kat.health ≠ 1) : s.katPass n = s := if_pos healthy

/-- A pass of a suspect episode, before the last, counts. -/
theorem State.katPass_counts (suspect : (s.tile n).kat.health = 1) (early : (s.tile n).kat.passes < 63) :
    s.katPass n = s.modTile n fun t => { t with kat := { (s.tile n).kat with passes := (s.tile n).kat.passes + 1 } } := by
  have count : min 64 ((s.tile n).kat.passes + 1) = (s.tile n).kat.passes + 1 := by omega
  have more : ¬(decide ((s.tile n).kat.passes + 1 = 64) && decide ((s.tile n).kat.lastFail + katPeriod ≤ s.now)) = true := by simp; omega
  unfold katPass
  dsimp only
  rw [if_neg (by simp [suspect]), count, if_neg more]

/-! ### An engine fault (R164) -/

/-- A fault during a test is its failure (R514). -/
theorem execEngineFault_test {t : Fin 32} (job : (s.tile t.val).running = none) (op : (s.tile t.val).srun = none)
    (test : (s.tile t.val).kat.running = true) (goes : (s.tile t.val).kat.paused = false) (b : Byte) :
    execEngineFault t b s = .next (((s.logErr { engineFaultRec t.val 0xFFFFFFFF 0 0 b.toNat 0 0 with part := none }).bump
      (tileBlk t.val) 16).katFinish t.val false fun _ => none) := by
  unfold execEngineFault
  dsimp only
  rw [job, op]
  exact if_pos (by simp [test, goes])

/-- A fault ends the running job with ENGINE_FAULT. -/
theorem execEngineFault_job {t : Fin 32} {k : Nat} (job : (s.tile t.val).running = some k) (unmarked : (s.job t.val k).mark = none)
    (healthy : (s.tile t.val).kat.health ≠ 1) (b : Byte) :
    let j := s.job t.val k
    execEngineFault t b s = .next (((((s.logErr (engineFaultRec t.val (jobId t.val k j) (opcAt j.op (j.nstage - 1)) (j.nstage - 1) b.toNat
      j.eng.elem j.part)).bump (tileBlk t.val) 16).tileFails t.val).1.endRun t.val k jcEngine 0 (j.nstage - 1) 0 none).startDue t.val) := by
  intro j
  have lives (r : ErrRec) : (((s.logErr r).bump (tileBlk t.val) 16).tileFails t.val).2 = false := by
    rw [Bool.eq_false_iff, Ne, State.tileFails_dead]
    simp only [State.tile, State.bump_tiles, State.logErr_tiles]
    exact fun suspect => healthy suspect.1
  unfold execEngineFault
  dsimp only
  rw [job]
  dsimp only
  simp only [unmarked, lives, Option.isSome_none, Bool.false_eq_true, if_false, j]

end

/-- Settles O30: when a test is due and starts, what runs between its segments, and what its result decides. -/
theorem testRows : Obligations.TestRows := by
  unfold Obligations.TestRows
  refine ⟨?due, ?suspect, ?starts, fun t s test goes => ⟨_, rfl, if_pos (by simp [test, goes])⟩, fun t s test => if_neg (by simp [test]), ?fail,
    fun t b s job op test goes => execEngineFault_test job op test goes b,
    fun t b k s job unmarked healthy => ⟨_, execEngineFault_job job unmarked healthy b, rfl⟩, ?health⟩
  case due =>
    intro t s released alive undue idle late
    have due : (s.tile t.val).kat.jobs = 256 ∨ (s.tile t.val).kat.lastNs + katPeriod ≤ s.ftNs := late
    exact if_pos (by simpa [released, alive, undue, idle] using due)
  case suspect =>
    intro t s enabled suspect undue idle late
    exact if_pos (by simp [enabled, suspect, undue, idle, katSuspect, late])
  case starts =>
    exact fun t s due idle alive job op waits open_ held => execKatStart_starts due idle alive job op waits open_ held
  case fail =>
    intro t a b c d s test
    have goes : ¬(!(s.tile t.val).kat.running) = true := by simp [test]
    refine ⟨fun passes => (if_neg goes).trans (if_pos (by simp [passes])), fun fails => ?_⟩
    exact ⟨_, (if_neg goes).trans (if_neg (by simp [fails])), fun n => ⟨_, rfl, rfl, rfl, rfl⟩⟩
  case health =>
    intro n s few
    refine ⟨?_, s.tileFails_dead n, State.katPass_normal, State.katPass_counts⟩
    rw [State.tileFails_kat]
    refine ⟨rfl, rfl, rfl, ?_⟩
    dsimp only
    split <;> simp

end Sys2Proof.Machine

namespace Sys2Proof.Machine
open Sys2Proof

/-! ## The steps of a power entry and of a wake -/

/-! ### Abort points (R527) -/

section
variable {s : State} {ap : Nat} {go : State → State}

theorem State.abortPoint_wake (wake : s.pwr.wake = true) : s.abortPoint ap go = s.abandonEntry ap (0, prWake) := by
  simp only [abortPoint, Pwr.abort, wake, if_true]

theorem State.abortPoint_refused {u : BitVec 16 × Byte} (asleep : s.pwr.wake = false) (refused : s.pwr.refuse = some u) :
    s.abortPoint ap go = s.abandonEntry ap u := by
  simp only [abortPoint, Pwr.abort, asleep, refused, Bool.false_eq_true, if_false]

theorem State.abortPoint_goes (asleep : s.pwr.wake = false) (accepted : s.pwr.refuse = none) : s.abortPoint ap go = go s := by
  simp only [abortPoint, Pwr.abort, asleep, accepted, Bool.false_eq_true, if_false]

/-! ### The steps of an entry -/

theorem execPowerEntryStepDone_steps (up : s.coreUp = true) : execPowerEntryStepDone s = .next s.entryStep :=
  congrArg Host.Outcome.next (if_pos up)

theorem State.entryStep_s1 (step : s.pwr.pstep = .s1) :
    s.entryStep = { s with pwr := { s.pwr with refuse := s.pwr.refuse.or (s.entryRefusal s.pwr.target.toNat) } }.abortPoint 1 State.askUnits := by
  simp only [entryStep, step]

theorem State.entryStep_s2 (step : s.pwr.pstep = .s2) :
    s.entryStep = if s.handshaken then s.abortPoint 2 fun s => if s.pwr.target = 1 then s.enterD1 else s.flushStart else s := by
  simp only [entryStep, step]

theorem State.entryStep_s3 (step : s.pwr.pstep = .s3) :
    s.entryStep = if s.flushed then s.hostLeaves.abortPoint 3 State.drainStart else s := by
  simp only [entryStep, step]

theorem State.entryStep_s4 (step : s.pwr.pstep = .s4) : s.entryStep = if s.drained then s.abortPoint 4 State.leaveService else s := by
  simp only [entryStep, step]

theorem State.entryStep_s5 (step : s.pwr.pstep = .s5) : s.entryStep = s.stopPorts := by simp only [entryStep, step]

theorem State.entryStep_s6 (step : s.pwr.pstep = .s6) : s.entryStep = s.entered := by simp only [entryStep, step]

/-- A pending abort ends the handshake. -/
theorem State.handshaken_of_abort (h : s.pwr.abort.isSome = true) : s.handshaken = true := by
  simp only [handshaken, h, Bool.true_or]

theorem State.handshaken_of_wake (wake : s.pwr.wake = true) : s.handshaken = true :=
  handshaken_of_abort (by simp [Pwr.abort, wake])

theorem State.handshaken_of_refused {u : BitVec 16 × Byte} (refused : s.pwr.refuse = some u) : s.handshaken = true :=
  handshaken_of_abort (by unfold Pwr.abort; split <;> simp [refused])

/-! ### Wake events and the steps of a wake (R528) -/

theorem execI3cWake_ready (ready : s.pwr.phase = .ready) : execI3cWake s = .next s.wakeEvent := if_pos ready

theorem State.wakeEvent_d0 (idle : s.pwr.pstep = .none) (d0 : s.pwr.state = 0) : s.wakeEvent = s := by
  simp [wakeEvent, idle, d0]

theorem State.wakeEvent_d1 (idle : s.pwr.pstep = .none) (d1 : s.pwr.state = 1) : s.wakeEvent = s.wakeD1 := by
  simp [wakeEvent, idle, d1]

theorem State.wakeEvent_sleep (idle : s.pwr.pstep = .none) (sleep : s.pwr.state = 2 ∨ s.pwr.state = 3) : s.wakeEvent = s.wakeStart := by
  rcases sleep with d2 | d2r
  · simp [wakeEvent, idle, d2]
  · simp [wakeEvent, idle, d2r]

theorem State.wakeEvent_d3 (idle : s.pwr.pstep = .none) (d3 : s.pwr.state = 4) : s.wakeEvent = s.wakeD3 := by
  simp [wakeEvent, idle, d3]

/-- During an entry a wake event is pending. -/
theorem State.wakeEvent_entry (entry : s.pwr.pstep.entry = true) : s.wakeEvent = { s with pwr := { s.pwr with wake := true } } := by
  unfold wakeEvent
  cases step : s.pwr.pstep with
  | s1 | s2 | s3 | s4 | s5 | s6 => rfl
  | _ =>
    rw [step] at entry
    exact Bool.noConfusion entry

@[simp] theorem State.sleepNow_now (s : State) : s.sleepNow.now = s.now :=
  s.each_same State.now s.stackList (fun s n => s.modStack n fun x => if x.state = 2 then { x with state := 4 } else x) fun _ _ => rfl

/-- D0: the last step of a wake (R528). -/
theorem execWakeStepDone_last (step : s.pwr.pstep = .w6) : ∃ t : State, execWakeStepDone s = .next t ∧ t.pwr.pstep = .none ∧ t.pwr.state = 0
    ∧ t.dram = s.dram ∧ t.stks = s.stks := by
  simp only [execWakeStepDone, step]
  exact ⟨_, rfl, by simp, by simp, by simp, by simp [State.powerEvent]⟩

end

/-- Settles O40: each step ends at its abort point, and each step of a wake leads to the next. -/
theorem powerStepRows : Obligations.PowerStepRows := by
  unfold Obligations.PowerStepRows
  refine ⟨?asks, ?refused1, ?handshake, ?wake2, ?flushed, ?drained, ?ports, ?sleeps, ?d3, ?wakeSleep, ?wakeD3, ?pending, ?rails, ?w2, ?w3, ?w4,
    ?w5, fun s step => execWakeStepDone_last step, ?wake1, ?refused2, ?waits, ?lateWake, ?abandons, ?wakeD1, ?stays, ?rising⟩
  case asks =>
    intro s up step asleep accepted may
    have same : { s.pwr with refuse := none } = s.pwr := by rw [← accepted]
    refine (execPowerEntryStepDone_steps up).trans (congrArg Host.Outcome.next ?_)
    rw [State.entryStep_s1 step, accepted, may, Option.none_or, same]
    exact State.abortPoint_goes asleep accepted
  case refused1 =>
    intro u s up step asleep accepted refused
    refine (execPowerEntryStepDone_steps up).trans (congrArg Host.Outcome.next ?_)
    rw [State.entryStep_s1 step, accepted, refused, Option.none_or]
    exact State.abortPoint_refused asleep rfl
  case wake1 =>
    intro s up step wake
    refine (execPowerEntryStepDone_steps up).trans (congrArg Host.Outcome.next ?_)
    rw [State.entryStep_s1 step]
    exact State.abortPoint_wake wake
  case handshake =>
    intro s up step asleep accepted ended
    refine (execPowerEntryStepDone_steps up).trans (congrArg Host.Outcome.next ?_)
    rw [State.entryStep_s2 step, if_pos ended, State.abortPoint_goes asleep accepted]
  case wake2 =>
    intro s up step wake
    refine (execPowerEntryStepDone_steps up).trans (congrArg Host.Outcome.next ?_)
    rw [State.entryStep_s2 step, if_pos (State.handshaken_of_wake wake), State.abortPoint_wake wake]
    rfl
  case refused2 =>
    intro u s up step asleep refused
    refine (execPowerEntryStepDone_steps up).trans (congrArg Host.Outcome.next ?_)
    rw [State.entryStep_s2 step, if_pos (State.handshaken_of_refused refused), State.abortPoint_refused asleep refused]
  case flushed =>
    intro s up step ended
    have row : exec .powerEntryStepDone s = .next (s.hostLeaves.abortPoint 3 State.drainStart) := by
      refine (execPowerEntryStepDone_steps up).trans (congrArg Host.Outcome.next ?_)
      rw [State.entryStep_s3 step, if_pos ended]
    rw [row]
    refine ⟨fun asleep accepted => ?_, fun wake => ?_, fun u asleep refused => ?_⟩
    · rw [State.abortPoint_goes (by simpa using asleep) (by simpa using accepted)]
    · rw [State.abortPoint_wake (by simpa using wake)]
      rfl
    · rw [State.abortPoint_refused (by simpa using asleep) (by simpa using refused)]
  case drained =>
    intro s up step ended
    have row : exec .powerEntryStepDone s = .next (s.abortPoint 4 State.leaveService) := by
      refine (execPowerEntryStepDone_steps up).trans (congrArg Host.Outcome.next ?_)
      rw [State.entryStep_s4 step, if_pos ended]
    rw [row]
    refine ⟨fun asleep accepted => ⟨_, rfl, ?_⟩, fun wake => ?_, fun u asleep refused => ?_⟩
    · rw [State.abortPoint_goes asleep accepted]
      rfl
    · rw [State.abortPoint_wake wake]
      rfl
    · rw [State.abortPoint_refused asleep refused]
  case waits =>
    intro s up waiting
    refine (execPowerEntryStepDone_steps up).trans (congrArg Host.Outcome.next ?_)
    rcases waiting with ⟨step, more⟩ | ⟨step, more⟩ | ⟨step, more⟩
    · rw [State.entryStep_s2 step, if_neg (Bool.eq_false_iff.mp more)]
    · rw [State.entryStep_s3 step, if_neg (Bool.eq_false_iff.mp more)]
    · rw [State.entryStep_s4 step, if_neg (Bool.eq_false_iff.mp more)]
  case ports =>
    exact fun s up step => (execPowerEntryStepDone_steps up).trans (congrArg Host.Outcome.next (State.entryStep_s5 step))
  case sleeps =>
    intro s up step asleep target
    refine (execPowerEntryStepDone_steps up).trans (congrArg Host.Outcome.next ?_)
    rw [State.entryStep_s6 step]
    simp only [State.entered, target, asleep, Bool.false_eq_true, if_false]
  case d3 =>
    intro s up step asleep target
    refine ⟨s.enterD3, (execPowerEntryStepDone_steps up).trans (congrArg Host.Outcome.next ?_), rfl, rfl, rfl, rfl, rfl, rfl, rfl, rfl, rfl, rfl, rfl⟩
    rw [State.entryStep_s6 step]
    simp only [State.entered, target, asleep, Bool.false_eq_true, if_false, if_true]
  case lateWake =>
    intro s up step wake
    rw [show exec .powerEntryStepDone s = .next s.entered from
      (execPowerEntryStepDone_steps up).trans (congrArg Host.Outcome.next (State.entryStep_s6 step))]
    refine ⟨fun target => ?_, fun target => ?_⟩
    · simp only [State.entered, target, wake, if_false, if_true]
      simp [State.wakeStart, State.sleepNow_now]
    · simp only [State.entered, target, wake, if_true]
  case abandons =>
    intro ap u s
    refine ⟨s.abandoned ap u, ?_, ?_, ?_, ?_, ?_, ?_, s.abandonEntry_eq ap u⟩ <;> simp [Pwr.ended]
  case wakeSleep =>
    exact fun s ready idle sleep => (execI3cWake_ready ready).trans (congrArg Host.Outcome.next (State.wakeEvent_sleep idle sleep))
  case wakeD3 => exact fun s ready idle d3 => (execI3cWake_ready ready).trans (congrArg Host.Outcome.next (State.wakeEvent_d3 idle d3))
  case pending => exact fun s ready entry => (execI3cWake_ready ready).trans (congrArg Host.Outcome.next (State.wakeEvent_entry entry))
  case wakeD1 =>
    intro s ready idle d1
    refine ⟨(execI3cWake_ready ready).trans (congrArg Host.Outcome.next (State.wakeEvent_d1 idle d1)), by simp, by simp [State.wakeD1]⟩
  case stays =>
    rintro s (off | ⟨idle, d0⟩)
    · exact if_neg off
    · by_cases ready : s.pwr.phase = .ready
      · exact (execI3cWake_ready ready).trans (congrArg Host.Outcome.next (State.wakeEvent_d0 idle d0))
      · exact if_neg ready
  case rails =>
    intro s step risen
    simp [exec, execWakeStepDone, step, risen]
  case rising =>
    intro s step fallen
    simp [exec, execWakeStepDone, step, fallen]
  case w2 =>
    intro s step
    simp only [exec, execWakeStepDone, step]
  case w3 =>
    intro s step
    refine ⟨_, rfl, ?_⟩
    simp only [exec, execWakeStepDone, step]
  case w4 =>
    intro s step
    refine ⟨_, rfl, ?_, rfl, rfl⟩
    simp only [exec, execWakeStepDone, step]
  case w5 =>
    intro s step
    simp only [exec, execWakeStepDone, step]

end Sys2Proof.Machine
